-- ==== Sys2Proof/Word.lean ====
section
/-! DEFINITION. The word and byte types, lanes and lane sets, sparse maps and the operand records of commands. -/
namespace Sys2Proof

/-- A 32-bit register or bus doubleword (R438). -/
abbrev Word := BitVec 32
/-- One byte. -/
abbrev Byte := BitVec 8
/-- A byte string, lowest address first (R6: little-endian). -/
abbrev Bytes := List (BitVec 8)
/-- A sparse map: keys strictly rising, and no entry equal to what an unlisted key reads as. -/
abbrev NMap (α : Type) := List (Nat × α)

/-- The three lanes (R4). -/
inductive LaneId where
  | A | B | C
deriving DecidableEq, Repr

/-- A set of lanes, such as the member mask (R40). -/
structure LaneSet where
  a : Bool
  b : Bool
  c : Bool
deriving DecidableEq, Repr

namespace LaneSet
/-- Membership of a lane. -/
def has (m : LaneSet) : LaneId → Bool
  | .A => m.a | .B => m.b | .C => m.c
/-- The set with one lane's bit written. -/
def put (m : LaneSet) (l : LaneId) (v : Bool) : LaneSet :=
  match l with
  | .A => { m with a := v } | .B => { m with b := v } | .C => { m with c := v }
/-- The empty mask. -/
def empty : LaneSet := ⟨false, false, false⟩
/-- All three lanes. -/
def full : LaneSet := ⟨true, true, true⟩
/-- The lanes of the set, lowest letter first. -/
def toList (m : LaneSet) : List LaneId := [LaneId.A, .B, .C].filter m.has
/-- How many lanes are set. -/
def count (m : LaneSet) : Nat := m.toList.length
/-- Bits 0 to 2 for lanes A to C. -/
def bits (m : LaneSet) : Nat := m.a.toNat + 2 * m.b.toNat + 4 * m.c.toNat
end LaneSet

namespace LaneId
/-- 0 lane A, 1 lane B, 2 lane C (Table 02-1). -/
def num : LaneId → Nat
  | .A => 0 | .B => 1 | .C => 2
/-- The lane of a number, for numbers 0 to 2. -/
def ofNum? : Nat → Option LaneId
  | 0 => some .A | 1 => some .B | 2 => some .C | _ => none
/-- The next lane in the order A, B, C, A: the far end of link 0 (R54). -/
def next : LaneId → LaneId
  | .A => .B | .B => .C | .C => .A
/-- The previous lane: the far end of link 1. -/
def prev : LaneId → LaneId
  | .A => .C | .B => .A | .C => .B
end LaneId

/-- What a lane samples at a strobe, before agreement (Table 01-5, first row). -/
structure SlotSample where
  /-- Deviation of the strobe period from 50 µs, in 2.5 ns units of the lane's fabric clock (R24). -/
  dev : Int
  /-- The 24 metering channels, in unclamped 24-bit code units. -/
  mtr : List Int
  /-- The 32 process inputs, in unclamped 16-bit code units. -/
  ain : List Int
  /-- The 64 logic inputs. -/
  din : BitVec 64
  /-- Levels of the 16 pulse inputs (R240). -/
  plevel : BitVec 16
deriving DecidableEq, Repr

/-- The instants of a slot at which a lane acts (Tables 01-5, 01-6 and 02-4): the strobe t0, the close of round 1, the
agreed image at t1 (with the strobe-to-t1 time in 2.5 ns units), and the rest of the slot's work. -/
inductive SlotPhase where
  | strobe (x : SlotSample)
  | round1
  | image (lat : Nat)
  | work
deriving DecidableEq, Repr

/-- A host request to BAR0 or BAR2 (R436 to R440): byte offset of its first doubleword, length in doublewords, first
and last byte enables, and the doublewords a write carries. -/
structure HostReq where
  bar2 : Bool
  addr : Nat
  dws : Nat
  fbe : BitVec 4
  lbe : BitVec 4
  data : List Word
deriving DecidableEq, Repr

/-- How the endpoint completed the last read (R427, R435, R444). -/
inductive Completion where
  | none
  | success (data : List Word)
  | abort
  | unsupported
deriving DecidableEq, Repr

/-- Where an ECC error is found (R382, Table 13-1). -/
inductive EccSite where
  | sram | dram | mram | registers | tile
deriving DecidableEq, Repr

/-- What an RTD channel senses in a window (R236): an open or shorted sensor, or the ratio of its resistance to the
reference as a fraction. -/
inductive RtdSense where
  | opened
  | shorted
  | ratio (num den : Nat)
deriving DecidableEq, Repr

/-- What an Announce says of a foreign master (R288). -/
structure Announce where
  ident : BitVec 64
  srcPort : Nat
  prio1 : Nat
  cls : Nat
  acc : Nat
  var : Nat
  prio2 : Nat
  gm : BitVec 64
  steps : Nat
deriving DecidableEq, Repr

/-- What one evaluation cycle of the island samples of a channel (R366, step 1). -/
structure ChannelSample where
  /-- 16 MHz samples for which SSREQn has stayed low, test pulses not counted (R358). -/
  low : Nat
  /-- Rising edges of SSPDn in the last W (R367). -/
  edges : Nat
  hsb : Bool
  lsb : Bool
deriving DecidableEq, Repr

end Sys2Proof
end

