-- ==== Sys2Proof/Syntax.lean ====
section
/-! DEFINITION. The commands of the device: one constructor for each row of spec/opcode_table.json. -/
namespace Sys2Proof

/-- A command. The lane operand names the lane in which the event occurs; every other operand is what the event brings
from outside the state. The comment of each constructor names its rule of spec/. -/
inductive Instr where
  /-- SLOT_STROBE, R22: The arbiter issues a slot strobe every 1250 periods of its crystal, carrying the member mask, the solve word and status words. -/
  | slotStrobe
  /-- LANE_SLOT, R27: A lane receives a strobe, closes its input set and runs the slot's work in the order of Table 01-5. -/
  | laneSlot (lane : LaneId) (phase : SlotPhase)
  /-- STROBE_LOST, R25: No strobe arrives within 100 µs, so the lane sets STROBELOST and stops starting slots. -/
  | strobeLost (lane : LaneId)
  /-- STROBE_RESUMED, R25: Strobes resume; the lane does not compute the missed slots and is excluded on disagreement. -/
  | strobeResumed (lane : LaneId) (x : SlotSample)
  /-- ARBITER_COMPARATOR_TRIP, R16: The arbiter's lockstep comparator mismatches; the arbiter drives the voted outputs to their defaults, asserts ARB_FAULT_N and sends strobes carrying ARBFAULT. -/
  | arbiterComparatorTrip
  /-- CLOCK_MONITOR_FAIL, R38: XTALOK or a PLL lock bit falls while the lane runs, and the failure is reported at the next roll call. -/
  | clockMonitorFail (lane : LaneId) (locks : BitVec 7)
  /-- ROUND1_RECEIVE, R44: A lane receives another lane's round-1 message over a cross-lane link. -/
  | round1Receive (lane : LaneId) (link1 : Bool) (crcOk : Bool) (msg : Bytes)
  /-- ECHO_RECEIVE, R44: A lane receives a round-2 echo carrying the third lane's round-1 message. -/
  | echoReceive (lane : LaneId) (link1 : Bool) (crcOk : Bool) (sender : LaneId) (msgs : List Bytes)
  /-- ROUND2_CLOSE, R46: At the close of round 2 the lane decides each source's set, counting missing and equivocating sets. -/
  | round2Close (lane : LaneId)
  /-- XACT_AUTHENTICATE, R42: XACT authenticates a queued frame when its entry fits the frame area, holding the queue otherwise. -/
  | xactAuthenticate (lane : LaneId)
  /-- XLNK_LINK_DOWN, R55: A link is marked down after 2 slots without a valid frame or 8 CRC errors within 1000 slots. -/
  | xlnkLinkDown (lane : LaneId) (link1 : Bool)
  /-- XLNK_LINK_UP, R55: A link is marked up after 1000 consecutive error-free slots. -/
  | xlnkLinkUp (lane : LaneId) (link1 : Bool)
  /-- OUTPUT_FRAME, R59: The arbiter receives a lane's output frame and passes the value at the second matching frame. -/
  | outputFrame (lane : LaneId) (frame : BitVec 64)
  /-- OUTPUT_SLOT_CLOSE, R61: At t0 + 45 µs the arbiter closes the output slot and judges each lane's disagreement. -/
  | outputSlotClose
  /-- VPO_QUEUE_PULSE_START, R61: The arbiter starts the head pulse of a VPO queue once the gap after the previous pulse has passed. -/
  | vpoQueuePulseStart (out : Nat)
  /-- VPO_QUEUE_PULSE_END, R61: A VPO output falls w slot strobes after it rose. -/
  | vpoQueuePulseEnd (out : Nat)
  /-- VOTED_READ, R64: A voted-view read goes to every lane taking part and returns the 2-of-3 value, setting MISMATCH on difference. -/
  | votedRead (req : HostReq) (fab : Nat)
  /-- VOTED_WRITE, R66: A voted-view write is delivered to every lane taking part for application at step 1 of the next slot. -/
  | votedWrite (req : HostReq)
  /-- LANE_VIEW_WRITE, R67: A lane-view write takes effect in that lane at once. -/
  | laneViewWrite (req : HostReq)
  /-- COMMIT_APPLY, R319: At the commit slot a staged set is rechecked, clamped and applied together, or refused whole. -/
  | commitApply (lane : LaneId)
  /-- MODEL_CHECK_DONE, R103: The model-load check ends, passing to ORDER or refusing. -/
  | modelCheckDone (lane : LaneId)
  /-- MODEL_ORDER_DONE, R106: Ordering, symbolic factorisation and signatures complete, and the load reaches READY. -/
  | modelOrderDone (lane : LaneId)
  /-- MODEL_LOAD_LATE, R105: A lane not at READY by slot c + 40,000 reports an uncorrectable error. -/
  | modelLoadLate (lane : LaneId)
  /-- SNAPSHOT_SLOT, R121: A snapshot slot begins a solve: assembly, effective mode, round budget and warm start are decided. -/
  | snapshotSlot (lane : LaneId)
  /-- HAMPER_COMPLETE, R102: A hamper's last record is written and SOLV may start it. -/
  | hamperComplete (lane : LaneId)
  /-- FACTORISATION_DONE, R118: The network stage completes the LDLᵀ factorisation of K, with pivot regularisation. -/
  | factorisationDone (lane : LaneId)
  /-- COUPLING_ROUND_DONE, R114: A coupling round completes, updating duals and residuals and possibly ending the solve. -/
  | couplingRoundDone (lane : LaneId)
  /-- TILE_RETIRE, R145: A tile retires on an ECC, lockstep or self-test failure, and its record is recomputed elsewhere. -/
  | tileRetire (lane : LaneId) (tile : Nat)
  /-- STOP_SLOT, R131: At the stop slot each lane still computing abandons its factorisation or round. -/
  | stopSlot (lane : LaneId)
  /-- ROUND_FETCH_DONE, R133: The fetch of the published round from the source lane completes. -/
  | roundFetchDone (lane : LaneId)
  /-- PUBLICATION, R135: At step 4 of slot P every lane publishes round r, its trajectories and its set-point frames. -/
  | publication (lane : LaneId)
  /-- FACTOR_CATCHUP_DONE, R136: A lane finishes recomputing the new factor in the background. -/
  | factorCatchupDone (lane : LaneId)
  /-- SOLVE_CANCEL, R138: CANCEL in SOLV_CMD ends the solve in progress with status CANCELLED. -/
  | solveCancel (lane : LaneId)
  /-- SOLVE_NOW, R138: SOLVENOW makes the applying slot a snapshot slot, or is ignored and counted. -/
  | solveNow (lane : LaneId)
  /-- BANK_SWAP_LOOP, R167: A swap request for one loop sets SWAPPEND. -/
  | bankSwapLoop (lane : LaneId) (loop : Nat)
  /-- BANK_SWAP_GROUP, R167: A swap request for every enabled loop of a group sets SWAPPEND. -/
  | bankSwapGroup (lane : LaneId) (group : Nat)
  /-- BANK_SWAP_APPLY, R167: A pending swap toggles BANK at step 5 of the loop's next due slot. -/
  | bankSwapApply (lane : LaneId) (loop : Nat)
  /-- LOOP_RESET, R164: RESET in LENG_LOOPCMD zeroes a loop's section states. -/
  | loopReset (lane : LaneId) (loop : Nat)
  /-- TRACE_ARM, R172: ARM empties a trace ring and enters ARMED. -/
  | traceArm (lane : LaneId) (ch : Nat)
  /-- TRACE_STOP, R172: STOP puts a trace channel into IDLE and keeps its contents. -/
  | traceStop (lane : LaneId) (ch : Nat)
  /-- TRACE_FORCE, R172: FORCE triggers an armed channel at its next sample. -/
  | traceForce (lane : LaneId) (ch : Nat)
  /-- LOGIC_CYCLE_START, R174: A logic cycle begins: the previous output image is published, inputs are captured and forced, and execution starts. -/
  | logicCycleStart (lane : LaneId)
  /-- LD, R180: ACC := operand. -/
  | seqLd (lane : LaneId) (area : Nat) (addr : Nat)
  /-- LDN, R180: ACC := not operand. -/
  | seqLdn (lane : LaneId) (area : Nat) (addr : Nat)
  /-- AND, R180: ACC := ACC and operand. -/
  | seqAnd (lane : LaneId) (area : Nat) (addr : Nat)
  /-- ANDN, R180: ACC := ACC and not operand. -/
  | seqAndn (lane : LaneId) (area : Nat) (addr : Nat)
  /-- OR, R180: ACC := ACC or operand. -/
  | seqOr (lane : LaneId) (area : Nat) (addr : Nat)
  /-- ORN, R180: ACC := ACC or not operand. -/
  | seqOrn (lane : LaneId) (area : Nat) (addr : Nat)
  /-- XOR, R180: ACC := ACC xor operand. -/
  | seqXor (lane : LaneId) (area : Nat) (addr : Nat)
  /-- ST, R180: Operand := ACC. -/
  | seqSt (lane : LaneId) (area : Nat) (addr : Nat)
  /-- STN, R180: Operand := not ACC. -/
  | seqStn (lane : LaneId) (area : Nat) (addr : Nat)
  /-- SET, R180: If ACC, operand := 1. -/
  | seqSet (lane : LaneId) (area : Nat) (addr : Nat)
  /-- RST, R180: If ACC, operand := 0. -/
  | seqRst (lane : LaneId) (area : Nat) (addr : Nat)
  /-- AND_PAREN, R182: Push (ACC, AND) and set ACC := 1. -/
  | seqAndParen (lane : LaneId)
  /-- OR_PAREN, R182: Push (ACC, OR) and set ACC := 0. -/
  | seqOrParen (lane : LaneId)
  /-- CLOSE_PAREN, R182: Pop (a, f) and set ACC := a f ACC. -/
  | seqCloseParen (lane : LaneId)
  /-- TON, R187: Evaluate an on-delay timer on ACC and load its Q. -/
  | seqTon (lane : LaneId) (n : Nat)
  /-- TOF, R187: Evaluate an off-delay timer on ACC and load its Q. -/
  | seqTof (lane : LaneId) (n : Nat)
  /-- TP, R187: Evaluate a pulse timer on ACC and load its Q. -/
  | seqTp (lane : LaneId) (n : Nat)
  /-- CU, R188: Count up on a rising edge of ACC and load QU. -/
  | seqCu (lane : LaneId) (n : Nat)
  /-- CD, R188: Count down on a rising edge of ACC and load QD. -/
  | seqCd (lane : LaneId) (n : Nat)
  /-- CR, R188: Reset the counter while ACC is 1. -/
  | seqCr (lane : LaneId) (n : Nat)
  /-- RISE, R190: Rising-edge detection on ACC. -/
  | seqRise (lane : LaneId) (n : Nat)
  /-- FALL, R190: Falling-edge detection on ACC. -/
  | seqFall (lane : LaneId) (n : Nat)
  /-- LW, R180: WACC := word operand. -/
  | seqLw (lane : LaneId) (area : Nat) (addr : Nat)
  /-- SW, R180: Word operand := WACC. -/
  | seqSw (lane : LaneId) (area : Nat) (addr : Nat)
  /-- SUBW, R180: WACC := WACC − operand, saturated. -/
  | seqSubw (lane : LaneId) (area : Nat) (addr : Nat)
  /-- ABSW, R180: WACC := |WACC|, saturated. -/
  | seqAbsw (lane : LaneId)
  /-- CEQ, R180: ACC := (WACC = operand). -/
  | seqCeq (lane : LaneId) (area : Nat) (addr : Nat)
  /-- CNE, R180: ACC := (WACC ≠ operand). -/
  | seqCne (lane : LaneId) (area : Nat) (addr : Nat)
  /-- CLT, R180: ACC := (WACC < operand). -/
  | seqClt (lane : LaneId) (area : Nat) (addr : Nat)
  /-- CGT, R180: ACC := (WACC > operand). -/
  | seqCgt (lane : LaneId) (area : Nat) (addr : Nat)
  /-- CLE, R180: ACC := (WACC ≤ operand). -/
  | seqCle (lane : LaneId) (area : Nat) (addr : Nat)
  /-- CGE, R180: ACC := (WACC ≥ operand). -/
  | seqCge (lane : LaneId) (area : Nat) (addr : Nat)
  /-- JMP, R181: Continue at the forward target. -/
  | seqJmp (lane : LaneId) (target : Nat)
  /-- JMPC, R181: If ACC, continue at the forward target. -/
  | seqJmpc (lane : LaneId) (target : Nat)
  /-- END, R183: End execution of the cycle. -/
  | seqEnd (lane : LaneId)
  /-- WATCHDOG_STOP, R195: The cycle cost would exceed the budget, so the sequencer stops before the next instruction. -/
  | watchdogStop (lane : LaneId)
  /-- LOGIC_EXEC_TIMEOUT, R176: Execution has not ended by the strobe of slot c + L; the lane publishes nothing and reports an uncorrectable error. -/
  | logicExecTimeout (lane : LaneId)
  /-- RESTART_RESUME, R197: A RESUME restart begins a new cycle, keeping state and shifting timer starts. -/
  | restartResume (lane : LaneId)
  /-- RESTART_COLD, R197: A COLD restart begins a new cycle with flags, counters, edges, outputs and timers cleared. -/
  | restartCold (lane : LaneId)
  /-- LOGIC_IMAGE_CHECK_DONE, R192: The load check of a committed logic image ends, making it pending or refusing it. -/
  | logicImageCheckDone (lane : LaneId)
  /-- LOGIC_IMAGE_SWAP, R193: A pending image swaps in at the first cycle start at or after commit slot + 100, carrying state across. -/
  | logicImageSwap (lane : LaneId)
  /-- LOGIC_CHECK_LATE, R193: A lane whose image check has not ended by the swap slot reports an uncorrectable error. -/
  | logicCheckLate (lane : LaneId)
  /-- RETAIN_WRITE, R203: Each RETAINPER of logic time a retain record is written to MRAM. -/
  | retainWrite (lane : LaneId)
  /-- ZC_TIMEOUT, R213: No crossing within ZCTIMEOUT puts the feeder into NOZC mode and closes a timeout window. -/
  | zcTimeout (lane : LaneId) (feeder : Nat)
  /-- NOMINAL_WINDOW_CLOSE, R213: A nominal window of P_nom closes in NOZC mode. -/
  | nominalWindowClose (lane : LaneId) (feeder : Nat)
  /-- MTR_LATCH, R227: A feeder that has reached LATCHN cycles writes a latch record. -/
  | mtrLatch (lane : LaneId) (feeder : Nat)
  /-- RTD_CONVERSION, R235: An RTD 100 ms window ends and yields a conversion result. -/
  | rtdConversion (lane : LaneId) (ch : Nat) (x : RtdSense)
  /-- FLOW_EDGE, R239: A debounced rising edge on a pulse input is counted or timed. -/
  | flowEdge (lane : LaneId) (n : Nat) (lowNs : Nat) (highNs : Nat) (since : Nat) (level : Bool)
  /-- FREQ_TIMEOUT, R239: No edge within FREQTO sets the reported period to 0. -/
  | freqTimeout (lane : LaneId) (n : Nat)
  /-- THM_LATCH, R248: A circuit latches at a LATCHN boundary of the agreed time base. -/
  | thmLatch (lane : LaneId) (c : Nat)
  /-- TOTALS_WRITE, R251: A totals record write starts after a latch slot, or after the previous write ends. -/
  | totalsWrite (lane : LaneId)
  /-- TOTALS_WRITE_DONE, R251: A totals record write completes with its CRC. -/
  | totalsWriteDone (lane : LaneId)
  /-- VPO_PULSE_START, R258: THM starts an owed pulse after the gap and sends a VPO frame with width w. -/
  | vpoPulseStart (lane : LaneId) (out : Nat)
  /-- VPO_PULSE_WIDTH_END, R259: A pulse's width ends and the pulse leaves the owed count. -/
  | vpoPulseWidthEnd (lane : LaneId) (out : Nat)
  /-- POWER_FAIL_N_FALL, R252: POWER_FAIL_N falls; the lane trips, freezes metering and writes its flask. -/
  | powerFailNFall (lane : LaneId)
  /-- INPUT_MONITOR_TRIP, R423: A monitored rail stays below its warning threshold for 1 µs and the lane trips. -/
  | inputMonitorTrip (lane : LaneId)
  /-- FLASK_WRITE_DONE, R252: The flask write completes with its CRC after a trip. -/
  | flaskWriteDone (lane : LaneId)
  /-- FLASK_MERGE, R254: The agreed flask is merged register by register at the metering instant of slot a + 1. -/
  | flaskMerge (lane : LaneId)
  /-- MERGED_RECORD_DONE, R254: The merged totals record completes, the flask is cleared and TOTALS reads 1. -/
  | mergedRecordDone (lane : LaneId)
  /-- ETH_FRAME_RECEIVE, R264: A port receives an Ethernet frame and filters it by FCS, size, VLAN and IPv6 rules. -/
  | ethFrameReceive (lane : LaneId) (port : Nat) (fab : Nat) (fcsOk : Bool) (frame : Bytes)
  /-- TX_FRAME_START, R269: The highest open queue's head frame starts transmission when it fits the gate window. -/
  | txFrameStart (lane : LaneId) (port : Nat) (fab : Nat)
  /-- GATE_ENTRY_END, R267: A gate-list entry interval expires and the next entry's gate states apply. -/
  | gateEntryEnd (lane : LaneId) (port : Nat) (fab : Nat)
  /-- GATE_LIST_CHANGE, R268: A written gate list becomes operational at its first cycle start after GATECHANGE. -/
  | gateListChange (lane : LaneId) (port : Nat) (fab : Nat)
  /-- PORT_LINK_UP, R271: A port's link comes up and duplicate address detection starts. -/
  | portLinkUp (lane : LaneId) (port : Nat) (mode : Nat)
  /-- PORT_LINK_DOWN, R261: A port's link goes down. -/
  | portLinkDown (lane : LaneId) (port : Nat) (fab : Nat)
  /-- DAD_COMPLETE, R271: Duplicate address detection ends after 1 s, validating or failing an address. -/
  | dadComplete (lane : LaneId) (port : Nat) (k : Nat) (conflict : Bool)
  /-- NEIGHBOR_SOLICITATION, R273: A Neighbor Solicitation for an own address is answered. -/
  | neighborSolicitation (lane : LaneId) (port : Nat) (src : BitVec 128) (target : BitVec 128) (mac : BitVec 48)
  /-- NEIGHBOR_ADVERTISEMENT, R273: A Neighbor Advertisement updates the neighbour cache. -/
  | neighborAdvertisement (lane : LaneId) (port : Nat) (target : BitVec 128) (mac : BitVec 48)
  /-- NEIGHBOR_ENTRY_STALE, R273: A neighbour entry becomes stale 30 s after confirmation. -/
  | neighborEntryStale (lane : LaneId) (port : Nat) (addr : BitVec 128)
  /-- ROUTER_ADVERTISEMENT, R273: A Router Advertisement is counted and ignored. -/
  | routerAdvertisement (lane : LaneId) (port : Nat)
  /-- REDIRECT, R273: A Redirect is counted and ignored. -/
  | redirect (lane : LaneId) (port : Nat)
  /-- ECHO_REQUEST, R274: An ICMPv6 Echo Request is answered within the size and rate limits. -/
  | echoRequest (lane : LaneId) (port : Nat) (src : BitVec 128) (dst : BitVec 128) (head : BitVec 32) (data : Bytes)
  /-- MLD_QUERY, R275: An MLD query is answered with MLDv2 reports. -/
  | mldQuery (lane : LaneId) (port : Nat)
  /-- SUBSTATION_REPORT, R278: XACT checks a substation frame for format, key generation and tag. -/
  | substationReport (lane : LaneId)
  /-- LANE_STATISTICS, R283: Once per second the lane places its drop counts in a kind-0x03 entry. -/
  | laneStatistics (lane : LaneId)
  /-- SYNC_RECEIVE, R295: A Sync from the parent yields an offset that the servo filters and acts on. -/
  | syncReceive (lane : LaneId) (port : Nat) (fab : Nat) (ident : BitVec 64) (twoStep : Bool) (seq : Nat) (t1 : Int) (corr : Int)
  /-- FOLLOW_UP_RECEIVE, R293: A Follow_Up from a two-step parent completes an offset measurement. -/
  | followUpReceive (lane : LaneId) (port : Nat) (fab : Nat) (ident : BitVec 64) (seq : Nat) (t1 : Int) (corr : Int)
  /-- DELAY_REQ_RECEIVE, R290: As master the port answers a Delay_Req with a Delay_Resp. -/
  | delayReqReceive (lane : LaneId) (port : Nat) (fab : Nat) (ident : BitVec 64) (srcPort : Nat) (seq : Nat) (corr : Int)
  /-- DELAY_RESP_RECEIVE, R293: A Delay_Resp updates the filtered mean path delay. -/
  | delayRespReceive (lane : LaneId) (port : Nat) (ident : BitVec 64) (seq : Nat) (t4 : Int) (corr : Int)
  /-- PDELAY_REQ_RECEIVE, R290: A Pdelay_Req is answered with a one-step Pdelay_Resp. -/
  | pdelayReqReceive (lane : LaneId) (port : Nat) (fab : Nat) (ident : BitVec 64) (srcPort : Nat) (seq : Nat) (corr : Int)
  /-- PDELAY_RESP_RECEIVE, R288: A Pdelay_Resp completes a peer-delay measurement. -/
  | pdelayRespReceive (lane : LaneId) (port : Nat) (fab : Nat) (seq : Nat) (corr : Int)
  /-- ANNOUNCE_RECEIVE, R288: An Announce enters the best master clock algorithm. -/
  | announceReceive (lane : LaneId) (port : Nat) (fab : Nat) (a : Announce)
  /-- SYNC_TRANSMIT, R290: As master the port sends a one-step Sync at its sync interval. -/
  | syncTransmit (lane : LaneId) (port : Nat)
  /-- ANNOUNCE_TRANSMIT, R288: The port sends an Announce at its announce interval. -/
  | announceTransmit (lane : LaneId) (port : Nat)
  /-- DELAY_REQ_TRANSMIT, R290: As slave the port sends a Delay_Req and keeps t3. -/
  | delayReqTransmit (lane : LaneId) (port : Nat)
  /-- PDELAY_REQ_TRANSMIT, R290: The port sends a Pdelay_Req and keeps t1. -/
  | pdelayReqTransmit (lane : LaneId) (port : Nat)
  /-- SYNC_TIMEOUT, R296: No Sync for 4 intervals takes the servo out of lock into holdover. -/
  | syncTimeout (lane : LaneId) (port : Nat) (fab : Nat)
  /-- ANNOUNCE_RECEIPT_TIMEOUT, R296: The announce receipt timeout expires and the servo leaves lock. -/
  | announceReceiptTimeout (lane : LaneId) (port : Nat) (fab : Nat)
  /-- WAYMARK_OUTPUT_RISE, R298: A periodic waymark output rises at START + k × PERIOD. -/
  | waymarkOutputRise (lane : LaneId) (pin : Nat) (fab : Nat)
  /-- WAYMARK_OUTPUT_FALL, R298: A waymark output falls WIDTH after it rose. -/
  | waymarkOutputFall (lane : LaneId) (pin : Nat) (fab : Nat)
  /-- WAYMARK_EVENT, R300: A configured edge on a waymark input is stamped into the FIFO. -/
  | waymarkEvent (lane : LaneId) (pin : Nat) (fab : Nat) (falling : Bool)
  /-- WAYMARK_EVENT_POP, R300: A read of TIME_EVHDR removes the oldest stamp and latches it. -/
  | waymarkEventPop (lane : LaneId)
  /-- TIME_CLOCK_READ, R284: A read of TIME_CLKNS latches the seconds and fraction from the same fabric clock. -/
  | timeClockRead (lane : LaneId) (fab : Nat)
  /-- AFESH_MESSAGE, R312: XACT checks a received Afesh message for format, session, epoch and tag. -/
  | afeshMessage (lane : LaneId)
  /-- READ, R316: The READ transaction returns a subindex value or its descriptor. -/
  | txRead (lane : LaneId)
  /-- WRITE, R317: The WRITE transaction is executed as a set of one field at the commit slot. -/
  | txWrite (lane : LaneId)
  /-- WRITE_STAGED, R317: The WRITE_STAGED transaction adds a checked field to the session's staged set. -/
  | txWriteStaged (lane : LaneId)
  /-- COMMIT, R319: The COMMIT transaction applies the staged set at the commit slot. -/
  | txCommit (lane : LaneId)
  /-- ABORT, R318: The ABORT transaction discards the staged set. -/
  | txAbort (lane : LaneId)
  /-- SUBSCRIBE, R324: The SUBSCRIBE transaction creates a periodic or on-change subscription. -/
  | txSubscribe (lane : LaneId)
  /-- UNSUBSCRIBE, R324: The UNSUBSCRIBE transaction removes one subscription or all of them. -/
  | txUnsubscribe (lane : LaneId)
  /-- SEGMENT_READ, R327: The SEGMENT_READ transaction snapshots at offset 0 and returns segments of the snapshot. -/
  | txSegmentRead (lane : LaneId)
  /-- SEGMENT_WRITE, R327: The SEGMENT_WRITE transaction accumulates contiguous segments into a staged value. -/
  | txSegmentWrite (lane : LaneId)
  /-- ECHO, R315: The ECHO transaction returns its bytes. -/
  | txEcho (lane : LaneId)
  /-- ENROL, R345: The ENROL transaction queues a 200-slot ECDH enrolment of a leaf key. -/
  | txEnrol (lane : LaneId)
  /-- ENROL_COMPLETE, R345: After 200 slots the ENROL response with the wrapped leaf is queued. -/
  | enrolComplete (lane : LaneId)
  /-- STAGED_SET_EXPIRE, R318: A staged set idle beyond STAGEIDLE is discarded, with EVENT STAGEEXPIRED. -/
  | stagedSetExpire (lane : LaneId) (sess : Nat)
  /-- SEGMENT_READ_EXPIRE, R327: A read snapshot is released after 60 s without a SEGMENT_READ. -/
  | segmentReadExpire (lane : LaneId) (sess : Nat)
  /-- SEGMENT_WRITE_EXPIRE, R327: A write transfer idle for 60 s is discarded. -/
  | segmentWriteExpire (lane : LaneId) (sess : Nat)
  /-- EPOCH_MESSAGE_LIMIT, R308: 2³¹ messages within an epoch advance the session's epoch. -/
  | epochMessageLimit (lane : LaneId) (sess : Nat)
  /-- SUBSCRIPTION_DUE, R324: A subscription falls due by period or by change of value. -/
  | subscriptionDue (lane : LaneId) (sess : Nat)
  /-- MAILBOX_D2H_COPY, R310: The arbiter receives a lane's copy of a device-to-host message and places it on a second matching copy. -/
  | mailboxD2hCopy (lane : LaneId)
  /-- MAILBOX_D2H_TIMEOUT, R311: No matching copy within 1 ms discards the message. -/
  | mailboxD2hTimeout
  /-- KEY_DERIVE, R338: The host DERIVE job loads a key along the selected path. -/
  | keyDerive (lane : LaneId)
  /-- KEY_CRYPT, R338: The host CRYPT job computes a CMAC over KEY_DATA. -/
  | keyCrypt (lane : LaneId) (len : Nat)
  /-- KEY_CLEAR, R338: The host CLEAR job clears the key register. -/
  | keyClear (lane : LaneId)
  /-- KEY_KCV, R338: The host KCV job returns a key check value. -/
  | keyKcv (lane : LaneId)
  /-- RETAG_DONE, R350: A retag ends after new records are written, the generation is stored and the old records are released. -/
  | retagDone (lane : LaneId)
  /-- TAMPER_EVENT, R351: TAMPER_N is low after its 10 ms filter; the event is recorded and the active state is signalled. -/
  | tamperEvent
  /-- TAMPER_INACTIVE, R353: TAMPER_N returns inactive, and refused jobs and suspended retags resume. -/
  | tamperInactive
  /-- TAMPER_LOG_CLEAR, R351: CLEARLOG in ARB_TAMPACK empties the acted-on tamper entries. -/
  | tamperLogClear
  /-- EVALUATION_CYCLE, R366: Every 250 µs the island samples inputs, runs diagnostics, evaluates requests and restarts and drives the gates. -/
  | evaluationCycle (samples : List ChannelSample)
  /-- STOP_WORD, R359: The island receives a voted stop-request word with sequence number and CRC. -/
  | stopWord (crcOk : Bool)
  /-- STOP_WORD_LOSS, R360: No valid word for 1 ms marks the voted word lost. -/
  | stopWordLoss
  /-- CONFIG_CONFIRM, R363: The island receives a configuration block and CONFIRM, locking or rejecting it by CRC. -/
  | configConfirm
  /-- SWITCH_TEST, R372: An off-pulse test opens one switch for 200 µs and checks its readback. -/
  | switchTest (ch : Nat) (fell : Bool) (rose : Bool)
  /-- TEST_PULSE, R372: STP0 or STP1 goes low for 250 µs every 10 ms. -/
  | testPulse (src : Nat) (high : BitVec 16) (seen : BitVec 16)
  /-- CLOCK_CHECK, R372: Each 1 ms the island oscillator is checked against the check oscillator. -/
  | clockCheck (ppm : Int)
  /-- RAM_MARCH, R372: A background RAM march test completes. -/
  | ramMarch (ok : Bool)
  /-- VDD_SAFE_FAULT, R372: VDD_SAFE leaves its window for 10 µs, causing an island fault. -/
  | vddSafeFault (mv : Nat)
  /-- CYCLE_WATCHDOG, R372: The evaluation-cycle watchdog expires at 300 µs, causing an island fault. -/
  | cycleWatchdog (us : Nat)
  /-- SRESET_RISE, R374: A filtered rising edge of SRESET_N ends a low; a valid pulse restarts every RESTARTABLE channel. -/
  | sresetRise (us : Nat) (samples : List ChannelSample)
  /-- SRESET_STUCK, R375: A low of 3 s sets RESETSTUCK and disarms the input. -/
  | sresetStuck
  /-- SRESET_ARM, R373: SRESET_N held high for 1 s becomes armed. -/
  | sresetArm
  /-- ISLAND_POWER_ON, R377: VDD_SAFE power-on resets the island to UNCONFIG with its gates off. -/
  | islandPowerOn
  /-- HOSTREQ_WRITE, R380: A write of SAFE_HOSTREQ sets or withdraws host stop requests. -/
  | hostreqWrite (req : HostReq)
  /-- ROLL_CALL, R381: Every 20 slots the arbiter polls the lanes, scores them, excludes and grants rejoins. -/
  | rollCall (verdict : Bool)
  /-- ROLL_CALL_REPORT, R382: A lane's 32-byte roll-call report arrives at the arbiter. -/
  | rollCallReport (lane : LaneId) (temp : Int) (crcOk : Bool)
  /-- REPORT_TIMEOUT, R383: A report not received within 10 µs of the poll counts as missed. -/
  | reportTimeout (lane : LaneId)
  /-- SNAP_ROLL_CALL_DECISION, R389: After the snap reports the arbiter excludes one lane or both. -/
  | snapRollCallDecision
  /-- SELFTEST_DONE, R392: An excluded lane's self-test ends in WAIT or HALTED. -/
  | selftestDone (lane : LaneId) (item : Nat)
  /-- BULK_COPY_DONE, R395: The bulk rucksack copy completes. -/
  | bulkCopyDone
  /-- DRAM_PART_DONE, R395: The copy of staged sets, transfers and snapshots completes. -/
  | dramPartDone
  /-- DELTA_PASS, R395: A delta pass sends the blocks marked since the previous pass began. -/
  | deltaPass (marked : Nat)
  /-- HANDOVER_SLOT, R397: In the handover slot the donor sends the final delta and the joiner listens and computes. -/
  | handoverSlot (delta : Nat) (heard : Bool)
  /-- HANDOVER_TIMEOUT, R396: No handover slot within 20,000 slots fails the attempt. -/
  | handoverTimeout
  /-- DONOR_FAIL, R399: The donor leaves the member mask, and the joiner discards its copy and restarts with a new donor. -/
  | donorFail
  /-- DONOR_PATH_TIMEOUT, R399: No block arrives from the donor for 100 µs. -/
  | donorPathTimeout
  /-- BACKOFF_EXPIRE, R401: BACKOFF ends and a waiting lane asks again to rejoin. -/
  | backoffExpire (lane : LaneId)
  /-- FACTOR_FETCH_DONE, R398: A rejoined lane finishes fetching the previous factor. -/
  | factorFetchDone (lane : LaneId)
  /-- JOURNAL_COPY_DONE, R398: A rejoined lane finishes copying the journal and trace rings. -/
  | journalCopyDone (lane : LaneId)
  /-- EXCLUDE_COMMAND, R402: A command excludes a named lane as MANUAL, or is refused. -/
  | excludeCommand (lane : LaneId)
  /-- REJOIN_COMMAND, R402: A command moves a HALTED lane to SELFTEST. -/
  | rejoinCommand (lane : LaneId)
  /-- OSC_STOP, R406: No RTC oscillator edge for 4 ms sets OSCSTOP and NOTIME. -/
  | oscStop (lane : LaneId)
  /-- BACKUP_POWER_LOSS, R406: Loss of VBAT and every main rail restarts the RTC from zero with NOTIME and VBATLOST. -/
  | backupPowerLoss
  /-- WEEKDAY_STEP, R407: The weekday counter advances at the carry that completes an 86,400 s day from PHASE. -/
  | weekdayStep (lane : LaneId) (clocks : Nat) (elapsed : Nat) (mv : Nat)
  /-- LEAP_APPLY, R410: At LEAPAT, LEAP is added to UTCOFFSET and cleared. -/
  | leapApply (lane : LaneId)
  /-- RTC_FOLLOW, R412: Once per second the RTC is compared with district time and slewed or stepped. -/
  | rtcFollow (lane : LaneId) (sub : Int)
  /-- SLEW_END, R412: A slew period of 32,768 edges ends. -/
  | slewEnd (lane : LaneId) (clocks : Nat) (elapsed : Nat) (mv : Nat)
  /-- RTC_WRITE_APPLY, R413: A scheduled RTC write of TIMESET or alignment applies at the next oscillator edge. -/
  | rtcWriteApply (lane : LaneId) (clocks : Nat) (elapsed : Nat) (mv : Nat)
  /-- RTC_SNAP, R414: SNAP latches the seconds, fraction and weekday at the next edge. -/
  | rtcSnap (lane : LaneId) (clocks : Nat) (elapsed : Nat) (mv : Nat)
  /-- RTC_SETTIME, R415: SETTIME loads the staged seconds and fraction at the next edge. -/
  | rtcSettime (lane : LaneId) (clocks : Nat) (elapsed : Nat) (mv : Nat)
  /-- RTC_SETWDAY, R415: SETWDAY loads the staged weekday at the next edge. -/
  | rtcSetwday (lane : LaneId) (clocks : Nat) (elapsed : Nat) (mv : Nat)
  /-- RTC_SETPH, R415: SETPH loads the staged PHASE at the next edge. -/
  | rtcSetph (lane : LaneId) (clocks : Nat) (elapsed : Nat) (mv : Nat)
  /-- CHARGER_STOP, R419: The charger stops when VBAT reaches VLIMIT. -/
  | chargerStop (mv : Nat)
  /-- CHARGER_RESTART, R419: The charger restarts when VBAT falls 50 mV below VLIMIT. -/
  | chargerRestart (mv : Nat)
  /-- LANE_SELF_RESET, R425: A tripped lane whose rails and POWER_FAIL_N held good for 10 ms resets itself and rejoins. -/
  | laneSelfReset (lane : LaneId)
  /-- ARB_SUPPLY_RESET, R426: VDD_ARB below its reset threshold holds the arbiter in reset with the outputs at defaults. -/
  | arbSupplyReset (mains : Bool)
  /-- ARBITER_RELEASE, R458: The arbiter leaves reset 10 ms after its rails and RESET_N are good, and copies the reset-hold record. -/
  | arbiterRelease
  /-- LANE_RELEASE, R458: A lane is released and runs start-up steps 2 to 4. -/
  | laneRelease (lane : LaneId) (item : Nat)
  /-- STARTUP_ROLL_CALL, R461: Before first agreement the arbiter polls every 1 ms and opens the start window at two ready lanes. -/
  | startupRollCall
  /-- START_WINDOW_CLOSE, R461: The start window closes after 0.5 s or at the third ready lane, and settlement begins. -/
  | startWindowClose
  /-- SETTLEMENT_DONE, R461: Image settlement ends, including fetches and rollback records. -/
  | settlementDone
  /-- FIRST_AGREEMENT, R26: First agreement sets the member mask, the slot number, the RTC, the generations and the totals base. -/
  | firstAgreement
  /-- START_GATE_OPEN, R464: At the first voted logic image at or after a + 5,000 the arbiter starts passing frames. -/
  | startGateOpen
  /-- NVM_COMMIT_COMMAND, R469: COMMIT in NVM_CMD starts or queues a class 1 commit. -/
  | nvmCommitCommand (lane : LaneId)
  /-- NVM_COMMIT_DONE, R468: A commit writes its record and the new image becomes active. -/
  | nvmCommitDone (lane : LaneId) (cls : Nat) (ms : Nat)
  /-- RESET_N_FALL, R475: A filtered RESET_N fall trips metering lanes, writes flasks and starts a reset-hold record. -/
  | resetNFall
  /-- ARBITER_RESET_ENTRY, R475: The arbiter enters reset 0.5 ms after the RESET_N fall. -/
  | arbiterResetEntry
  /-- RESET_N_RISE, R476: RESET_N rises, closing the reset-hold record. -/
  | resetNRise
  /-- REGISTER_WRITE, R438: A write to a register without its own row is decoded, merged or refused as a bus error. -/
  | registerWrite (req : HostReq)
  /-- PAIR_LOW_READ, R439: A read of the low half of a 64-bit pair latches the high half, atomically in a 2-DW access. -/
  | pairLowRead (req : HostReq) (fab : Nat)
  /-- RC_READ, R441: A read clears the RC bits in its enabled byte lanes, with shadow clears sent to the source. -/
  | rcRead (req : HostReq) (fab : Nat)
  /-- STALL_TIMEOUT, R448: A stalled access reaches 92 µs and completes with STALLTO. -/
  | stallTimeout
  /-- MBX_H2D_PRODUCER_WRITE, R452: The host advances PROD and the arbiter hands the filled slots to the lanes. -/
  | mbxH2dProducerWrite (req : HostReq)
  /-- MBX_D2H_CONSUMER_WRITE, R454: The host advances the device-to-host consumer index, freeing slots. -/
  | mbxD2hConsumerWrite (req : HostReq)
  /-- IRQ_ENABLE_WRITE, R455: A write of ARB_IRQEN enables causes and signals once for each cause already set. -/
  | irqEnableWrite (req : HostReq)
  /-- FUNCTION_LEVEL_RESET, R456: A function-level reset returns the endpoint, mailbox, interrupt and error registers and SAFE_HOSTREQ to reset. -/
  | functionLevelReset
  /-- PERST_RELEASE, R494: The endpoint leaves reset within 20 ms of the rise of PERST_N. -/
  | perstRelease
  /-- OSCILLATOR_EDGE, R405: At each rising edge of a lane's 32.768 kHz oscillator the RTC fraction advances by 2^17 + δ, carrying into the seconds, and the RTC-domain shadows refresh. -/
  | oscillatorEdge (lane : LaneId) (clocks : Nat) (elapsed : Nat) (mv : Nat)
  /-- REGISTER_READ, R435: A host read of a lane view, the arbiter window or BAR2 that is a bus error completes with Completer Abort, is counted and captured, or is served by the default completion. -/
  | registerRead (req : HostReq) (fab : Nat)
  /-- LANE_RAIL_RESET, R423: A rail that a lane monitors falls below its reset threshold and the lane is held in reset until every rail has risen above its warning threshold. -/
  | laneRailReset (lane : LaneId)
  /-- PERST_N_FALL, R494: PERST_N is asserted low and holds the PCIe endpoint in reset until its rise. -/
  | perstNFall
  /-- ECC_ERROR, R382: A correctable or uncorrectable ECC error is detected in the lane's SRAM, DRAM, MRAM or a register file; it is counted, and an uncorrectable one is raised as UCE with cause 0x01. -/
  | eccError (lane : LaneId) (corr : Bool) (site : EccSite) (addr : Nat)
  /-- POWER_STATE_WRITE, R427: The host moves the endpoint between D0 and D3hot; in D3hot memory requests are answered with Unsupported Request while the device keeps controlling. -/
  | powerStateWrite (d3 : Bool)
deriving DecidableEq, Repr

end Sys2Proof
end

