-- ==== Sys2Proof/Machine/Num.lean ====
section
/-! DEFINITION. Numbers: IEEE 754 binary32 and binary64 (R6) by exact integers and one rounding to nearest even, integer
roundings, little-endian byte strings, CRC-32, CRC-64 and serial-number arithmetic. -/
namespace Sys2Proof.Machine

/-! ### Integers -/

/-- Floor division of integers. -/
def fdiv (a : Int) (b : Nat) : Int := Int.fdiv a (b : Int)
/-- Residue of floor division, never negative for a positive divisor. -/
def fmod (a : Int) (b : Nat) : Nat := (Int.fmod a (b : Int)).toNat
/-- Clamp into a closed interval. -/
def clampI (lo hi x : Int) : Int := if x < lo then lo else if hi < x then hi else x
/-- The middle one of three integers. -/
def mid3 (a b c : Int) : Int := max (min a b) (min (max a b) c)
/-- Round a / 2^k to the nearest integer, halves away from zero. -/
def roundShift (a : Int) (k : Nat) : Int :=
  if 0 ≤ a then ((a.toNat + 2 ^ k / 2) / 2 ^ k : Nat) else -(((-a).toNat + 2 ^ k / 2) / 2 ^ k : Nat)
/-- Saturating increment of a counter with the given maximum. -/
def satAdd (max x n : Nat) : Nat := min max (x + n)
/-- Two's complement bits of an integer in `w` bits. -/
def ofInt (w : Nat) (x : Int) : BitVec w := BitVec.ofInt w x
/-- Serial-number arithmetic on 32 bits: `a` is later than `b` (R50). -/
def serialLater (a b : BitVec 32) : Bool :=
  let d := (a - b).toNat
  decide (1 ≤ d) && decide (d ≤ 2 ^ 31 - 1)

/-! ### Byte strings -/

/-- `n` bytes of a number, least significant first. -/
def leBytes : (n : Nat) → Nat → Bytes
  | 0, _ => []
  | n + 1, x => BitVec.ofNat 8 x :: leBytes n (x / 256)
/-- The number a byte string holds, least significant byte first. -/
def leNat : Bytes → Nat
  | [] => 0
  | b :: bs => b.toNat + 256 * leNat bs
/-- The number a byte string holds, most significant byte first. -/
def beNat (bs : Bytes) : Nat := leNat bs.reverse
/-- `n` bytes of a number, most significant first. -/
def beBytes (n x : Nat) : Bytes := (leBytes n x).reverse
/-- `n` bytes from offset `o`, with zero past the end. -/
def slice (bs : Bytes) (o n : Nat) : Bytes :=
  let t := (bs.drop o).take n
  t ++ List.replicate (n - t.length) 0
/-- The little-endian number of `n` bytes at offset `o`. -/
def natAt (bs : Bytes) (o n : Nat) : Nat := leNat (slice bs o n)
/-- Zero bytes. -/
def zeros (n : Nat) : Bytes := List.replicate n 0
/-- The byte string padded with zeros, or cut, to `n` bytes. -/
def fit (n : Nat) (bs : Bytes) : Bytes := slice bs 0 n
/-- ASCII bytes of a string. -/
def ascii (s : String) : Bytes := s.toList.map fun c => BitVec.ofNat 8 c.toNat

/-- A TIME80 value in ns, rounded down. -/
def time80ns (bs : Bytes) : Nat := natAt bs 0 6 * 1000000000 + natAt bs 6 4 * 1000000000 / 2 ^ 32
/-- The first clock value, in 2⁻¹⁶ ns, not before a TIME80 value. -/
def time80Clk (bs : Bytes) : Nat :=
  ((natAt bs 0 6 * 2 ^ 32 + natAt bs 6 4) * 1000000000 + 65535) / 65536
/-- A TIME80 value in 2⁻³² s. -/
def time80ticks (bs : Bytes) : Nat := natAt bs 0 6 * 2 ^ 32 + natAt bs 6 4

/-- One bit step of the reflected CRC-32 of IEEE 802.3. -/
def crc32Bit (c : BitVec 32) : BitVec 32 :=
  if c.getLsbD 0 then (c >>> 1) ^^^ 0xEDB88320#32 else c >>> 1
/-- One byte of CRC-32. -/
def crc32Byte (c : BitVec 32) (b : Byte) : BitVec 32 :=
  let c := c ^^^ b.setWidth 32
  crc32Bit (crc32Bit (crc32Bit (crc32Bit (crc32Bit (crc32Bit (crc32Bit (crc32Bit c)))))))
/-- CRC-32 of IEEE 802.3 over a byte string. -/
def crc32 (bs : Bytes) : BitVec 32 := ~~~(bs.foldl crc32Byte 0xFFFFFFFF#32)
/-- One bit step of CRC-64 with the ECMA-182 polynomial, most significant bit first. -/
def crc64Bit (c : BitVec 64) : BitVec 64 :=
  if c.getLsbD 63 then (c <<< 1) ^^^ 0x42F0E1EBA9EA3693#64 else c <<< 1
/-- One byte of CRC-64. -/
def crc64Byte (c : BitVec 64) (b : Byte) : BitVec 64 :=
  let c := c ^^^ (b.setWidth 64 <<< 56)
  crc64Bit (crc64Bit (crc64Bit (crc64Bit (crc64Bit (crc64Bit (crc64Bit (crc64Bit c)))))))

/-! ### Floating point -/

/-- A floating-point format by its fraction and exponent widths. -/
structure FFmt where
  mb : Nat
  eb : Nat
deriving DecidableEq, Repr

/-- binary32. -/
def fmt32 : FFmt := ⟨23, 8⟩
/-- binary64. -/
def fmt64 : FFmt := ⟨52, 11⟩

/-- A decoded value: a finite one is (-1)^neg × m × 2^e. -/
inductive FVal where
  | nan
  | inf (neg : Bool)
  | fin (neg : Bool) (m : Nat) (e : Int)
deriving DecidableEq, Repr

/-- Exponent of the least significant bit of the smallest binade. -/
def FFmt.emin (f : FFmt) : Int := 2 - (2 ^ (f.eb - 1) : Nat) - (f.mb : Int)

/-- Decode the bits of a format. -/
def fdec (f : FFmt) (x : Nat) : FVal :=
  let neg := decide (x / 2 ^ (f.mb + f.eb) % 2 = 1)
  let e := x / 2 ^ f.mb % 2 ^ f.eb
  let m := x % 2 ^ f.mb
  if e = 2 ^ f.eb - 1 then (if m = 0 then .inf neg else .nan)
  else if e = 0 then .fin neg m f.emin
  else .fin neg (2 ^ f.mb + m) (f.emin + (e - 1 : Nat))

/-- Sign bit of a format. -/
def fsign (f : FFmt) (neg : Bool) : Nat := if neg then 2 ^ (f.mb + f.eb) else 0
/-- The NaN that operations answer with: the positive quiet one with no payload. -/
def fnan (f : FFmt) : Nat := (2 ^ f.eb - 1) * 2 ^ f.mb + 2 ^ (f.mb - 1)
/-- Infinity of a sign. -/
def finf (f : FFmt) (neg : Bool) : Nat := fsign f neg + (2 ^ f.eb - 1) * 2 ^ f.mb

/-- Round (-1)^neg × num / den × 2^e to nearest, ties to even. -/
def fround (f : FFmt) (neg : Bool) (num den : Nat) (e : Int) : Nat :=
  if num = 0 then fsign f neg
  else
    let k : Int := (f.mb + 3 : Nat) - ((Nat.log2 num : Int) - (Nat.log2 den : Int))
    let n' := if 0 ≤ k then num * 2 ^ k.toNat else num
    let d' := if 0 ≤ k then den else den * 2 ^ (-k).toNat
    let q := n' / d'
    let sticky := decide (n' % d' ≠ 0)
    let e' := e - k
    let lsb := max f.emin ((Nat.log2 q : Int) + e' - f.mb)
    let sh := (lsb - e').toNat
    let m := q / 2 ^ sh
    let r := q % 2 ^ sh
    let half := 2 ^ sh / 2
    let up := decide (half < r) || (decide (r = half) && (sticky || decide (m % 2 = 1)))
    let m := if up then m + 1 else m
    if m < 2 ^ f.mb then fsign f neg + m
    else
      let biased := (lsb - f.emin).toNat + 1
      let bits := biased * 2 ^ f.mb + (m - 2 ^ f.mb)
      if bits < (2 ^ f.eb - 1) * 2 ^ f.mb then fsign f neg + bits else finf f neg

/-- Round a signed dyadic number z × 2^e; an exact zero takes the sign `zneg`. -/
def froundI (f : FFmt) (zneg : Bool) (z : Int) (e : Int) : Nat :=
  if z = 0 then fsign f zneg else fround f (decide (z < 0)) z.natAbs 1 e

/-- Signed significand. -/
def sgn (neg : Bool) (m : Nat) : Int := if neg then -(m : Int) else m

/-- The sum of two dyadic numbers as (z, e). -/
def dyAdd (a : Int) (ea : Int) (b : Int) (eb : Int) : Int × Int :=
  let e := min ea eb
  (a * (2 ^ (ea - e).toNat : Nat) + b * (2 ^ (eb - e).toNat : Nat), e)

/-- Addition. -/
def fadd (f : FFmt) (x y : Nat) : Nat :=
  match fdec f x, fdec f y with
  | .nan, _ => fnan f
  | _, .nan => fnan f
  | .inf a, .inf b => if a = b then finf f a else fnan f
  | .inf a, .fin .. => finf f a
  | .fin .., .inf b => finf f b
  | .fin n m e, .fin n' m' e' =>
    let (z, k) := dyAdd (sgn n m) e (sgn n' m') e'
    froundI f (n && n') z k

/-- Sign change. -/
def fneg (f : FFmt) (x : Nat) : Nat :=
  if x / 2 ^ (f.mb + f.eb) % 2 = 1 then x - 2 ^ (f.mb + f.eb) else x + 2 ^ (f.mb + f.eb)
/-- Subtraction. -/
def fsub (f : FFmt) (x y : Nat) : Nat := fadd f x (fneg f y)
/-- Magnitude. -/
def fabs (f : FFmt) (x : Nat) : Nat := x % 2 ^ (f.mb + f.eb)

/-- Multiplication. -/
def fmul (f : FFmt) (x y : Nat) : Nat :=
  match fdec f x, fdec f y with
  | .nan, _ => fnan f
  | _, .nan => fnan f
  | .inf a, .inf b => finf f (a != b)
  | .inf a, .fin b m _ => if m = 0 then fnan f else finf f (a != b)
  | .fin a m _, .inf b => if m = 0 then fnan f else finf f (a != b)
  | .fin n m e, .fin n' m' e' => fround f (n != n') (m * m') 1 (e + e')

/-- Fused multiply-add x × y + z with one rounding. -/
def ffma (f : FFmt) (x y z : Nat) : Nat :=
  match fdec f x, fdec f y, fdec f z with
  | .fin n m e, .fin n' m' e', .fin n'' m'' e'' =>
    let p := sgn (n != n') (m * m')
    let (s, k) := dyAdd p (e + e') (sgn n'' m'') e''
    froundI f ((n != n') && n'') s k
  | _, _, _ => fadd f (fmul f x y) z

/-- Division. -/
def fdivide (f : FFmt) (x y : Nat) : Nat :=
  match fdec f x, fdec f y with
  | .nan, _ => fnan f
  | _, .nan => fnan f
  | .inf _, .inf _ => fnan f
  | .inf a, .fin b _ _ => finf f (a != b)
  | .fin a _ _, .inf b => fsign f (a != b)
  | .fin n m e, .fin n' m' e' =>
    if m' = 0 then (if m = 0 then fnan f else finf f (n != n'))
    else fround f (n != n') m m' (e - e')

/-- Integer square root, by bits from the top. -/
def isqrtGo (n : Nat) : (k : Nat) → (r : Nat) → Nat
  | 0, r => r
  | k + 1, r => let r' := r + 2 ^ k; isqrtGo n k (if r' * r' ≤ n then r' else r)
/-- Integer square root. -/
def isqrt (n : Nat) : Nat := isqrtGo n (Nat.log2 n / 2 + 1) 0

/-- Square root. -/
def fsqrt (f : FFmt) (x : Nat) : Nat :=
  match fdec f x with
  | .nan => fnan f
  | .inf neg => if neg then fnan f else finf f false
  | .fin neg m e =>
    if m = 0 then fsign f neg
    else if neg then fnan f
    else
      let s := 2 * (f.mb + 4)
      let s := if (e - (s : Int)) % 2 = 0 then s else s + 1
      let n := m * 2 ^ s
      let r := isqrt n
      let q := if r * r = n then 2 * r else 2 * r + 1
      fround f false q 1 ((e - (s : Int)) / 2 - 1)

/-- Finite value. -/
def ffinite (f : FFmt) (x : Nat) : Bool := decide (x / 2 ^ f.mb % 2 ^ f.eb ≠ 2 ^ f.eb - 1)

/-- Comparison: `some` order, or none when unordered. -/
def fcmp (f : FFmt) (x y : Nat) : Option Ordering :=
  match fdec f x, fdec f y with
  | .nan, _ => none
  | _, .nan => none
  | .inf a, .inf b => some (if a = b then .eq else if a then .lt else .gt)
  | .inf a, .fin .. => some (if a then .lt else .gt)
  | .fin .., .inf b => some (if b then .gt else .lt)
  | .fin n m e, .fin n' m' e' =>
    let (z, _) := dyAdd (sgn n m) e (-(sgn n' m')) e'
    some (if z < 0 then .lt else if z = 0 then .eq else .gt)

/-- x < y; false when unordered. -/
def flt (f : FFmt) (x y : Nat) : Bool := fcmp f x y == some .lt
/-- x ≤ y; false when unordered. -/
def fle (f : FFmt) (x y : Nat) : Bool := fcmp f x y == some .lt || fcmp f x y == some .eq

/-- Conversion between formats. -/
def fconv (a b : FFmt) (x : Nat) : Nat :=
  match fdec a x with
  | .nan => fnan b
  | .inf n => finf b n
  | .fin n m e => fround b n m 1 e

/-- binary32 widened exactly to binary64. -/
def widen (x : Nat) : Nat := fconv fmt32 fmt64 x

/-- The nearest value to an integer. -/
def fofInt (f : FFmt) (z : Int) : Nat := froundI f false z 0
/-- The nearest value to num / den. -/
def fofRatio (f : FFmt) (z : Int) (den : Nat) : Nat :=
  if z = 0 then 0 else fround f (decide (z < 0)) z.natAbs den 0
/-- The nearest value to z × 2^e. -/
def fofDyadic (f : FFmt) (z : Int) (e : Int) : Nat := froundI f false z e

/-- Floor of a finite value, as an integer; 0 for a non-finite one. -/
def ffloorI (f : FFmt) (x : Nat) : Int :=
  match fdec f x with
  | .fin n m e => if 0 ≤ e then sgn n m * (2 ^ e.toNat : Nat) else fdiv (sgn n m) (2 ^ (-e).toNat)
  | _ => 0
/-- Nearest integer, halves away from zero; 0 for a non-finite value. -/
def froundHalfAway (f : FFmt) (x : Nat) : Int :=
  match fdec f x with
  | .fin n m e => if 0 ≤ e then sgn n m * (2 ^ e.toNat : Nat) else roundShift (sgn n m) (-e).toNat
  | _ => 0
/-- Nearest integer, halves to even; 0 for a non-finite value. -/
def froundHalfEven (f : FFmt) (x : Nat) : Int :=
  match fdec f x with
  | .fin n m e =>
    if 0 ≤ e then sgn n m * (2 ^ e.toNat : Nat)
    else
      let sh := (-e).toNat
      let q := m / 2 ^ sh
      let r := m % 2 ^ sh
      let up := decide (2 ^ sh < 2 * r) || (decide (2 * r = 2 ^ sh) && decide (q % 2 = 1))
      sgn n (if up then q + 1 else q)
  | _ => 0

/-- A binary32 value times 2^149, exactly; 0 for a non-finite one. -/
def f32Scaled (x : Nat) : Int :=
  match fdec fmt32 x with
  | .fin n m e => sgn n m * (2 ^ (e + 149).toNat : Nat)
  | _ => 0

end Sys2Proof.Machine
end

