-- ==== Sys2Proof/Machine/RegTable.lean ====
section
/-! DEFINITION. The register table: every field map of chapters 01 to 16, with offsets, access codes and reset values (R10 to R12, R430). -/
namespace Sys2Proof.Machine

/-- The access codes of Table 00-4 that decide what a read or write does to a field. -/
inductive Access where
  | ro | rw | rc | wo | cmd
deriving DecidableEq, Repr

/-- One field of a field map: bit range, access code, whether it is a shadow (SH), whether it is whole-word (WW), and
the numeric reset value (0 where the table gives a source of the value instead of a number). -/
structure FieldDesc where
  hi : Nat
  lo : Nat
  acc : Access
  sh : Bool
  ww : Bool
  rst : Nat
deriving DecidableEq, Repr

/-- One register heading: key (view offset; the arbiter window at 0xF00000, the safety window at 0xF80000, the mailbox
registers at 0x1000000 + BAR2 offset), two counts with their strides, and its fields without the reserved ones. -/
structure RegDesc where
  key : Nat
  n1 : Nat
  s1 : Nat
  n2 : Nat
  s2 : Nat
  fields : List FieldDesc
deriving DecidableEq, Repr

/-- A named field: the key of its register (of the first one where there are several) and its bit range. -/
structure Fld where
  key : Nat
  hi : Nat
  lo : Nat
deriving DecidableEq, Repr

/-- The same field of the register `off` bytes further on. -/
def Fld.at (f : Fld) (off : Nat) : Fld := { f with key := f.key + off }

def f_LCTL_IDENT_FAMILY : Fld := ⟨0x000000, 31, 24⟩
def f_LCTL_IDENT_STEP : Fld := ⟨0x000000, 23, 16⟩
def f_LCTL_IDENT_GRADE : Fld := ⟨0x000000, 15, 8⟩
def f_LCTL_IDENT_LANE : Fld := ⟨0x000000, 1, 0⟩
def f_LCTL_SLOTLO_SLOTLO : Fld := ⟨0x000008, 31, 0⟩
def f_LCTL_SLOTHI_SLOTHI : Fld := ⟨0x00000C, 31, 0⟩
def f_LCTL_STROBE_OOTCNT : Fld := ⟨0x000010, 31, 16⟩
def f_LCTL_STROBE_LASTDEV : Fld := ⟨0x000010, 15, 8⟩
def f_LCTL_STROBE_STROBELOST : Fld := ⟨0x000010, 1, 1⟩
def f_LCTL_STROBE_OOT : Fld := ⟨0x000010, 0, 0⟩
def f_LCTL_CLKSTAT_RTCOSC : Fld := ⟨0x000014, 8, 8⟩
def f_LCTL_CLKSTAT_LINKLOCK : Fld := ⟨0x000014, 7, 7⟩
def f_LCTL_CLKSTAT_CONVLOCK : Fld := ⟨0x000014, 6, 6⟩
def f_LCTL_CLKSTAT_DRAMLOCK : Fld := ⟨0x000014, 5, 5⟩
def f_LCTL_CLKSTAT_TILELOCK : Fld := ⟨0x000014, 4, 4⟩
def f_LCTL_CLKSTAT_LOOPLOCK : Fld := ⟨0x000014, 3, 3⟩
def f_LCTL_CLKSTAT_FABLOCK : Fld := ⟨0x000014, 2, 2⟩
def f_LCTL_CLKSTAT_XTALOK : Fld := ⟨0x000014, 1, 1⟩
def f_LCTL_CLKSTAT_STROBEOK : Fld := ⟨0x000014, 0, 0⟩
def f_AIN_CLIPSEEN_CLIP : Fld := ⟨0x030000, 31, 0⟩
def f_AIN_OVLD_OVLD : Fld := ⟨0x030004, 31, 0⟩
def f_AIN_RAW_CLIP : Fld := ⟨0x030040, 16, 16⟩
def f_AIN_RAW_CODE : Fld := ⟨0x030040, 15, 0⟩
def f_AIN_AGREED_CLIP : Fld := ⟨0x0300C0, 16, 16⟩
def f_AIN_AGREED_CODE : Fld := ⟨0x0300C0, 15, 0⟩
def f_DIN_RAWLO_RAW : Fld := ⟨0x030140, 31, 0⟩
def f_DIN_RAWHI_RAW : Fld := ⟨0x030144, 31, 0⟩
def f_DIN_AGRLO_AGR : Fld := ⟨0x030148, 31, 0⟩
def f_DIN_AGRHI_AGR : Fld := ⟨0x03014C, 31, 0⟩
def f_XLNK_STAT_MEMBER : Fld := ⟨0x0F0000, 18, 16⟩
def f_XLNK_STAT_RELAYED : Fld := ⟨0x0F0000, 11, 11⟩
def f_XLNK_STAT_RELAYING : Fld := ⟨0x0F0000, 10, 10⟩
def f_XLNK_STAT_LINKDOWN1 : Fld := ⟨0x0F0000, 9, 9⟩
def f_XLNK_STAT_LINKDOWN0 : Fld := ⟨0x0F0000, 8, 8⟩
def f_XLNK_STAT_EQUIV : Fld := ⟨0x0F0000, 3, 3⟩
def f_XLNK_STAT_MISSING : Fld := ⟨0x0F0000, 2, 2⟩
def f_XLNK_STAT_FRAMEHOLD : Fld := ⟨0x0F0000, 1, 1⟩
def f_XLNK_STAT_AGREED : Fld := ⟨0x0F0000, 0, 0⟩
def f_XLNK_LAT_MAXLAT : Fld := ⟨0x0F0004, 31, 16⟩
def f_XLNK_LAT_LASTLAT : Fld := ⟨0x0F0004, 15, 0⟩
def f_XLNK_ERR0_TAGFAIL : Fld := ⟨0x0F0008, 31, 16⟩
def f_XLNK_ERR0_CRCERR : Fld := ⟨0x0F0008, 15, 8⟩
def f_XLNK_ERR0_LATE : Fld := ⟨0x0F0008, 7, 0⟩
def f_XLNK_ERR1_TAGFAIL : Fld := ⟨0x0F000C, 31, 16⟩
def f_XLNK_ERR1_CRCERR : Fld := ⟨0x0F000C, 15, 8⟩
def f_XLNK_ERR1_LATE : Fld := ⟨0x0F000C, 7, 0⟩
def f_XLNK_SETS_MISSCNT : Fld := ⟨0x0F0010, 31, 16⟩
def f_XLNK_SETS_EQUIVCNT : Fld := ⟨0x0F0010, 15, 0⟩
def f_XLNK_LASTBAD_SRC : Fld := ⟨0x0F0014, 31, 30⟩
def f_XLNK_LASTBAD_CAUSE : Fld := ⟨0x0F0014, 29, 29⟩
def f_XLNK_LASTBAD_SLOT : Fld := ⟨0x0F0014, 15, 0⟩
def f_XLNK_FRAMES_HOLDCNT : Fld := ⟨0x0F0018, 31, 16⟩
def f_XLNK_FRAMES_DROPCNT : Fld := ⟨0x0F0018, 15, 0⟩
def f_XLNK_DUPS_DUPCNT : Fld := ⟨0x0F001C, 31, 0⟩
def f_ARB_MEMBER_VOTEMODE : Fld := ⟨0xF00100, 5, 4⟩
def f_ARB_MEMBER_MEMBER : Fld := ⟨0xF00100, 2, 0⟩
def f_ARB_VSTAT_MISCNT : Fld := ⟨0xF00104, 31, 16⟩
def f_ARB_VSTAT_MISLANE : Fld := ⟨0xF00104, 6, 4⟩
def f_ARB_VSTAT_MISMATCH : Fld := ⟨0xF00104, 0, 0⟩
def f_ARB_VMISADDR_ADDR : Fld := ⟨0xF00108, 25, 0⟩
def f_ARB_ODISA_TOTAL : Fld := ⟨0xF00110, 31, 16⟩
def f_ARB_ODISA_WINDOW : Fld := ⟨0xF00110, 9, 0⟩
def f_ARB_ODISB_TOTAL : Fld := ⟨0xF00114, 31, 16⟩
def f_ARB_ODISB_WINDOW : Fld := ⟨0xF00114, 9, 0⟩
def f_ARB_ODISC_TOTAL : Fld := ⟨0xF00118, 31, 16⟩
def f_ARB_ODISC_WINDOW : Fld := ⟨0xF00118, 9, 0⟩
def f_ARB_OSTAT_HELDCNT : Fld := ⟨0xF0011C, 31, 16⟩
def f_ARB_OSTAT_THIRDWAIT : Fld := ⟨0xF0011C, 2, 2⟩
def f_ARB_OSTAT_LATEFRAME : Fld := ⟨0xF0011C, 1, 1⟩
def f_ARB_OSTAT_HOLDING : Fld := ⟨0xF0011C, 0, 0⟩
def f_ASM_STAT_NOMODEL : Fld := ⟨0x060000, 11, 11⟩
def f_ASM_STAT_LATE : Fld := ⟨0x060000, 10, 10⟩
def f_ASM_STAT_REFUSED : Fld := ⟨0x060000, 9, 9⟩
def f_ASM_STAT_ACTIVATED : Fld := ⟨0x060000, 8, 8⟩
def f_ASM_STAT_ASSEMBLING : Fld := ⟨0x060000, 4, 4⟩
def f_ASM_STAT_MSTATE : Fld := ⟨0x060000, 2, 0⟩
def f_ASM_MVER_MVER : Fld := ⟨0x060004, 31, 0⟩
def f_ASM_REFUSE_CODE : Fld := ⟨0x060008, 31, 24⟩
def f_ASM_REFUSE_SUB : Fld := ⟨0x060008, 23, 16⟩
def f_ASM_REFUSE_INDEX : Fld := ⟨0x060008, 15, 0⟩
def f_ASM_REFROW_ROW : Fld := ⟨0x06000C, 31, 0⟩
def f_ASM_SNAPLO_SNAPLO : Fld := ⟨0x060010, 31, 0⟩
def f_ASM_SNAPHI_SNAPHI : Fld := ⟨0x060014, 31, 0⟩
def f_ASM_NSIGLO_NSIGLO : Fld := ⟨0x060018, 31, 0⟩
def f_ASM_NSIGHI_NSIGHI : Fld := ⟨0x06001C, 31, 0⟩
def f_ASM_TIME_MAXTIME : Fld := ⟨0x060020, 31, 16⟩
def f_ASM_TIME_LASTTIME : Fld := ⟨0x060020, 15, 0⟩
def f_ASM_CNT_STALESUB : Fld := ⟨0x060024, 31, 19⟩
def f_ASM_CNT_OPFALL : Fld := ⟨0x060024, 18, 11⟩
def f_ASM_CNT_EXTRAP : Fld := ⟨0x060024, 10, 5⟩
def f_ASM_CNT_COPCLAMP : Fld := ⟨0x060024, 4, 0⟩
def f_ASM_HAMP_HAMPERS : Fld := ⟨0x060028, 31, 26⟩
def f_ASM_HAMP_RESIDENT : Fld := ⟨0x060028, 25, 13⟩
def f_ASM_HAMP_STREAMED : Fld := ⟨0x060028, 12, 0⟩
def f_SOLV_STAT_ROUND : Fld := ⟨0x070000, 31, 24⟩
def f_SOLV_STAT_BUDGET : Fld := ⟨0x070000, 23, 16⟩
def f_SOLV_STAT_HEALTHY : Fld := ⟨0x070000, 15, 10⟩
def f_SOLV_STAT_PHASE : Fld := ⟨0x070000, 7, 5⟩
def f_SOLV_STAT_BEHIND : Fld := ⟨0x070000, 3, 3⟩
def f_SOLV_STAT_TILERET : Fld := ⟨0x070000, 2, 2⟩
def f_SOLV_STAT_STOPPED : Fld := ⟨0x070000, 1, 1⟩
def f_SOLV_STAT_BUSY : Fld := ⟨0x070000, 0, 0⟩
def f_SOLV_PUB_STATUS : Fld := ⟨0x070004, 31, 24⟩
def f_SOLV_PUB_ROUND : Fld := ⟨0x070004, 23, 16⟩
def f_SOLV_PUB_SOLVENUM : Fld := ⟨0x070004, 15, 0⟩
def f_SOLV_PFLAGS_COLDSUB : Fld := ⟨0x070008, 31, 19⟩
def f_SOLV_PFLAGS_ADMFAIL : Fld := ⟨0x070008, 7, 7⟩
def f_SOLV_PFLAGS_PIVOTREG : Fld := ⟨0x070008, 6, 6⟩
def f_SOLV_PFLAGS_NANSUB : Fld := ⟨0x070008, 5, 5⟩
def f_SOLV_PFLAGS_STREAMED : Fld := ⟨0x070008, 4, 4⟩
def f_SOLV_PFLAGS_REFACT : Fld := ⟨0x070008, 3, 3⟩
def f_SOLV_PFLAGS_MODEFORCED : Fld := ⟨0x070008, 2, 2⟩
def f_SOLV_PFLAGS_WARM : Fld := ⟨0x070008, 1, 1⟩
def f_SOLV_PFLAGS_COLDNET : Fld := ⟨0x070008, 0, 0⟩
def f_SOLV_PUBSLOTLO_PUBLO : Fld := ⟨0x07000C, 31, 0⟩
def f_SOLV_PUBSLOTHI_PUBHI : Fld := ⟨0x070010, 31, 0⟩
def f_SOLV_RESP_RP : Fld := ⟨0x070014, 31, 0⟩
def f_SOLV_RESD_RD : Fld := ⟨0x070018, 31, 0⟩
def f_SOLV_TIMING_MAXTIME : Fld := ⟨0x07001C, 31, 16⟩
def f_SOLV_TIMING_LASTTIME : Fld := ⟨0x07001C, 15, 0⟩
def f_SOLV_TFACT_TFACT : Fld := ⟨0x070020, 31, 0⟩
def f_SOLV_TFS_TFS : Fld := ⟨0x070024, 31, 0⟩
def f_SOLV_RETLO_RET : Fld := ⟨0x070028, 31, 0⟩
def f_SOLV_RETHI_RET : Fld := ⟨0x07002C, 15, 0⟩
def f_SOLV_CNT_SKIPCNT : Fld := ⟨0x070030, 31, 16⟩
def f_SOLV_CNT_DLCNT : Fld := ⟨0x070030, 15, 0⟩
def f_SOLV_CMD_CANCEL : Fld := ⟨0x070034, 1, 1⟩
def f_SOLV_CMD_SOLVENOW : Fld := ⟨0x070034, 0, 0⟩
def f_LENG_STAT_NFCNT : Fld := ⟨0x040000, 31, 16⟩
def f_LENG_STAT_SWAPIGN : Fld := ⟨0x040000, 4, 4⟩
def f_LENG_STAT_SWAPDONE : Fld := ⟨0x040000, 3, 3⟩
def f_LENG_STAT_NONFIN : Fld := ⟨0x040000, 2, 2⟩
def f_LENG_STAT_ACTIVE : Fld := ⟨0x040000, 0, 0⟩
def f_LENG_NFLAST_LOOP : Fld := ⟨0x040004, 24, 16⟩
def f_LENG_NFLAST_SLOT : Fld := ⟨0x040004, 15, 0⟩
def f_LENG_SECLOAD_MAXSEC : Fld := ⟨0x040008, 27, 16⟩
def f_LENG_SECLOAD_LASTSEC : Fld := ⟨0x040008, 11, 0⟩
def f_LENG_EMIT_MAXEMIT : Fld := ⟨0x04000C, 31, 16⟩
def f_LENG_EMIT_LASTEMIT : Fld := ⟨0x04000C, 15, 0⟩
def f_LENG_BANKSEL_SWAP : Fld := ⟨0x040040, 31, 31⟩
def f_LENG_BANKSEL_BYGROUP : Fld := ⟨0x040040, 30, 30⟩
def f_LENG_BANKSEL_GROUP : Fld := ⟨0x040040, 19, 16⟩
def f_LENG_BANKSEL_PENDING : Fld := ⟨0x040040, 10, 10⟩
def f_LENG_BANKSEL_BANK : Fld := ⟨0x040040, 9, 9⟩
def f_LENG_BANKSEL_LOOP : Fld := ⟨0x040040, 8, 0⟩
def f_LENG_SWAPCNT_APPLIED : Fld := ⟨0x040044, 31, 16⟩
def f_LENG_SWAPCNT_IGNORED : Fld := ⟨0x040044, 15, 0⟩
def f_LENG_LOOPCMD_RESET : Fld := ⟨0x040048, 31, 31⟩
def f_LENG_LOOPCMD_LOOP : Fld := ⟨0x040048, 8, 0⟩
def f_LENG_TRPAGE_CHAN : Fld := ⟨0x040060, 19, 16⟩
def f_LENG_TRPAGE_PAGE : Fld := ⟨0x040060, 3, 0⟩
def f_LENG_TRSRC_NODE : Fld := ⟨0x040100, 26, 24⟩
def f_LENG_TRSRC_SEC : Fld := ⟨0x040100, 19, 16⟩
def f_LENG_TRSRC_LOOP : Fld := ⟨0x040100, 8, 0⟩
def f_LENG_TRTRIG_MODE : Fld := ⟨0x040104, 31, 28⟩
def f_LENG_TRTRIG_LINK : Fld := ⟨0x040104, 27, 24⟩
def f_LENG_TRTRIG_PREPCT : Fld := ⟨0x040104, 22, 16⟩
def f_LENG_TRLEVLO_LEVLO : Fld := ⟨0x040108, 31, 0⟩
def f_LENG_TRLEVHI_LEVHI : Fld := ⟨0x04010C, 31, 0⟩
def f_LENG_TRDEPTH_DEPTH : Fld := ⟨0x040110, 20, 0⟩
def f_LENG_TRCMD_FORCE : Fld := ⟨0x040114, 2, 2⟩
def f_LENG_TRCMD_STOP : Fld := ⟨0x040114, 1, 1⟩
def f_LENG_TRCMD_ARM : Fld := ⟨0x040114, 0, 0⟩
def f_LENG_TRSTAT_STATE : Fld := ⟨0x040118, 31, 30⟩
def f_LENG_TRSTAT_PRESHORT : Fld := ⟨0x040118, 28, 28⟩
def f_LENG_TRSTAT_TRIGIDX : Fld := ⟨0x040118, 20, 0⟩
def f_LENG_TRPTR_WRPTR : Fld := ⟨0x04011C, 20, 0⟩
def f_LSEQ_STAT_STARTMODE : Fld := ⟨0x050000, 19, 16⟩
def f_LSEQ_STAT_BUDGETLOW : Fld := ⟨0x050000, 8, 8⟩
def f_LSEQ_STAT_OWNDROP : Fld := ⟨0x050000, 7, 7⟩
def f_LSEQ_STAT_REFUSED : Fld := ⟨0x050000, 6, 6⟩
def f_LSEQ_STAT_SWAPPED : Fld := ⟨0x050000, 5, 5⟩
def f_LSEQ_STAT_PENDING : Fld := ⟨0x050000, 4, 4⟩
def f_LSEQ_STAT_OVERRUN : Fld := ⟨0x050000, 3, 3⟩
def f_LSEQ_STAT_RUN : Fld := ⟨0x050000, 2, 0⟩
def f_LSEQ_CYCLE_LSLOTS : Fld := ⟨0x050004, 31, 16⟩
def f_LSEQ_CYCLE_BUDGETPCT : Fld := ⟨0x050004, 7, 0⟩
def f_LSEQ_EXEC_MAXEXEC : Fld := ⟨0x050008, 31, 16⟩
def f_LSEQ_EXEC_LASTEXEC : Fld := ⟨0x050008, 15, 0⟩
def f_LSEQ_WCET_WCET : Fld := ⟨0x05000C, 31, 0⟩
def f_LSEQ_LOADRES_CODE : Fld := ⟨0x050010, 31, 24⟩
def f_LSEQ_LOADRES_INDEX : Fld := ⟨0x050010, 17, 0⟩
def f_LSEQ_STOPAT_INDEX : Fld := ⟨0x050014, 17, 0⟩
def f_LSEQ_CMD_RESTART : Fld := ⟨0x050018, 1, 1⟩
def f_LSEQ_CMD_COLD : Fld := ⟨0x050018, 0, 0⟩
def f_LSEQ_FORCE_IGNRESTART : Fld := ⟨0x05001C, 31, 24⟩
def f_LSEQ_FORCE_REMOVED : Fld := ⟨0x05001C, 23, 16⟩
def f_LSEQ_FORCE_ACTIVE : Fld := ⟨0x05001C, 10, 0⟩
def f_LSEQ_LTLO_LTLO : Fld := ⟨0x050020, 31, 0⟩
def f_LSEQ_LTHI_LTHI : Fld := ⟨0x050024, 31, 0⟩
def f_LSEQ_TBCORR_SRC : Fld := ⟨0x050028, 31, 31⟩
def f_LSEQ_TBCORR_LIMIT : Fld := ⟨0x050028, 30, 30⟩
def f_LSEQ_TBCORR_KAPPA : Fld := ⟨0x050028, 23, 0⟩
def f_LSEQ_IMAGEID_ID : Fld := ⟨0x05002C, 31, 0⟩
def f_MTR_STAT_NOZC : Fld := ⟨0x010000, 11, 8⟩
def f_MTR_STAT_LATCHED : Fld := ⟨0x010000, 7, 4⟩
def f_MTR_STAT_PRESET : Fld := ⟨0x010000, 2, 2⟩
def f_MTR_STAT_CALLOCK : Fld := ⟨0x010000, 1, 1⟩
def f_MTR_STAT_FROZEN : Fld := ⟨0x010000, 0, 0⟩
def f_MTR_ZCTO_TO3 : Fld := ⟨0x010004, 31, 24⟩
def f_MTR_ZCTO_TO2 : Fld := ⟨0x010004, 23, 16⟩
def f_MTR_ZCTO_TO1 : Fld := ⟨0x010004, 15, 8⟩
def f_MTR_ZCTO_TO0 : Fld := ⟨0x010004, 7, 0⟩
def f_MTR_LATCHSEQ_SEQ : Fld := ⟨0x010010, 31, 0⟩
def f_MTR_CLIPSEEN_CLIP : Fld := ⟨0x010020, 23, 0⟩
def f_MTR_OVLD_OVLD : Fld := ⟨0x010024, 23, 0⟩
def f_MTR_RAW_CLIP : Fld := ⟨0x010040, 24, 24⟩
def f_MTR_RAW_CODE : Fld := ⟨0x010040, 23, 0⟩
def f_MTR_ELO_ELO : Fld := ⟨0x010400, 31, 0⟩
def f_MTR_EHI_EHI : Fld := ⟨0x010404, 31, 0⟩
def f_MTR_WRAP_WRAPODD : Fld := ⟨0x010900, 31, 16⟩
def f_MTR_WRAP_WRAPEVEN : Fld := ⟨0x010900, 15, 0⟩
def f_MTR_WLATCH_WRAP : Fld := ⟨0x010A40, 15, 0⟩
def f_MTR_ZCLAST_SLOT : Fld := ⟨0x010A50, 31, 13⟩
def f_MTR_ZCLAST_OFFSET : Fld := ⟨0x010A50, 12, 0⟩
def f_THM_STAT_STALEFLOW : Fld := ⟨0x020000, 31, 24⟩
def f_THM_STAT_LATCHED : Fld := ⟨0x020000, 23, 16⟩
def f_THM_STAT_RTDFAULT : Fld := ⟨0x020000, 15, 0⟩
def f_THM_TOTSTAT_TCALLOCK : Fld := ⟨0x020004, 6, 6⟩
def f_THM_TOTSTAT_NOTOTALS : Fld := ⟨0x020004, 5, 5⟩
def f_THM_TOTSTAT_FLASKSKIP : Fld := ⟨0x020004, 4, 4⟩
def f_THM_TOTSTAT_MERGED : Fld := ⟨0x020004, 3, 3⟩
def f_THM_TOTSTAT_MERGEPEND : Fld := ⟨0x020004, 2, 2⟩
def f_THM_TOTSTAT_TOTALS : Fld := ⟨0x020004, 1, 1⟩
def f_THM_TOTSTAT_FROZEN : Fld := ⟨0x020004, 0, 0⟩
def f_THM_TSEQ_TSEQ : Fld := ⟨0x020008, 31, 0⟩
def f_THM_LATCHSEQ_SEQ : Fld := ⟨0x020010, 31, 0⟩
def f_THM_RAW_CONV : Fld := ⟨0x020040, 31, 24⟩
def f_THM_RAW_CODE : Fld := ⟨0x020040, 23, 0⟩
def f_THM_PULSERAW_VALUE : Fld := ⟨0x020080, 31, 0⟩
def f_THM_ELO_ELO : Fld := ⟨0x020100, 31, 0⟩
def f_THM_EHI_EHI : Fld := ⟨0x020104, 31, 0⟩
def f_THM_WRAP_WRAPODD : Fld := ⟨0x020200, 31, 16⟩
def f_THM_WRAP_WRAPEVEN : Fld := ⟨0x020200, 15, 0⟩
def f_THM_WLATCH_WRAP : Fld := ⟨0x020240, 15, 0⟩
def f_THM_VPOSTAT_OVERFLOW : Fld := ⟨0x020300, 18, 18⟩
def f_THM_VPOSTAT_BACKLOG : Fld := ⟨0x020300, 17, 17⟩
def f_THM_VPOSTAT_ACTIVE : Fld := ⟨0x020300, 16, 16⟩
def f_THM_VPOSTAT_OWED : Fld := ⟨0x020300, 15, 0⟩
def f_THM_VPOCNT_LOST : Fld := ⟨0x020304, 31, 16⟩
def f_THM_VPOCNT_WIDTH : Fld := ⟨0x020304, 15, 0⟩
def f_PORT_STAT_TXGATED : Fld := ⟨0x080000, 16, 16⟩
def f_PORT_STAT_LINK : Fld := ⟨0x080000, 15, 0⟩
def f_PORT_NDSTAT_NOROUTER : Fld := ⟨0x080004, 17, 17⟩
def f_PORT_NDSTAT_NCFULL : Fld := ⟨0x080004, 16, 16⟩
def f_PORT_NDSTAT_DADFAIL : Fld := ⟨0x080004, 15, 0⟩
def f_PORT_LINK_MODE : Fld := ⟨0x080100, 31, 28⟩
def f_PORT_LINK_ANSTATE : Fld := ⟨0x080100, 27, 24⟩
def f_PORT_LINK_LINKDN : Fld := ⟨0x080100, 23, 16⟩
def f_PORT_LINK_UP : Fld := ⟨0x080100, 0, 0⟩
def f_PORT_RXCNT_RX : Fld := ⟨0x080104, 31, 0⟩
def f_PORT_TXCNT_TX : Fld := ⟨0x080108, 31, 0⟩
def f_PORT_RXDROP_LINEERR : Fld := ⟨0x08010C, 31, 24⟩
def f_PORT_RXDROP_FILTERED : Fld := ⟨0x08010C, 23, 16⟩
def f_PORT_RXDROP_IPDROP : Fld := ⟨0x08010C, 15, 8⟩
def f_PORT_RXDROP_ECHODROP : Fld := ⟨0x08010C, 7, 0⟩
def f_PORT_TXDROP_QFULL : Fld := ⟨0x080110, 31, 16⟩
def f_PORT_TXDROP_GATEDROP : Fld := ⟨0x080110, 15, 0⟩
def f_PORT_GATE_OPER : Fld := ⟨0x080114, 31, 31⟩
def f_PORT_GATE_PENDING : Fld := ⟨0x080114, 30, 30⟩
def f_PORT_GATE_ENTRY : Fld := ⟨0x080114, 23, 16⟩
def f_PORT_GATE_GATES : Fld := ⟨0x080114, 7, 0⟩
def f_TIME_STAT_SLEWLIM : Fld := ⟨0x090000, 12, 12⟩
def f_TIME_STAT_PARENT : Fld := ⟨0x090000, 11, 8⟩
def f_TIME_STAT_STEPPED : Fld := ⟨0x090000, 6, 6⟩
def f_TIME_STAT_GM : Fld := ⟨0x090000, 5, 5⟩
def f_TIME_STAT_SLAVE : Fld := ⟨0x090000, 4, 4⟩
def f_TIME_STAT_LOCKED : Fld := ⟨0x090000, 3, 3⟩
def f_TIME_CLKNS_NS : Fld := ⟨0x090010, 29, 0⟩
def f_TIME_CLKSLO_SECLO : Fld := ⟨0x090014, 31, 0⟩
def f_TIME_CLKSHI_FRAC : Fld := ⟨0x090018, 31, 16⟩
def f_TIME_CLKSHI_SECHI : Fld := ⟨0x090018, 15, 0⟩
def f_TIME_OFFSET_OFFSET : Fld := ⟨0x090020, 31, 0⟩
def f_TIME_FREQ_YI : Fld := ⟨0x090024, 31, 0⟩
def f_TIME_PATHDLY_DELAY : Fld := ⟨0x090028, 31, 0⟩
def f_TIME_STEPS_STEPCNT : Fld := ⟨0x09002C, 31, 16⟩
def f_TIME_STEPS_SYNCLOSS : Fld := ⟨0x09002C, 15, 0⟩
def f_TIME_LAT_EGRESS : Fld := ⟨0x090100, 31, 16⟩
def f_TIME_LAT_INGRESS : Fld := ⟨0x090100, 15, 0⟩
def f_TIME_EVHDR_VALID : Fld := ⟨0x090200, 31, 31⟩
def f_TIME_EVHDR_EVOVF : Fld := ⟨0x090200, 30, 30⟩
def f_TIME_EVHDR_LEVEL : Fld := ⟨0x090200, 15, 8⟩
def f_TIME_EVHDR_EDGE : Fld := ⟨0x090200, 4, 4⟩
def f_TIME_EVHDR_PIN : Fld := ⟨0x090200, 1, 0⟩
def f_TIME_EVNS_NS : Fld := ⟨0x090204, 29, 0⟩
def f_TIME_EVSLO_SECLO : Fld := ⟨0x090208, 31, 0⟩
def f_TIME_EVSHI_FRAC : Fld := ⟨0x09020C, 31, 16⟩
def f_TIME_EVSHI_SECHI : Fld := ⟨0x09020C, 15, 0⟩
def f_TIME_WMK_HELD : Fld := ⟨0x090300, 11, 8⟩
def f_TIME_WMK_LEVEL : Fld := ⟨0x090300, 7, 4⟩
def f_TIME_WMK_ACTIVE : Fld := ⟨0x090300, 3, 0⟩
def f_XACT_STAT_BOUND : Fld := ⟨0x0A0000, 23, 16⟩
def f_XACT_STAT_ENABLED : Fld := ⟨0x0A0000, 15, 8⟩
def f_XACT_STAT_CLAMPNEW : Fld := ⟨0x0A0000, 2, 2⟩
def f_XACT_STAT_COMMITFAIL : Fld := ⟨0x0A0000, 1, 1⟩
def f_XACT_STAT_COMMITTED : Fld := ⟨0x0A0000, 0, 0⟩
def f_XACT_COMMITNUM_NUM : Fld := ⟨0x0A0004, 31, 0⟩
def f_XACT_CLAMPCNT_COUNT : Fld := ⟨0x0A0008, 31, 0⟩
def f_XACT_SESS_PORT : Fld := ⟨0x0A0010, 31, 24⟩
def f_XACT_SESS_EPOCH : Fld := ⟨0x0A0010, 23, 8⟩
def f_XACT_SESS_ROLE : Fld := ⟨0x0A0010, 7, 5⟩
def f_XACT_SESS_STATE : Fld := ⟨0x0A0010, 1, 0⟩
def f_XACT_RXERR_FORMAT : Fld := ⟨0x0A0040, 31, 24⟩
def f_XACT_RXERR_EPOCH : Fld := ⟨0x0A0040, 23, 16⟩
def f_XACT_RXERR_TAGFAIL : Fld := ⟨0x0A0040, 15, 8⟩
def f_XACT_RXERR_WRONGPORT : Fld := ⟨0x0A0040, 7, 0⟩
def f_XACT_RXCLOSED_CLOSED : Fld := ⟨0x0A0060, 15, 0⟩
def f_KEY_STAT_LASTSTAT : Fld := ⟨0x0B0000, 31, 24⟩
def f_KEY_STAT_TAMPOL : Fld := ⟨0x0B0000, 19, 18⟩
def f_KEY_STAT_TAMPER : Fld := ⟨0x0B0000, 17, 17⟩
def f_KEY_STAT_READY : Fld := ⟨0x0B0000, 16, 16⟩
def f_KEY_STAT_RETAG : Fld := ⟨0x0B0000, 7, 7⟩
def f_KEY_STAT_ENROLBUSY : Fld := ⟨0x0B0000, 6, 6⟩
def f_KEY_STAT_ORPHAN : Fld := ⟨0x0B0000, 2, 2⟩
def f_KEY_STAT_TAMPABORT : Fld := ⟨0x0B0000, 1, 1⟩
def f_KEY_STAT_LOADED : Fld := ⟨0x0B0000, 0, 0⟩
def f_KEY_CNT_ORPHCNT : Fld := ⟨0x0B0004, 31, 16⟩
def f_KEY_CNT_TAMPREF : Fld := ⟨0x0B0004, 15, 0⟩
def f_KEY_PATH_DOMAIN : Fld := ⟨0x0B0010, 26, 24⟩
def f_KEY_PATH_NUMBER : Fld := ⟨0x0B0010, 15, 0⟩
def f_KEY_CMD_OP : Fld := ⟨0x0B0014, 31, 28⟩
def f_KEY_CMD_LEN : Fld := ⟨0x0B0014, 6, 0⟩
def f_KEY_RESULT_STATUS : Fld := ⟨0x0B0018, 31, 24⟩
def f_KEY_RESULT_KCV : Fld := ⟨0x0B0018, 23, 0⟩
def f_KEY_GEN_GEN : Fld := ⟨0x0B001C, 31, 0⟩
def f_KEY_DATA_DATA : Fld := ⟨0x0B0100, 31, 0⟩
def f_KEY_MAC_MAC : Fld := ⟨0x0B0140, 31, 0⟩
def f_ARB_TAMPSTAT_LOST : Fld := ⟨0xF00200, 31, 28⟩
def f_ARB_TAMPSTAT_UNACTED : Fld := ⟨0xF00200, 23, 20⟩
def f_ARB_TAMPSTAT_VALID : Fld := ⟨0xF00200, 19, 16⟩
def f_ARB_TAMPSTAT_POLICY : Fld := ⟨0xF00200, 3, 2⟩
def f_ARB_TAMPSTAT_EVENT : Fld := ⟨0xF00200, 1, 1⟩
def f_ARB_TAMPSTAT_ACTIVE : Fld := ⟨0xF00200, 0, 0⟩
def f_ARB_TAMPACK_CLEARLOG : Fld := ⟨0xF00204, 0, 0⟩
def f_ARB_TAMPLOGLO_SECLO : Fld := ⟨0xF00210, 31, 0⟩
def f_ARB_TAMPLOGHI_RTCLANE : Fld := ⟨0xF00214, 23, 22⟩
def f_ARB_TAMPLOGHI_STANDBY : Fld := ⟨0xF00214, 20, 20⟩
def f_ARB_TAMPLOGHI_SECHI : Fld := ⟨0xF00214, 15, 0⟩
def f_SAFE_STAT_CFGVIOL : Fld := ⟨0xF80000, 9, 9⟩
def f_SAFE_STAT_CRCREJECT : Fld := ⟨0xF80000, 8, 8⟩
def f_SAFE_STAT_LOSS : Fld := ⟨0xF80000, 7, 7⟩
def f_SAFE_STAT_ARMED : Fld := ⟨0xF80000, 6, 6⟩
def f_SAFE_STAT_RESETSTUCK : Fld := ⟨0xF80000, 5, 5⟩
def f_SAFE_STAT_SFAULT : Fld := ⟨0xF80000, 4, 4⟩
def f_SAFE_STAT_ISLFAULT : Fld := ⟨0xF80000, 3, 3⟩
def f_SAFE_STAT_LOCKSTATE : Fld := ⟨0xF80000, 1, 0⟩
def f_SAFE_CHSTATE_CH7 : Fld := ⟨0xF80004, 31, 28⟩
def f_SAFE_CHSTATE_CH6CH1 : Fld := ⟨0xF80004, 27, 4⟩
def f_SAFE_CHSTATE_CH0 : Fld := ⟨0xF80004, 3, 0⟩
def f_SAFE_RESTART_REQACT : Fld := ⟨0xF8000C, 31, 16⟩
def f_SAFE_RESTART_RESTARTABLE : Fld := ⟨0xF8000C, 15, 0⟩
def f_SAFE_FAULT_FAULTNEW : Fld := ⟨0xF80010, 31, 16⟩
def f_SAFE_FAULT_FAULT : Fld := ⟨0xF80010, 15, 0⟩
def f_SAFE_ISLFAULT_FIRST : Fld := ⟨0xF80014, 19, 16⟩
def f_SAFE_ISLFAULT_CYCLE : Fld := ⟨0xF80014, 4, 4⟩
def f_SAFE_ISLFAULT_SUPPLY : Fld := ⟨0xF80014, 3, 3⟩
def f_SAFE_ISLFAULT_CFGCRC : Fld := ⟨0xF80014, 2, 2⟩
def f_SAFE_ISLFAULT_RAM : Fld := ⟨0xF80014, 1, 1⟩
def f_SAFE_ISLFAULT_CLOCK : Fld := ⟨0xF80014, 0, 0⟩
def f_SAFE_CRC_CRC : Fld := ⟨0xF80018, 31, 0⟩
def f_SAFE_RSTCNT_STUCKCNT : Fld := ⟨0xF8001C, 31, 24⟩
def f_SAFE_RSTCNT_SHORTCNT : Fld := ⟨0xF8001C, 23, 16⟩
def f_SAFE_RSTCNT_VALIDCNT : Fld := ⟨0xF8001C, 15, 0⟩
def f_SAFE_CHDIAG_CAUSE : Fld := ⟨0xF80040, 31, 24⟩
def f_SAFE_CHDIAG_TESTFAIL : Fld := ⟨0xF80040, 23, 16⟩
def f_SAFE_CHDIAG_STOPS : Fld := ⟨0xF80040, 15, 0⟩
def f_SAFE_SPEED_SPEED : Fld := ⟨0xF80080, 22, 0⟩
def f_SAFE_HOSTREQ_REQ : Fld := ⟨0xF80100, 15, 0⟩
def f_ARB_ROLLCFG_DISN : Fld := ⟨0xF00300, 25, 16⟩
def f_ARB_ROLLCFG_DISK : Fld := ⟨0xF00300, 15, 8⟩
def f_ARB_ROLLCFG_ROLLPHASE : Fld := ⟨0xF00300, 4, 0⟩
def f_ARB_LANESTAT_SCORE : Fld := ⟨0xF00304, 31, 24⟩
def f_ARB_LANESTAT_CAUSE : Fld := ⟨0xF00304, 23, 16⟩
def f_ARB_LANESTAT_ENTRIES : Fld := ⟨0xF00304, 11, 8⟩
def f_ARB_LANESTAT_MANUAL : Fld := ⟨0xF00304, 5, 5⟩
def f_ARB_LANESTAT_MISSED : Fld := ⟨0xF00304, 4, 4⟩
def f_ARB_LANESTAT_STATE : Fld := ⟨0xF00304, 2, 0⟩
def f_ARB_EXCNT_EXCLCNT : Fld := ⟨0xF00310, 31, 16⟩
def f_ARB_EXCNT_ENTRYCNT : Fld := ⟨0xF00310, 15, 0⟩
def f_ARB_JOIN_JOINER : Fld := ⟨0xF00314, 31, 30⟩
def f_ARB_JOIN_DONOR : Fld := ⟨0xF00314, 29, 28⟩
def f_ARB_JOIN_PHASE : Fld := ⟨0xF00314, 27, 24⟩
def f_ARB_JOIN_DONORCHG : Fld := ⟨0xF00314, 23, 16⟩
def f_ARB_JOIN_FAILS : Fld := ⟨0xF00314, 15, 8⟩
def f_ARB_JOIN_PROGRESS : Fld := ⟨0xF00314, 7, 0⟩
def f_ARB_EXCLUDE_GO : Fld := ⟨0xF00318, 31, 31⟩
def f_ARB_EXCLUDE_REFUSED : Fld := ⟨0xF00318, 8, 8⟩
def f_ARB_EXCLUDE_LANE : Fld := ⟨0xF00318, 1, 0⟩
def f_ARB_REJOIN_GO : Fld := ⟨0xF0031C, 31, 31⟩
def f_ARB_REJOIN_REFUSED : Fld := ⟨0xF0031C, 8, 8⟩
def f_ARB_REJOIN_LANE : Fld := ⟨0xF0031C, 1, 0⟩
def f_ARB_HOLD_DECIDED : Fld := ⟨0xF00320, 31, 24⟩
def f_ARB_HOLD_UNDECIDED : Fld := ⟨0xF00320, 23, 16⟩
def f_ARB_HOLD_EVIDENCE : Fld := ⟨0xF00320, 1, 0⟩
def f_LCTL_RJSTAT_UCECAUSE : Fld := ⟨0x000020, 31, 24⟩
def f_LCTL_RJSTAT_TESTITEM : Fld := ⟨0x000020, 15, 8⟩
def f_LCTL_RJSTAT_NOFACTOR : Fld := ⟨0x000020, 7, 7⟩
def f_LCTL_RJSTAT_TRAILING : Fld := ⟨0x000020, 6, 6⟩
def f_LCTL_RJSTAT_RJSTATE : Fld := ⟨0x000020, 2, 0⟩
def f_RTC_STAT_VBATLOST : Fld := ⟨0x0E0000, 7, 7⟩
def f_RTC_STAT_OSCSTOP : Fld := ⟨0x0E0000, 6, 6⟩
def f_RTC_STAT_NOTIME : Fld := ⟨0x0E0000, 5, 5⟩
def f_RTC_STAT_STEPPED : Fld := ⟨0x0E0000, 4, 4⟩
def f_RTC_STAT_SLEWING : Fld := ⟨0x0E0000, 3, 3⟩
def f_RTC_STAT_STANDBY : Fld := ⟨0x0E0000, 2, 2⟩
def f_RTC_STAT_BATLOW : Fld := ⟨0x0E0000, 1, 1⟩
def f_RTC_STAT_RUN : Fld := ⟨0x0E0000, 0, 0⟩
def f_RTC_SNAP_SNAP : Fld := ⟨0x0E0004, 0, 0⟩
def f_RTC_SNAPLO_SECLO : Fld := ⟨0x0E0008, 31, 0⟩
def f_RTC_SNAPHI_WDAY : Fld := ⟨0x0E000C, 18, 16⟩
def f_RTC_SNAPHI_SECHI : Fld := ⟨0x0E000C, 15, 0⟩
def f_RTC_SNAPFR_FRAC : Fld := ⟨0x0E0010, 31, 0⟩
def f_RTC_STGLO_SECLO : Fld := ⟨0x0E0020, 31, 0⟩
def f_RTC_STGHI_WDAY : Fld := ⟨0x0E0024, 18, 16⟩
def f_RTC_STGHI_SECHI : Fld := ⟨0x0E0024, 15, 0⟩
def f_RTC_STGFR_FRAC : Fld := ⟨0x0E0028, 31, 17⟩
def f_RTC_STGPH_PHASE : Fld := ⟨0x0E002C, 16, 0⟩
def f_RTC_SETCMD_SETPH : Fld := ⟨0x0E0030, 2, 2⟩
def f_RTC_SETCMD_SETWDAY : Fld := ⟨0x0E0030, 1, 1⟩
def f_RTC_SETCMD_SETTIME : Fld := ⟨0x0E0030, 0, 0⟩
def f_RTC_WDAY_WDAY : Fld := ⟨0x0E0034, 19, 17⟩
def f_RTC_WDAY_PHASE : Fld := ⟨0x0E0034, 16, 0⟩
def f_RTC_SLEW_ERR : Fld := ⟨0x0E0040, 31, 8⟩
def f_RTC_SLEW_DELTA : Fld := ⟨0x0E0040, 6, 0⟩
def f_RTC_SETCNT_STEPCNT : Fld := ⟨0x0E0044, 31, 16⟩
def f_RTC_SETCNT_SETCNT : Fld := ⟨0x0E0044, 15, 0⟩
def f_ARB_VBAT_MV : Fld := ⟨0xF00400, 31, 16⟩
def f_ARB_VBAT_CHARGING : Fld := ⟨0xF00400, 3, 3⟩
def f_ARB_VBAT_ATLIMIT : Fld := ⟨0xF00400, 2, 2⟩
def f_ARB_VBAT_BATLOW : Fld := ⟨0xF00400, 1, 1⟩
def f_ARB_VBAT_ENABLE : Fld := ⟨0xF00400, 0, 0⟩
def f_ARB_HERR_WERRCNT : Fld := ⟨0xF00500, 31, 24⟩
def f_ARB_HERR_RERRCNT : Fld := ⟨0xF00500, 23, 16⟩
def f_ARB_HERR_RSTCNT : Fld := ⟨0xF00500, 15, 8⟩
def f_ARB_HERR_WPEND : Fld := ⟨0xF00500, 4, 4⟩
def f_ARB_HERR_STALLTO : Fld := ⟨0xF00500, 3, 3⟩
def f_ARB_HERR_LANERST : Fld := ⟨0xF00500, 2, 2⟩
def f_ARB_HERR_RERR : Fld := ⟨0xF00500, 1, 1⟩
def f_ARB_HERR_WERR : Fld := ⟨0xF00500, 0, 0⟩
def f_ARB_HERRADDR_SPACE : Fld := ⟨0xF00504, 31, 30⟩
def f_ARB_HERRADDR_ADDR : Fld := ⟨0xF00504, 25, 0⟩
def f_ARB_HERRINFO_CAUSE : Fld := ⟨0xF00508, 31, 28⟩
def f_ARB_HERRINFO_WRITE : Fld := ⟨0xF00508, 27, 27⟩
def f_ARB_HERRINFO_LEN : Fld := ⟨0xF00508, 23, 16⟩
def f_ARB_HERRINFO_LASTBE : Fld := ⟨0xF00508, 7, 4⟩
def f_ARB_HERRINFO_FIRSTBE : Fld := ⟨0xF00508, 3, 0⟩
def f_ARB_IRQSTAT_CAUSE : Fld := ⟨0xF00510, 12, 0⟩
def f_ARB_IRQEN_EN : Fld := ⟨0xF00514, 12, 0⟩
def f_ARB_MBXH2DP_PROD : Fld := ⟨0x100C000, 7, 0⟩
def f_ARB_MBXH2DC_CONS : Fld := ⟨0x100C004, 7, 0⟩
def f_ARB_MBXD2HP_PROD : Fld := ⟨0x100C008, 7, 0⟩
def f_ARB_MBXD2HC_CONS : Fld := ⟨0x100C00C, 7, 0⟩
def f_ARB_MBXSTAT_D2HDROP : Fld := ⟨0x100C010, 31, 24⟩
def f_ARB_MBXSTAT_HELD : Fld := ⟨0x100C010, 20, 16⟩
def f_ARB_MBXSTAT_D2HMISM : Fld := ⟨0x100C010, 15, 8⟩
def f_ARB_MBXSTAT_IDXERR : Fld := ⟨0x100C010, 3, 3⟩
def f_ARB_MBXSTAT_LENERR : Fld := ⟨0x100C010, 2, 2⟩
def f_ARB_MBXSTAT_D2HFULL : Fld := ⟨0x100C010, 1, 1⟩
def f_ARB_MBXSTAT_ACTIVE : Fld := ⟨0x100C010, 0, 0⟩
def f_LCTL_LOCKV_LOCKVIOL : Fld := ⟨0x000030, 31, 31⟩
def f_LCTL_LOCKV_OFFSET : Fld := ⟨0x000030, 23, 0⟩
def f_LCTL_PSPAGE_PAGE : Fld := ⟨0x000034, 3, 0⟩
def f_NVM_STAT_ROLLBACK : Fld := ⟨0x0C0000, 7, 7⟩
def f_NVM_STAT_FETCHED : Fld := ⟨0x0C0000, 6, 6⟩
def f_NVM_STAT_COMMITDONE : Fld := ⟨0x0C0000, 5, 5⟩
def f_NVM_STAT_QUEUED : Fld := ⟨0x0C0000, 4, 4⟩
def f_NVM_STAT_DIRTY : Fld := ⟨0x0C0000, 3, 3⟩
def f_NVM_STAT_RETAGWAIT : Fld := ⟨0x0C0000, 2, 2⟩
def f_NVM_STAT_BUSY2 : Fld := ⟨0x0C0000, 1, 1⟩
def f_NVM_STAT_BUSY1 : Fld := ⟨0x0C0000, 0, 0⟩
def f_NVM_CMD_COMMIT : Fld := ⟨0x0C0004, 0, 0⟩
def f_NVM_DCSEQ_CSEQ : Fld := ⟨0x0C0008, 31, 0⟩
def f_NVM_LCSEQ_CSEQ : Fld := ⟨0x0C000C, 31, 0⟩
def f_NVM_CTIME_MAXTIME : Fld := ⟨0x0C0010, 31, 16⟩
def f_NVM_CTIME_LASTTIME : Fld := ⟨0x0C0010, 15, 0⟩
def f_ARB_RSTCAUSE_GATEOPEN : Fld := ⟨0xF00600, 31, 31⟩
def f_ARB_RSTCAUSE_GATETIME : Fld := ⟨0xF00600, 23, 12⟩
def f_ARB_RSTCAUSE_HOLDS : Fld := ⟨0xF00600, 11, 8⟩
def f_ARB_RSTCAUSE_LONGHOLD : Fld := ⟨0xF00600, 5, 5⟩
def f_ARB_RSTCAUSE_ARBFAULT : Fld := ⟨0xF00600, 4, 4⟩
def f_ARB_RSTCAUSE_ALLEXCL : Fld := ⟨0xF00600, 3, 3⟩
def f_ARB_RSTCAUSE_VDDARB : Fld := ⟨0xF00600, 2, 2⟩
def f_ARB_RSTCAUSE_RESETN : Fld := ⟨0xF00600, 1, 1⟩
def f_ARB_RSTCAUSE_POR : Fld := ⟨0xF00600, 0, 0⟩
def f_ARB_RSTHOLD_HOLDSEC : Fld := ⟨0xF00604, 31, 0⟩
def f_DRC_STAT_SIZE : Fld := ⟨0x0D0000, 31, 24⟩
def f_DRC_STAT_RANKS : Fld := ⟨0x0D0000, 19, 18⟩
def f_DRC_STAT_UCE : Fld := ⟨0x0D0000, 3, 3⟩
def f_DRC_STAT_CE : Fld := ⟨0x0D0000, 2, 2⟩
def f_DRC_STAT_TRAINED : Fld := ⟨0x0D0000, 1, 1⟩
def f_DRC_STAT_INIT : Fld := ⟨0x0D0000, 0, 0⟩
def f_DRC_ECC_CECNT : Fld := ⟨0x0D0004, 31, 16⟩
def f_DRC_ECC_UCECNT : Fld := ⟨0x0D0004, 15, 0⟩
def f_DRC_ECCADDR_ADDR : Fld := ⟨0x0D0008, 31, 0⟩

/-- Registers of unit LCTL. -/
def regTableLCTL : List RegDesc := [
  -- LCTL_IDENT (chapter 01)
  ⟨0x000000, 1, 0x0, 1, 0x0, [⟨31, 24, .ro, false, false, 74⟩, ⟨23, 16, .ro, false, false, 0⟩, ⟨15, 8, .ro, false, false, 0⟩, ⟨1, 0, .ro, false, false, 0⟩]⟩,
  -- LCTL_SLOTLO (chapter 01)
  ⟨0x000008, 1, 0x0, 1, 0x0, [⟨31, 0, .ro, false, false, 0⟩]⟩,
  -- LCTL_SLOTHI (chapter 01)
  ⟨0x00000C, 1, 0x0, 1, 0x0, [⟨31, 0, .ro, false, false, 0⟩]⟩,
  -- LCTL_STROBE (chapter 01)
  ⟨0x000010, 1, 0x0, 1, 0x0, [⟨31, 16, .rc, false, false, 0⟩, ⟨15, 8, .ro, false, false, 0⟩, ⟨1, 1, .rc, false, false, 0⟩, ⟨0, 0, .rc, false, false, 0⟩]⟩,
  -- LCTL_CLKSTAT (chapter 01)
  ⟨0x000014, 1, 0x0, 1, 0x0, [⟨8, 8, .ro, true, false, 0⟩, ⟨7, 7, .ro, false, false, 0⟩, ⟨6, 6, .ro, false, false, 0⟩, ⟨5, 5, .ro, false, false, 0⟩, ⟨4, 4, .ro, false, false, 0⟩, ⟨3, 3, .ro, false, false, 0⟩, ⟨2, 2, .ro, false, false, 0⟩, ⟨1, 1, .ro, false, false, 0⟩, ⟨0, 0, .ro, false, false, 0⟩]⟩,
  -- LCTL_RJSTAT (chapter 13)
  ⟨0x000020, 1, 0x0, 1, 0x0, [⟨31, 24, .ro, false, false, 0⟩, ⟨15, 8, .ro, false, false, 0⟩, ⟨7, 7, .ro, false, false, 0⟩, ⟨6, 6, .ro, false, false, 0⟩, ⟨2, 0, .ro, false, false, 0⟩]⟩,
  -- LCTL_LOCKV (chapter 15)
  ⟨0x000030, 1, 0x0, 1, 0x0, [⟨31, 31, .rc, false, false, 0⟩, ⟨23, 0, .ro, false, false, 0⟩]⟩,
  -- LCTL_PSPAGE (chapter 15)
  ⟨0x000034, 1, 0x0, 1, 0x0, [⟨3, 0, .rw, false, false, 0⟩]⟩]

/-- Registers of unit AIN. -/
def regTableAIN : List RegDesc := [
  -- AIN_CLIPSEEN (chapter 01)
  ⟨0x030000, 1, 0x0, 1, 0x0, [⟨31, 0, .rc, false, false, 0⟩]⟩,
  -- AIN_OVLD (chapter 01)
  ⟨0x030004, 1, 0x0, 1, 0x0, [⟨31, 0, .rc, true, false, 0⟩]⟩,
  -- AIN_RAW (chapter 01)
  ⟨0x030040, 32, 0x4, 1, 0x0, [⟨16, 16, .ro, true, false, 0⟩, ⟨15, 0, .ro, true, false, 0⟩]⟩,
  -- AIN_AGREED (chapter 01)
  ⟨0x0300C0, 32, 0x4, 1, 0x0, [⟨16, 16, .ro, false, false, 0⟩, ⟨15, 0, .ro, false, false, 0⟩]⟩]

/-- Registers of unit DIN. -/
def regTableDIN : List RegDesc := [
  -- DIN_RAWLO (chapter 01)
  ⟨0x030140, 1, 0x0, 1, 0x0, [⟨31, 0, .ro, false, false, 0⟩]⟩,
  -- DIN_RAWHI (chapter 01)
  ⟨0x030144, 1, 0x0, 1, 0x0, [⟨31, 0, .ro, false, false, 0⟩]⟩,
  -- DIN_AGRLO (chapter 01)
  ⟨0x030148, 1, 0x0, 1, 0x0, [⟨31, 0, .ro, false, false, 0⟩]⟩,
  -- DIN_AGRHI (chapter 01)
  ⟨0x03014C, 1, 0x0, 1, 0x0, [⟨31, 0, .ro, false, false, 0⟩]⟩]

/-- Registers of unit XLNK. -/
def regTableXLNK : List RegDesc := [
  -- XLNK_STAT (chapter 02)
  ⟨0x0F0000, 1, 0x0, 1, 0x0, [⟨18, 16, .ro, false, false, 0⟩, ⟨11, 11, .ro, false, false, 0⟩, ⟨10, 10, .ro, false, false, 0⟩, ⟨9, 9, .ro, false, false, 0⟩, ⟨8, 8, .ro, false, false, 0⟩, ⟨3, 3, .rc, false, false, 0⟩, ⟨2, 2, .rc, false, false, 0⟩, ⟨1, 1, .rc, false, false, 0⟩, ⟨0, 0, .ro, false, false, 0⟩]⟩,
  -- XLNK_LAT (chapter 02)
  ⟨0x0F0004, 1, 0x0, 1, 0x0, [⟨31, 16, .rc, false, false, 0⟩, ⟨15, 0, .ro, false, false, 0⟩]⟩,
  -- XLNK_ERR0 (chapter 02)
  ⟨0x0F0008, 1, 0x0, 1, 0x0, [⟨31, 16, .rc, false, false, 0⟩, ⟨15, 8, .rc, false, false, 0⟩, ⟨7, 0, .rc, false, false, 0⟩]⟩,
  -- XLNK_ERR1 (chapter 02)
  ⟨0x0F000C, 1, 0x0, 1, 0x0, [⟨31, 16, .rc, false, false, 0⟩, ⟨15, 8, .rc, false, false, 0⟩, ⟨7, 0, .rc, false, false, 0⟩]⟩,
  -- XLNK_SETS (chapter 02)
  ⟨0x0F0010, 1, 0x0, 1, 0x0, [⟨31, 16, .rc, false, false, 0⟩, ⟨15, 0, .rc, false, false, 0⟩]⟩,
  -- XLNK_LASTBAD (chapter 02)
  ⟨0x0F0014, 1, 0x0, 1, 0x0, [⟨31, 30, .ro, false, false, 0⟩, ⟨29, 29, .ro, false, false, 0⟩, ⟨15, 0, .ro, false, false, 0⟩]⟩,
  -- XLNK_FRAMES (chapter 02)
  ⟨0x0F0018, 1, 0x0, 1, 0x0, [⟨31, 16, .rc, false, false, 0⟩, ⟨15, 0, .rc, false, false, 0⟩]⟩,
  -- XLNK_DUPS (chapter 02)
  ⟨0x0F001C, 1, 0x0, 1, 0x0, [⟨31, 0, .rc, false, false, 0⟩]⟩]

/-- Registers of unit ARB. -/
def regTableARB : List RegDesc := [
  -- ARB_MEMBER (chapter 02)
  ⟨0xF00100, 1, 0x0, 1, 0x0, [⟨5, 4, .ro, true, false, 0⟩, ⟨2, 0, .ro, true, false, 0⟩]⟩,
  -- ARB_VSTAT (chapter 02)
  ⟨0xF00104, 1, 0x0, 1, 0x0, [⟨31, 16, .rc, false, false, 0⟩, ⟨6, 4, .rc, false, false, 0⟩, ⟨0, 0, .rc, false, false, 0⟩]⟩,
  -- ARB_VMISADDR (chapter 02)
  ⟨0xF00108, 1, 0x0, 1, 0x0, [⟨25, 0, .ro, false, false, 0⟩]⟩,
  -- ARB_ODISA (chapter 02)
  ⟨0xF00110, 1, 0x0, 1, 0x0, [⟨31, 16, .rc, true, false, 0⟩, ⟨9, 0, .ro, true, false, 0⟩]⟩,
  -- ARB_ODISB (chapter 02)
  ⟨0xF00114, 1, 0x0, 1, 0x0, [⟨31, 16, .rc, true, false, 0⟩, ⟨9, 0, .ro, true, false, 0⟩]⟩,
  -- ARB_ODISC (chapter 02)
  ⟨0xF00118, 1, 0x0, 1, 0x0, [⟨31, 16, .rc, true, false, 0⟩, ⟨9, 0, .ro, true, false, 0⟩]⟩,
  -- ARB_OSTAT (chapter 02)
  ⟨0xF0011C, 1, 0x0, 1, 0x0, [⟨31, 16, .rc, true, false, 0⟩, ⟨2, 2, .rc, false, false, 0⟩, ⟨1, 1, .rc, false, false, 0⟩, ⟨0, 0, .ro, true, false, 0⟩]⟩,
  -- ARB_TAMPSTAT (chapter 11)
  ⟨0xF00200, 1, 0x0, 1, 0x0, [⟨31, 28, .rc, true, false, 0⟩, ⟨23, 20, .ro, true, false, 0⟩, ⟨19, 16, .ro, true, false, 0⟩, ⟨3, 2, .ro, true, false, 0⟩, ⟨1, 1, .rc, true, false, 0⟩, ⟨0, 0, .ro, true, false, 0⟩]⟩,
  -- ARB_TAMPACK (chapter 11)
  ⟨0xF00204, 1, 0x0, 1, 0x0, [⟨0, 0, .cmd, false, true, 0⟩]⟩,
  -- ARB_TAMPLOGLO (chapter 11)
  ⟨0xF00210, 4, 0x8, 1, 0x0, [⟨31, 0, .ro, true, false, 0⟩]⟩,
  -- ARB_TAMPLOGHI (chapter 11)
  ⟨0xF00214, 4, 0x8, 1, 0x0, [⟨23, 22, .ro, true, false, 0⟩, ⟨20, 20, .ro, true, false, 0⟩, ⟨15, 0, .ro, true, false, 0⟩]⟩,
  -- ARB_ROLLCFG (chapter 13)
  ⟨0xF00300, 1, 0x0, 1, 0x0, [⟨25, 16, .ro, true, false, 1000⟩, ⟨15, 8, .ro, true, false, 3⟩, ⟨4, 0, .ro, true, false, 0⟩]⟩,
  -- ARB_LANESTAT (chapter 13)
  ⟨0xF00304, 3, 0x4, 1, 0x0, [⟨31, 24, .ro, true, false, 0⟩, ⟨23, 16, .ro, true, false, 0⟩, ⟨11, 8, .ro, true, false, 0⟩, ⟨5, 5, .ro, true, false, 0⟩, ⟨4, 4, .ro, true, false, 0⟩, ⟨2, 0, .ro, true, false, 0⟩]⟩,
  -- ARB_EXCNT (chapter 13)
  ⟨0xF00310, 1, 0x0, 1, 0x0, [⟨31, 16, .rc, true, false, 0⟩, ⟨15, 0, .rc, true, false, 0⟩]⟩,
  -- ARB_JOIN (chapter 13)
  ⟨0xF00314, 1, 0x0, 1, 0x0, [⟨31, 30, .ro, true, false, 0⟩, ⟨29, 28, .ro, true, false, 0⟩, ⟨27, 24, .ro, true, false, 0⟩, ⟨23, 16, .rc, true, false, 0⟩, ⟨15, 8, .rc, true, false, 0⟩, ⟨7, 0, .ro, true, false, 0⟩]⟩,
  -- ARB_EXCLUDE (chapter 13)
  ⟨0xF00318, 1, 0x0, 1, 0x0, [⟨31, 31, .cmd, false, true, 0⟩, ⟨8, 8, .ro, false, false, 0⟩, ⟨1, 0, .wo, false, true, 0⟩]⟩,
  -- ARB_REJOIN (chapter 13)
  ⟨0xF0031C, 1, 0x0, 1, 0x0, [⟨31, 31, .cmd, false, true, 0⟩, ⟨8, 8, .ro, false, false, 0⟩, ⟨1, 0, .wo, false, true, 0⟩]⟩,
  -- ARB_HOLD (chapter 13)
  ⟨0xF00320, 1, 0x0, 1, 0x0, [⟨31, 24, .rc, true, false, 0⟩, ⟨23, 16, .rc, true, false, 0⟩, ⟨1, 0, .ro, true, false, 0⟩]⟩,
  -- ARB_VBAT (chapter 14)
  ⟨0xF00400, 1, 0x0, 1, 0x0, [⟨31, 16, .ro, true, false, 0⟩, ⟨3, 3, .ro, true, false, 0⟩, ⟨2, 2, .ro, true, false, 0⟩, ⟨1, 1, .ro, true, false, 0⟩, ⟨0, 0, .ro, true, false, 0⟩]⟩,
  -- ARB_HERR (chapter 15)
  ⟨0xF00500, 1, 0x0, 1, 0x0, [⟨31, 24, .rc, false, false, 0⟩, ⟨23, 16, .rc, false, false, 0⟩, ⟨15, 8, .rc, false, false, 0⟩, ⟨4, 4, .ro, false, false, 0⟩, ⟨3, 3, .rc, false, false, 0⟩, ⟨2, 2, .rc, false, false, 0⟩, ⟨1, 1, .rc, false, false, 0⟩, ⟨0, 0, .rc, false, false, 0⟩]⟩,
  -- ARB_HERRADDR (chapter 15)
  ⟨0xF00504, 1, 0x0, 1, 0x0, [⟨31, 30, .ro, false, false, 0⟩, ⟨25, 0, .ro, false, false, 0⟩]⟩,
  -- ARB_HERRINFO (chapter 15)
  ⟨0xF00508, 1, 0x0, 1, 0x0, [⟨31, 28, .ro, false, false, 0⟩, ⟨27, 27, .ro, false, false, 0⟩, ⟨23, 16, .ro, false, false, 0⟩, ⟨7, 4, .ro, false, false, 0⟩, ⟨3, 0, .ro, false, false, 0⟩]⟩,
  -- ARB_IRQSTAT (chapter 15)
  ⟨0xF00510, 1, 0x0, 1, 0x0, [⟨12, 0, .rc, false, false, 0⟩]⟩,
  -- ARB_IRQEN (chapter 15)
  ⟨0xF00514, 1, 0x0, 1, 0x0, [⟨12, 0, .rw, false, false, 0⟩]⟩,
  -- ARB_MBXH2DP (chapter 15)
  ⟨0x100C000, 1, 0x0, 1, 0x0, [⟨7, 0, .rw, false, false, 0⟩]⟩,
  -- ARB_MBXH2DC (chapter 15)
  ⟨0x100C004, 1, 0x0, 1, 0x0, [⟨7, 0, .ro, false, false, 0⟩]⟩,
  -- ARB_MBXD2HP (chapter 15)
  ⟨0x100C008, 1, 0x0, 1, 0x0, [⟨7, 0, .ro, false, false, 0⟩]⟩,
  -- ARB_MBXD2HC (chapter 15)
  ⟨0x100C00C, 1, 0x0, 1, 0x0, [⟨7, 0, .rw, false, false, 0⟩]⟩,
  -- ARB_MBXSTAT (chapter 15)
  ⟨0x100C010, 1, 0x0, 1, 0x0, [⟨31, 24, .rc, false, false, 0⟩, ⟨20, 16, .ro, false, false, 0⟩, ⟨15, 8, .rc, false, false, 0⟩, ⟨3, 3, .rc, false, false, 0⟩, ⟨2, 2, .rc, false, false, 0⟩, ⟨1, 1, .ro, false, false, 0⟩, ⟨0, 0, .ro, false, false, 0⟩]⟩,
  -- ARB_RSTCAUSE (chapter 16)
  ⟨0xF00600, 1, 0x0, 1, 0x0, [⟨31, 31, .ro, false, false, 0⟩, ⟨23, 12, .ro, false, false, 0⟩, ⟨11, 8, .ro, false, false, 0⟩, ⟨5, 5, .ro, false, false, 0⟩, ⟨4, 4, .ro, false, false, 0⟩, ⟨3, 3, .ro, false, false, 0⟩, ⟨2, 2, .ro, false, false, 0⟩, ⟨1, 1, .ro, false, false, 0⟩, ⟨0, 0, .ro, false, false, 0⟩]⟩,
  -- ARB_RSTHOLD (chapter 16)
  ⟨0xF00604, 1, 0x0, 1, 0x0, [⟨31, 0, .ro, false, false, 0⟩]⟩]

/-- Registers of unit ASM. -/
def regTableASM : List RegDesc := [
  -- ASM_STAT (chapter 03)
  ⟨0x060000, 1, 0x0, 1, 0x0, [⟨11, 11, .ro, false, false, 1⟩, ⟨10, 10, .rc, false, false, 0⟩, ⟨9, 9, .rc, false, false, 0⟩, ⟨8, 8, .rc, false, false, 0⟩, ⟨4, 4, .ro, false, false, 0⟩, ⟨2, 0, .ro, false, false, 0⟩]⟩,
  -- ASM_MVER (chapter 03)
  ⟨0x060004, 1, 0x0, 1, 0x0, [⟨31, 0, .ro, false, false, 0⟩]⟩,
  -- ASM_REFUSE (chapter 03)
  ⟨0x060008, 1, 0x0, 1, 0x0, [⟨31, 24, .ro, false, false, 0⟩, ⟨23, 16, .ro, false, false, 0⟩, ⟨15, 0, .ro, false, false, 0⟩]⟩,
  -- ASM_REFROW (chapter 03)
  ⟨0x06000C, 1, 0x0, 1, 0x0, [⟨31, 0, .ro, false, false, 0⟩]⟩,
  -- ASM_SNAPLO (chapter 03)
  ⟨0x060010, 1, 0x0, 1, 0x0, [⟨31, 0, .ro, false, false, 0⟩]⟩,
  -- ASM_SNAPHI (chapter 03)
  ⟨0x060014, 1, 0x0, 1, 0x0, [⟨31, 0, .ro, false, false, 0⟩]⟩,
  -- ASM_NSIGLO (chapter 03)
  ⟨0x060018, 1, 0x0, 1, 0x0, [⟨31, 0, .ro, false, false, 0⟩]⟩,
  -- ASM_NSIGHI (chapter 03)
  ⟨0x06001C, 1, 0x0, 1, 0x0, [⟨31, 0, .ro, false, false, 0⟩]⟩,
  -- ASM_TIME (chapter 03)
  ⟨0x060020, 1, 0x0, 1, 0x0, [⟨31, 16, .rc, false, false, 0⟩, ⟨15, 0, .ro, false, false, 0⟩]⟩,
  -- ASM_CNT (chapter 03)
  ⟨0x060024, 1, 0x0, 1, 0x0, [⟨31, 19, .ro, false, false, 0⟩, ⟨18, 11, .ro, false, false, 0⟩, ⟨10, 5, .ro, false, false, 0⟩, ⟨4, 0, .ro, false, false, 0⟩]⟩,
  -- ASM_HAMP (chapter 03)
  ⟨0x060028, 1, 0x0, 1, 0x0, [⟨31, 26, .ro, false, false, 0⟩, ⟨25, 13, .ro, false, false, 0⟩, ⟨12, 0, .ro, false, false, 0⟩]⟩]

/-- Registers of unit SOLV. -/
def regTableSOLV : List RegDesc := [
  -- SOLV_STAT (chapter 04)
  ⟨0x070000, 1, 0x0, 1, 0x0, [⟨31, 24, .ro, false, false, 0⟩, ⟨23, 16, .ro, false, false, 0⟩, ⟨15, 10, .ro, false, false, 0⟩, ⟨7, 5, .ro, false, false, 0⟩, ⟨3, 3, .rc, false, false, 0⟩, ⟨2, 2, .rc, false, false, 0⟩, ⟨1, 1, .rc, false, false, 0⟩, ⟨0, 0, .ro, false, false, 0⟩]⟩,
  -- SOLV_PUB (chapter 04)
  ⟨0x070004, 1, 0x0, 1, 0x0, [⟨31, 24, .ro, false, false, 0⟩, ⟨23, 16, .ro, false, false, 0⟩, ⟨15, 0, .ro, false, false, 0⟩]⟩,
  -- SOLV_PFLAGS (chapter 04)
  ⟨0x070008, 1, 0x0, 1, 0x0, [⟨31, 19, .ro, false, false, 0⟩, ⟨7, 7, .ro, false, false, 0⟩, ⟨6, 6, .ro, false, false, 0⟩, ⟨5, 5, .ro, false, false, 0⟩, ⟨4, 4, .ro, false, false, 0⟩, ⟨3, 3, .ro, false, false, 0⟩, ⟨2, 2, .ro, false, false, 0⟩, ⟨1, 1, .ro, false, false, 0⟩, ⟨0, 0, .ro, false, false, 0⟩]⟩,
  -- SOLV_PUBSLOTLO (chapter 04)
  ⟨0x07000C, 1, 0x0, 1, 0x0, [⟨31, 0, .ro, false, false, 0⟩]⟩,
  -- SOLV_PUBSLOTHI (chapter 04)
  ⟨0x070010, 1, 0x0, 1, 0x0, [⟨31, 0, .ro, false, false, 0⟩]⟩,
  -- SOLV_RESP (chapter 04)
  ⟨0x070014, 1, 0x0, 1, 0x0, [⟨31, 0, .ro, false, false, 0⟩]⟩,
  -- SOLV_RESD (chapter 04)
  ⟨0x070018, 1, 0x0, 1, 0x0, [⟨31, 0, .ro, false, false, 0⟩]⟩,
  -- SOLV_TIMING (chapter 04)
  ⟨0x07001C, 1, 0x0, 1, 0x0, [⟨31, 16, .rc, false, false, 0⟩, ⟨15, 0, .ro, false, false, 0⟩]⟩,
  -- SOLV_TFACT (chapter 04)
  ⟨0x070020, 1, 0x0, 1, 0x0, [⟨31, 0, .ro, false, false, 0⟩]⟩,
  -- SOLV_TFS (chapter 04)
  ⟨0x070024, 1, 0x0, 1, 0x0, [⟨31, 0, .ro, false, false, 0⟩]⟩,
  -- SOLV_RETLO (chapter 04)
  ⟨0x070028, 1, 0x0, 1, 0x0, [⟨31, 0, .ro, false, false, 0⟩]⟩,
  -- SOLV_RETHI (chapter 04)
  ⟨0x07002C, 1, 0x0, 1, 0x0, [⟨15, 0, .ro, false, false, 0⟩]⟩,
  -- SOLV_CNT (chapter 04)
  ⟨0x070030, 1, 0x0, 1, 0x0, [⟨31, 16, .rc, false, false, 0⟩, ⟨15, 0, .rc, false, false, 0⟩]⟩,
  -- SOLV_CMD (chapter 04)
  ⟨0x070034, 1, 0x0, 1, 0x0, [⟨1, 1, .cmd, false, true, 0⟩, ⟨0, 0, .cmd, false, true, 0⟩]⟩]

/-- Registers of unit LENG. -/
def regTableLENG : List RegDesc := [
  -- LENG_STAT (chapter 05)
  ⟨0x040000, 1, 0x0, 1, 0x0, [⟨31, 16, .rc, false, false, 0⟩, ⟨4, 4, .rc, false, false, 0⟩, ⟨3, 3, .rc, false, false, 0⟩, ⟨2, 2, .rc, false, false, 0⟩, ⟨0, 0, .ro, false, false, 0⟩]⟩,
  -- LENG_NFLAST (chapter 05)
  ⟨0x040004, 1, 0x0, 1, 0x0, [⟨24, 16, .ro, false, false, 0⟩, ⟨15, 0, .ro, false, false, 0⟩]⟩,
  -- LENG_SECLOAD (chapter 05)
  ⟨0x040008, 1, 0x0, 1, 0x0, [⟨27, 16, .rc, false, false, 0⟩, ⟨11, 0, .ro, false, false, 0⟩]⟩,
  -- LENG_EMIT (chapter 05)
  ⟨0x04000C, 1, 0x0, 1, 0x0, [⟨31, 16, .rc, false, false, 0⟩, ⟨15, 0, .ro, false, false, 0⟩]⟩,
  -- LENG_BANKSEL (chapter 05)
  ⟨0x040040, 1, 0x0, 1, 0x0, [⟨31, 31, .cmd, false, true, 0⟩, ⟨30, 30, .rw, false, true, 0⟩, ⟨19, 16, .rw, false, true, 0⟩, ⟨10, 10, .ro, false, false, 0⟩, ⟨9, 9, .ro, false, false, 0⟩, ⟨8, 0, .rw, false, true, 0⟩]⟩,
  -- LENG_SWAPCNT (chapter 05)
  ⟨0x040044, 1, 0x0, 1, 0x0, [⟨31, 16, .rc, false, false, 0⟩, ⟨15, 0, .rc, false, false, 0⟩]⟩,
  -- LENG_LOOPCMD (chapter 05)
  ⟨0x040048, 1, 0x0, 1, 0x0, [⟨31, 31, .cmd, false, true, 0⟩, ⟨8, 0, .rw, false, true, 0⟩]⟩,
  -- LENG_TRPAGE (chapter 05)
  ⟨0x040060, 1, 0x0, 1, 0x0, [⟨19, 16, .rw, false, false, 0⟩, ⟨3, 0, .rw, false, false, 0⟩]⟩,
  -- LENG_TRSRC (chapter 05)
  ⟨0x040100, 16, 0x20, 1, 0x0, [⟨26, 24, .rw, false, false, 0⟩, ⟨19, 16, .rw, false, false, 0⟩, ⟨8, 0, .rw, false, false, 0⟩]⟩,
  -- LENG_TRTRIG (chapter 05)
  ⟨0x040104, 16, 0x20, 1, 0x0, [⟨31, 28, .rw, false, false, 0⟩, ⟨27, 24, .rw, false, false, 0⟩, ⟨22, 16, .rw, false, false, 0⟩]⟩,
  -- LENG_TRLEVLO (chapter 05)
  ⟨0x040108, 16, 0x20, 1, 0x0, [⟨31, 0, .rw, false, false, 0⟩]⟩,
  -- LENG_TRLEVHI (chapter 05)
  ⟨0x04010C, 16, 0x20, 1, 0x0, [⟨31, 0, .rw, false, false, 0⟩]⟩,
  -- LENG_TRDEPTH (chapter 05)
  ⟨0x040110, 16, 0x20, 1, 0x0, [⟨20, 0, .rw, false, false, 16384⟩]⟩,
  -- LENG_TRCMD (chapter 05)
  ⟨0x040114, 16, 0x20, 1, 0x0, [⟨2, 2, .cmd, false, true, 0⟩, ⟨1, 1, .cmd, false, true, 0⟩, ⟨0, 0, .cmd, false, true, 0⟩]⟩,
  -- LENG_TRSTAT (chapter 05)
  ⟨0x040118, 16, 0x20, 1, 0x0, [⟨31, 30, .ro, false, false, 0⟩, ⟨28, 28, .rc, false, false, 0⟩, ⟨20, 0, .ro, false, false, 0⟩]⟩,
  -- LENG_TRPTR (chapter 05)
  ⟨0x04011C, 16, 0x20, 1, 0x0, [⟨20, 0, .ro, false, false, 0⟩]⟩]

/-- Registers of unit LSEQ. -/
def regTableLSEQ : List RegDesc := [
  -- LSEQ_STAT (chapter 06)
  ⟨0x050000, 1, 0x0, 1, 0x0, [⟨19, 16, .ro, false, false, 0⟩, ⟨8, 8, .ro, false, false, 0⟩, ⟨7, 7, .rc, false, false, 0⟩, ⟨6, 6, .rc, false, false, 0⟩, ⟨5, 5, .rc, false, false, 0⟩, ⟨4, 4, .ro, false, false, 0⟩, ⟨3, 3, .rc, false, false, 0⟩, ⟨2, 0, .ro, false, false, 0⟩]⟩,
  -- LSEQ_CYCLE (chapter 06)
  ⟨0x050004, 1, 0x0, 1, 0x0, [⟨31, 16, .ro, false, false, 0⟩, ⟨7, 0, .ro, false, false, 80⟩]⟩,
  -- LSEQ_EXEC (chapter 06)
  ⟨0x050008, 1, 0x0, 1, 0x0, [⟨31, 16, .rc, false, false, 0⟩, ⟨15, 0, .ro, false, false, 0⟩]⟩,
  -- LSEQ_WCET (chapter 06)
  ⟨0x05000C, 1, 0x0, 1, 0x0, [⟨31, 0, .ro, false, false, 0⟩]⟩,
  -- LSEQ_LOADRES (chapter 06)
  ⟨0x050010, 1, 0x0, 1, 0x0, [⟨31, 24, .ro, false, false, 0⟩, ⟨17, 0, .ro, false, false, 0⟩]⟩,
  -- LSEQ_STOPAT (chapter 06)
  ⟨0x050014, 1, 0x0, 1, 0x0, [⟨17, 0, .ro, false, false, 0⟩]⟩,
  -- LSEQ_CMD (chapter 06)
  ⟨0x050018, 1, 0x0, 1, 0x0, [⟨1, 1, .cmd, false, true, 0⟩, ⟨0, 0, .wo, false, true, 0⟩]⟩,
  -- LSEQ_FORCE (chapter 06)
  ⟨0x05001C, 1, 0x0, 1, 0x0, [⟨31, 24, .rc, false, false, 0⟩, ⟨23, 16, .rc, false, false, 0⟩, ⟨10, 0, .ro, false, false, 0⟩]⟩,
  -- LSEQ_LTLO (chapter 06)
  ⟨0x050020, 1, 0x0, 1, 0x0, [⟨31, 0, .ro, false, false, 0⟩]⟩,
  -- LSEQ_LTHI (chapter 06)
  ⟨0x050024, 1, 0x0, 1, 0x0, [⟨31, 0, .ro, false, false, 0⟩]⟩,
  -- LSEQ_TBCORR (chapter 06)
  ⟨0x050028, 1, 0x0, 1, 0x0, [⟨31, 31, .ro, false, false, 0⟩, ⟨30, 30, .rc, false, false, 0⟩, ⟨23, 0, .ro, false, false, 0⟩]⟩,
  -- LSEQ_IMAGEID (chapter 06)
  ⟨0x05002C, 1, 0x0, 1, 0x0, [⟨31, 0, .ro, false, false, 0⟩]⟩]

/-- Registers of unit MTR. -/
def regTableMTR : List RegDesc := [
  -- MTR_STAT (chapter 07)
  ⟨0x010000, 1, 0x0, 1, 0x0, [⟨11, 8, .ro, false, false, 0⟩, ⟨7, 4, .rc, false, false, 0⟩, ⟨2, 2, .rc, false, false, 0⟩, ⟨1, 1, .ro, false, false, 0⟩, ⟨0, 0, .ro, false, false, 0⟩]⟩,
  -- MTR_ZCTO (chapter 07)
  ⟨0x010004, 1, 0x0, 1, 0x0, [⟨31, 24, .rc, false, false, 0⟩, ⟨23, 16, .rc, false, false, 0⟩, ⟨15, 8, .rc, false, false, 0⟩, ⟨7, 0, .rc, false, false, 0⟩]⟩,
  -- MTR_LATCHSEQ (chapter 07)
  ⟨0x010010, 4, 0x4, 1, 0x0, [⟨31, 0, .ro, false, false, 0⟩]⟩,
  -- MTR_CLIPSEEN (chapter 07)
  ⟨0x010020, 1, 0x0, 1, 0x0, [⟨23, 0, .rc, false, false, 0⟩]⟩,
  -- MTR_OVLD (chapter 07)
  ⟨0x010024, 1, 0x0, 1, 0x0, [⟨23, 0, .rc, true, false, 0⟩]⟩,
  -- MTR_RAW (chapter 07)
  ⟨0x010040, 24, 0x4, 1, 0x0, [⟨24, 24, .ro, true, false, 0⟩, ⟨23, 0, .ro, true, false, 0⟩]⟩,
  -- MTR_ELO (chapter 07)
  ⟨0x010400, 4, 0x120, 36, 0x8, [⟨31, 0, .ro, false, false, 0⟩]⟩,
  -- MTR_EHI (chapter 07)
  ⟨0x010404, 4, 0x120, 36, 0x8, [⟨31, 0, .ro, false, false, 0⟩]⟩,
  -- MTR_WRAP (chapter 07)
  ⟨0x010900, 4, 0x48, 18, 0x4, [⟨31, 16, .ro, false, false, 0⟩, ⟨15, 0, .ro, false, false, 0⟩]⟩,
  -- MTR_WLATCH (chapter 07)
  ⟨0x010A40, 1, 0x0, 1, 0x0, [⟨15, 0, .ro, false, false, 0⟩]⟩,
  -- MTR_ZCLAST (chapter 07)
  ⟨0x010A50, 4, 0x4, 1, 0x0, [⟨31, 13, .ro, false, false, 0⟩, ⟨12, 0, .ro, false, false, 0⟩]⟩]

/-- Registers of unit THM. -/
def regTableTHM : List RegDesc := [
  -- THM_STAT (chapter 08)
  ⟨0x020000, 1, 0x0, 1, 0x0, [⟨31, 24, .ro, false, false, 0⟩, ⟨23, 16, .rc, false, false, 0⟩, ⟨15, 0, .ro, false, false, 0⟩]⟩,
  -- THM_TOTSTAT (chapter 08)
  ⟨0x020004, 1, 0x0, 1, 0x0, [⟨6, 6, .ro, false, false, 0⟩, ⟨5, 5, .rc, false, false, 0⟩, ⟨4, 4, .rc, false, false, 0⟩, ⟨3, 3, .rc, false, false, 0⟩, ⟨2, 2, .ro, false, false, 0⟩, ⟨1, 1, .ro, false, false, 0⟩, ⟨0, 0, .ro, false, false, 0⟩]⟩,
  -- THM_TSEQ (chapter 08)
  ⟨0x020008, 1, 0x0, 1, 0x0, [⟨31, 0, .ro, false, false, 0⟩]⟩,
  -- THM_LATCHSEQ (chapter 08)
  ⟨0x020010, 8, 0x4, 1, 0x0, [⟨31, 0, .ro, false, false, 0⟩]⟩,
  -- THM_RAW (chapter 08)
  ⟨0x020040, 16, 0x4, 1, 0x0, [⟨31, 24, .ro, true, false, 0⟩, ⟨23, 0, .ro, true, false, 0⟩]⟩,
  -- THM_PULSERAW (chapter 08)
  ⟨0x020080, 16, 0x4, 1, 0x0, [⟨31, 0, .ro, true, false, 0⟩]⟩,
  -- THM_ELO (chapter 08)
  ⟨0x020100, 8, 0x20, 4, 0x8, [⟨31, 0, .ro, false, false, 0⟩]⟩,
  -- THM_EHI (chapter 08)
  ⟨0x020104, 8, 0x20, 4, 0x8, [⟨31, 0, .ro, false, false, 0⟩]⟩,
  -- THM_WRAP (chapter 08)
  ⟨0x020200, 8, 0x8, 2, 0x4, [⟨31, 16, .ro, false, false, 0⟩, ⟨15, 0, .ro, false, false, 0⟩]⟩,
  -- THM_WLATCH (chapter 08)
  ⟨0x020240, 1, 0x0, 1, 0x0, [⟨15, 0, .ro, false, false, 0⟩]⟩,
  -- THM_VPOSTAT (chapter 08)
  ⟨0x020300, 16, 0x8, 1, 0x0, [⟨18, 18, .rc, false, false, 0⟩, ⟨17, 17, .ro, false, false, 0⟩, ⟨16, 16, .ro, false, false, 0⟩, ⟨15, 0, .ro, false, false, 0⟩]⟩,
  -- THM_VPOCNT (chapter 08)
  ⟨0x020304, 16, 0x8, 1, 0x0, [⟨31, 16, .rc, false, false, 0⟩, ⟨15, 0, .ro, false, false, 0⟩]⟩]

/-- Registers of unit PORT. -/
def regTablePORT : List RegDesc := [
  -- PORT_STAT (chapter 09)
  ⟨0x080000, 1, 0x0, 1, 0x0, [⟨16, 16, .ro, false, false, 0⟩, ⟨15, 0, .ro, false, false, 0⟩]⟩,
  -- PORT_NDSTAT (chapter 09)
  ⟨0x080004, 1, 0x0, 1, 0x0, [⟨17, 17, .rc, false, false, 0⟩, ⟨16, 16, .rc, false, false, 0⟩, ⟨15, 0, .ro, false, false, 0⟩]⟩,
  -- PORT_LINK (chapter 09)
  ⟨0x080100, 16, 0x20, 1, 0x0, [⟨31, 28, .ro, false, false, 0⟩, ⟨27, 24, .ro, false, false, 0⟩, ⟨23, 16, .rc, false, false, 0⟩, ⟨0, 0, .ro, false, false, 0⟩]⟩,
  -- PORT_RXCNT (chapter 09)
  ⟨0x080104, 16, 0x20, 1, 0x0, [⟨31, 0, .rc, false, false, 0⟩]⟩,
  -- PORT_TXCNT (chapter 09)
  ⟨0x080108, 16, 0x20, 1, 0x0, [⟨31, 0, .rc, false, false, 0⟩]⟩,
  -- PORT_RXDROP (chapter 09)
  ⟨0x08010C, 16, 0x20, 1, 0x0, [⟨31, 24, .rc, false, false, 0⟩, ⟨23, 16, .rc, false, false, 0⟩, ⟨15, 8, .rc, false, false, 0⟩, ⟨7, 0, .rc, false, false, 0⟩]⟩,
  -- PORT_TXDROP (chapter 09)
  ⟨0x080110, 16, 0x20, 1, 0x0, [⟨31, 16, .rc, false, false, 0⟩, ⟨15, 0, .rc, false, false, 0⟩]⟩,
  -- PORT_GATE (chapter 09)
  ⟨0x080114, 16, 0x20, 1, 0x0, [⟨31, 31, .ro, false, false, 0⟩, ⟨30, 30, .ro, false, false, 0⟩, ⟨23, 16, .ro, false, false, 0⟩, ⟨7, 0, .ro, false, false, 255⟩]⟩]

/-- Registers of unit TIME. -/
def regTableTIME : List RegDesc := [
  -- TIME_STAT (chapter 09)
  ⟨0x090000, 1, 0x0, 1, 0x0, [⟨12, 12, .rc, false, false, 0⟩, ⟨11, 8, .ro, false, false, 0⟩, ⟨6, 6, .rc, false, false, 0⟩, ⟨5, 5, .ro, false, false, 0⟩, ⟨4, 4, .ro, false, false, 0⟩, ⟨3, 3, .ro, false, false, 0⟩]⟩,
  -- TIME_CLKNS (chapter 09)
  ⟨0x090010, 1, 0x0, 1, 0x0, [⟨29, 0, .ro, false, false, 0⟩]⟩,
  -- TIME_CLKSLO (chapter 09)
  ⟨0x090014, 1, 0x0, 1, 0x0, [⟨31, 0, .ro, false, false, 0⟩]⟩,
  -- TIME_CLKSHI (chapter 09)
  ⟨0x090018, 1, 0x0, 1, 0x0, [⟨31, 16, .ro, false, false, 0⟩, ⟨15, 0, .ro, false, false, 0⟩]⟩,
  -- TIME_OFFSET (chapter 09)
  ⟨0x090020, 1, 0x0, 1, 0x0, [⟨31, 0, .ro, false, false, 0⟩]⟩,
  -- TIME_FREQ (chapter 09)
  ⟨0x090024, 1, 0x0, 1, 0x0, [⟨31, 0, .ro, false, false, 0⟩]⟩,
  -- TIME_PATHDLY (chapter 09)
  ⟨0x090028, 1, 0x0, 1, 0x0, [⟨31, 0, .ro, false, false, 0⟩]⟩,
  -- TIME_STEPS (chapter 09)
  ⟨0x09002C, 1, 0x0, 1, 0x0, [⟨31, 16, .rc, false, false, 0⟩, ⟨15, 0, .rc, false, false, 0⟩]⟩,
  -- TIME_LAT (chapter 09)
  ⟨0x090100, 16, 0x4, 1, 0x0, [⟨31, 16, .ro, false, false, 0⟩, ⟨15, 0, .ro, false, false, 0⟩]⟩,
  -- TIME_EVHDR (chapter 09)
  ⟨0x090200, 1, 0x0, 1, 0x0, [⟨31, 31, .ro, false, false, 0⟩, ⟨30, 30, .rc, false, false, 0⟩, ⟨15, 8, .ro, false, false, 0⟩, ⟨4, 4, .ro, false, false, 0⟩, ⟨1, 0, .ro, false, false, 0⟩]⟩,
  -- TIME_EVNS (chapter 09)
  ⟨0x090204, 1, 0x0, 1, 0x0, [⟨29, 0, .ro, false, false, 0⟩]⟩,
  -- TIME_EVSLO (chapter 09)
  ⟨0x090208, 1, 0x0, 1, 0x0, [⟨31, 0, .ro, false, false, 0⟩]⟩,
  -- TIME_EVSHI (chapter 09)
  ⟨0x09020C, 1, 0x0, 1, 0x0, [⟨31, 16, .ro, false, false, 0⟩, ⟨15, 0, .ro, false, false, 0⟩]⟩,
  -- TIME_WMK (chapter 09)
  ⟨0x090300, 1, 0x0, 1, 0x0, [⟨11, 8, .ro, false, false, 0⟩, ⟨7, 4, .ro, false, false, 0⟩, ⟨3, 0, .ro, false, false, 0⟩]⟩]

/-- Registers of unit XACT. -/
def regTableXACT : List RegDesc := [
  -- XACT_STAT (chapter 10)
  ⟨0x0A0000, 1, 0x0, 1, 0x0, [⟨23, 16, .ro, false, false, 0⟩, ⟨15, 8, .ro, false, false, 0⟩, ⟨2, 2, .rc, false, false, 0⟩, ⟨1, 1, .rc, false, false, 0⟩, ⟨0, 0, .rc, false, false, 0⟩]⟩,
  -- XACT_COMMITNUM (chapter 10)
  ⟨0x0A0004, 1, 0x0, 1, 0x0, [⟨31, 0, .ro, false, false, 0⟩]⟩,
  -- XACT_CLAMPCNT (chapter 10)
  ⟨0x0A0008, 1, 0x0, 1, 0x0, [⟨31, 0, .ro, false, false, 0⟩]⟩,
  -- XACT_SESS (chapter 10)
  ⟨0x0A0010, 8, 0x4, 1, 0x0, [⟨31, 24, .ro, false, false, 254⟩, ⟨23, 8, .ro, false, false, 0⟩, ⟨7, 5, .ro, false, false, 5⟩, ⟨1, 0, .ro, false, false, 0⟩]⟩,
  -- XACT_RXERR (chapter 10)
  ⟨0x0A0040, 8, 0x4, 1, 0x0, [⟨31, 24, .rc, false, false, 0⟩, ⟨23, 16, .rc, false, false, 0⟩, ⟨15, 8, .rc, false, false, 0⟩, ⟨7, 0, .rc, false, false, 0⟩]⟩,
  -- XACT_RXCLOSED (chapter 10)
  ⟨0x0A0060, 8, 0x4, 1, 0x0, [⟨15, 0, .rc, false, false, 0⟩]⟩]

/-- Registers of unit KEY. -/
def regTableKEY : List RegDesc := [
  -- KEY_STAT (chapter 11)
  ⟨0x0B0000, 1, 0x0, 1, 0x0, [⟨31, 24, .ro, false, false, 0⟩, ⟨19, 18, .ro, false, false, 0⟩, ⟨17, 17, .ro, false, false, 0⟩, ⟨16, 16, .ro, false, false, 0⟩, ⟨7, 7, .ro, false, false, 0⟩, ⟨6, 6, .ro, false, false, 0⟩, ⟨2, 2, .rc, false, false, 0⟩, ⟨1, 1, .rc, false, false, 0⟩, ⟨0, 0, .ro, false, false, 0⟩]⟩,
  -- KEY_CNT (chapter 11)
  ⟨0x0B0004, 1, 0x0, 1, 0x0, [⟨31, 16, .rc, false, false, 0⟩, ⟨15, 0, .rc, false, false, 0⟩]⟩,
  -- KEY_PATH (chapter 11)
  ⟨0x0B0010, 1, 0x0, 1, 0x0, [⟨26, 24, .rw, false, true, 0⟩, ⟨15, 0, .rw, false, true, 0⟩]⟩,
  -- KEY_CMD (chapter 11)
  ⟨0x0B0014, 1, 0x0, 1, 0x0, [⟨31, 28, .cmd, false, true, 0⟩, ⟨6, 0, .wo, false, true, 0⟩]⟩,
  -- KEY_RESULT (chapter 11)
  ⟨0x0B0018, 1, 0x0, 1, 0x0, [⟨31, 24, .ro, false, false, 0⟩, ⟨23, 0, .ro, false, false, 0⟩]⟩,
  -- KEY_GEN (chapter 11)
  ⟨0x0B001C, 1, 0x0, 1, 0x0, [⟨31, 0, .ro, false, false, 0⟩]⟩,
  -- KEY_DATA (chapter 11)
  ⟨0x0B0100, 16, 0x4, 1, 0x0, [⟨31, 0, .rw, false, false, 0⟩]⟩,
  -- KEY_MAC (chapter 11)
  ⟨0x0B0140, 4, 0x4, 1, 0x0, [⟨31, 0, .ro, false, false, 0⟩]⟩]

/-- Registers of unit SAFE. -/
def regTableSAFE : List RegDesc := [
  -- SAFE_STAT (chapter 12)
  ⟨0xF80000, 1, 0x0, 1, 0x0, [⟨9, 9, .rc, true, false, 0⟩, ⟨8, 8, .rc, true, false, 0⟩, ⟨7, 7, .ro, true, false, 1⟩, ⟨6, 6, .ro, true, false, 0⟩, ⟨5, 5, .ro, true, false, 0⟩, ⟨4, 4, .ro, true, false, 0⟩, ⟨3, 3, .ro, true, false, 0⟩, ⟨1, 0, .ro, true, false, 0⟩]⟩,
  -- SAFE_CHSTATE (chapter 12)
  ⟨0xF80004, 2, 0x4, 1, 0x0, [⟨31, 28, .ro, true, false, 0⟩, ⟨27, 4, .ro, true, false, 0⟩, ⟨3, 0, .ro, true, false, 0⟩]⟩,
  -- SAFE_RESTART (chapter 12)
  ⟨0xF8000C, 1, 0x0, 1, 0x0, [⟨31, 16, .ro, true, false, 0⟩, ⟨15, 0, .ro, true, false, 0⟩]⟩,
  -- SAFE_FAULT (chapter 12)
  ⟨0xF80010, 1, 0x0, 1, 0x0, [⟨31, 16, .rc, true, false, 0⟩, ⟨15, 0, .ro, true, false, 0⟩]⟩,
  -- SAFE_ISLFAULT (chapter 12)
  ⟨0xF80014, 1, 0x0, 1, 0x0, [⟨19, 16, .ro, true, false, 0⟩, ⟨4, 4, .ro, true, false, 0⟩, ⟨3, 3, .ro, true, false, 0⟩, ⟨2, 2, .ro, true, false, 0⟩, ⟨1, 1, .ro, true, false, 0⟩, ⟨0, 0, .ro, true, false, 0⟩]⟩,
  -- SAFE_CRC (chapter 12)
  ⟨0xF80018, 1, 0x0, 1, 0x0, [⟨31, 0, .ro, true, false, 0⟩]⟩,
  -- SAFE_RSTCNT (chapter 12)
  ⟨0xF8001C, 1, 0x0, 1, 0x0, [⟨31, 24, .rc, true, false, 0⟩, ⟨23, 16, .rc, true, false, 0⟩, ⟨15, 0, .rc, true, false, 0⟩]⟩,
  -- SAFE_CHDIAG (chapter 12)
  ⟨0xF80040, 16, 0x4, 1, 0x0, [⟨31, 24, .ro, true, false, 0⟩, ⟨23, 16, .rc, true, false, 0⟩, ⟨15, 0, .rc, true, false, 0⟩]⟩,
  -- SAFE_SPEED (chapter 12)
  ⟨0xF80080, 16, 0x4, 1, 0x0, [⟨22, 0, .ro, true, false, 0⟩]⟩,
  -- SAFE_HOSTREQ (chapter 12)
  ⟨0xF80100, 1, 0x0, 1, 0x0, [⟨15, 0, .rw, false, true, 0⟩]⟩]

/-- Registers of unit RTC. -/
def regTableRTC : List RegDesc := [
  -- RTC_STAT (chapter 14)
  ⟨0x0E0000, 1, 0x0, 1, 0x0, [⟨7, 7, .rc, true, false, 0⟩, ⟨6, 6, .rc, true, false, 0⟩, ⟨5, 5, .ro, true, false, 0⟩, ⟨4, 4, .rc, true, false, 0⟩, ⟨3, 3, .ro, true, false, 0⟩, ⟨2, 2, .rc, true, false, 0⟩, ⟨1, 1, .ro, true, false, 0⟩, ⟨0, 0, .ro, true, false, 0⟩]⟩,
  -- RTC_SNAP (chapter 14)
  ⟨0x0E0004, 1, 0x0, 1, 0x0, [⟨0, 0, .cmd, false, true, 0⟩]⟩,
  -- RTC_SNAPLO (chapter 14)
  ⟨0x0E0008, 1, 0x0, 1, 0x0, [⟨31, 0, .ro, false, false, 0⟩]⟩,
  -- RTC_SNAPHI (chapter 14)
  ⟨0x0E000C, 1, 0x0, 1, 0x0, [⟨18, 16, .ro, false, false, 0⟩, ⟨15, 0, .ro, false, false, 0⟩]⟩,
  -- RTC_SNAPFR (chapter 14)
  ⟨0x0E0010, 1, 0x0, 1, 0x0, [⟨31, 0, .ro, false, false, 0⟩]⟩,
  -- RTC_STGLO (chapter 14)
  ⟨0x0E0020, 1, 0x0, 1, 0x0, [⟨31, 0, .rw, false, false, 0⟩]⟩,
  -- RTC_STGHI (chapter 14)
  ⟨0x0E0024, 1, 0x0, 1, 0x0, [⟨18, 16, .rw, false, false, 0⟩, ⟨15, 0, .rw, false, false, 0⟩]⟩,
  -- RTC_STGFR (chapter 14)
  ⟨0x0E0028, 1, 0x0, 1, 0x0, [⟨31, 17, .rw, false, false, 0⟩]⟩,
  -- RTC_STGPH (chapter 14)
  ⟨0x0E002C, 1, 0x0, 1, 0x0, [⟨16, 0, .rw, false, false, 0⟩]⟩,
  -- RTC_SETCMD (chapter 14)
  ⟨0x0E0030, 1, 0x0, 1, 0x0, [⟨2, 2, .cmd, false, true, 0⟩, ⟨1, 1, .cmd, false, true, 0⟩, ⟨0, 0, .cmd, false, true, 0⟩]⟩,
  -- RTC_WDAY (chapter 14)
  ⟨0x0E0034, 1, 0x0, 1, 0x0, [⟨19, 17, .ro, true, false, 0⟩, ⟨16, 0, .ro, true, false, 0⟩]⟩,
  -- RTC_SLEW (chapter 14)
  ⟨0x0E0040, 1, 0x0, 1, 0x0, [⟨31, 8, .ro, true, false, 0⟩, ⟨6, 0, .ro, true, false, 0⟩]⟩,
  -- RTC_SETCNT (chapter 14)
  ⟨0x0E0044, 1, 0x0, 1, 0x0, [⟨31, 16, .rc, true, false, 0⟩, ⟨15, 0, .rc, true, false, 0⟩]⟩]

/-- Registers of unit NVM. -/
def regTableNVM : List RegDesc := [
  -- NVM_STAT (chapter 16)
  ⟨0x0C0000, 1, 0x0, 1, 0x0, [⟨7, 7, .rc, false, false, 0⟩, ⟨6, 6, .rc, false, false, 0⟩, ⟨5, 5, .rc, false, false, 0⟩, ⟨4, 4, .ro, false, false, 0⟩, ⟨3, 3, .ro, false, false, 0⟩, ⟨2, 2, .ro, false, false, 0⟩, ⟨1, 1, .ro, false, false, 0⟩, ⟨0, 0, .ro, false, false, 0⟩]⟩,
  -- NVM_CMD (chapter 16)
  ⟨0x0C0004, 1, 0x0, 1, 0x0, [⟨0, 0, .cmd, false, true, 0⟩]⟩,
  -- NVM_DCSEQ (chapter 16)
  ⟨0x0C0008, 1, 0x0, 1, 0x0, [⟨31, 0, .ro, false, false, 0⟩]⟩,
  -- NVM_LCSEQ (chapter 16)
  ⟨0x0C000C, 1, 0x0, 1, 0x0, [⟨31, 0, .ro, false, false, 0⟩]⟩,
  -- NVM_CTIME (chapter 16)
  ⟨0x0C0010, 1, 0x0, 1, 0x0, [⟨31, 16, .rc, false, false, 0⟩, ⟨15, 0, .ro, false, false, 0⟩]⟩]

/-- Registers of unit DRC. -/
def regTableDRC : List RegDesc := [
  -- DRC_STAT (chapter 17)
  ⟨0x0D0000, 1, 0x0, 1, 0x0, [⟨31, 24, .ro, false, false, 0⟩, ⟨19, 18, .ro, false, false, 0⟩, ⟨3, 3, .rc, false, false, 0⟩, ⟨2, 2, .rc, false, false, 0⟩, ⟨1, 1, .ro, false, false, 0⟩, ⟨0, 0, .ro, false, false, 0⟩]⟩,
  -- DRC_ECC (chapter 17)
  ⟨0x0D0004, 1, 0x0, 1, 0x0, [⟨31, 16, .rc, false, false, 0⟩, ⟨15, 0, .rc, false, false, 0⟩]⟩,
  -- DRC_ECCADDR (chapter 17)
  ⟨0x0D0008, 1, 0x0, 1, 0x0, [⟨31, 0, .ro, false, false, 0⟩]⟩]

/-- The whole register table. -/
def regTable : List RegDesc :=
  regTableLCTL ++ regTableAIN ++ regTableDIN ++ regTableXLNK ++ regTableARB ++ regTableASM ++ regTableSOLV ++ regTableLENG ++ regTableLSEQ ++ regTableMTR ++ regTableTHM ++ regTablePORT ++ regTableTIME ++ regTableXACT ++ regTableKEY ++ regTableSAFE ++ regTableRTC ++ regTableNVM ++ regTableDRC

end Sys2Proof.Machine
end

