-- ==== Sys2Proof/Machine/Types.lean ====
section
/-! DEFINITION. The parts of the device's state as plain data: lanes, arbiter, safety island and backup domain. Each field's comment names the rule of spec/ that gives it. -/
namespace Sys2Proof.Machine

/-- A register file: sparse, by the keys of the register table; an unlisted register holds its reset value. -/
abbrev RegMap := NMap Word

/-! ### Agreement (chapter 02) -/

/-- A frame entry of a round-1 message (Table 02-2). -/
structure FrameEntry where
  port : Nat
  kind : Nat
  source : Nat
  seq : BitVec 32
  body : Bytes
deriving DecidableEq, Repr

/-- One lane's input set for a slot, decoded from its round-1 message (Table 02-1). -/
structure InputSet where
  links : Nat
  slot : BitVec 64
  tb : BitVec 64
  ptpSec : BitVec 48
  ptpNs : BitVec 32
  mtr : List (Int × Bool)
  ain : List (Int × Bool)
  din : BitVec 64
  rtd : List (Nat × Nat)
  pulse : List (BitVec 32)
  frames : List FrameEntry
deriving DecidableEq, Repr

/-- Admission history of one frame source (R50, R52): last admitted sequence number, whether the history has restarted,
sample time and reporting period of the last admitted report. -/
structure AdmSrc where
  seq : BitVec 32
  fresh : Bool
  /-- The history has restarted since the last admission; a source that has never been admitted has not. -/
  restarted : Bool
  stime : BitVec 64
  period : Nat
deriving DecidableEq, Repr

/-- The agreed input image and what agreement remembers between slots (R48 to R53). Part of the rucksack. -/
structure Image where
  mtr : List (Int × Bool)
  ain : List (Int × Bool)
  din : BitVec 64
  /-- Last agreed resistance code of each RTD channel, and whether the channel got a new one in this slot. -/
  rtd : List (Nat × Bool)
  pulse : List (BitVec 32)
  /-- Agreed time base, µs. -/
  tb : BitVec 64
  /-- Agreed district time. -/
  dtSec : BitVec 48
  dtNs : BitVec 32
  /-- Entries admitted in this slot, in image order. -/
  frames : List FrameEntry
  /-- Age counter of the sample, logic, pulse and time inputs (R53). -/
  age : Nat
  rtdAge : List Nat
  /-- Admission history by source; key 65,536 × kind + source. -/
  adm : NMap AdmSrc
deriving DecidableEq, Repr

/-- Where a lane stands inside a slot (Table 01-5). -/
inductive SlotStage where
  | idle       -- before the first strobe, or strobes lost
  | exchange   -- strobe received, rounds 1 and 2 running
  | closed     -- sets decided by R46
  | imaged     -- agreed image ready, boundary actions running
  | done       -- the slot's work is finished
deriving DecidableEq, Repr

/-- A cross-lane link in the lane's own view (R55). -/
structure LinkView where
  down : Bool
  /-- A frame with a valid link CRC arrived in this slot; a CRC error arrived in this slot. -/
  got : Bool
  err : Bool
  /-- Consecutive slots without a valid frame, and without an error. -/
  silent : Nat
  clean : Nat
  /-- Slots, of the last 1000, of the CRC errors, newest first, as slots elapsed since. -/
  errs : List Nat
deriving DecidableEq, Repr

/-- A received frame waiting for authentication (R43): receiving port, 0xFF the mailbox; source address and UDP port;
the datagram; and whether it is a substation frame. -/
structure RxFrame where
  port : Nat
  addr : BitVec 128
  uport : Nat
  substation : Bool
  bytes : Bytes
deriving DecidableEq, Repr

/-- The lane's own side of agreement. Not part of the rucksack. -/
structure Agree where
  stage : SlotStage
  /-- The lane's own round-1 message, with its tag. -/
  own : Bytes
  /-- Messages received directly, and inside echoes: source lane and bytes. -/
  direct : List (LaneId × Bytes)
  echoed : List (LaneId × Bytes)
  sets : List (LaneId × InputSet)
  /-- Entries authenticated for the next input set (R29, R42). -/
  offer : List FrameEntry
  held : Bool
  rxq : List RxFrame
  /-- The frame at the head of the queue has been taken up and its path selected, but did not fit (R42, R342). -/
  taken : Bool
  /-- Round 1 of the slot has closed (R47). -/
  round1Closed : Bool
  /-- What the relay lane has forwarded in this slot: to which lane, whether an echo, and the messages (R56). -/
  relay : List (LaneId × Bool × List Bytes)
  link0 : LinkView
  link1 : LinkView
  /-- Agreed down, links A-B, B-C, C-A (R56). -/
  agreedDown : List Bool
  /-- Links down by the sets of this slot, agreed down from the next. -/
  downNext : List Bool
deriving DecidableEq, Repr

/-! ### Sessions and transactions (chapter 10) -/

/-- One staged field (R317). -/
structure StagedField where
  idx : Nat
  sub : Nat
  val : Bytes
deriving DecidableEq, Repr

/-- An open segmented write (R327). -/
structure WriteXfer where
  idx : Nat
  sub : Nat
  type : Nat
  total : Nat
  data : Bytes
  slot : BitVec 64
deriving DecidableEq, Repr

/-- A read snapshot (R327). -/
structure ReadSnap where
  idx : Nat
  sub : Nat
  data : Bytes
  snapSlot : BitVec 64
  slot : BitVec 64
deriving DecidableEq, Repr

/-- One subscription (R324); the period is in slots. -/
structure Subscription where
  id : Nat
  idx : Nat
  sub : Nat
  onChange : Bool
  period : Nat
  last : BitVec 64
  lastVal : Bytes
  /-- An ONCHANGE subscription has published at least once. -/
  sent : Bool
deriving DecidableEq, Repr

/-- An item of a PUBLISH (Table 10-3). -/
structure PubItem where
  id : Nat
  type : Nat
  slot : BitVec 64
  val : Bytes
deriving DecidableEq, Repr

/-- The state of a session besides its configuration objects (R306 to R314). -/
structure Session where
  /-- 0 CLOSED, 1 UNBOUND, 2 BOUND. -/
  st : Nat
  port : Nat
  epoch : Nat
  /-- The epoch passed 0xFFFF, so the session stays CLOSED until its leaf generation advances (R308). -/
  spent : Bool
  keyClosed : Bool
  txseq : BitVec 32
  rxseq : BitVec 32
  txCount : Nat
  rxCount : Nat
  staged : List StagedField
  stagedAt : BitVec 64
  wx : Option WriteXfer
  rs : Option ReadSnap
  /-- The last 16 responses, newest first: code, TID, payload (R314). -/
  retry : List (Nat × Nat × Bytes)
  subs : List Subscription
  defer : List PubItem
  /-- A PUBLISH has been sent in this slot. -/
  published : Bool
deriving DecidableEq, Repr

/-- A request waiting for its commit slot (R316): session, epoch at admission, sequence, port, code, TID and, for a WRITE,
its field. -/
structure CommitReq where
  sess : Nat
  epoch : Nat
  seq : BitVec 32
  code : Nat
  tid : Nat
  field : Option StagedField
  /-- Type code a WRITE carries. -/
  type : Nat
deriving DecidableEq, Repr

/-- A partner request admitted in this slot and not yet executed (R316): session, epoch at admission, sequence, receiving
port and payload. -/
structure ExecReq where
  sess : Nat
  epoch : Nat
  seq : BitVec 32
  port : Nat
  body : Bytes
deriving DecidableEq, Repr

/-- A clamp-report entry (Table 10-6). -/
structure ClampEntry where
  slot : BitVec 64
  commit : Nat
  idx : Nat
  sub : Nat
  reason : Nat
  type : Nat
  src : Nat
  elem : Nat
  req : BitVec 64
  app : BitVec 64
deriving DecidableEq, Repr

/-- A journal record (R333), without its number and CRC, which follow from its place. -/
structure JRec where
  slot : BitVec 64
  code : Nat
  src : Nat
  idx : Nat
  sub : Nat
  data : Bytes
  commit : Nat
deriving DecidableEq, Repr

/-- A message handed to a port or to the mailbox (0xFF): session, traffic class, destination and the bytes. -/
structure OutMsg where
  sess : Nat
  cls : Nat
  port : Nat
  addr : BitVec 128
  uport : Nat
  bytes : Bytes
deriving DecidableEq, Repr

/-- The dictionary and what XACT keeps beside it. Part of the rucksack. -/
structure Dict where
  /-- Values that differ from their defaults; key 256 × index + subindex. -/
  vals : NMap Bytes
  /-- Slot in which a partner's write of a field was last applied, for its age counter (R53). -/
  written : NMap (BitVec 64)
  clamps : List ClampEntry
  clampCount : Nat
  journal : List JRec
  journalCount : Nat
  /-- Requests for step 1 of the next slot, in admission order. -/
  reqs : List CommitReq
  /-- Requests admitted in this slot, in admission order. -/
  todo : List ExecReq
  sessions : List Session
  /-- Last admitted report values that no image frame carries any more: key 16 × substation + point, value bits, quality,
  sample time, slot of admission. -/
  points : NMap (Nat × Nat × BitVec 80 × BitVec 64)
  /-- Substation statistics (R283): FORMAT, KEYGEN, TAGFAIL, TAMPREF by lane, then NOROUTE, ADMITTED, RESEQ. -/
  stats : List Nat
  /-- Status flags and reporting period of the last admitted report of a substation (R332). -/
  reports : NMap (Nat × Nat × List Nat)
  /-- Partition in force (R20, R21), and the journal size in force in MiB (R333). -/
  part : List Nat
  jMib : Nat
deriving DecidableEq, Repr

/-! ### Keys (chapter 11) -/

/-- Generations (R336): device, the four domains, and leaves by 65,536 × domain + number. -/
structure Gens where
  dev : Nat
  ses : Nat
  sst : Nat
  agr : Nat
  sto : Nat
  leaf : NMap Nat
deriving DecidableEq, Repr

/-- A key's identity: domain code, leaf number, and the generations along its path (R335, R336). -/
structure KeyPath where
  dom : Nat
  num : Nat
  gDev : Nat
  gDom : Nat
  gLeaf : Nat
deriving DecidableEq, Repr

/-- A waiting or running ENROL (R345). -/
structure EnrolJob where
  sess : Nat
  mailbox : Bool
  tid : Nat
  body : Bytes
  start : Option (BitVec 64)
  tamper : Bool
deriving DecidableEq, Repr

/-- The key unit of a lane. -/
structure KeyUnit where
  ready : Bool
  /-- The path whose key the register holds. -/
  reg : Option KeyPath
  /-- The path of the host's last DERIVE, and of XACT receive's job in progress. -/
  host : Option KeyPath
  rx : Option KeyPath
  /-- A host job waits for the key register or runs: its operation and length (R338). -/
  job : Option (Nat × Nat)
  /-- Lane leaves in the XLNK tag engines, lanes A to C, and those loaded for slot c + 2 (R343). -/
  engines : List KeyPath
  enginesNext : Option (BitVec 64 × List KeyPath)
deriving DecidableEq, Repr

/-- A retag in progress (R350): classes affected, and whether it is suspended by tamper. -/
structure Retag where
  dict : Bool
  logic : Bool
  target : Gens
deriving DecidableEq, Repr

/-- The agreed part of the key unit. Part of the rucksack. -/
structure KeyAgreed where
  gens : Gens
  enrols : List EnrolJob
  /-- Generation writes due in MRAM by the end of this slot (R341). -/
  mramDue : Option (BitVec 64)
  /-- The slot in which the last ENROL ended; the next starts in a later one (R345). -/
  enrolEnd : Option (BitVec 64)
deriving DecidableEq, Repr

/-! ### Real-time clock (chapter 14) -/

/-- An RTC change waiting for the next oscillator edge, in the order requested. -/
inductive RtcAct where
  /-- Subtract a number of 2⁻³² s units: realignment (R411), with NOTIME cleared. -/
  | align (d : Int)
  /-- Realignment with no valid RTC: set to zero, NOTIME kept. -/
  | zero
  /-- A step of R412. -/
  | step (e : Int)
  /-- TIMESET (R413): the value in 2⁻³² s units; the time since t1 is added when it applies. -/
  | timeset (v : Nat)
  /-- Host SET command (R415): which parts. -/
  | set (time wday ph : Bool)
  /-- Weekday or phase from object 0x1321. -/
  | wday (w : Nat)
  | phase (p : Nat)
  | snap
deriving DecidableEq, Repr

/-- One lane's RTC cell (R404 to R415). Kept by every reset except loss of the backup domain. -/
structure Rtc where
  sec : BitVec 48
  frac : BitVec 32
  wday : BitVec 3
  phase : BitVec 17
  delta : Int
  slewLeft : Nat
  err : Int
  noTime : Bool
  vbatLost : Bool
  oscStop : Bool
  stepped : Bool
  standby : Bool
  run : Bool
  stepCnt : Nat
  setCnt : Nat
  acts : List RtcAct
deriving DecidableEq, Repr

/-! ### Stored images (chapter 16) -/

/-- A commit record (Table 16-3). -/
structure CommitRec where
  cls : Nat
  bank : Bool
  cseq : BitVec 32
  len : Nat
  imageId : BitVec 32
  gSto : Nat
  gLeaf : Nat
  tag : Bytes
  slot : BitVec 64
deriving DecidableEq, Repr

/-- A commit in progress (Table 16-4): the image as it stood in its start slot. -/
structure CommitRun where
  start : BitVec 64
  image : Bytes
  step : Nat
deriving DecidableEq, Repr

/-- One class of stored image: two banks and two record slots (R466, R467). -/
structure ImageClass where
  bankA : Bytes
  bankB : Bytes
  rec0 : Option CommitRec
  rec1 : Option CommitRec
  busy : Option CommitRun
  queued : Bool
deriving DecidableEq, Repr

/-! ### The solve words (chapter 04) -/

/-- The solve word of a strobe (R129). -/
structure SolveWord where
  minTiles : Nat
  verdict : Bool
  solve : Nat
  round : Nat
  source : LaneId
deriving DecidableEq, Repr

/-- The solve fields of a report (Table 04-4). -/
structure SolveReport where
  solve : Nat
  last : Nat
  done : Bool
  fact : Bool
  tiles : Nat
deriving DecidableEq, Repr

/-- What the arbiter keeps for the verdict (R132): the last solve number judged, and a verdict to send with the next
strobe. -/
structure ArbSolve where
  minTiles : Nat
  judged : Option Nat
  next : Option (Nat × Nat × LaneId)
deriving DecidableEq, Repr

/-! ### The safety island (chapter 12) -/

/-- What the arbiter forwards of the island with every strobe (R369), with the lock result of R363. -/
structure IslandWord where
  stopping : BitVec 16
  stopped : BitVec 16
  fault : BitVec 16
  restartable : BitVec 16
  locked : Bool
  islFault : Bool
  crc : Word
  confirm : Nat
  /-- For the objects that show them (Table 12-3): per channel state, cause, speed and v0 in Hz as binary32; SAFE_ISLFAULT. -/
  ch : List (Nat × Nat × Nat × Nat)
  faults : Word
deriving DecidableEq, Repr

/-- One safe-stop channel (Table 12-4). Speeds are edge counts over the channel's window W. -/
structure IslChannel where
  /-- 0 UNCONFIG, 1 RUN, 2 STOPPING, 3 STO, 4 FAULT. -/
  st : Nat
  cause : Nat
  v : Nat
  vPrev : Nat
  v0 : Nat
  /-- Evaluation cycles since the arming cycle. -/
  t : Nat
  req : Bool
  restartable : Bool
  gate : Bool
  /-- A commanded change or a test touches this cycle's readbacks (R372, CONSIST). -/
  settling : Bool
  /-- Outcome of the last switch test: high side failed, low side failed. -/
  hsFail : Bool
  lsFail : Bool
  testHigh : Bool
  /-- Consecutive test pulses that did not appear on SSREQn; a pulse has appeared. -/
  missed : Nat
  seen : Bool
deriving DecidableEq, Repr

/-- The safety island (R354 to R380). -/
structure Island where
  locked : Bool
  block : Bytes
  crc : Word
  confirm : Nat
  ch : List IslChannel
  word : BitVec 16
  wordSeq : Nat
  newWord : Option (BitVec 16)
  sinceWord : Nat
  lost : Bool
  hostReq : BitVec 16
  armed : Bool
  stuck : Bool
  /-- Island fault causes, bits as SAFE_ISLFAULT [4:0], and the first one. -/
  faults : BitVec 5
  first : Nat
  /-- SAFE registers: the island's own counts and flags, and the copy of the last evaluation cycle. -/
  regs : RegMap
  shadow : RegMap
  /-- SFAULT_N is driven low. -/
  sfault : Bool
deriving DecidableEq, Repr

/-! ### The strobe, the roll call and the arbiter (chapters 01, 02, 13) -/

/-- A tamper log entry (Tables 11-7 and the ARB_TAMPLOG registers). -/
structure TamperEntry where
  sec : BitVec 48
  lane : LaneId
  standby : Bool
  acted : Bool
deriving DecidableEq, Repr

/-- The low word of an entry, and its high word (ARB_TAMPLOGLO, ARB_TAMPLOGHI). -/
def TamperEntry.secLo (e : TamperEntry) : Nat := e.sec.toNat % 2 ^ 32
def TamperEntry.high (e : TamperEntry) : Nat := e.sec.toNat / 2 ^ 32 + 2 ^ 20 * e.standby.toNat + 2 ^ 22 * e.lane.num

/-- What the arbiter tells the lanes of its own registers, for the objects that show them: per lane its state, last
exclusion cause and counted entries (R402), the tamper log (Table 11-9), KEY ready in every lane taking part, and the
reset-hold record (Table 16-7). -/
structure ArbCopy where
  lanes : List (Nat × Nat × Nat)
  log : List (Option TamperEntry)
  keyReady : Bool
  cause : Nat
  hold : Nat
  /-- The start gate is open (R464). -/
  gate : Bool
deriving DecidableEq, Repr

/-- What every strobe word carries (R22, R40, R351, R393, R403). -/
structure StrobeWord where
  mask : LaneSet
  arbFault : Bool
  tamper : Bool
  joiner : LaneId
  donor : LaneId
  joinPhase : Nat
  /-- First agreement takes place in the slot of this strobe (R461). -/
  first : Bool
  /-- At least two member lanes correct their time base against PTP (Table 06-5, TIMESYNC). -/
  sync : Bool
  solve : SolveWord
  /-- The island's status word of its last evaluation cycle (R369). -/
  island : IslandWord
  arb : ArbCopy
deriving DecidableEq, Repr

/-- A roll-call report (Table 13-1). -/
structure Report where
  state : Nat
  rejoinReq : Bool
  uce : Bool
  clkFail : Bool
  selfOk : Bool
  uceCause : Nat
  rseq : Nat
  solve : SolveReport
  noComp : Bool
  cecc : Nat
  tecc : Nat
  oot : Nat
  lastDev : Nat
  absent : Nat
  locks : Nat
  temp : Int
  links : Nat
  slot : BitVec 32
deriving DecidableEq, Repr

/-- What a lane gathers for its next report (R382). -/
structure ReportState where
  rseq : Nat
  uce : Nat
  clkFail : Bool
  selfOk : Bool
  cecc : Nat
  tecc : Nat
  oot : Nat
  absent : Nat
deriving DecidableEq, Repr

/-- How the arbiter judges one lane (R383 to R385, R401). -/
structure LaneJudge where
  rep : Report
  /-- A poll is outstanding; a report answered the last poll. -/
  polled : Bool
  answered : Bool
  missed : Bool
  missedRun : Nat
  nextSeq : Option Nat
  /-- Output slots, of the last DISN, in which the lane disagreed. -/
  window : List Nat
  /-- Consecutive bad output slots of a lane alone (R391). -/
  badRun : Nat
  manual : Bool
  /-- One entry that does not count against REJOINMAX (R402, R463). -/
  permit : Bool
  /-- A rejoin command acts at the next strobe (R402). -/
  restart : Bool
  /-- Arbiter slot counts of the counted entries (R401). -/
  entries : List Nat
deriving DecidableEq, Repr

/-- The output slot being voted (R59 to R61). -/
structure OutSlot where
  slot : BitVec 16
  isOpen : Bool
  /-- Frames in arrival order. -/
  frames : List (LaneId × BitVec 64)
  /-- Values passed: 64 × kind + index, value. -/
  passed : List (Nat × Word)
deriving DecidableEq, Repr

/-- One voted pulse output (R61): widths of the queued pulses, and the running or last pulse. -/
structure VpoQ where
  queue : List Nat
  high : Bool
  /-- Width of the pulse in progress. -/
  width : Nat
  /-- Slot strobes since the last rise or fall; a pulse has run at all. -/
  since : Nat
  ran : Bool
deriving DecidableEq, Repr

/-- A two-lane hold (R389, R390). -/
structure HoldState where
  active : Bool
  slot : BitVec 16
  /-- The snap roll call is out; lanes whose END of the held slot is missing or does not close their frames. -/
  snap : Bool
  endBad : LaneSet
deriving DecidableEq, Repr

/-- A copy of a device-to-host message held for its match (R310, R311). -/
structure MbxCopy where
  lane : LaneId
  bytes : Bytes
deriving DecidableEq, Repr

/-- The mailbox (R451 to R454). Its indices are registers. -/
structure Mailbox where
  h2d : NMap Byte
  d2h : NMap Byte
  held : List Bytes
  copies : List MbxCopy
  /-- Messages passed or discarded, by SESSION, EPOCH and SEQUENCE (bytes 1 and 4 to 9), with the lanes whose copies came. -/
  closed : List (Bytes × List LaneId)
deriving DecidableEq, Repr

/-- A host write waiting for a slow domain (R447): the lanes that have not completed it, how many there were, and whether
the lane of a lane-view access took part. -/
structure StallAcc where
  req : HostReq
  lanes : List LaneId
  total : Nat
  member : Bool
deriving DecidableEq, Repr

/-- The arbiter with the endpoint and the charger. -/
structure Arb where
  /-- Held in reset; comparator tripped (R16). -/
  inReset : Bool
  fault : Bool
  regs : RegMap
  /-- Shadows of the SH fields, refreshed at each strobe (Table 15-4). -/
  shadow : RegMap
  /-- The member mask in force, and the one for the next strobe. -/
  mask : LaneSet
  nextMask : LaneSet
  strobe : StrobeWord
  /-- Strobes issued since the arbiter's release (R401), and the slot number it shares with the lanes (R26). -/
  ticks : Nat
  slot : BitVec 64
  agreed : Bool
  /-- First agreement falls at the next strobe (R461). -/
  agreeNext : Bool
  firstSlot : BitVec 64
  out : OutSlot
  vdo : BitVec 64
  vao : List (BitVec 16)
  vpo : List VpoQ
  /-- Last voted stop-request word, once one has passed (R360, R464). -/
  stop : Option (BitVec 16)
  hold : HoldState
  lanes : List LaneJudge
  joining : Bool
  dramDone : Option Nat
  /-- Start window (R461): ticks at which it opened; closed; settled lanes. -/
  window : Option Nat
  windowClosed : Bool
  ready : LaneSet
  mbx : Mailbox
  msix : NMap Byte
  /-- MSI-X messages issued, oldest first (R455). -/
  msi : List Nat
  perst : Bool
  d3hot : Bool
  last : Completion
  stall : Option StallAcc
  /-- Commands of the ARB_EXCLUDE, ARB_REJOIN and ARB_TAMPACK registers that have not acted yet: key and word (R447). -/
  cmds : List (Nat × Word)
  /-- Requests that wait behind a stalled access, in arrival order: write or read, and the fabric clock of the slot. -/
  delayed : List (HostReq × Bool × Nat)
  /-- The interval between one strobe and the next, in units of the solve verdict (chapter 04). -/
  solve : ArbSolve
  /-- A roll call is open: polls are out and its verdicts are still to be taken (R381). -/
  rolling : Bool
  /-- Links agreed down at the last poll, A–B, B–C and C–A (R387). -/
  downLinks : List Bool
  /-- The island's newest status word (R369). -/
  islWord : IslandWord
  /-- The island has been seen LOCKED since its configuration was last delivered (R473). -/
  islSeen : Bool
deriving DecidableEq, Repr

/-- The backup domain besides the RTCs (R417). -/
structure Backup where
  /-- The four entries of the tamper log. -/
  log : List (Option TamperEntry)
  lost : Nat
  event : Bool
  active : Bool
  policy : Nat
  /-- RESET_N low in progress: the RTC at the fall, in 2⁻³² s. -/
  holdFrom : Option Nat
  holdSec : Nat
  holds : Nat
  wasReset : Bool
  wasPor : Bool
  wasVddArb : Bool
  wasFault : Bool
  chEnable : Bool
  chCell : Nat
  chVlimit : Nat
  chIlimit : Nat
  mv : Nat
  atLimit : Bool
  mains : Bool
deriving DecidableEq, Repr

/-! ### Units described in chapters 03 to 09 -/

/-- One loop's state (R150 STATUS to NFCNT, R157). Clamp: 0 none, 1 CLAMPLO, 2 CLAMPHI. -/
structure LoopState where
  running : Bool
  bank : Bool
  pend : Bool
  clamp : Nat
  nonfin : Bool
  rawOut : BitVec 64
  out : BitVec 64
  /-- The error of the last computation (Table 06-4). -/
  err : BitVec 64
  nfcnt : Nat
deriving DecidableEq, Repr

/-- A trace channel (R170 to R172): 0 IDLE, 1 ARMED, 2 TRIGGERED, 3 DONE; ring records are slot and value. -/
structure TraceChan where
  st : Nat
  depth : Nat
  count : Nat
  wrptr : Nat
  trigIdx : Nat
  post : Nat
  force : Bool
  vPrev : Option Nat
  trigSlot : Option (BitVec 64)
  ring : NMap (BitVec 64 × BitVec 64)
deriving DecidableEq, Repr

/-- The loop engine. Part of the rucksack; the trace rings follow with the journal copy (R398). -/
structure Leng where
  /-- The engine computes slots (R165). -/
  active : Bool
  loops : NMap LoopState
  /-- Section states s1, s2, binary64 bits. -/
  secs : NMap (BitVec 64 × BitVec 64)
  traces : List TraceChan
deriving DecidableEq, Repr

/-- A logic image, decoded (Table 06-8), with its bytes. -/
structure LImage where
  id : BitVec 32
  len : Nat
  prog : List Word
  consts : List Int
  timers : List (BitVec 64)
  counters : List (BitVec 64)
  edges : Nat
  wc : Nat
  depth : Nat
  tag : Bytes
  blanket : List (BitVec 64)
  quant : List (BitVec 64)
  raw : Bytes
deriving DecidableEq, Repr

/-- A timer instance (Table 06-7); `prev` is none before its first evaluation (R190). -/
structure TimerSt where
  prev : Option Bool
  start : Int
  timing : Bool
  q : Bool
deriving DecidableEq, Repr

/-- A counter instance (R188). -/
structure CounterSt where
  cv : Int
  pcu : Option Bool
  pcd : Option Bool
deriving DecidableEq, Repr

/-- The accumulators, branch stack, place and cost of an execution (R175, R183). Stack entries: ACC and whether AND. -/
structure SeqExec where
  running : Bool
  idx : Nat
  acc : Bool
  wacc : Int
  stack : List (Bool × Bool)
  clocks : Nat
  /-- Budget B of the cycle in clocks (R194). -/
  budget : Nat
deriving DecidableEq, Repr

/-- An output image: bits of Q and words of W from 0x8000 up. -/
structure OutImage where
  q : NMap Bool
  w : NMap Int
deriving DecidableEq, Repr

/-- The logic sequencer. Part of the rucksack, but for a load check in progress. -/
structure Lseq where
  /-- 0 INIT, 1 RUNNING, 2 STOPPED. -/
  run : Nat
  image : Option LImage
  /-- Pending image with its commit slot, and an image under check (R192, R193). -/
  pendImg : Option (LImage × BitVec 64)
  checking : Option (Bytes × BitVec 64)
  flags : NMap Bool
  timers : NMap TimerSt
  counters : NMap CounterSt
  edges : NMap (Option Bool)
  inI : NMap Bool
  inW : NMap Int
  work : OutImage
  /-- What the program itself wrote in the last cycle, and the image published with forces or blanket. -/
  own : OutImage
  pub : OutImage
  exec : SeqExec
  /-- Slot in which the cycle began, its logic time, and whether its image is due for publication. -/
  cycle : BitVec 64
  tl : Nat
  due : Bool
  /-- The watchdog stopped this cycle, whose blanket image is not yet published; logic time at the overrun. -/
  blanketDue : Bool
  stopTl : Nat
  /-- The image that the watchdog stopped, until its blanket image is published. -/
  stopImg : Option LImage
  /-- FIRST bits that hold in this cycle, by S address 2 to 5, and those of the next cycle to begin; a RESTART applies in
  this slot: COLD or not. -/
  first : Nat
  nextFirst : Nat
  restart : Option Bool
  published : Bool
  pubSeen : Bool
  ownDrop : Bool
  ownDropPrev : Bool
  lastRetain : Nat
  retainSeq : BitVec 32
  checkDone : Bool
deriving DecidableEq, Repr

/-- An energy register (R221, R223, R224): value, wrap counter, residue as binary64 bits, interval energy. -/
structure EReg where
  val : BitVec 64
  wrap : BitVec 16
  res : Nat
  intv : Nat
  /-- Units credited since the pulse outputs last took them (R257). -/
  k : Nat
deriving DecidableEq, Repr

/-- Where a feeder stands (R213 to R215). -/
inductive FeederMode where
  | off | acquire | track | nozc
deriving DecidableEq, Repr

/-- A sample of a feeder: slot, six values, L1 to L3 voltages then currents, binary64 bits, and whether one was clipped. -/
structure MtrSample where
  slot : Nat
  x : List Nat
  clip : Bool
deriving DecidableEq, Repr

/-- The interval since the last latch (Table 07-8). -/
structure LatchAcc where
  cycles : Nat
  nominal : Nat
  partials : Nat
  nozc : Bool
  clip : Bool
  sag : Bool
  start : Option Nat
  last : Nat
  openOff : Nat
  closeOff : Nat
  minP : Option Nat
  maxP : Option Nat
  minV : List (Option Nat)
deriving DecidableEq, Repr

/-- A metering feeder. Times are in 10 ns units, 5000 per slot (R211). -/
structure Feeder where
  mode : FeederMode
  /-- Opening time of the cycle or window in progress, its offset code, and the period for the phasor angle (R217). -/
  tOpen : Int
  tRef : Nat
  lastCross : Int
  crossed : Bool
  below : Bool
  prev : Option MtrSample
  held : Option MtrSample
  /-- Sums of the cycle: per phase v², i², v·i, V re, V im, I re, I im; samples folded in and still open, oldest first. -/
  sums : List Nat
  folded : Nat
  open2 : List MtrSample
  regs : List EReg
  acc : LatchAcc
  seq : Nat
  flags : Nat
  ring : NMap Bytes
  /-- Records latched in this slot, oldest first, which the ring shows from the next (R227, Table 01-7). -/
  fresh : List Bytes
  /-- Quantities by 4 × code + level: of the last close, and as visible since t1. -/
  q : NMap Nat
  qVis : NMap Nat
  /-- Work of the slot: 0 to do, 1 closes done, 2 latch done. -/
  stage : Nat
deriving DecidableEq, Repr

/-! ### Thermal metering (chapter 08) -/

/-- An RTD channel (R236): fault state and last computed temperature, binary64 bits. -/
structure RtdChan where
  fault : Bool
  temp : Nat
deriving DecidableEq, Repr

/-- The open interval of a thermal circuit (Table 08-5). Extremes are binary64 bits. -/
structure ThmAcc where
  start : Option (BitVec 64)
  startTb : BitVec 64
  last : BitVec 64
  flags : Nat
  loS : Option Nat
  hiS : Option Nat
  loR : Option Nat
  hiR : Option Nat
  hiP : Option Nat
  uncredited : Nat
deriving DecidableEq, Repr

/-- A thermal circuit. -/
structure Circ where
  regs : List EReg
  seq : Nat
  acc : ThmAcc
  /-- Signed flow and power of the last slots metered, newest first, and the FLOWAVG the window was begun with. -/
  win : List (Nat × Nat)
  winLen : Nat
  stale : Bool
  ring : NMap Bytes
  fresh : List Bytes
  q : NMap Nat
  qVis : NMap Nat
deriving DecidableEq, Repr

/-- A pulse output (R256 to R259). -/
structure VpoOut where
  owed : Nat
  accr : Nat
  /-- The pulse in progress: start slot and width. -/
  active : Option (BitVec 64 × Nat)
  lastEnd : Option (BitVec 64)
  /-- Pulses moved into the owed count, by slot, newest first, over the last 20,000 slots. -/
  moved : List (BitVec 64 × Nat)
  backlog : Bool
  width : Nat
deriving DecidableEq, Repr

/-- The agreed flask and what the merge needs of the base (R253, R254). -/
structure MergePlan where
  fseq : BitVec 32
  regs : List (BitVec 64 × Nat × Nat)
  baseRes : List Nat
  mtr : List LatchAcc
  thm : List ThmAcc
  pulses : List (Nat × Nat × Nat)
deriving DecidableEq, Repr

/-- Thermal metering, totals and pulse outputs, as agreed. Part of the rucksack. -/
structure Thm where
  chans : List RtdChan
  circs : List Circ
  /-- Agreed counts of the inputs by slot, newest first, at most 2001 entries. -/
  counts : List (List (BitVec 32))
  tbPrev : Option (BitVec 64)
  vpo : List VpoOut
  tseq : BitVec 32
  lastFlask : BitVec 32
  merge : Option MergePlan
  /-- A record is to be written at the end of this slot (R251), and the slot of the latch. -/
  want : Option (BitVec 64)
  /-- The merged record is being written (R254). -/
  merging : Bool
  /-- The thermal work of this slot has run: 0 no, 1 latches, 2 credits; and the last slot whose metering is complete. -/
  stage : Nat
  metered : BitVec 64
  qVis : NMap Nat
  q : NMap Nat
deriving DecidableEq, Repr

/-- A lane's own side of the RTD channels: conversion window and code of the last result and of the one before. -/
structure RtdOwn where
  last : Option (Nat × Nat)
  prev : Option (Nat × Nat)
deriving DecidableEq, Repr

/-- A lane's own side of a pulse input. -/
structure PulseOwn where
  count : BitVec 32
  period : Nat
deriving DecidableEq, Repr

/-! ### Ports and network time (chapter 09) -/

/-- A frame on its way to a transmit queue: traffic class; PTP over Ethernet rather than UDP; destination address, ports
and checksum field; the payload; what the port inserts on transmit: 0 nothing, 1 an origin timestamp, 2 the residence of
a Pdelay_Resp, 3 the send time of an Afesh message; and t2 of the request answered, in 2⁻¹⁶ ns. `hdr` is the length of the
headers between IPv6 and the payload, and `tag` the tag control word it leaves with, 0 untagged (R265). -/
structure TxFrame where
  cls : Nat
  eth : Bool
  hdr : Nat
  tag : Nat
  dst : BitVec 128
  sport : Nat
  dport : Nat
  csum : BitVec 16
  body : Bytes
  stamp : Nat
  t2 : Int
deriving DecidableEq, Repr

/-- A neighbour cache entry (R273): no MAC address while it is being resolved, with the frames that wait for it. -/
structure NdEntry where
  addr : BitVec 128
  mac : Option (BitVec 48)
  stale : Bool
  used : Nat
  wait : List TxFrame
deriving DecidableEq, Repr

/-- A gate list (R267): base in ns of the PTP clock, and the first GATECOUNT entries. -/
structure GateList where
  base : Nat
  entries : List Nat
deriving DecidableEq, Repr

/-- PTP state of a port: 0 off, 1 LISTENING, 2 MASTER, 3 SLAVE, 4 PASSIVE. Times are in 2⁻¹⁶ ns. -/
structure PtpPort where
  st : Nat
  foreign : Option Announce
  seen : Nat
  /-- A two-step Sync that waits for its Follow_Up: sequence, t2, correction. -/
  sync : Option (Nat × Int × Int)
  syncSeq : Nat
  annSeq : Nat
  reqSeq : Nat
  /-- t3 of the last Delay_Req or t1 of the last Pdelay_Req sent, with its sequence. -/
  tReq : Option (Nat × Int)
  /-- t2 − t1 of the last Sync, for the delay request-response mechanism. -/
  d21 : Option Int
  /-- Filtered mean path delay. -/
  delay : Option Int
deriving DecidableEq, Repr

/-- A field port of a lane. -/
structure PortSt where
  up : Bool
  mode : Nat
  an : Nat
  /-- Link-local, ADDR0, ADDR1: 0 not held, 1 tentative, 2 valid, 3 failed. -/
  addr : List Nat
  queues : List (List TxFrame)
  oper : Option GateList
  pend : Option (GateList × Nat)
  entry : Nat
  nd : List NdEntry
  ndTick : Nat
  /-- Second of the echo rate limit and requests answered in it (R274). -/
  echoSec : Nat
  echoCnt : Nat
  /-- End of the transmission in progress, in ps of the lane's slots; the last frame sent. -/
  busyTill : Nat
  lastTx : Option TxFrame
  ptp : PtpPort
deriving DecidableEq, Repr

/-- A waymark pin (R298 to R300). Times are in 2⁻¹⁶ ns of the PTP clock. -/
structure WmkPin where
  level : Bool
  held : Bool
  /-- Instants up to this one have been passed; end of the pulse that is high. -/
  ref : Option Nat
  fallAt : Option Nat
deriving DecidableEq, Repr

/-- The PTP clock, servo and waymarks of a lane (R284 to R300). -/
structure TimeUnit where
  /-- The clock in 2⁻¹⁶ ns: seconds, nanoseconds and a 16-bit fraction of one (R284). -/
  clock : Nat
  /-- Rate correction y and frequency term y_I in 2⁻⁴⁰. -/
  y : Int
  yi : Int
  /-- Offsets since the last clearing, newest first, in 2⁻¹⁶ ns; t2 of the last Sync. -/
  offs : List Int
  lastT2 : Option Int
  filt : Int
  locked : Bool
  inRun : Nat
  outRun : Nat
  /-- The SLAVE port, and the clock and port that it follows. -/
  parent : Option Nat
  parentId : Option (BitVec 64 × Nat)
  gm : Bool
  fifo : List (Nat × Bool × Nat)
  pins : List WmkPin
deriving DecidableEq, Repr

/-! ### The model, the assembler and the solver (chapters 03 and 04) -/

/-- One per-step block of a subproblem record (Table 03-10), binary32: d(k), bounds of x(k+1) and u(k), x_ref(k+1), c_u(k), β. -/
structure StepBlock where
  d : List Nat
  xlo : List Nat
  xhi : List Nat
  ulo : List Nat
  uhi : List Nat
  xref : List Nat
  cu : List Nat
  beta : Nat
deriving DecidableEq, Repr

/-- A subproblem record (Tables 03-9, 03-10 and 04-1), numbers in binary32. -/
structure SubProb where
  num : Nat
  form : Nat
  nx : Nat
  nu : Nat
  flags : Nat
  sig : BitVec 64
  dt : Nat
  ad : List (List Nat)
  bd : List (List Nat)
  ed : List (List Nat)
  c : List (List Nat)
  d : List (List Nat)
  x0 : List Nat
  /-- Cost weights of Table 04-1: Q, Q_N, R, S, u(−1), ω1, ω2, ρ_s, ρ_c, α and the SOFT mask. -/
  q : List Nat
  qn : List Nat
  r : List Nat
  s : List Nat
  um1 : List Nat
  w1 : List Nat
  w2 : List Nat
  rhoS : Nat
  rhoC : Nat
  alpha : Nat
  soft : Nat
  /-- The demand adds to y1 (R73, template form without a store). -/
  thru : Bool
  blocks : List StepBlock
deriving DecidableEq, Repr

/-- An entry of the iterate table (R139), binary32, by step: x(k+1), u(k), the seven bound duals, the coupling dual w. -/
structure IterEntry where
  x : List (List Nat)
  u : List (List Nat)
  dual : List (List Nat)
  w : List (List Nat)
deriving DecidableEq, Repr

/-- The variables of the coupling problem in one step (R113): numbers of nodes, segments and links, and the sources, stores,
pump sets, flexible loads and substations it holds, each in index order. -/
structure NetLay where
  nc : Nat
  sc : Nat
  src : List Nat
  sto : List Nat
  pmp : List Nat
  flx : List Nat
  lk : Nat
  sub : List Nat
deriving DecidableEq, Repr

/-- A row of A (R113): reserved entries by variable, bounds in binary64 (equal for a row of E), and what the active-constraint
counts of Table 04-7 take it for: 1 source bound, 2 store bound, 3 ramp, 4 import limit, 5 export limit, 0 any other. -/
structure NetRow where
  co : NMap Nat
  lo : Nat
  hi : Nat
  kind : Nat
deriving DecidableEq, Repr

/-- The coupling problem (R113), binary64: rows step by step, the linear part of g, and the snapshot operating point ξ̄. -/
structure NetProb where
  n : Nat
  lay : NetLay
  rows : List NetRow
  cost : List Nat
  ref : List Nat
  /-- Numeric parameters: ρ_c, ρ_n and σ_n. -/
  rhoC : Nat
  rhoN : Nat
  sigmaN : Nat
  /-- Steps with a COP or EER clamped (R86). -/
  clamped : Nat
deriving DecidableEq, Repr

/-- A factor of K under the fixed ordering (R106, R118): per eliminated vertex its pivot and the entries of its column of L by
position, and the number of replaced pivots. -/
structure Factor where
  order : List Nat
  cols : List (Nat × NMap Nat)
  regs : Nat
deriving DecidableEq, Repr

/-- What a coupling round leaves: the iterate table, ξ and the network duals (binary64), r_p and r_d, the substations whose
iterates are not finite, whether any round met one, and whether ξ or a network dual is not finite (R114, R117). -/
structure RoundState where
  entries : NMap IterEntry
  xi : List Nat
  eta : List Nat
  rp : Nat
  rd : Nat
  nans : List Nat
  nanSeen : Bool
  bad : Bool
deriving DecidableEq, Repr

/-- What a solve reads and assembles (R91): the dictionary of the snapshot slot, the grid start in ns of district time, the
operating points by kind and number (R93), the network problem, and the records in hamper order. -/
structure SolveIn where
  vals : NMap Bytes
  grid : Nat
  ops : NMap Nat
  net : NetProb
  subs : List SubProb
deriving DecidableEq, Repr

/-- The warm-start set (R124): its solve, grid start in ns of district time, signatures, initial states (binary32) and
operating points of that solve, its layout, its published round, the previous factor with its solve, and the factor's age
(R127). -/
structure WarmSet where
  solve : Nat
  tGrid : Nat
  netSig : BitVec 64
  sigs : NMap (BitVec 64)
  x0s : NMap (List Nat)
  ops : NMap Nat
  lay : NetLay
  st : RoundState
  factor : Nat
  fac : Factor
  age : Nat
deriving DecidableEq, Repr

/-- A solve in progress, as agreed. -/
structure SolveRun where
  num : Nat
  snap : BitVec 64
  tGrid : Nat
  warmMode : Bool
  budget : Nat
  cap : Nat
  refact : Bool
  coldNet : Bool
  coldSub : Nat
  streamed : Nat
  forced : Bool
  hampers : List Nat
  stop : BitVec 64
  dead : BitVec 64
  early : Bool
  epsP : Nat
  epsD : Nat
  inp : SolveIn
  /-- Verdict slot, round and source lane (R132), and the publication slot (R134). -/
  verdict : Option (BitVec 64 × Nat × LaneId)
  pub : Option (BitVec 64)
deriving DecidableEq, Repr

/-- What a publication writes into the objects of Table 04-7 (R147): grid start in ns, Δt in s, N, the substations solved with
their STORE_EN, r_p and r_d, cost terms (binary64), active constraints, and the trajectories by object (binary32). -/
structure Published where
  grid : Nat
  dt : Nat
  n : Nat
  subs : List (Nat × Bool)
  rp : Nat
  rd : Nat
  cost : List Nat
  act : List Nat
  traj : NMap (List Nat)
deriving DecidableEq, Repr

/-- The last solve that ended (Table 04-7); `coldSub` its cold subproblems, `pubCold` those of the last published one (R148). -/
structure SolveEnd where
  status : Nat
  flags : Nat
  num : Nat
  round : Nat
  coldSub : Nat
  pubCold : Nat
  snap : BitVec 64
  pubSlot : BitVec 64
  result : Option Published
deriving DecidableEq, Repr

/-- The model and the solver, as agreed. Part of the rucksack. -/
structure Solver where
  /-- Model-load state of Table 03-11, commit slot c, and the active-model values of the objects a pending model changes. -/
  mstate : Nat
  commitAt : BitVec 64
  held : NMap Bytes
  active : Bool
  mver : Nat
  pendVer : Nat
  refCode : Nat
  refIndex : Nat
  refSub : Nat
  refRow : Nat
  netSig : BitVec 64
  sigs : NMap (BitVec 64)
  disc : NMap Bytes
  /-- The fixed ordering of the active model (0x7700), the pending model's, and the factor's size with the part of it that
  the network-stage workspace holds (R107). -/
  order : List Nat
  pendOrder : List Nat
  factorBytes : Nat
  factorHeld : Nat
  tFact : Nat
  tFs : Nat
  admFail : Bool
  num : Nat
  run : Option SolveRun
  last : SolveEnd
  warm : Option WarmSet
  /-- CANCEL applied in this slot, and the SOLVENOW commands that wait for the slot's decision (R138). -/
  cancel : Bool
  now : Nat
  /-- The snapshot decision of this slot has been taken. -/
  asked : Bool
deriving DecidableEq, Repr

/-- A lane's problem store and DRAM overflow (R99, R101): hamper headers written, records written in hamper order, and the
number of them that stay resident. -/
structure ProbStore where
  heads : List Bytes
  recs : List Bytes
  resident : Nat
deriving DecidableEq, Repr

/-- A lane's own progress in a solve: PHASE and ROUND of SOLV_STAT, DONE and FACT of Table 04-4, hampers built, retired
tiles, a fetch under way or complete, a catch-up due, the previous factor and the factor of the current solve (R119). -/
structure SolvOwn where
  phase : Nat
  last : Nat
  done : Bool
  fact : Bool
  built : Nat
  retired : BitVec 48
  fetching : Bool
  fetched : Bool
  /-- The fetch had not completed by t1 of the publication slot (R135). -/
  missed : Bool
  catchup : Bool
  factor : Option Factor
  newFac : Option Factor
  /-- The lane does not compute the solve in progress (R137, R398). -/
  nocomp : Bool
  store : ProbStore
  /-- The network problem in the network-stage workspace (R102), and the two copies of the iterate table with the network
  state of their rounds (R139): the last completed round's, and the one that the next round writes into. -/
  work : Option NetProb
  cur : RoundState
  old : RoundState
deriving DecidableEq, Repr

/-! ### MRAM (chapters 06, 08, 16) -/

/-- A totals record (Table 08-7): sequence, LASTFLASK, slot of the latch, latch sequences of the feeders and circuits, per
register value, residue and wrap counter, and per pulse output owed count, flags and accrual. -/
structure TotalsRec where
  valid : Bool
  tseq : BitVec 32
  lastFlask : BitVec 32
  slot : BitVec 64
  mtrSeq : List Nat
  thmSeq : List Nat
  regs : List (BitVec 64 × Nat × BitVec 16)
  pulses : List (Nat × Nat × Nat)
deriving DecidableEq, Repr

/-- A flask (Table 08-8): per register delta, interval increment and residue; the interval states. -/
structure Flask where
  valid : Bool
  fseq : BitVec 32
  baseSeq : BitVec 32
  cause : Nat
  slot : BitVec 64
  regs : List (BitVec 64 × Nat × Nat)
  mtr : List LatchAcc
  thm : List ThmAcc
  pulses : List (Nat × Nat × Nat)
deriving DecidableEq, Repr

/-- A retain record (R203): flags, counters, edge values, and the retained timers with their elapsed times in ms. -/
structure RetainRec where
  valid : Bool
  seq : BitVec 32
  imageId : BitVec 32
  flags : NMap Bool
  counters : NMap CounterSt
  edges : NMap (Option Bool)
  timers : NMap (TimerSt × Nat)
deriving DecidableEq, Repr

/-- The lane's MRAM (R466). Survives every reset. -/
structure Nvm where
  dict : ImageClass
  logic : ImageClass
  dirty : Bool
  dirtySince : BitVec 64
  /-- Banks A and B of the totals, and a record being written with its bank (R251). -/
  totA : TotalsRec
  totB : TotalsRec
  totBusy : Option (Bool × TotalsRec)
  totNextB : Bool
  flask : Flask
  /-- Last FSEQ written (R505), and a flask being written. -/
  fseq : BitVec 32
  flaskBusy : Option Flask
  retA : RetainRec
  retB : RetainRec
  gens : Gens
  epochs : List Nat
  holdSec : Nat
  retag : Option Retag
deriving DecidableEq, Repr




/-! ### A lane -/

/-- How far a lane is from its release (R458 to R460). -/
inductive LaneLife where
  | held       -- in reset
  | loading    -- released, start-up steps 2 to 4
  | up         -- start-up ended; the rejoin state of LCTL_RJSTAT says the rest
deriving DecidableEq, Repr

/-- A voted-view write delivered to a lane (R66): key, data and byte enables; `due` once a strobe has followed. -/
structure VWrite where
  key : Nat
  data : Word
  be : BitVec 4
  due : Bool
deriving DecidableEq, Repr

/-- A power-fail trip (R252, R423): the freeze slot, whether the flask write is done, and whether the supplies have since
held good (R425). -/
structure Trip where
  slot : BitVec 64
  written : Bool
deriving DecidableEq, Repr

/-- The joiner's side of a rejoin (R393 to R398): bulk copy and DRAM part complete, delta passes sent; after entry, the
previous factor is still to be fetched, and the journal and trace copy is in progress. -/
structure CopyState where
  bulk : Bool
  dram : Bool
  passes : Nat
  factor : Bool
  trailing : Bool
deriving DecidableEq, Repr

/-- The lane's own time base (R184, R185): a 64-bit count of µs with a 32-bit fraction, and κ in 10⁻¹⁵; fabric clocks in the last 65,536
oscillator periods. -/
structure TbUnit where
  tb : BitVec 96
  kappa : Int
  rtcN : Nat
deriving DecidableEq, Repr

/-- One lane. -/
structure Lane where
  life : LaneLife
  regs : RegMap
  /-- Shadows of the RTC-domain registers (Table 15-4), and the latched high halves of register pairs (R439). -/
  shadow : RegMap
  latch : RegMap
  slot : BitVec 64
  /-- The slot number has been set since the last reset (R26). -/
  inRun : Bool
  /-- The arbiter's strobe count at the last strobe this lane received. -/
  ticks : Nat
  mask : LaneSet
  word : StrobeWord
  agree : Agree
  img : Image
  dict : Dict
  key : KeyUnit
  keyA : KeyAgreed
  rtc : Rtc
  nvm : Nvm
  vw : List VWrite
  /-- Step 1 of Table 01-6 has run in this slot; each later boundary step likewise. -/
  step1 : Bool
  step3 : Bool
  step4 : Bool
  step5 : Bool
  step6 : Bool
  /-- The loops of this slot have run. -/
  stepL : Bool
  tx : List OutMsg
  /-- Events raised in the slot (Table 10-10): code, data, and the session or 0xFF for every one. -/
  evq : List (Nat × Bytes × Nat)
  /-- Output frames of the slot in send order, for the END frame (R58). -/
  sent : List (BitVec 64)
  rep : ReportState
  /-- NEWEPOCH notices sent: 256 × session + port, slot (R313). -/
  notices : NMap (BitVec 64)
  /-- Source address and UDP port of the last admitted message of each session that this lane received (R309). -/
  peers : List (BitVec 128 × Nat)
  /-- A configuration block and CONFIRM on their way to the island (R363). -/
  cfgOut : Option (Bytes × Word)
  leng : Leng
  lseq : Lseq
  feeders : List Feeder
  thm : Thm
  solver : Solver
  solv : SolvOwn
  rtdOwn : List RtdOwn
  pulseOwn : List PulseOwn
  /-- Levels of the pulse inputs and of the logic inputs at the last strobe. -/
  plevel : BitVec 16
  ports : List PortSt
  time : TimeUnit
  tbu : TbUnit
  /-- XACT's own counts for the substation statistics (R283), and the slot whose entry of kind 0x03 has been placed. -/
  ownStats : List Nat
  statSlot : Option (BitVec 64)
  /-- Slot of first agreement of this run (R26). -/
  firstSlot : BitVec 64
  trip : Option Trip
  /-- Causes of Table 15-7 that this lane's agreed events have raised since the last strobe. -/
  irq : Nat
  /-- The SESSION generation is to increment at step 1 of this slot (Table 11-7). -/
  tamperNew : Bool
  copy : CopyState
  /-- The arbiter's strobe count at which the lane's back-off began. -/
  waitFrom : Nat
  backoff : Bool
  handover : Bool
deriving DecidableEq, Repr

end Sys2Proof.Machine
end

