-- ==== Sys2Proof/Machine/Ops.lean ====
section
/-! DEFINITION. The named operations over sparse maps, register files and lanes. -/
namespace Sys2Proof.Machine

/-! ### Sparse maps in canonical form -/

/-- What a map holds at a key; an unlisted key reads as `d k`. -/
def mget {α : Type} (d : Nat → α) : NMap α → Nat → α
  | [], k => d k
  | (k', v) :: m, k => if k = k' then v else mget d m k

/-- Remove a key. -/
def mdel {α : Type} (m : NMap α) (k : Nat) : NMap α := m.filter fun p => p.1 != k

/-- Insert or replace a key. -/
def mput {α : Type} : NMap α → Nat → α → NMap α
  | [], k, x => [(k, x)]
  | (k', v) :: m, k, x =>
    if k < k' then (k, x) :: (k', v) :: m else if k = k' then (k, x) :: m else (k', v) :: mput m k x

/-- Write a key, keeping the canonical form: the value an unlisted key reads as is not listed. -/
def mset {α : Type} [DecidableEq α] (d : Nat → α) (m : NMap α) (k : Nat) (x : α) : NMap α :=
  if x = d k then mdel m k else mput m k x

/-- Keys strictly rising above a bound, and no entry equal to its default. -/
def mwfFrom {α : Type} [DecidableEq α] (d : Nat → α) : Option Nat → NMap α → Bool
  | _, [] => true
  | lo, (k, v) :: m =>
    (match lo with | none => true | some b => decide (b < k)) && decide (v ≠ d k) && mwfFrom d (some k) m

/-- The canonical form of a map. -/
def mwf {α : Type} [DecidableEq α] (d : Nat → α) (m : NMap α) : Bool := mwfFrom d none m

/-- A byte of a byte memory; an unlisted byte reads as zero. -/
def bget (m : NMap Byte) (a : Nat) : Byte := mget (fun _ => 0) m a
/-- Write one byte of a byte memory. -/
def bset (m : NMap Byte) (a : Nat) (b : Byte) : NMap Byte := mset (fun _ => 0) m a b
/-- `n` bytes of a byte memory. -/
def bgetN (m : NMap Byte) (a : Nat) : (n : Nat) → Bytes
  | 0 => []
  | n + 1 => bget m a :: bgetN m (a + 1) n
/-- Write a byte string into a byte memory. -/
def bsetN (m : NMap Byte) (a : Nat) : Bytes → NMap Byte
  | [] => m
  | b :: bs => bsetN (bset m a b) (a + 1) bs

/-- Replace the element of a list at an index by a function of it. -/
def lmod {α : Type} (l : List α) (i : Nat) (f : α → α) : List α := l.modify i f

/-! ### Registers -/

/-- The offset of a register inside the family a description covers, where the key belongs to it. -/
def RegDesc.covers (r : RegDesc) (k : Nat) : Bool :=
  decide (r.key ≤ k) &&
  (List.range r.n1).any fun i => (List.range r.n2).any fun j => k == r.key + r.s1 * i + r.s2 * j

/-- The description of the register at a key. -/
def regDesc? (k : Nat) : Option RegDesc := regTable.find? (fun r => r.covers k)

/-- The reset word of a description. -/
def RegDesc.rst (r : RegDesc) : Word :=
  r.fields.foldl (fun w f => w ||| BitVec.ofNat 32 (f.rst * 2 ^ f.lo)) 0

/-- The reset value of the register at a key; 0 where no register is. -/
def regRst (k : Nat) : Word := match regDesc? k with | some r => r.rst | none => 0

/-- The mask of bits hi to lo. -/
def bitMask (hi lo : Nat) : Word := BitVec.ofNat 32 (2 ^ (hi + 1) - 2 ^ lo)

/-- Read a register of a register file. -/
def rget (m : RegMap) (k : Nat) : Word := mget regRst m k
/-- Write a register of a register file. -/
def rset (m : RegMap) (k : Nat) (w : Word) : RegMap := mset regRst m k w

/-- Read a field. -/
def fget (m : RegMap) (f : Fld) : Nat := (rget m f.key).toNat / 2 ^ f.lo % 2 ^ (f.hi + 1 - f.lo)
/-- Replace bits hi to lo of a word. -/
def putBits (w : Word) (hi lo v : Nat) : Word :=
  (w &&& ~~~(bitMask hi lo)) ||| (BitVec.ofNat 32 (v % 2 ^ (hi + 1 - lo) * 2 ^ lo))
/-- Write a field, keeping the register's other bits. -/
def fset (m : RegMap) (f : Fld) (v : Nat) : RegMap := rset m f.key (putBits (rget m f.key) f.hi f.lo v)
/-- Set a one-bit or mask field to all ones. -/
def fflag (m : RegMap) (f : Fld) : RegMap := fset m f (2 ^ (f.hi + 1 - f.lo) - 1)
/-- Write a one-bit field. -/
def fbool (m : RegMap) (f : Fld) (b : Bool) : RegMap := fset m f b.toNat
/-- OR bits into a field. -/
def forBits (m : RegMap) (f : Fld) (v : Nat) : RegMap := fset m f ((fget m f) ||| v)
/-- Add to a counter field that saturates at its maximum. -/
def fbump (m : RegMap) (f : Fld) (n : Nat := 1) : RegMap :=
  fset m f (satAdd (2 ^ (f.hi + 1 - f.lo) - 1) (fget m f) n)
/-- Keep the larger of a field and a value, saturating. -/
def fmax (m : RegMap) (f : Fld) (v : Nat) : RegMap :=
  fset m f (min (2 ^ (f.hi + 1 - f.lo) - 1) (max (fget m f) v))
/-- A value saturated to the field's width. -/
def fsat (m : RegMap) (f : Fld) (v : Nat) : RegMap := fset m f (min (2 ^ (f.hi + 1 - f.lo) - 1) v)

end Sys2Proof.Machine
end

