-- ==== Sys2Proof/Machine/Crypto.lean ====
section
/-! DEFINITION. Cryptographic primitives named by chapters 10 and 11: AES-256, CMAC, GCM, the SP 800-108 counter-mode KDF
and P-384. The constants are those of the published standards. -/
namespace Sys2Proof.Machine

/-! ### AES-256 -/

/-- The AES substitution box, entries 0 to 63. -/
def sbox0 : List Nat := [99, 124, 119, 123, 242, 107, 111, 197, 48, 1, 103, 43, 254, 215, 171, 118, 202, 130, 201, 125, 250, 89, 71, 240, 173, 212, 162, 175, 156, 164, 114, 192, 183, 253, 147, 38, 54, 63, 247, 204, 52, 165, 229, 241, 113, 216, 49, 21, 4, 199, 35, 195, 24, 150, 5, 154, 7, 18, 128, 226, 235, 39, 178, 117]
/-- The AES substitution box, entries 64 to 127. -/
def sbox1 : List Nat := [9, 131, 44, 26, 27, 110, 90, 160, 82, 59, 214, 179, 41, 227, 47, 132, 83, 209, 0, 237, 32, 252, 177, 91, 106, 203, 190, 57, 74, 76, 88, 207, 208, 239, 170, 251, 67, 77, 51, 133, 69, 249, 2, 127, 80, 60, 159, 168, 81, 163, 64, 143, 146, 157, 56, 245, 188, 182, 218, 33, 16, 255, 243, 210]
/-- The AES substitution box, entries 128 to 191. -/
def sbox2 : List Nat := [205, 12, 19, 236, 95, 151, 68, 23, 196, 167, 126, 61, 100, 93, 25, 115, 96, 129, 79, 220, 34, 42, 144, 136, 70, 238, 184, 20, 222, 94, 11, 219, 224, 50, 58, 10, 73, 6, 36, 92, 194, 211, 172, 98, 145, 149, 228, 121, 231, 200, 55, 109, 141, 213, 78, 169, 108, 86, 244, 234, 101, 122, 174, 8]
/-- The AES substitution box, entries 192 to 255. -/
def sbox3 : List Nat := [186, 120, 37, 46, 28, 166, 180, 198, 232, 221, 116, 31, 75, 189, 139, 138, 112, 62, 181, 102, 72, 3, 246, 14, 97, 53, 87, 185, 134, 193, 29, 158, 225, 248, 152, 17, 105, 217, 142, 148, 155, 30, 135, 233, 206, 85, 40, 223, 140, 161, 137, 13, 191, 230, 66, 104, 65, 153, 45, 15, 176, 84, 187, 22]
/-- The AES substitution box. -/
def sbox : List Nat := sbox0 ++ sbox1 ++ sbox2 ++ sbox3
/-- Substitution of one byte. -/
def subByte (b : Byte) : Byte := BitVec.ofNat 8 (sbox.getD b.toNat 0)

/-- Multiplication by x in the AES field. -/
def xtime (b : Byte) : Byte := if b.getLsbD 7 then (b <<< 1) ^^^ 0x1B#8 else b <<< 1

/-- XOR of byte strings, to the length of the shorter. -/
def xorB (a b : Bytes) : Bytes := List.zipWith (· ^^^ ·) a b

/-- One step of the AES-256 key schedule: append the word at index `i` (words of four bytes, newest last). -/
def keyStep (ws : List Bytes) (i : Nat) : List Bytes :=
  let prev := ws.getD (i - 1) []
  let t := if i % 8 = 0 then
      let r := (prev.drop 1 ++ prev.take 1).map subByte
      xorB r [BitVec.ofNat 8 (2 ^ (i / 8 - 1)), 0, 0, 0]
    else if i % 8 = 4 then prev.map subByte
    else prev
  ws ++ [xorB (ws.getD (i - 8) []) t]

/-- Cut a byte string into blocks of `n`; `k` bounds their number. -/
def chunks (n : Nat) : (k : Nat) → Bytes → List Bytes
  | 0, _ => []
  | k + 1, bs => if bs.isEmpty then [] else bs.take n :: chunks n k (bs.drop n)

/-- The fifteen round keys of AES-256. -/
def roundKeys (key : Bytes) : List Bytes :=
  let ws := (List.range 52).foldl (fun ws i => keyStep ws (i + 8)) (chunks 4 8 key)
  (List.range 15).map fun r => ((ws.drop (4 * r)).take 4).flatten

/-- ShiftRows on the sixteen bytes of a state, column by column. -/
def shiftRows (s : Bytes) : Bytes :=
  (List.range 16).map fun i => s.getD ((i + 4 * (i % 4)) % 16) 0

/-- MixColumns on one column. -/
def mixColumn (c : Bytes) : Bytes :=
  let a := c.getD 0 0
  let b := c.getD 1 0
  let d := c.getD 2 0
  let e := c.getD 3 0
  [xtime a ^^^ (xtime b ^^^ b) ^^^ d ^^^ e, a ^^^ xtime b ^^^ (xtime d ^^^ d) ^^^ e,
   a ^^^ b ^^^ xtime d ^^^ (xtime e ^^^ e), (xtime a ^^^ a) ^^^ b ^^^ d ^^^ xtime e]

/-- One middle round. -/
def aesRound (s k : Bytes) : Bytes :=
  xorB (((chunks 4 4 (shiftRows (s.map subByte))).map mixColumn).flatten) k

/-- AES-256 encryption of one block under expanded keys. -/
def aesWith (ks : List Bytes) (block : Bytes) : Bytes :=
  let s := xorB block (ks.getD 0 [])
  let s := (List.range 13).foldl (fun s r => aesRound s (ks.getD (r + 1) [])) s
  xorB (shiftRows (s.map subByte)) (ks.getD 14 [])

/-- AES-256 encryption of one block. -/
def aes256 (key block : Bytes) : Bytes := aesWith (roundKeys key) block

/-! ### CMAC -/

/-- A block as a number, most significant byte first. -/
def blockNum (b : Bytes) : BitVec 128 := BitVec.ofNat 128 (beNat b)
/-- A number as a block. -/
def numBlock (n : BitVec 128) : Bytes := beBytes 16 n.toNat

/-- Doubling in the CMAC field. -/
def cmacDbl (n : BitVec 128) : BitVec 128 := if n.getLsbD 127 then (n <<< 1) ^^^ 0x87#128 else n <<< 1

/-- AES-256-CMAC of a message. -/
def cmac (key msg : Bytes) : Bytes :=
  let ks := roundKeys key
  let k1 := cmacDbl (blockNum (aesWith ks (zeros 16)))
  let k2 := cmacDbl k1
  let blocks := chunks 16 (msg.length / 16 + 1) msg
  let last := blocks.getLastD []
  let tail := if last.length = 16 then xorB last (numBlock k1)
    else xorB (fit 16 (last ++ [0x80#8])) (numBlock k2)
  let x := blocks.dropLast.foldl (fun x b => aesWith ks (xorB x b)) (zeros 16)
  aesWith ks (xorB x tail)

/-- The counter-mode KDF of R335 with a one-byte counter and a two-byte length, `blocks` × 128 bits long. -/
def kdf (parent label context : Bytes) (blocks : Nat) : Bytes :=
  ((List.range blocks).map fun i =>
    cmac parent (leBytes 1 (i + 1) ++ label ++ [0#8] ++ context ++ beBytes 2 (128 * blocks))).flatten

/-! ### GCM -/

/-- Multiplication in the GCM field, bit by bit from the most significant bit of `x`. -/
def gmulGo (x y : BitVec 128) : (k : Nat) → (z v : BitVec 128) → BitVec 128
  | 0, z, _ => z
  | k + 1, z, v =>
    let z := if x.getLsbD k then z ^^^ v else z
    let v := if v.getLsbD 0 then (v >>> 1) ^^^ (0xE1#128 <<< 120) else v >>> 1
    gmulGo x y k z v
/-- Multiplication in the GCM field. -/
def gmul128 (x y : BitVec 128) : BitVec 128 := gmulGo x y 128 0 y

/-- GHASH over padded data. -/
def ghash (h : BitVec 128) (data : Bytes) : BitVec 128 :=
  (chunks 16 (data.length / 16 + 1) data).foldl (fun x b => gmul128 (x ^^^ blockNum (fit 16 b)) h) 0

/-- Pad to a whole number of blocks. -/
def pad16 (bs : Bytes) : Bytes := bs ++ zeros ((16 - bs.length % 16) % 16)

/-- Counter-mode key stream applied to data, from counter value `ctr` after the 96-bit nonce. -/
def gctr (ks : List Bytes) (nonce : Bytes) (ctr : Nat) (data : Bytes) : Bytes :=
  ((chunks 16 (data.length / 16 + 1) data).mapIdx fun i b =>
    xorB b (aesWith ks (nonce ++ beBytes 4 (ctr + i)))).flatten

/-- The GCM tag of associated data and ciphertext. -/
def gcmTag (ks : List Bytes) (nonce aad ct : Bytes) : Bytes :=
  let h := blockNum (aesWith ks (zeros 16))
  let s := ghash h (pad16 aad ++ pad16 ct ++ beBytes 8 (8 * aad.length) ++ beBytes 8 (8 * ct.length))
  xorB (numBlock s) (aesWith ks (nonce ++ beBytes 4 1))

/-- AES-256-GCM encryption: ciphertext and tag. -/
def gcmEncrypt (key nonce aad pt : Bytes) : Bytes × Bytes :=
  let ks := roundKeys key
  let ct := gctr ks nonce 2 pt
  (ct, gcmTag ks nonce aad ct)

/-- AES-256-GCM decryption: the plaintext when the tag verifies. -/
def gcmDecrypt (key nonce aad ct tag : Bytes) : Option Bytes :=
  let ks := roundKeys key
  if gcmTag ks nonce aad ct = tag then some (gctr ks nonce 2 ct) else none

/-! ### P-384 -/

/-- The field prime of P-384. -/
def p384 : Nat := 2 ^ 384 - 2 ^ 128 - 2 ^ 96 + 2 ^ 32 - 1
/-- The order of P-384. -/
def n384 : Nat :=
  0xFFFFFFFFFFFFFFFFFFFFFFFFFFFFFFFFFFFFFFFFFFFFFFFFC7634D81F4372DDF581A0DB248B0A77AECEC196ACCC52973
/-- The curve coefficient b. -/
def b384 : Nat :=
  0xB3312FA7E23EE7E4988E056BE3F82D19181D9C6EFE8141120314088F5013875AC656398D8A2ED19D2A85C8EDD3EC2AEF
/-- The base point. -/
def g384 : Nat × Nat :=
  (0xAA87CA22BE8B05378EB1C71EF320AD746E1D3B628BA79B9859F741E082542A385502F25DBF55296C3A545E3872760AB7,
   0x3617DE4A96262C6F5D9E98BF9292DC29F8F41DBD289A147CE9DA3113B5F0B8C00A60B1CE1D7E819D7A431D7C90EA0E5F)

/-- Difference in the field. -/
def subP (a b : Nat) : Nat := (a + p384 - b % p384) % p384

/-- A point in Jacobian coordinates; Z = 0 is the point at infinity. -/
structure JPoint where
  x : Nat
  y : Nat
  z : Nat
deriving DecidableEq, Repr

/-- Doubling, for the coefficient a = −3. -/
def jdbl (q : JPoint) : JPoint :=
  if q.z = 0 ∨ q.y = 0 then ⟨1, 1, 0⟩
  else
    let d := q.z * q.z % p384
    let g := q.y * q.y % p384
    let b := q.x * g % p384
    let a := 3 * (subP q.x d * ((q.x + d) % p384)) % p384
    let x := subP (a * a) (8 * b)
    let z := subP (subP ((q.y + q.z) * (q.y + q.z)) g) d
    ⟨x, subP (a * subP (4 * b) x) (8 * (g * g % p384)), z⟩

/-- Addition of two points. -/
def jadd (q r : JPoint) : JPoint :=
  if q.z = 0 then r
  else if r.z = 0 then q
  else
    let zz1 := q.z * q.z % p384
    let zz2 := r.z * r.z % p384
    let u1 := q.x * zz2 % p384
    let u2 := r.x * zz1 % p384
    let s1 := q.y * (zz2 * r.z % p384) % p384
    let s2 := r.y * (zz1 * q.z % p384) % p384
    if u1 = u2 then (if s1 = s2 then jdbl q else ⟨1, 1, 0⟩)
    else
      let h := subP u2 u1
      let i := 4 * (h * h) % p384
      let j := h * i % p384
      let t := 2 * subP s2 s1 % p384
      let v := u1 * i % p384
      let x := subP (subP (t * t) j) (2 * v)
      ⟨x, subP (t * subP v x) (2 * (s1 * j)), (2 * (q.z * r.z % p384) % p384) * h % p384⟩

/-- Multiple of a point, from bit `k` − 1 down. -/
def jmulGo (n : Nat) (q : JPoint) : (k : Nat) → JPoint → JPoint
  | 0, acc => acc
  | k + 1, acc => jmulGo n q k (let d := jdbl acc; if n.testBit k then jadd d q else d)

/-- Power in the field, from bit `k` − 1 down. -/
def powPGo (a e : Nat) : (k : Nat) → Nat → Nat
  | 0, acc => acc
  | k + 1, acc => powPGo a e k (let s := acc * acc % p384; if e.testBit k then s * a % p384 else s)

/-- Affine coordinates of a multiple of a point; none for the point at infinity. -/
def ecMul (n : Nat) (q : Nat × Nat) : Option (Nat × Nat) :=
  let r := jmulGo n ⟨q.1, q.2, 1⟩ 384 ⟨1, 1, 0⟩
  if r.z = 0 then none
  else
    let zi := powPGo r.z (p384 - 2) 384 1
    let zi2 := zi * zi % p384
    some (r.x * zi2 % p384, r.y * (zi2 * zi % p384) % p384)

/-- A point lies on P-384 (R345). -/
def onCurve (q : Nat × Nat) : Bool :=
  decide (q.1 < p384) && decide (q.2 < p384) &&
  decide (q.2 * q.2 % p384 = (q.1 * q.1 * q.1 + b384 + (p384 - 3) * q.1) % p384)

/-- An uncompressed point (0x04, X, Y). -/
def ecDecode (bs : Bytes) : Option (Nat × Nat) :=
  if bs.getD 0 0 = 4 then
    let q := (beNat (slice bs 1 48), beNat (slice bs 49 48))
    if onCurve q then some q else none
  else none
/-- The uncompressed form of a point. -/
def ecEncode (q : Nat × Nat) : Bytes := [4#8] ++ beBytes 48 q.1 ++ beBytes 48 q.2

end Sys2Proof.Machine
end

