-- ==== Sys2Proof/Machine/DictTypes.lean ====
section
/-! DEFINITION. Descriptors of dictionary objects (R328 to R331) and the value encodings of Table 10-8. -/
namespace Sys2Proof.Machine

/-- The range rule of a field (R322, step 1). -/
inductive Rng where
  /-- Any value of the type. -/
  | any
  /-- Integers from lo to hi in steps counted from lo. -/
  | int (lo hi step : Int)
  /-- An enumeration: codes up to a maximum; another code takes the default with reason ENUM. -/
  | enum (max : Nat)
  /-- Finite floating-point values; bounds as bits of the type. -/
  | flt (lo hi : Nat)
  /-- Any finite floating-point value. -/
  | finite
  /-- Integers from lo to hi, or one of the further codes. -/
  | intOr (lo hi : Int) (codes : List Nat)
  /-- A gate list entry, whose interval is not 0 (R267). -/
  | gate
  /-- Magnitude at least the first bound and at most the second (an interval around zero is excluded). -/
  | mag (lo hi : Nat)
deriving DecidableEq, Repr

/-- One family of dictionary fields: index range, subindices s0, s0 + step, … up to s1, type code, element count or
maximum length, range, default element values, and kind. -/
structure ObjDesc where
  lo : Nat
  hi : Nat
  s0 : Nat
  s1 : Nat
  step : Nat
  type : Nat
  n : Nat
  rng : Rng
  dflt : List Nat
  /-- Read-only for every role. -/
  ro : Bool
  /-- Held in the MRAM dictionary image. -/
  held : Bool
  /-- Structure object: staged-only, and part of the model (R68). -/
  struct : Bool
  /-- Action object (R321). -/
  action : Bool
  /-- An array as long as what has been written to it, up to n elements (DESIGN CHOICE, log 155). -/
  vary : Bool
deriving DecidableEq, Repr

/-- A writable configuration field. -/
def cfg (idx sub type : Nat) (rng : Rng) (dflt : Nat) : ObjDesc :=
  { lo := idx, hi := idx, s0 := sub, s1 := sub, step := 1, type := type, n := 1, rng := rng, dflt := [dflt],
    ro := false, held := true, struct := false, action := false, vary := false }
/-- The same field over an index range. -/
def cfgR (lo hi sub type : Nat) (rng : Rng) (dflt : Nat) : ObjDesc := { cfg lo sub type rng dflt with hi := hi }
/-- A writable array field over an index range. -/
def arrR (lo hi sub elem n : Nat) (rng : Rng) (dflt : List Nat) : ObjDesc :=
  { cfg lo sub (0x80 + elem) rng 0 with hi := hi, n := n, dflt := dflt }
/-- An array that holds what has been written to it. -/
def tabR (lo hi sub elem n : Nat) (rng : Rng) (dflt : List Nat) : ObjDesc :=
  { arrR lo hi sub elem n rng dflt with vary := true }
/-- A read-only field over an index range. -/
def roR (lo hi sub type n : Nat) : ObjDesc :=
  { cfg lo sub type .any 0 with hi := hi, n := n, ro := true, held := false }
/-- A command field: written, acted on, held nowhere. -/
def cmdF (idx sub type : Nat) (rng : Rng) (dflt : Nat) : ObjDesc := { cfg idx sub type rng dflt with held := false }

/-- The element type of a type code. -/
def elemType (t : Nat) : Nat := if 0x80 ≤ t then t - 0x80 else t
/-- Element size in bytes; 0 for STRING and OCTETS (R330). -/
def typeSize (t : Nat) : Nat :=
  match elemType t with
  | 1 => 1 | 2 => 1 | 3 => 2 | 4 => 4 | 5 => 8 | 6 => 1 | 7 => 2 | 8 => 4 | 9 => 8 | 0xA => 4 | 0xB => 8 | 0xC => 10
  | _ => 0

/-- A family covers a field. -/
def ObjDesc.covers (d : ObjDesc) (idx sub : Nat) : Bool :=
  decide (d.lo ≤ idx) && decide (idx ≤ d.hi) && decide (d.s0 ≤ sub) && decide (sub ≤ d.s1)
  && decide ((sub - d.s0) % d.step = 0)

/-- The default value of a family, encoded. -/
def ObjDesc.default (d : ObjDesc) : Bytes :=
  let sz := typeSize d.type
  if sz = 0 then d.dflt.map (BitVec.ofNat 8)
  else
    let n := if d.vary then d.dflt.length else if 0x80 ≤ d.type then d.n else 1
    ((List.range n).map fun i => leBytes sz (d.dflt.getD i (d.dflt.getLastD 0))).flatten

/-- The signed or unsigned integer an element holds. -/
def elemInt (t : Nat) (x : Nat) : Int :=
  match elemType t with
  | 6 => (BitVec.ofNat 8 x).toInt
  | 7 => (BitVec.ofNat 16 x).toInt
  | 8 => (BitVec.ofNat 32 x).toInt
  | 9 => (BitVec.ofNat 64 x).toInt
  | _ => x

/-- The bits of an integer in an element. -/
def elemBits (t : Nat) (x : Int) : Nat := (ofInt (8 * typeSize t) x).toNat

/-- The format of a floating-point type. -/
def typeFmt (t : Nat) : FFmt := if elemType t = 0xB then fmt64 else fmt32

/-- Clamp one element (R322, step 1): the value in force and the reason code, 0 when unchanged. -/
def clampElem (t : Nat) (r : Rng) (dflt x : Nat) : Nat × Nat :=
  let isF := decide (elemType t = 0xA) || decide (elemType t = 0xB)
  let f := typeFmt t
  match r with
  | .any => (x, 0)
  | .int lo hi step =>
    let v := elemInt t x
    if v < lo then (elemBits t lo, 1)
    else if hi < v then (elemBits t hi, 1)
    else
      let k := fmod (v - lo) step.toNat
      if 1 < step ∧ k ≠ 0 then (elemBits t (v - k), 1) else (x, 0)
  | .intOr lo hi codes =>
    -- a number outside takes the nearest value inside
    let v := elemInt t x
    if (lo ≤ v ∧ v ≤ hi) ∨ codes.contains x = true then (x, 0)
    else
      let far (c : Nat) : Nat := (elemInt t c - v).natAbs
      (codes.foldl (fun b c => if far c < far b then c else b) (if v < lo then elemBits t lo else elemBits t hi), 1)
  | .gate => if x % 2 ^ 24 = 0 then (x + 1, 1) else (x, 0)
  | .enum m => if x ≤ m then (x, 0) else (dflt, 3)
  | .finite => if isF && !ffinite f x then (dflt, 2) else (x, 0)
  | .flt lo hi =>
    if !ffinite f x then (dflt, 2)
    else if flt f x lo then (lo, 1)
    else if flt f hi x then (hi, 1)
    else (x, 0)
  | .mag lo hi =>
    if !ffinite f x then (dflt, 2)
    else
      let neg := flt f x 0
      let m := fabs f x
      let y := if flt f m lo then lo else if flt f hi m then hi else m
      if y = m then (x, 0) else (if neg then fneg f y else y, 1)

/-- binary32 bits of an integer, of a decimal ratio. -/
def f32i (z : Int) : Nat := fofInt fmt32 z
def f32r (z : Int) (d : Nat) : Nat := fofRatio fmt32 z d
def f64r (z : Int) (d : Nat) : Nat := fofRatio fmt64 z d

end Sys2Proof.Machine
end

