-- ==== Sys2Proof/Machine/DictTable.lean ====
section
/-! DEFINITION. The dictionary's objects by chapter (Table 10-9): types, ranges, defaults and kinds. -/
namespace Sys2Proof.Machine

/-- Largest values of the unsigned and signed types. -/
def u8 : Rng := .int 0 255 1
def u16 : Rng := .int 0 65535 1
def u32 : Rng := .int 0 4294967295 1

/-- Chapter 10: identity, sessions, reports and journal (Tables 10-2 and 10-13, R323, R330, R333). -/
def objSystem : List ObjDesc := [
  roR 0x0000 0x0000 1 4 1, roR 0x0000 0x0000 2 0xE 0xFFFF, roR 0x0010 0x001F 1 2 1, roR 0x0090 0x009F 1 2 1,
  roR 0x1000 0x1000 1 0xD 21, roR 0x1000 0x1000 2 0xD 11, roR 0x1000 0x1000 3 5 1, roR 0x1000 0x1000 4 2 1,
  roR 0x1000 0x1000 5 2 1, roR 0x1000 0x1000 6 3 1,
  roR 0x1001 0x1001 1 2 1, roR 0x1001 0x1001 2 2 1, roR 0x1001 0x1001 3 1 1, roR 0x1001 0x1001 4 5 1,
  cfg 0x1001 5 4 (.int 1 86400 1) 10, roR 0x1001 0x1001 6 2 1, roR 0x1001 0x1001 7 4 1,
  cfgR 0x1200 0x1207 1 1 .any 0, cfgR 0x1200 0x1207 2 2 (.enum 5) 5, cfgR 0x1200 0x1207 3 3 u16 0,
  cfgR 0x1200 0x1207 4 5 .any 0, { cfgR 0x1200 0x1207 5 0xE .any 0 with n := 16, dflt := [] },
  cfgR 0x1200 0x1207 6 3 (.int 1 65535 1) 5870, cfgR 0x1200 0x1207 7 3 (.int 10 3600 1) 600,
  cfgR 0x1200 0x1207 8 3 u16 0xFFFE, roR 0x1200 0x1207 0x10 2 1, roR 0x1200 0x1207 0x11 2 1,
  roR 0x1200 0x1207 0x12 3 1, roR 0x1200 0x1207 0x13 0x84 2,
  roR 0x1F00 0x1F00 1 4 1, roR 0x1F00 0x1F00 2 0xE 163840,
  roR 0x1F10 0x1F10 1 5 1, roR 0x1F10 0x1F10 2 0xE 0x10000000, cfg 0x1F10 3 4 (.int 64 4096 64) 2048,
  roR 0x1F10 0x1F10 4 4 1]

/-- Chapters 01, 11, 12, 13 and 14: partition, keys, island, lanes, time. -/
def objDevice : List ObjDesc := [
  cfg 0x1600 1 2 (.int 4 24 1) 20, cfg 0x1600 2 2 (.int 1 8 1) 4, cfg 0x1600 3 2 (.int 2 8 1) 6,
  roR 0x1600 0x1600 4 2 1, roR 0x1600 0x1600 5 0x82 4, roR 0x1600 0x1600 6 1 1,
  cfg 0x1100 1 2 (.int 1 255 1) 3, cfg 0x1100 2 3 (.int 10 1000 1) 1000, cfg 0x1100 3 2 u8 3,
  cfg 0x1100 4 3 (.int 10 3600 1) 60, cmdF 0x1100 5 2 u8 0xFF, cmdF 0x1100 6 2 u8 0xFF,
  roR 0x1101 0x1101 1 0x82 3, roR 0x1101 0x1101 2 0x82 3, roR 0x1101 0x1101 3 0x82 3,
  cfg 0x1320 1 7 (.int (-3600) 3600 1) 37, cfg 0x1320 2 6 (.int (-1) 1 1) 0, cfg 0x1320 3 0xC .any 0,
  cmdF 0x1320 4 0xC .any 0, roR 0x1320 0x1320 5 2 1, roR 0x1320 0x1320 6 1 1,
  cfg 0x1321 1 2 (.int 0 6 1) 0, cfg 0x1321 2 4 (.int 0 86399 1) 0,
  cfg 0x1330 1 1 .any 0, cfg 0x1330 2 2 (.enum 1) 0, cfg 0x1330 3 3 (.int 2500 3300 1) 3000,
  cfg 0x1330 4 3 (.int 10 1000 1) 100,
  cfg 0x1400 1 2 (.enum 2) 0, roR 0x1401 0x1401 1 4 1, roR 0x1401 0x1401 2 4 1, roR 0x1401 0x1401 3 4 1,
  roR 0x1401 0x1401 4 4 1, roR 0x1401 0x1401 5 4 1, roR 0x1401 0x1401 6 2 1, roR 0x1401 0x1401 7 1 1,
  cmdF 0x1402 1 4 .any 0, roR 0x1410 0x1410 1 0x84 65536, roR 0x1411 0x1411 1 0x84 4096,
  roR 0x1412 0x1412 1 0x84 3, roR 0x1413 0x1413 1 0x84 2, roR 0x1420 0x1420 1 2 1, roR 0x1420 0x1420 2 0xE 32,
  roR 0x1500 0x1500 1 2 1, cfg 0x1500 2 4 .any 0, roR 0x1500 0x1500 3 4 1, cfg 0x1500 4 1 .any 0,
  roR 0x1500 0x1500 5 2 1, roR 0x1501 0x1501 1 4 1,
  cfgR 0x1510 0x151F 1 2 (.enum 2) 0, cfgR 0x1510 0x151F 2 2 (.enum 1) 0, cfgR 0x1510 0x151F 3 2 (.int 1 16 1) 2,
  cfgR 0x1510 0x151F 4 2 (.int 0 7 1) 5, cfgR 0x1510 0x151F 5 2 (.int 1 20 1) 10,
  cfgR 0x1510 0x151F 6 0xA (.flt (f32i 1) (f32i 10000000)) (f32i 100),
  cfgR 0x1510 0x151F 7 0xA (.flt 0 (f32i 50000)) (f32i 100),
  cfgR 0x1510 0x151F 8 4 (.int 10 600000 1) 10000,
  cfgR 0x1510 0x151F 9 0xA (.flt (f32i 50) (f32i 50000)) (f32i 100),
  cfgR 0x1510 0x151F 0xA 0xA (.flt (f32i 1) (f32i 50000)) (f32i 50000),
  cfgR 0x1510 0x151F 0xB 0xA (.flt (f32i 1) (f32i 100000000)) (f32i 1000000),
  roR 0x1530 0x153F 1 2 1, roR 0x1530 0x153F 2 2 1, roR 0x1530 0x153F 3 0xA 1, roR 0x1530 0x153F 4 0xA 1]

/-- Chapter 05: loops, sections, swaps and traces (Table 05-1, R156, R167, R172). -/
def objLoops : List ObjDesc := [
  cfgR 0x4000 0x41FF 1 1 .any 0, cfgR 0x4000 0x41FF 2 2 (.int 0 8 1) 8, cfgR 0x4000 0x41FF 3 3 (.int 0 19999 1) 0,
  cfgR 0x4000 0x41FF 4 3 (.int 0 4095 1) 0, cfgR 0x4000 0x41FF 5 2 (.int 1 16 1) 1, cfgR 0x4000 0x41FF 6 2 (.enum 7) 0,
  cfgR 0x4000 0x41FF 7 4 .any 0, cfgR 0x4000 0x41FF 8 0xA .finite (f32i 1), cfgR 0x4000 0x41FF 9 0xA .finite 0,
  cfgR 0x4000 0x41FF 0xA 2 (.enum 7) 0, cfgR 0x4000 0x41FF 0xB 4 .any 0, cfgR 0x4000 0x41FF 0xC 0xA .finite 0,
  cfgR 0x4000 0x41FF 0xD 0xA .finite (f32i 1), cfgR 0x4000 0x41FF 0xE 0xA .finite 0, cfgR 0x4000 0x41FF 0xF 1 .any 0,
  cfgR 0x4000 0x41FF 0x10 0xA .finite (f32i 1), cfgR 0x4000 0x41FF 0x11 0xA .finite 0,
  cfgR 0x4000 0x41FF 0x12 0xA .finite 0, cfgR 0x4000 0x41FF 0x13 0xA .finite (f32i 1),
  cfgR 0x4000 0x41FF 0x14 2 (.enum 2) 0, cfgR 0x4000 0x41FF 0x15 2 (.int 0 63 1) 0,
  cfgR 0x4000 0x41FF 0x16 0xA .finite 0, cfgR 0x4000 0x41FF 0x17 0xA (.flt (f32r 1 1000000000) 0x7F7FFFFF) (f32i 1),
  cfgR 0x4000 0x41FF 0x18 2 (.enum 1) 1, cfgR 0x4000 0x41FF 0x19 2 (.enum 1) 1, cfgR 0x4000 0x41FF 0x1A 0xA .finite 0,
  cfgR 0x4000 0x41FF 0x1B 2 u8 0,
  { roR 0x4000 0x41FF 0x20 3 1 with held := true }, roR 0x4000 0x41FF 0x21 0xB 1, roR 0x4000 0x41FF 0x22 0xB 1,
  roR 0x4000 0x41FF 0x23 4 1,
  cmdF 0x4300 1 3 (.int 0 511 1) 0, cmdF 0x4300 2 2 (.int 0 15 1) 0,
  { arrR 0x4400 0x44FF 0 0xA 5 .finite [f32i 1, 0, 0, 0, 0] with s1 := 0x3C, step := 4 },
  { arrR 0x4400 0x44FF 1 0xA 5 .finite [f32i 1, 0, 0, 0, 0] with s0 := 1, s1 := 0x3D, step := 4 },
  { cfgR 0x4400 0x44FF 2 1 .any 0 with s1 := 0x3E, step := 4 },
  { roR 0x4400 0x44FF 3 0x8B 2 with s1 := 0x3F, step := 4 },
  cfgR 0x4F00 0x4F0F 1 2 (.enum 5) 0, cfgR 0x4F00 0x4F0F 2 2 (.int 0 15 1) 0, cfgR 0x4F00 0x4F0F 3 3 (.int 0 511 1) 0,
  cfgR 0x4F00 0x4F0F 4 2 (.enum 6) 0, cfgR 0x4F00 0x4F0F 5 2 (.int 0 15 1) 0, cfgR 0x4F00 0x4F0F 6 2 (.int 0 100 1) 0,
  cfgR 0x4F00 0x4F0F 7 0xB .any 0, cfgR 0x4F00 0x4F0F 8 4 (.int 64 1048576 1) 0x4000,
  { cmdF 0x4F00 9 2 (.int 0 7 1) 0 with hi := 0x4F0F },
  roR 0x4F00 0x4F0F 0xA 2 1, roR 0x4F00 0x4F0F 0xB 1 1, roR 0x4F00 0x4F0F 0xC 4 1, roR 0x4F00 0x4F0F 0xD 4 1]

/-- Chapter 04: optimiser parameters and published objects (Tables 04-2 and 04-7). -/
def objSolver : List ObjDesc := [
  cfg 0x6000 1 1 .any 1, cfg 0x6000 2 2 (.enum 2) 0, cfg 0x6000 3 4 (.int 1 3600 1) 10,
  cfg 0x6000 4 4 (.int 0 71999999 1) 0, cfg 0x6000 5 4 (.int 100 60000 1) 5000, cfg 0x6000 6 2 (.enum 1) 0,
  cfg 0x6000 7 2 (.int 1 255 1) 40, cfg 0x6000 8 2 (.int 1 200 1) 25, cfg 0x6000 9 2 (.int 1 200 1) 60,
  cfg 0x6000 0xA 2 (.int 1 64 1) 8, cfg 0x6000 0xB 2 (.int 1 255 1) 6, cfg 0x6000 0xC 2 (.int 1 48 1) 24,
  cfg 0x6001 1 0xB (.flt (f64r 1 1000000000) (f64r 1 1)) (f64r 1 1000),
  cfg 0x6001 2 0xB (.flt (f64r 1 1000000000) (f64r 1 1)) (f64r 1 1000),
  cfg 0x6001 3 0xA (.flt (f32r 1 1000000) (f32i 1000000)) (f32i 1),
  cfg 0x6001 4 0xA (.flt (f32r 1 1000000) (f32i 1000000)) (f32i 10),
  cfg 0x6001 5 0xA (.flt (f32r 1 1000000) (f32i 1000000)) (f32r 1 10),
  cfg 0x6001 6 0xA (.flt (f32i 1) (f32r 19 10)) (f32r 16 10),
  cfg 0x6001 7 0xA (.flt (f32r 1 1000000000) (f32r 1 100)) (f32r 1 1000000),
  arrR 0x6002 0x6002 1 0xA 4 (.flt 0 0x7F7FFFFF) [f32i 1, 0, 0, 0],
  arrR 0x6002 0x6002 2 0xA 4 (.flt 0 0x7F7FFFFF) [f32i 10, 0, 0, 0],
  arrR 0x6002 0x6002 3 0xA 3 (.flt 0 0x7F7FFFFF) [0], arrR 0x6002 0x6002 4 0xA 3 (.flt 0 0x7F7FFFFF) [0, f32r 1 100, 0],
  arrR 0x6002 0x6002 5 0xA 4 (.flt 0 0x7F7FFFFF) [f32i 100, 0, 0, 0],
  arrR 0x6002 0x6002 6 0xA 4 (.flt 0 0x7F7FFFFF) [f32i 1000, 0, 0, 0],
  cfg 0x6002 7 2 (.int 0 15 1) 1, cfg 0x6002 8 0xA (.flt 0 (f32i 1)) (f32r 1 2), arrR 0x6002 0x6002 9 0xA 3 .finite [0],
  roR 0x6008 0x6008 1 2 1, roR 0x6008 0x6008 2 3 1, roR 0x6008 0x6008 3 3 1, roR 0x6008 0x6008 4 2 1,
  roR 0x6008 0x6008 5 5 1, roR 0x6008 0x6008 6 5 1, roR 0x6008 0x6008 7 0xB 1, roR 0x6008 0x6008 8 0xB 1,
  roR 0x6008 0x6008 9 3 1, roR 0x6008 0x6008 0xA 0x8B 8, roR 0x6008 0x6008 0xB 0x84 8,
  roR 0x6100 0x629F 1 0x8A 48, { roR 0x6400 0x640F 0 0x8A 144 with s1 := 0xFF }]

/-- Chapter 07: electrical metering (Tables 07-1 and 07-2, R220, R225, R227, R230, R233). Voltage channels are the first
three of each feeder's six. -/
def objMtr : List ObjDesc := [
  cfg 0x2000 1 2 (.enum 1) 0, cfg 0x2000 2 1 .any 0, roR 0x2000 0x2000 3 4 1,
  cfgR 0x2010 0x2013 1 1 .any 1, cfgR 0x2010 0x2013 2 2 (.int 0 2 1) 0, cfgR 0x2010 0x2013 3 3 (.int 1 1000 1) 100,
  cfgR 0x2010 0x2013 4 3 (.int 1 65535 1) 3000, cfgR 0x2010 0x2013 5 0xA (.flt (f32i 1) (f32i 1000000)) (f32i 230),
  cfgR 0x2010 0x2013 6 0xA (.flt (f32r 1 1000) (f32i 100000)) (f32i 5), cfgR 0x2010 0x2013 7 2 (.int 10 100 1) 90,
  cfgR 0x2020 0x2037 1 0xB (.mag (f64r 1 1000000000000) 0x7FEFFFFFFFFFFFFF) (fofDyadic fmt64 1 (-24)),
  cfgR 0x2020 0x2037 2 8 (.int (-1048576) 1048576 1) 0]
  ++ ((List.range 24).map fun ch =>
    let lim := if ch % 6 < 3 then 7 else 50
    cfgR (0x2020 + ch) (0x2020 + ch) 3 0xA (.flt (f32i (-lim)) (f32i lim)) 0)
  ++ [roR 0x2040 0x204F 1 0xB 1, { roR 0x2040 0x204F 2 0xB 1 with s1 := 0xD },
  roR 0x2068 0x206B 1 0xE 256, roR 0x2068 0x206B 2 0xE 65536,
  { cmdF 0x2070 1 2 (.int 0 3 1) 0 with action := true }, { cmdF 0x2070 2 2 (.int 0 35 1) 0 with action := true },
  { cmdF 0x2070 3 5 .any 0 with action := true }, { cmdF 0x2070 4 3 .any 0 with action := true }]

/-- Chapter 08: thermal metering, totals and pulse outputs (Tables 08-1, 08-2, R239, R246, R247, R256). -/
def objThm : List ObjDesc := [
  arrR 0x3000 0x3000 1 0xB 3 (.flt (f64r 100 1) (f64r 3000 1)) [f64r 400 1], cfg 0x3000 2 1 .any 0,
  roR 0x3000 0x3000 3 4 1,
  cfgR 0x3020 0x302F 1 2 (.enum 1) 1, cfgR 0x3020 0x302F 2 0xA (.flt (f32r (-1) 2) (f32r 1 2)) 0,
  cfgR 0x3040 0x304F 1 2 (.enum 5) 2]
  ++ ((List.range 8).flatMap fun c => [cfg (0x3010 + c) 3 2 (.int 0 15 1) (2 * c), cfg (0x3010 + c) 4 2 (.int 0 15 1) (2 * c + 1)])
  ++ [cfgR 0x3010 0x3017 1 1 .any 0, cfgR 0x3010 0x3017 2 2 (.enum 1) 0,
  cfgR 0x3010 0x3017 5 2 (.enum 4) 0, cfgR 0x3010 0x3017 6 4 u32 0,
  cfgR 0x3010 0x3017 7 0xB (.flt (f64r 1 1000000000) (f64r 10 1)) (f64r 1 1000),
  cfgR 0x3010 0x3017 8 0xB (.flt (f64r 1 1000) (f64r 1000000000 1)) (f64r 1000 1),
  cfgR 0x3010 0x3017 9 2 (.enum 1) 1, cfgR 0x3010 0x3017 0xA 2 (.enum 1) 0,
  cfgR 0x3010 0x3017 0xB 0xA (.flt (f32i 100000) (f32i 2500000)) (f32i 600000),
  cfgR 0x3010 0x3017 0xC 2 (.int 0 31 1) 0, cfgR 0x3010 0x3017 0xD 0xA .finite (f32i 1),
  cfgR 0x3010 0x3017 0xE 0xA .finite 0, cfgR 0x3010 0x3017 0xF 2 (.enum 1) 0,
  cfgR 0x3010 0x3017 0x10 3 (.int 1 65535 1) 60, cfgR 0x3010 0x3017 0x11 3 (.int 1 20000 1) 2000,
  cfgR 0x3010 0x3017 0x12 3 (.int 10 10000 1) 1000,
  arrR 0x3010 0x3017 0x13 0xA 1089 (.flt 0 0x7F7FFFFF) [f32i 4100000],
  cfgR 0x3010 0x3017 0x14 0xA (.flt (f32i (-50)) (f32i 200)) 0,
  cfgR 0x3010 0x3017 0x15 0xA (.flt (f32i (-50)) (f32i 200)) (f32i 160),
  { cmdF 0x3070 1 2 (.int 0 7 1) 0 with action := true }, { cmdF 0x3070 2 2 (.int 0 3 1) 0 with action := true },
  { cmdF 0x3070 3 5 .any 0 with action := true }, { cmdF 0x3070 4 3 .any 0 with action := true },
  { roR 0x3080 0x3087 1 0xB 1 with s1 := 7 }, { roR 0x3090 0x309F 0x10 0xB 1 with s1 := 0x12 },
  roR 0x30A0 0x30A7 1 0xE 128, roR 0x30A0 0x30A7 2 0xE 32768,
  cfgR 0x3100 0x310F 1 1 .any 0, cfgR 0x3100 0x310F 2 2 (.enum 1) 0, cfgR 0x3100 0x310F 3 2 (.int 0 7 1) 0,
  cfgR 0x3100 0x310F 4 2 (.int 0 35 1) 0,
  { cfgR 0x3100 0x310F 5 5 (.int 1 18446744073709551615 1) 0 with dflt := [1000000] },
  cfgR 0x3100 0x310F 6 3 (.int 1 250 1) 30]

/-- Chapter 06: the logic sequencer (Table 06-13). -/
def objLogic : List ObjDesc := [
  roR 0x5000 0x5000 1 2 1, cfg 0x5000 2 2 (.int 10 95 1) 80, cmdF 0x5000 3 2 (.enum 1) 0, cfg 0x5000 4 2 (.enum 1) 1,
  cfg 0x5000 5 4 (.int 100 10000 1) 1000,
  { cmdF 0x5010 1 0xE .any 0 with n := 2097152, dflt := [] },
  roR 0x5020 0x5020 1 2 1, roR 0x5020 0x5020 2 4 1, roR 0x5020 0x5020 3 4 1, roR 0x5020 0x5020 4 2 1,
  roR 0x5020 0x5020 5 0x83 64, roR 0x5020 0x5020 6 0x84 1024, roR 0x5020 0x5020 7 0x84 1024,
  roR 0x5020 0x5020 8 0x83 3, roR 0x5020 0x5020 9 4 1, roR 0x5020 0x5020 0xA 1 1,
  { cfgR 0x5100 0x510F 1 1 .any 0 with s1 := 0x40 }, { roR 0x5110 0x511F 1 1 1 with s1 := 0x40 },
  { cfgR 0x5200 0x520F 1 5 .any 0 with s1 := 0x40, held := false }]

/-- The range of an element of the template parameters (Table 03-4): capacities positive, so that no division by one meets
zero; a position within 0 to 1; conductances, rates, the valve coefficient, store and its limits not negative; temperatures
finite. The table states no bounds (DESIGN CHOICE, log 156). -/
def templateRange (i : Nat) : Rng :=
  let big := 0x7FEFFFFFFFFFFFFF
  if i < 2 then .flt (f64r 1 1) big else if i < 10 then .flt 0 big else if i < 14 then .finite else .flt 0 (f64r 1 1)
/-- Columns of the node, segment and link tables that a write checks (R79, R80, R87): row size; offset, type, range and default
of each. -/
def tableCols (idx : Nat) : Nat × List (Nat × Nat × Rng) :=
  match idx with
  | 0x7500 => (16, [(1, 2, .enum 4), (4, 0xA, .finite)])
  | 0x7501 => (32, [(4, 2, .enum 1), (5, 2, .int 0 48 1), (8, 0xA, .finite), (12, 0xA, .finite), (16, 0xA, .finite),
                    (20, 0xA, .finite), (24, 0xA, .finite)])
  | 0x7502 => (12, [(4, 0xA, .finite)])
  | _ => (0, [])

/-- A structure field (R68). -/
def str' (d : ObjDesc) : ObjDesc := { d with struct := true }

/-- Chapter 03: the model (Tables 03-2 and 03-3, R332). Defaults that no table states: log 159 (DESIGN CHOICE). -/
def objModel : List ObjDesc := [
  str' (cfg 0x7000 1 3 u16 0), str' (cfg 0x7000 2 4 (.int 60 3600 1) 900), str' (cfg 0x7000 3 2 (.int 1 48 1) 48),
  roR 0x7001 0x7001 1 2 1, roR 0x7001 0x7001 2 4 1, roR 0x7001 0x7001 3 4 1, roR 0x7001 0x7001 4 2 1,
  roR 0x7001 0x7001 5 3 1, roR 0x7001 0x7001 6 4 1, roR 0x7001 0x7001 7 5 1,
  cfg 0x7002 1 0xA (.flt (f32r 1 1000000) (f32i 1)) (f32r 1 10000), cfg 0x7002 2 0xA .finite (f32r 1 2),
  cfg 0x7002 3 0xA .finite (f32i 20),
  str' (cfgR 0x7008 0x700B 1 1 .any 0),
  cfgR 0x7008 0x700B 2 0xA (.flt (f32i 100000) (f32i 2500000)) (f32i 600000),
  str' (cfgR 0x7010 0x701F 1 2 u8 0xFF), cfgR 0x7010 0x701F 2 0xA .finite (f32i 10),
  str' (cfgR 0x7020 0x705F 1 2 u8 0xFF), cfgR 0x7020 0x705F 2 2 u8 0xFF,
  str' (cfgR 0x7100 0x72FF 1 2 u8 0xFF),
  str' (cfgR 0x7300 0x735F 1 1 .any 0), str' (cfgR 0x7300 0x735F 2 3 u16 0xFFFF),
  { cfgR 0x7300 0x735F 3 0xA .finite 0 with s1 := 0xB }, cfgR 0x7300 0x735F 0xC 4 u32 0xFFFFFFFF,
  cfgR 0x7300 0x735F 0xD 2 (.enum 2) 0,
  str' (cfgR 0x7360 0x739F 1 1 .any 0), str' (cfgR 0x7360 0x739F 2 3 u16 0xFFFF), cfgR 0x7360 0x739F 3 2 (.enum 1) 0,
  { cfgR 0x7360 0x739F 4 0xA .finite 0 with s1 := 8 }, cfgR 0x7360 0x739F 9 0xC .any 0,
  str' (cfgR 0x7400 0x74FF 1 1 .any 0), str' (cfgR 0x7400 0x74FF 2 3 u16 0xFFFF),
  { cfgR 0x7400 0x74FF 3 0xA .finite 0 with s1 := 5 }, cfgR 0x7400 0x74FF 6 0xA (.flt (f32r 1 20) (f32i 1)) (f32i 1),
  { cfgR 0x7400 0x74FF 7 0xA (.flt 0 (f32i 1)) 0 with s1 := 8 }, cfgR 0x7400 0x74FF 9 2 u8 0xFF,
  str' (tabR 0x7500 0x7500 1 2 262144 .any []), str' (tabR 0x7501 0x7501 1 2 786432 .any []),
  str' (tabR 0x7502 0x7502 1 2 3072 .any []),
  cfgR 0x7600 0x760F 1 2 (.enum 7) 0, cfgR 0x7600 0x760F 2 0xC .any 0, cfgR 0x7600 0x760F 3 4 u32 900,
  tabR 0x7600 0x760F 4 0xA 96 .finite [0], cfgR 0x7600 0x760F 5 3 u16 0xFFFF,
  roR 0x7700 0x7700 1 0x84 65536, roR 0x7701 0x7701 1 5 1, roR 0x7702 0x7702 1 0x85 4096,
  cfgR 0xA000 0xAFFF 1 1 .any 0, str' (cfgR 0xA000 0xAFFF 2 2 (.enum 1) 0), str' (cfgR 0xA000 0xAFFF 3 1 .any 0),
  str' (cfgR 0xA000 0xAFFF 4 3 u16 0), str' (arrR 0xA000 0xAFFF 5 3 4 (.intOr 0 511 [0xFFFF]) [0xFFFF]),
  str' (arrR 0xA000 0xAFFF 6 3 4 (.intOr 0 16383 [0xFFFF]) [0xFFFF]), cfgR 0xA000 0xAFFF 7 4 (.int 1 1200000 1) 300000,
  arrR 0xA000 0xAFFF 0x10 0xB 16 .finite [f64r 1 1, f64r 1 1, 0], arrR 0xA000 0xAFFF 0x20 0xB 50 .finite [0],
  str' (arrR 0xA000 0xAFFF 0x28 3 5 u16 [0]), arrR 0xA000 0xAFFF 0x30 2 4 (.intOr 0 15 [0xFE, 0xFF]) [0xFF],
  arrR 0xA000 0xAFFF 0x31 0xB 4 .finite [0], arrR 0xA000 0xAFFF 0x38 0xA 48 .finite [0],
  arrR 0xA000 0xAFFF 0x39 0xA 48 .finite [0], cfgR 0xA000 0xAFFF 0x3A 0xC .any 0,
  cfgR 0xA000 0xAFFF 0x3B 4 (.int 60 3600 1) 900,
  { roR 0xA000 0xAFFF 0x40 0xA 1 with s1 := 0x7C, step := 4 }, { roR 0xA000 0xAFFF 0x41 2 1 with s1 := 0x7D, step := 4 },
  { roR 0xA000 0xAFFF 0x42 4 1 with s1 := 0x7E, step := 4 }, { roR 0xA000 0xAFFF 0x43 0xC 1 with s1 := 0x7F, step := 4 },
  roR 0xA000 0xAFFF 0x80 4 1, roR 0xA000 0xAFFF 0x81 2 1, roR 0xA000 0xAFFF 0x82 4 1, roR 0xA000 0xAFFF 0x83 2 1,
  { cmdF 0xA000 0x84 2 .any 0 with hi := 0xAFFF }]

/-- Chapter 09: ports, substations, network time and waymarks (Tables 09-2 and 09-7, R282, R283, R298). -/
def objPorts : List ObjDesc := [
  cfgR 0x8000 0x802F 1 1 .any 0]
  ++ ((List.range 48).map fun p => cfg (0x8000 + p) 2 2 (.enum (if p % 16 < 12 then 2 else 3)) 0)
  ++ [{ cfgR 0x8000 0x802F 3 0xE .any 0 with n := 6, dflt := [0, 0, 0, 0, 0, 0] },
  cfgR 0x8000 0x802F 4 3 (.int 1 4094 1) 1, arrR 0x8000 0x802F 5 3 16 (.int 0 4094 1) [0],
  cfgR 0x8000 0x802F 6 3 (.int 0 4094 1) 0,
  { cfgR 0x8000 0x802F 7 0xE .any 0 with n := 16, dflt := List.replicate 16 0 }, cfgR 0x8000 0x802F 8 2 (.int 1 128 1) 64,
  { cfgR 0x8000 0x802F 9 0xE .any 0 with n := 16, dflt := List.replicate 16 0 }, cfgR 0x8000 0x802F 0xA 2 (.int 1 128 1) 64,
  { cfgR 0x8000 0x802F 0xB 0xE .any 0 with n := 16, dflt := List.replicate 16 0 },
  cfgR 0x8000 0x802F 0xC 2 (.enum 3) 0, cfgR 0x8000 0x802F 0xD 2 (.enum 1) 0, cfgR 0x8000 0x802F 0xE 2 (.enum 1) 0,
  cfgR 0x8000 0x802F 0xF 6 (.int (-7) 1 1) 0xFD, cfgR 0x8000 0x802F 0x10 6 (.int (-3) 4 1) 1,
  cfgR 0x8000 0x802F 0x11 6 (.int (-7) 5 1) 0xFD,
  { cfgR 0x8000 0x802F 0x12 7 (.int (-32767) 32767 1) 0 with s1 := 0x13 },
  arrR 0x8000 0x802F 0x14 2 5 (.int 0 7 1) [7, 6, 5, 4, 3],
  cfgR 0x8000 0x802F 0x15 1 .any 0, cfgR 0x8000 0x802F 0x16 0xC .any 0,
  arrR 0x8000 0x802F 0x17 4 256 .gate [0xFF000001], cfgR 0x8000 0x802F 0x18 3 (.int 1 256 1) 1,
  cfgR 0x8000 0x802F 0x19 0xC .any 0,
  cfg 0x8040 1 3 (.int 1024 65535 1) 5870,
  arrR 0x8400 0x8400 1 3 4096 u16 [0xFFFF],
  { roR 0x8401 0x8401 1 0x84 3 with s1 := 4 }, { roR 0x8401 0x8401 5 4 1 with s1 := 7 },
  { cfgR 0x8800 0x8BFF 1 0xE .any 0 with n := 16, dflt := List.replicate 16 0 }, cfgR 0x8800 0x8BFF 2 5 .any 0,
  cfgR 0x8800 0x8BFF 3 3 u16 5870,
  cfg 0x1300 1 2 (.int 0 127 1) 0, cfg 0x1300 2 2 u8 128, cfg 0x1300 3 2 u8 128, cfg 0x1300 4 2 u8 248,
  cfg 0x1300 5 2 (.int 0 15 1) 1, cfg 0x1300 6 2 (.int 0 31 1) 4, cfg 0x1300 7 4 (.int 1000 1000000000 1) 1000000,
  cfg 0x1300 8 4 (.int 1 1000000 1) 1000, cfg 0x1300 9 2 (.int 0 8 1) 3,
  cfgR 0x1310 0x131B 1 2 (.enum 2) 0, cfgR 0x1310 0x131B 2 2 (.int 1 3 1) 1, cfgR 0x1310 0x131B 3 0xC .any 0,
  cfgR 0x1310 0x131B 4 4 (.int 1000 1000000000 1) 1000000000, cfgR 0x1310 0x131B 5 4 (.int 100 999999900 1) 100000000,
  cfgR 0x1310 0x131B 6 2 (.enum 1) 0]

/-- The dictionary. -/
def dictTable : List ObjDesc :=
  objSystem ++ objDevice ++ objMtr ++ objThm ++ objLoops ++ objLogic ++ objSolver ++ objModel ++ objPorts

/-- The descriptor of a field; none where the dictionary implements nothing (R328). -/
def objDesc? (idx sub : Nat) : Option ObjDesc := dictTable.find? fun d => d.covers idx sub

/-- Key of a dictionary field. -/
def objKey (idx sub : Nat) : Nat := 256 * idx + sub
/-- The value a field has when none has been written. -/
def objDflt (k : Nat) : Bytes :=
  match objDesc? (k / 256) (k % 256) with | some d => d.default | none => []

end Sys2Proof.Machine
end

