-- ==== Sys2Proof/Machine/Leng.lean ====
section
/-! DEFINITION. The loop engine's arithmetic and trace channels (chapter 05), apart from where its inputs come from. -/
namespace Sys2Proof.Machine

/-- Slots per sample of a RATE code (Table 05-3). -/
def rateD : Nat → Nat
  | 0 => 1 | 1 => 2 | 2 => 4 | 3 => 10 | 4 => 20 | 5 => 40 | 6 => 200 | 7 => 2000 | _ => 20000

/-- A loop record (Table 05-1); F32 fields are bits. -/
structure LoopCfg where
  enable : Bool
  rate : Nat
  phase : Nat
  firstSec : Nat
  nsec : Nat
  inKind : Nat
  inSel : Nat
  inScale : Nat
  inOffset : Nat
  spKind : Nat
  spSel : Nat
  spConst : Nat
  spScale : Nat
  spOffset : Nat
  dir : Bool
  gain : Nat
  offset : Nat
  lo : Nat
  hi : Nat
  dest : Nat
  destIdx : Nat
  vzero : Nat
  vspan : Nat
  runSrc : Nat
  offMode : Nat
  offVal : Nat
  opts : Nat
deriving DecidableEq, Repr

/-- A section's coefficients in binary64 (R154). -/
structure Coef where
  b0 : Nat
  b1 : Nat
  b2 : Nat
  a1 : Nat
  a2 : Nat
deriving DecidableEq, Repr

/-- One section in direct form II transposed, in the operation order of R154; `hold` keeps the states (R155). Result:
output, s1, s2. -/
def sectionStep (c : Coef) (hold : Bool) (v s1 s2 : Nat) : Nat × Nat × Nat :=
  let y := ffma fmt64 c.b0 v s1
  if hold then (y, s1, s2)
  else
    let t1 := ffma fmt64 (fneg fmt64 c.a1) y s2
    let s1' := ffma fmt64 c.b1 v t1
    let t2 := fmul fmt64 (fneg fmt64 c.a2) y
    (y, s1', ffma fmt64 c.b2 v t2)

/-- A section with its coefficients, FRZ and states. -/
structure Section where
  coef : Coef
  frz : Bool
  s1 : Nat
  s2 : Nat
deriving DecidableEq, Repr

/-- The cascade: outputs of the sections in order, and their new states. -/
def cascade (frozen : Bool) : List Section → Nat → List (Nat × Nat × Nat)
  | [], _ => []
  | s :: ss, v =>
    let r := sectionStep s.coef (frozen && s.frz) v s.s1 s.s2
    r :: cascade frozen ss r.1

/-- The clamped output and clamp state of a raw output (R157): 0 none, 1 CLAMPLO, 2 CLAMPHI; and whether it was
non-finite. -/
def outputStage (lo hi raw : Nat) : Nat × Nat × Bool :=
  if ffinite fmt64 raw then
    if flt fmt64 hi raw then (hi, 2, false)
    else if flt fmt64 raw lo then (lo, 1, false)
    else (raw, 0, false)
  else (lo, 0, true)

/-- The DAC code of a value (R158). -/
def vaoCode (u vzero vspan : Nat) : Nat :=
  let x := fmul fmt64 (fdivide fmt64 (fsub fmt64 u vzero) vspan) (fofInt fmt64 65535)
  match fdec fmt64 x with
  | .nan => 0
  | .inf neg => if neg then 0 else 65535
  | .fin .. => (clampI 0 65535 (froundHalfEven fmt64 x)).toNat

/-- The VDO bit of a value (R158). -/
def vdoBit (u lo hi : Nat) : Bool :=
  fle fmt64 (fdivide fmt64 (fadd fmt64 lo hi) (fofInt fmt64 2)) u

/-- The output frame of Table 02-7. -/
def outFrame (slot : BitVec 64) (lane : LaneId) (kind idx value : Nat) : BitVec 64 :=
  BitVec.ofNat 64 (slot.toNat % 65536 * 2 ^ 48 + lane.num * 2 ^ 46 + kind * 2 ^ 42 + idx * 2 ^ 36 + value % 2 ^ 32)

/-- The END frame over the frames sent (R58): count in bits 41 to 32 and CRC-32 over them in send order,
their LANE fields as zero, so that the lanes' frames compare. -/
def endFrame (slot : BitVec 64) (lane : LaneId) (sent : List (BitVec 64)) : BitVec 64 :=
  BitVec.ofNat 64 (slot.toNat % 65536 * 2 ^ 48 + lane.num * 2 ^ 46 + 15 * 2 ^ 42
    + sent.length % 1024 * 2 ^ 32 + (crc32 (sent.map fun f => leBytes 8 (f &&& 0xFFFF3FFFFFFFFFFF#64).toNat).flatten).toNat)

/-- What one computation of a loop gives: input, error, section outputs with states, raw output, clamped output, clamp
state, non-finite. -/
structure LoopResult where
  x : Nat
  e : Nat
  secs : List (Nat × Nat × Nat)
  raw : Nat
  out : Nat
  clamp : Nat
  nonfin : Bool
deriving DecidableEq, Repr

/-- One computation of a loop (R154, R157). `rawIn` and `rawSp` are the raw values of its sources. -/
def loopCompute (c : LoopCfg) (secs : List Section) (frozen : Bool) (rawIn rawSp : Nat) : LoopResult :=
  let x := ffma fmt64 rawIn (widen c.inScale) (widen c.inOffset)
  let sp := if c.spKind = 0 then 0
    else if c.spKind = 1 then widen c.spConst
    else ffma fmt64 rawSp (widen c.spScale) (widen c.spOffset)
  let e := if c.dir then fsub fmt64 x sp else fsub fmt64 sp x
  let rs := cascade frozen secs e
  let v := match rs.getLast? with | some r => r.1 | none => e
  let raw := ffma fmt64 (widen c.gain) v (widen c.offset)
  let o := outputStage (widen c.lo) (widen c.hi) raw
  { x := x, e := e, secs := rs, raw := raw, out := o.1, clamp := o.2.1, nonfin := o.2.2 }

/-! ### Trace channels (R170 to R172) -/

/-- A channel with an empty ring. -/
def traceChan0 : TraceChan :=
  { st := 0, depth := 0x4000, count := 0, wrptr := 0, trigIdx := 0, post := 0, force := false, vPrev := none,
    trigSlot := none, ring := [] }

/-- The trigger settings of a channel. -/
structure TraceCfg where
  mode : Nat
  link : Nat
  prePct : Nat
  level : Nat
deriving DecidableEq, Repr

/-- Trigger condition of Table 05-8 other than LINKED; `was` and `now` are the loop's clamp states. -/
def traceCond (c : TraceCfg) (v : Nat) (vPrev : Option Nat) (was now : Nat) : Bool :=
  match c.mode with
  | 1 => flt fmt64 c.level v
  | 2 => flt fmt64 v c.level
  | 3 => match vPrev with | some p => flt fmt64 p c.level && fle fmt64 c.level v | none => false
  | 4 => match vPrev with | some p => flt fmt64 c.level p && fle fmt64 v c.level | none => false
  | 5 => decide (was = 0) && decide (now ≠ 0)
  | _ => false

/-- One recorded sample (the procedure of R172). `linked`: the channel LINK has triggered. Answers the channel and
whether PRESHORT is set. -/
def traceSample (c : TraceCfg) (linked : Bool) (slot : BitVec 64) (v was now : Nat) (t : TraceChan) :
    TraceChan × Bool :=
  if t.st = 0 ∨ t.st = 3 then (t, false)
  else
    let pre := t.depth * min 100 c.prePct / 100
    let pos := t.wrptr
    let t := { t with
      ring := mset (fun _ => (0, 0)) t.ring pos (slot, BitVec.ofNat 64 v)
      wrptr := (t.wrptr + 1) % t.depth, count := min (t.depth + 1) (t.count + 1) }
    let fire := t.force || (decide (pre < t.count) && traceCond c v t.vPrev was now)
      || (decide (c.mode = 6) && linked)
    let (t, short) :=
      if t.st = 1 then
        if fire then
          ({ t with st := 2, trigIdx := pos, post := 1, force := false, trigSlot := some slot },
           decide (t.count ≤ pre))
        else (t, false)
      else ({ t with post := t.post + 1 }, false)
    let t := if t.st = 2 ∧ t.post = t.depth - pre then { t with st := 3 } else t
    ({ t with vPrev := some v }, short)

/-- ARM: an empty ring of the depth now set, state ARMED (R170, R172). -/
def traceArm (depth : Nat) : TraceChan :=
  { traceChan0 with st := 1, depth := (clampI 64 1048576 depth).toNat }

end Sys2Proof.Machine
end

