-- ==== Sys2Proof/Machine/Lseq.lean ====
section
/-! DEFINITION. The logic sequencer (chapter 06): image layout, load check, instructions, timers, counters, edges and the
blanket image. -/
namespace Sys2Proof.Machine

/-! ### Images (Table 06-8) -/

/-- Consecutive 4-byte words. -/
def words4 (bs : Bytes) (o : Nat) : (n : Nat) → List Nat
  | 0 => []
  | n + 1 => natAt bs o 4 :: words4 bs (o + 4) n
/-- Consecutive 8-byte words. -/
def words8 (bs : Bytes) (o : Nat) : (n : Nat) → List (BitVec 64)
  | 0 => []
  | n + 1 => BitVec.ofNat 64 (natAt bs o 8) :: words8 bs (o + 8) n

/-- Read an image. The header fields follow one another in the order of Table 06-8. -/
def decImage (bs : Bytes) : LImage :=
  let nI := natAt bs 12 4
  let nK := natAt bs 16 4
  let nT := natAt bs 20 4
  let nC := natAt bs 24 4
  let oK := 256 + 4 * nI
  let oT := oK + 4 * nK
  let oC := oT + 8 * nT
  let oB := oC + 8 * nC
  { id := BitVec.ofNat 32 (natAt bs 6 4), len := natAt bs 10 2
    prog := (words4 bs 256 nI).map (BitVec.ofNat 32)
    consts := (words4 bs oK nK).map fun x => (BitVec.ofNat 32 x).toInt
    timers := words8 bs oT nT, counters := words8 bs oC nC, edges := natAt bs 28 4
    wc := natAt bs 32 4, depth := natAt bs 36 1, tag := slice bs 37 16
    blanket := words8 bs oB 1024, quant := words8 bs (oB + 8192) 256, raw := bs }

/-- The image with its tag field set to zero, over which the tag is computed (R349). -/
def untagged (bs : Bytes) : Bytes := bs.take 37 ++ zeros 16 ++ bs.drop 53

/-- FORMAT (R192): magic, version, limits, L, sizes and the presence of an END. -/
def imageFormatOk (bs : Bytes) : Bool :=
  let nI := natAt bs 12 4
  let nK := natAt bs 16 4
  let nT := natAt bs 20 4
  let nC := natAt bs 24 4
  let nE := natAt bs 28 4
  let len := natAt bs 10 2
  decide (natAt bs 0 4 = 0x4C534551) && decide (natAt bs 4 2 = 1)
  && decide (nI ≤ 262144) && decide (nK ≤ 65536) && decide (nT ≤ 4096) && decide (nC ≤ 2048) && decide (nE ≤ 8192)
  && decide (5 ≤ len) && decide (len ≤ 20000) && decide (len % 5 = 0)
  && decide (bs.length = 256 + 4 * nI + 4 * nK + 8 * nT + 8 * nC + 8192 + 2048)
  && (words4 bs 256 nI).any fun w => decide (w / 2 ^ 24 = 0xFF)

/-! ### Instruction words (Table 06-6) -/

/-- Opcode, area and address of a word. -/
def opOf (w : Word) : Nat := w.toNat / 2 ^ 24
def areaOf (w : Word) : Nat := w.toNat / 2 ^ 20 % 16
def addrOf (w : Word) : Nat := w.toNat % 2 ^ 20

/-- Clocks of an opcode; 0 for an undefined one. -/
def opClocks (op : Nat) : Nat :=
  if 0x01 ≤ op ∧ op ≤ 0x0B then 2
  else if 0x10 ≤ op ∧ op ≤ 0x12 then 2
  else if 0x20 ≤ op ∧ op ≤ 0x22 then 6
  else if 0x28 ≤ op ∧ op ≤ 0x2A then 5
  else if op = 0x30 ∨ op = 0x31 then 3
  else if op = 0x38 ∨ op = 0x39 then 3
  else if op = 0x3A then 2
  else if op = 0x3B then 1
  else if 0x40 ≤ op ∧ op ≤ 0x45 then 2
  else if op = 0x50 ∨ op = 0x51 then 2
  else if op = 0xFF then 4
  else 0

/-- The areas of an opcode; [] where it has no operand. -/
def opAreas (op : Nat) : List Nat :=
  if 0x01 ≤ op ∧ op ≤ 0x07 then [0, 1, 2, 3, 4, 8]
  else if 0x08 ≤ op ∧ op ≤ 0x0B then [1, 2]
  else if 0x20 ≤ op ∧ op ≤ 0x22 then [3]
  else if 0x28 ≤ op ∧ op ≤ 0x2A then [4]
  else if op = 0x30 ∨ op = 0x31 then [5]
  else if op = 0x38 ∨ op = 0x3A then [6, 7]
  else if op = 0x39 then [6]
  else if 0x40 ≤ op ∧ op ≤ 0x45 then [6, 7]
  else []

/-- A number lies in one of the closed ranges. -/
def inRanges (x : Nat) (rs : List (Nat × Nat)) : Bool := rs.any fun r => decide (r.1 ≤ x) && decide (x ≤ r.2)

/-- Addresses of the areas with fixed maps (Tables 06-1 to 06-5). -/
def areaAddrOk (im : LImage) (area a : Nat) : Bool :=
  match area with
  | 0 => inRanges a [(0, 0x77), (0x100, 0x8FF), (0x1000, 0x103F), (0x2000, 0x200F), (0x4000, 0x43FF)]
  | 1 => inRanges a [(0, 0x3F), (0x100, 0x2FF), (0x1000, 0x100F), (0x2000, 0x23FF)]
  | 2 => decide (a ≤ 0xFFFF)
  | 3 => decide (a < im.timers.length)
  | 4 => decide (a < im.counters.length)
  | 5 => decide (a < im.edges)
  | 6 => inRanges a [(0, 0x1F), (0x100, 0x6FF), (0x800, 0x8FF), (0x8000, 0x900F), (0x10000, 0x2FFFF)]
  | 7 => decide (a < im.consts.length)
  | 8 => decide (a ≤ 0xF)
  | _ => false

/-- Jumps. -/
def isJump (op : Nat) : Bool := op == 0x50 || op == 0x51

/-- Timer and counter types of an image's tables. -/
def timerType (im : LImage) (n : Nat) : Nat := (im.timers.getD n 0).toNat % 8
def counterType (im : LImage) (n : Nat) : Nat := (im.counters.getD n 0).toNat % 4
/-- PT in µs: preset times base (R187). -/
def timerPT (im : LImage) (n : Nat) : Nat :=
  let e := (im.timers.getD n 0).toNat
  e / 2 ^ 32 * (if e / 8 % 2 = 1 then 1000 else 1)
/-- The retain bit of a timer. -/
def timerRetain (im : LImage) (n : Nat) : Bool := (im.timers.getD n 0).getLsbD 4
/-- The preset of a counter. -/
def counterPV (im : LImage) (n : Nat) : Int := (BitVec.ofNat 32 ((im.counters.getD n 0).toNat / 2 ^ 32)).toInt

/-- OPCODE check of one word. -/
def opcodeOk (w : Word) : Bool :=
  decide (opClocks (opOf w) ≠ 0) &&
  (if (opAreas (opOf w)).isEmpty then decide (areaOf w = 0) else (opAreas (opOf w)).contains (areaOf w))

/-- ADDRESS check of one word whose OPCODE is good. -/
def addressOk (im : LImage) (w : Word) : Bool :=
  let op := opOf w
  if isJump op then true
  else if (opAreas op).isEmpty then decide (addrOf w = 0)
  else areaAddrOk im (areaOf w) (addrOf w) &&
    (op != 0x39 || (decide (0x8000 ≤ addrOf w) && decide (addrOf w ≤ 0x900F)))

/-- Index of the first END. -/
def firstEnd (prog : List Word) : Nat := prog.findIdx fun w => opOf w == 0xFF

/-- What the one pass over the instructions has found of an instruction yet to come: arrivals as (from, depth, by a
jump), and the largest cost of a path that reaches it. -/
structure FlowIn where
  arr : List (Nat × Nat × Bool)
  cost : Nat
deriving DecidableEq, Repr

/-- The pass of R182 and R183 from index `i`: waiting arrivals by target, deepest stack, largest cost at an END, the
first jump with disagreeing depths and the first stack fault. -/
structure Flow where
  wait : NMap FlowIn
  deep : Nat
  wc : Nat
  jump : Option Nat
  stack : Option Nat
deriving DecidableEq, Repr

/-- The smaller of an optional index and an index. -/
def firstIdx (a : Option Nat) (i : Nat) : Option Nat := match a with | none => some i | some j => some (min i j)

/-- Record an arrival. -/
def Flow.arrive (f : Flow) (t src depth cost : Nat) (jump : Bool) : Flow :=
  let old := mget (fun _ => (⟨[], 0⟩ : FlowIn)) f.wait t
  { f with wait := mput f.wait t ⟨old.arr ++ [(src, depth, jump)], max old.cost cost⟩ }

/-- The jump named when depths disagree at an instruction (R182). -/
def disagree (arr : List (Nat × Nat × Bool)) : Option Nat :=
  let fall := arr.find? fun (a : Nat × Nat × Bool) => !a.2.2
  match fall, arr with
  | some f, _ => (arr.find? fun a => a.2.2 && decide (a.2.1 ≠ f.2.1)).map (·.1)
  | none, a :: rest => (rest.find? fun b => decide (b.2.1 ≠ a.2.1)).map (·.1)
  | none, [] => none

/-- One instruction of the pass. -/
def flowStep (f : Flow) (i : Nat) (w : Word) : Flow :=
  match mget (fun _ => (⟨[], 0⟩ : FlowIn)) f.wait i with
  | ⟨[], _⟩ => f
  | ⟨a :: rest, cost⟩ =>
    let arr := a :: rest
    let f := { f with wait := mdel f.wait i }
    let f := match disagree arr with | some j => { f with jump := firstIdx f.jump j } | none => f
    let d := (match arr.find? fun (x : Nat × Nat × Bool) => !x.2.2 with | some b => b | none => a).2.1
    let op := opOf w
    let cost := cost + opClocks op
    if op = 0xFF then
      { f with wc := max f.wc cost, stack := if d = 0 then f.stack else firstIdx f.stack i }
    else
      let push := op == 0x10 || op == 0x11
      let f := if (push && decide (16 ≤ d)) || (op == 0x12 && decide (d = 0)) then
        { f with stack := firstIdx f.stack i } else f
      let d' := if push then d + 1 else if op = 0x12 then d - 1 else d
      let f := { f with deep := max f.deep d' }
      let f := if isJump op then f.arrive (addrOf w) i d' cost true else f
      if op = 0x50 then f else f.arrive (i + 1) i d' cost false

/-- The whole pass. -/
def flowAll : List Word → Nat → Flow → Flow
  | [], _, f => f
  | w :: ws, i, f => flowAll ws (i + 1) (flowStep f i w)

/-- The pass over an image's program, entered at instruction 0 with the fixed cost of 2,400 clocks. -/
def imageFlow (im : LImage) : Flow :=
  flowAll im.prog 0 { wait := [(0, ⟨[(0, 0, false)], 2400⟩)], deep := 0, wc := 0, jump := none, stack := none }

/-- Kind of use of an instance (R189): one use per kind and number. -/
def instanceUse (w : Word) : Option (Nat × Nat) :=
  let op := opOf w
  if 0x20 ≤ op ∧ op ≤ 0x22 then some (3, addrOf w)
  else if op = 0x28 then some (0x28, addrOf w)
  else if op = 0x29 then some (0x29, addrOf w)
  else if op = 0x2A then some (0x2A, addrOf w)
  else if op = 0x30 ∨ op = 0x31 then some (5, addrOf w)
  else none

/-- TYPE check (R188). -/
def typeOk (im : LImage) (w : Word) : Bool :=
  let op := opOf w
  let a := addrOf w
  if 0x20 ≤ op ∧ op ≤ 0x22 then decide (timerType im a = op - 0x20)
  else if op = 0x28 then counterType im a == 0 || counterType im a == 2
  else if op = 0x29 then counterType im a == 1 || counterType im a == 2
  else if op = 0x2A then decide (counterType im a ≤ 2)
  else true

/-- Checks OPCODE to TYPE over the instructions in ascending index (R192, item 3): code and index, or none. -/
def checkInstrs (im : LImage) (fl : Flow) (fe : Nat) : List Word → Nat → List (Nat × Nat) → Option (Nat × Nat)
  | [], _, _ => none
  | w :: ws, i, used =>
    let use := instanceUse w
    if !opcodeOk w then some (3, i)
    else if !addressOk im w then some (4, i)
    else if (isJump (opOf w) && !(decide (i < addrOf w) && decide (addrOf w ≤ fe))) || fl.jump == some i then some (5, i)
    else if fl.stack == some i then some (6, i)
    else if (match use with | some u => used.contains u | none => false) then some (7, i)
    else if !typeOk im w then some (8, i)
    else checkInstrs im fl fe ws (i + 1) (match use with | some u => u :: used | none => used)

/-- The load check of R192 apart from AUTH and TIME: code and index, (0, 0) when it passes; with computed W_c and depth. -/
def imageCheck (bs : Bytes) : (Nat × Nat) × Nat × Nat :=
  if !imageFormatOk bs then ((2, 0), 0, 0)
  else
    let im := decImage bs
    let fl := imageFlow im
    match checkInstrs im fl (firstEnd im.prog) im.prog 0 [] with
    | some e => (e, fl.wc, fl.deep)
    | none => if im.wc ≠ fl.wc ∨ im.depth ≠ fl.deep then ((9, 0), fl.wc, fl.deep) else ((0, 0), fl.wc, fl.deep)

/-! ### State of instances -/

/-- A timer that has not been evaluated. -/
def timer0 : TimerSt := { prev := none, start := 0, timing := false, q := false }
/-- A cleared counter. -/
def counter0 : CounterSt := { cv := 0, pcu := none, pcd := none }
/-- A counter that an image newly brings: CV is PV for CTD and 0 otherwise (Table 06-12). -/
def counterNew (im : LImage) (n : Nat) : CounterSt :=
  { counter0 with cv := if counterType im n = 1 then counterPV im n else 0 }

def getFlag (l : Lseq) (a : Nat) : Bool := mget (fun _ => false) l.flags a
def getTimer (l : Lseq) (n : Nat) : TimerSt := mget (fun _ => timer0) l.timers n
def getCounter (l : Lseq) (n : Nat) : CounterSt := mget (fun _ => counter0) l.counters n
def setCounter (l : Lseq) (n : Nat) (c : CounterSt) : Lseq :=
  { l with counters := mset (fun _ => counter0) l.counters n c }
def setTimer (l : Lseq) (n : Nat) (t : TimerSt) : Lseq := { l with timers := mset (fun _ => timer0) l.timers n t }
def setEdge (l : Lseq) (n : Nat) (b : Bool) : Lseq := { l with edges := mset (fun _ => none) l.edges n (some b) }
def getEdge (l : Lseq) (n : Nat) : Option Bool := mget (fun _ => none) l.edges n
def getQ (o : OutImage) (a : Nat) : Bool := mget (fun _ => false) o.q a
def getW (o : OutImage) (a : Nat) : Int := mget (fun _ => 0) o.w a
def setQ (o : OutImage) (a : Nat) (v : Bool) : OutImage := { o with q := mset (fun _ => false) o.q a v }
def setW (o : OutImage) (a : Nat) (v : Int) : OutImage := { o with w := mset (fun _ => 0) o.w a v }

/-- Saturation to a signed 32-bit word. -/
def satW (x : Int) : Int := clampI (-2147483648) 2147483647 x

/-- Evaluation of a timer with its input at logic time `tl` (Table 06-7, R190). -/
def timerEval (type pt tl : Nat) (inp : Bool) (t : TimerSt) : TimerSt :=
  let e := ((tl : Int) - t.start).toNat
  let fresh := { t with prev := some inp }
  match type with
  | 0 => -- TON
    if inp then
      if t.prev = some true then { fresh with q := decide (pt ≤ e) }
      else { fresh with start := tl, timing := true, q := decide (pt = 0) }
    else { fresh with timing := false, q := false }
  | 1 => -- TOF
    if inp then { fresh with timing := false, q := true }
    else if t.prev = some true then { fresh with start := tl, timing := true, q := decide (pt ≠ 0) }
    else if t.timing then
      (if e < pt then { fresh with q := true } else { fresh with timing := false, q := false })
    else { fresh with q := false }
  | _ => -- TP
    if t.timing then
      (if e < pt then { fresh with q := true } else { fresh with timing := false, q := false })
    else if inp && t.prev == some false then
      { fresh with start := tl, timing := true, q := decide (pt ≠ 0) }
    else { fresh with q := false }

/-- A rising edge of an input against its previous one; none before the first evaluation (R190). -/
def rose (prev : Option Bool) (inp : Bool) : Bool := inp && prev == some false

/-! ### Operands -/

/-- A bit operand (LD and its family). -/
def bitOperand (im : LImage) (l : Lseq) (sBit : Nat → Bool) (area a : Nat) : Bool :=
  match area with
  | 0 => mget (fun _ => false) l.inI a
  | 1 => getQ l.work a
  | 2 => getFlag l a
  | 3 => (getTimer l a).q
  | 4 => decide (counterPV im a ≤ (getCounter l a).cv)
  | 8 => sBit a
  | _ => false

/-- A word operand. -/
def wordOperand (im : LImage) (l : Lseq) (area a : Nat) : Int :=
  if area = 7 then im.consts.getD a 0
  else if 0x8000 ≤ a ∧ a ≤ 0x900F then getW l.work a
  else mget (fun _ => 0) l.inW a

/-- A bit store to Q or F. -/
def storeBit (l : Lseq) (area a : Nat) (v : Bool) : Lseq :=
  if area = 1 then { l with work := setQ l.work a v }
  else { l with flags := mset (fun _ => false) l.flags a v }

/-- The accumulator written. -/
def setAcc (l : Lseq) (v : Bool) : Lseq := { l with exec := { l.exec with acc := v } }
/-- The word accumulator written. -/
def setWacc (l : Lseq) (v : Int) : Lseq := { l with exec := { l.exec with wacc := v } }

/-! ### One instruction -/

/-- The action of an instruction word on the sequencer, without its cost and the advance of the index; `sBit` reads the S
area. -/
def seqAction (im : LImage) (sBit : Nat → Bool) (l : Lseq) (w : Word) : Lseq :=
  let op := opOf w
  let area := areaOf w
  let a := addrOf w
  let acc := l.exec.acc
  let b := bitOperand im l sBit area a
  let x := wordOperand im l area a
  match op with
  | 0x01 => setAcc l b
  | 0x02 => setAcc l (!b)
  | 0x03 => setAcc l (acc && b)
  | 0x04 => setAcc l (acc && !b)
  | 0x05 => setAcc l (acc || b)
  | 0x06 => setAcc l (acc || !b)
  | 0x07 => setAcc l (acc ^^ b)
  | 0x08 => storeBit l area a acc
  | 0x09 => storeBit l area a (!acc)
  | 0x0A => if acc then storeBit l area a true else l
  | 0x0B => if acc then storeBit l area a false else l
  | 0x10 => { l with exec := { l.exec with stack := (acc, true) :: l.exec.stack, acc := true } }
  | 0x11 => { l with exec := { l.exec with stack := (acc, false) :: l.exec.stack, acc := false } }
  | 0x12 =>
    match l.exec.stack with
    | [] => l
    | (v, isAnd) :: rest =>
      { l with exec := { l.exec with stack := rest, acc := if isAnd then v && acc else v || acc } }
  | 0x28 =>
    let c := getCounter l a
    let cv := if rose c.pcu acc then satW (c.cv + 1) else c.cv
    setAcc (setCounter l a { c with cv := cv, pcu := some acc }) (decide (counterPV im a ≤ cv))
  | 0x29 =>
    let c := getCounter l a
    let cv := if rose c.pcd acc then satW (c.cv - 1) else c.cv
    setAcc (setCounter l a { c with cv := cv, pcd := some acc }) (decide (cv ≤ 0))
  | 0x2A =>
    let c := getCounter l a
    let cv := if acc then (if counterType im a = 1 then counterPV im a else 0) else c.cv
    setCounter l a { c with cv := cv }
  | 0x30 =>
    let p := getEdge l a
    setAcc (setEdge l a acc) (rose p acc)
  | 0x31 =>
    let p := getEdge l a
    setAcc (setEdge l a acc) (!acc && p == some true)
  | 0x38 => setWacc l x
  | 0x39 => { l with work := setW l.work a l.exec.wacc }
  | 0x3A => setWacc l (satW (l.exec.wacc - x))
  | 0x3B => setWacc l (satW (l.exec.wacc.natAbs : Int))
  | 0x40 => setAcc l (decide (l.exec.wacc = x))
  | 0x41 => setAcc l (decide (l.exec.wacc ≠ x))
  | 0x42 => setAcc l (decide (l.exec.wacc < x))
  | 0x43 => setAcc l (decide (x < l.exec.wacc))
  | 0x44 => setAcc l (decide (l.exec.wacc ≤ x))
  | 0x45 => setAcc l (decide (x ≤ l.exec.wacc))
  | 0xFF => { l with exec := { l.exec with running := false } }
  | _ =>
    if 0x20 ≤ op ∧ op ≤ 0x22 then
      let t := timerEval (op - 0x20) (timerPT im a) l.tl acc (getTimer l a)
      setAcc (setTimer l a t) t.q
    else l

/-- The next index: the target of a jump that is taken, else the index after. -/
def seqNext (l : Lseq) (w : Word) : Nat :=
  if opOf w = 0x50 ∨ (opOf w = 0x51 ∧ l.exec.acc = true) then addrOf w else l.exec.idx + 1

/-- The budget B in clocks (R194). -/
def seqBudget (pct len : Nat) : Nat := pct * len * 200

/-- The watchdog stop (R195): the instruction at the index is not executed. -/
def seqStop (l : Lseq) : Lseq :=
  { l with exec := { l.exec with running := false }, run := 2, blanketDue := true, due := false, stopTl := l.tl }

/-- One instruction: the watchdog, else the action, the cost and the advance. -/
def seqStep (im : LImage) (sBit : Nat → Bool) (budget : Nat) (l : Lseq) (w : Word) : Lseq :=
  let c := l.exec.clocks + opClocks (opOf w)
  if budget < c then seqStop l
  else
    let n := seqNext l w
    let l := seqAction im sBit l w
    { l with exec := { l.exec with idx := n, clocks := c } }

/-- Execution from the present index to END or the watchdog; `fuel` bounds the instructions. -/
def seqRun (im : LImage) (sBit : Nat → Bool) (budget : Nat) : (fuel : Nat) → Lseq → Lseq
  | 0, l => l
  | k + 1, l =>
    if l.exec.running then
      match im.prog[l.exec.idx]? with
      | some w => seqRun im sBit budget k (seqStep im sBit budget l w)
      | none => l
    else l

/-! ### Output images -/

/-- An entry of the blanket table or the force table: area, address, and the word above bit 32 with the value. -/
def entArea (e : BitVec 64) : Nat := e.toNat / 2 ^ 60
def entAddr (e : BitVec 64) : Nat := e.toNat / 2 ^ 40 % 2 ^ 20
def entVal (e : BitVec 64) : Nat := e.toNat % 2 ^ 32

/-- A blanket entry is used (Table 06-11). -/
def blanketUsed (e : BitVec 64) : Bool :=
  (entArea e == 1 || (entArea e == 6 && decide (0x8000 ≤ entAddr e) && decide (entAddr e ≤ 0x900F)))
  && decide (e.toNat / 2 ^ 32 % 4 ≤ 1)

/-- A blanket entry names an output. -/
def blanketNames (t : List (BitVec 64)) (area a : Nat) : Bool :=
  t.any fun e => blanketUsed e && entArea e == area && entAddr e == a

/-- The blanket image (R196, Table 06-10): entries applied to the image published before the overrun, then the defaults
for every output that no entry names. `loopOwnedVdo` says which VDO a loop owns. -/
def blanketImage (t : List (BitVec 64)) (loopOwnedVdo logicVao : Nat → Bool) (pub : OutImage) : OutImage :=
  let o := t.foldl (fun o e =>
    if blanketUsed e && decide (e.toNat / 2 ^ 32 % 4 = 0) then
      if entArea e = 1 then setQ o (entAddr e) (e.getLsbD 0)
      else setW o (entAddr e) (BitVec.ofNat 32 (entVal e)).toInt
    else o) pub
  let q := o.q.filter fun p =>
    blanketNames t 1 p.1
    || (decide (p.1 ≤ 0x3F) && loopOwnedVdo p.1)
    || (decide (0x1000 ≤ p.1) && decide (p.1 ≤ 0x100F))
  let w := o.w.filter fun p => blanketNames t 6 p.1 || decide (p.1 < 0x9000) || !logicVao (p.1 - 0x9000)
  { q := q, w := w }

/-- Output forces applied at a publication (R199). -/
def applyForces (fs : List (BitVec 64)) (o : OutImage) : OutImage :=
  fs.foldl (fun o e =>
    if e.getLsbD 32 then
      if entArea e = 1 then setQ o (entAddr e) (e.getLsbD 0)
      else if entArea e = 6 ∧ 0x8000 ≤ entAddr e ∧ entAddr e ≤ 0x900F then
        setW o (entAddr e) (BitVec.ofNat 32 (entVal e)).toInt
      else o
    else o) o

/-- Rounding of a binary64 value into a W word (R178). -/
def toWord (x : Nat) : Int :=
  match fdec fmt64 x with
  | .nan => 0
  | .inf neg => if neg then -2147483648 else 2147483647
  | .fin .. => satW (froundHalfEven fmt64 x)

/-! ### On-line change (Table 06-12) -/

/-- Instances carried to a new image: timers and counters of equal number and type, edges of equal number. -/
def carryOver (old new : LImage) (l : Lseq) : Lseq :=
  { l with
    timers := l.timers.filter fun p => decide (p.1 < new.timers.length) && timerType old p.1 == timerType new p.1
    counters := l.counters.filter fun p =>
      decide (p.1 < new.counters.length) && counterType old p.1 == counterType new p.1
    edges := l.edges.filter fun p => decide (p.1 < new.edges) } |> fun l =>
  (List.range new.counters.length).foldl (fun l n =>
    if n < old.counters.length ∧ counterType old n = counterType new n then l
    else setCounter l n (counterNew new n)) l

/-- An image uses an address: some instruction reads or writes it (R201). -/
def imageUses (im : LImage) (area a : Nat) : Bool :=
  im.prog.any fun w => !(opAreas (opOf w)).isEmpty && areaOf w == area && addrOf w == a

/-- An image writes an output address. -/
def imageWrites (im : LImage) (area a : Nat) : Bool :=
  im.prog.any fun w =>
    ((decide (0x08 ≤ opOf w) && decide (opOf w ≤ 0x0B)) || opOf w == 0x39) && areaOf w == area && addrOf w == a

/-- Everything a COLD start or restart clears (R197, R204). -/
def coldClear (l : Lseq) : Lseq :=
  { l with flags := [], timers := [], counters := [], edges := [], work := ⟨[], []⟩, own := ⟨[], []⟩ }

/-- RESUME: the start of every running timer advances by the time since the overrun (R197). -/
def resumeTimers (d : Int) (l : Lseq) : Lseq :=
  { l with timers := l.timers.map fun p => (p.1, if p.2.timing then { p.2 with start := p.2.start + d } else p.2) }

end Sys2Proof.Machine
end

