-- ==== Sys2Proof/Machine/State.lean ====
section
/-! DEFINITION. The device's state, how a step can fail, and the state right after reset. -/
namespace Sys2Proof.Machine

/-- No command stops the device with a fault: where the spec names an error the device records it and goes on. -/
inductive Fault where
deriving DecidableEq, Repr

/-- Why a command has no meaning. -/
inductive Refusal where
  /-- Raised by the dispatcher for a command whose meaning is not written yet. Safe: no statement follows from it. -/
  | notModelled (mnemonic : String)
deriving DecidableEq, Repr

/-- The device: three lanes, the arbiter, the island, the backup domain, the count of free values drawn, and the commands
that wait, first in, first out. -/
structure State where
  a : Lane
  b : Lane
  c : Lane
  arb : Arb
  isl : Island
  bak : Backup
  free : Nat
  pending : List Instr
deriving DecidableEq, Repr

/-! ### Values at reset -/

/-- No node of the key hierarchy has been invalidated (R336). -/
def gens0 : Gens := { dev := 0, ses := 0, sst := 0, agr := 0, sto := 0, leaf := [] }
/-- A class with no stored image. -/
def imageClass0 : ImageClass :=
  { bankA := [], bankB := [], rec0 := none, rec1 := none, busy := none, queued := false }
/-- MRAM of a part that has stored nothing. -/
def nvm0 : Nvm :=
  let tot : TotalsRec := { valid := false, tseq := 0, lastFlask := 0, slot := 0, mtrSeq := [], thmSeq := [], regs := [],
                           pulses := [] }
  let ret : RetainRec := { valid := false, seq := 0, imageId := 0, flags := [], counters := [], edges := [], timers := [] }
  { dict := imageClass0, logic := imageClass0, dirty := false, dirtySince := 0, totA := tot, totB := tot, totBusy := none,
    totNextB := false,
    flask := { valid := false, fseq := 0, baseSeq := 0, cause := 0, slot := 0, regs := [], mtr := [], thm := [],
               pulses := [] },
    fseq := 0, flaskBusy := none, retA := ret, retB := ret, gens := gens0, epochs := List.replicate 8 0, holdSec := 0,
    retag := none }
/-- An RTC whose backup domain has been lost (R406). -/
def rtcReset : Rtc :=
  { sec := 0, frac := 0, wday := 0, phase := 0, delta := 0, slewLeft := 0, err := 0, noTime := true, vbatLost := true,
    oscStop := false, stepped := false, standby := false, run := true, stepCnt := 0, setCnt := 0, acts := [] }

/-- An empty island word: every channel unconfigured. -/
def islandWord0 : IslandWord :=
  { stopping := 0, stopped := 0, fault := 0, restartable := 0, locked := false, islFault := false, crc := 0, confirm := 0, ch := [], faults := 0 }
/-- The strobe word before the first strobe. -/
def strobeWord0 : StrobeWord :=
  { mask := LaneSet.empty, arbFault := false, tamper := false, joiner := .A, donor := .A, joinPhase := 0, first := false, sync := false,
    solve := { minTiles := 0, verdict := false, solve := 0, round := 0, source := .A }, island := islandWord0,
    arb := { lanes := [(0, 0, 0), (0, 0, 0), (0, 0, 0)], log := [none, none, none, none], keyReady := false, cause := 0, hold := 0, gate := false } }
/-- A link that is up and has seen nothing. -/
def linkView0 : LinkView := { down := false, got := false, err := false, silent := 0, clean := 0, errs := [] }
/-- Agreement before the first strobe. -/
def agree0 : Agree :=
  { stage := .idle, own := [], direct := [], echoed := [], sets := [], offer := [], held := false, rxq := [], taken := false, round1Closed := false, relay := [],
    link0 := linkView0, link1 := linkView0, agreedDown := [false, false, false],
    downNext := [false, false, false] }
/-- The agreed image before first agreement: every value 0, every age at its maximum (R53). -/
def image0 : Image :=
  { mtr := List.replicate 24 (0, false), ain := List.replicate 32 (0, false), din := 0,
    rtd := List.replicate 16 (0, false), pulse := List.replicate 16 0, tb := 0, dtSec := 0, dtNs := 0, frames := [],
    age := 16777215, rtdAge := List.replicate 16 16777215, adm := [] }
/-- A closed session. -/
def session0 : Session :=
  { st := 0, port := 0xFE, epoch := 0, spent := false, keyClosed := false, txseq := 0, rxseq := 0, txCount := 0,
    rxCount := 0, staged := [], stagedAt := 0, wx := none, rs := none, retry := [], subs := [], defer := [], published := false }
/-- A dictionary at its defaults. -/
def dict0 : Dict :=
  { vals := [], written := [], clamps := [], clampCount := 0, journal := [], journalCount := 0, reqs := [], todo := [],
    sessions := List.replicate 8 session0, points := [], stats := List.replicate 15 0, reports := [],
    part := [20, 4, 6, 2], jMib := 2048 }
/-- The loop engine at a start. -/
def leng0 : Leng :=
  { active := false, loops := [], secs := [],
    traces := List.replicate 16 { st := 0, depth := 0x4000, count := 0, wrptr := 0, trigIdx := 0, post := 0, force := false,
                                  vPrev := none, trigSlot := none, ring := [] } }
/-- The logic sequencer at a start. -/
def lseq0 : Lseq :=
  { run := 0, image := none, pendImg := none, checking := none, flags := [], timers := [], counters := [], edges := [],
    inI := [], inW := [], work := ⟨[], []⟩, own := ⟨[], []⟩, pub := ⟨[], []⟩,
    exec := { running := false, idx := 0, acc := false, wacc := 0, stack := [], clocks := 0, budget := 0 }, cycle := 0, tl := 0,
    due := false, blanketDue := false, stopTl := 0, stopImg := none, first := 0, nextFirst := 0, restart := none, published := false, pubSeen := false,
    ownDrop := false, ownDropPrev := false, lastRetain := 0, retainSeq := 0, checkDone := false }
/-- A register at zero. -/
def eregReset : EReg := { val := 0, wrap := 0, res := 0, intv := 0, k := 0 }
/-- A feeder at a start. -/
def feederReset : Feeder :=
  { mode := .off, tOpen := 0, tRef := 2000000, lastCross := 0, crossed := false, below := false, prev := none,
    held := none, sums := List.replicate 21 0, folded := 0, open2 := [], regs := List.replicate 36 eregReset,
    acc := { cycles := 0, nominal := 0, partials := 0, nozc := false, clip := false, sag := false, start := none, last := 0,
             openOff := 0xFFFF, closeOff := 0xFFFF, minP := none, maxP := none, minV := [none, none, none] },
    seq := 0, flags := 0, ring := [], fresh := [], q := [], qVis := [], stage := 0 }
/-- Thermal metering at a start (R236: every channel faulty until its first code). -/
def thmReset : Thm :=
  { chans := List.replicate 16 { fault := true, temp := 0 },
    circs := List.replicate 8
      { regs := List.replicate 4 eregReset, seq := 0,
        acc := { start := none, startTb := 0, last := 0, flags := 0, loS := none, hiS := none, loR := none, hiR := none,
                 hiP := none, uncredited := 0 },
        win := [], winLen := 0, stale := false, ring := [], fresh := [], q := [], qVis := [] },
    counts := List.replicate 16 [], tbPrev := none,
    vpo := List.replicate 16 { owed := 0, accr := 0, active := none, lastEnd := none, moved := [], backlog := false,
                               width := 0 },
    tseq := 0, lastFlask := 0, merge := none, want := none, merging := false, stage := 0, metered := 0, qVis := [], q := [] }
/-- The solver at a start: no model is active. -/
def solverReset : Solver :=
  { mstate := 0, commitAt := 0, held := [], active := false, mver := 0, pendVer := 0, refCode := 0, refIndex := 0,
    refSub := 0, refRow := 0, netSig := 0, sigs := [], disc := [], order := [], pendOrder := [], factorBytes := 0,
    factorHeld := 0, tFact := 0, tFs := 0, admFail := false, num := 0, run := none,
    last := { status := 0, flags := 0, num := 0, round := 0, coldSub := 0, pubCold := 0, snap := 0, pubSlot := 0,
              result := none },
    warm := none, cancel := false, now := 0, asked := false }
/-- A coupling round that computed nothing. -/
def roundReset : RoundState :=
  { entries := [], xi := [], eta := [], rp := 0, rd := 0, nans := [], nanSeen := false, bad := false }
/-- A lane's own progress at a start: nothing assembled, no factor. -/
def solvOwnReset : SolvOwn :=
  { phase := 0, last := 0, done := false, fact := false, built := 0, retired := 0, fetching := false, fetched := false,
    missed := false, catchup := false, factor := none, newFac := none, nocomp := false,
    store := { heads := [], recs := [], resident := 0 }, work := none, cur := roundReset, old := roundReset }
/-- A port with its link down. -/
def portReset : PortSt :=
  { up := false, mode := 0, an := 0, addr := [0, 0, 0], queues := List.replicate 8 [], oper := none, pend := none,
    entry := 0, nd := [], ndTick := 0, echoSec := 0, echoCnt := 0, busyTill := 0, lastTx := none,
    ptp := { st := 0, foreign := none, seen := 0, sync := none, syncSeq := 0, annSeq := 0, reqSeq := 0, tReq := none,
             d21 := none, delay := none } }
/-- The time unit at reset. -/
def timeReset : TimeUnit :=
  { clock := 0, y := 0, yi := 0, offs := [], lastT2 := none, filt := 0, locked := false, inRun := 0, outRun := 0,
    parent := none, parentId := none, gm := false, fifo := [],
    pins := List.replicate 4 { level := false, held := false, ref := none, fallAt := none } }

/-- A lane held in reset (R458). -/
def laneReset : Lane :=
  { life := .held, regs := [], shadow := [], latch := [], slot := 0, inRun := false, ticks := 0, mask := LaneSet.empty,
    word := strobeWord0, agree := agree0, img := image0, dict := dict0,
    key := { ready := false, reg := none, host := none, rx := none, job := none, engines := [], enginesNext := none },
    keyA := { gens := gens0, enrols := [], mramDue := none, enrolEnd := none }, rtc := rtcReset, nvm := nvm0, vw := [], step1 := false,
    step3 := false, step4 := false, step5 := false, step6 := false, stepL := false, tx := [], evq := [], sent := [],
    rep := { rseq := 0, uce := 0, clkFail := false, selfOk := false, cecc := 0, tecc := 0, oot := 0, absent := 0 },
    notices := [], peers := List.replicate 8 (0, 0), cfgOut := none, leng := leng0, lseq := lseq0,
    feeders := List.replicate 4 feederReset, thm := thmReset, solver := solverReset,
    solv := solvOwnReset,
    rtdOwn := List.replicate 16 { last := none, prev := none }, pulseOwn := List.replicate 16 { count := 0, period := 0 },
    plevel := 0, ports := List.replicate 16 portReset, time := timeReset, tbu := { tb := 0, kappa := 0, rtcN := 800000000 },
    ownStats := [0, 0, 0, 0], statSlot := none, firstSlot := 0, trip := none, irq := 0, tamperNew := false,
    copy := { bulk := false, dram := false, passes := 0, factor := false, trailing := false }, waitFrom := 0,
    backoff := false, handover := false }

/-- A lane's record at the arbiter before any roll call. -/
def judge0 : LaneJudge :=
  { rep := { state := 0, rejoinReq := false, uce := false, clkFail := false, selfOk := false, uceCause := 0, rseq := 0,
             solve := { solve := 0, last := 0, done := false, fact := false, tiles := 0 }, noComp := false, cecc := 0,
             tecc := 0, oot := 0, lastDev := 0, absent := 0, locks := 0, temp := 0, links := 0, slot := 0 },
    polled := false, answered := false, missed := false, missedRun := 0, nextSeq := none, window := [], badRun := 0,
    manual := false, permit := false, restart := false, entries := [] }

/-- The arbiter held in reset (R458), its outputs at their defaults (R14). -/
def arbReset : Arb :=
  { inReset := true, fault := false, regs := [], shadow := [], mask := LaneSet.empty, nextMask := LaneSet.empty,
    strobe := strobeWord0, ticks := 0, slot := 0, agreed := false, agreeNext := false, firstSlot := 0,
    out := { slot := 0, isOpen := false, frames := [], passed := [] }, vdo := 0, vao := List.replicate 16 0,
    vpo := List.replicate 16 { queue := [], high := false, width := 0, since := 0, ran := false }, stop := none,
    hold := { active := false, slot := 0, snap := false, endBad := LaneSet.empty }, lanes := List.replicate 3 judge0, joining := false,
    dramDone := none, window := none, windowClosed := false, ready := LaneSet.empty,
    mbx := { h2d := [], d2h := [], held := [], copies := [], closed := [] }, msix := [], msi := [], perst := true,
    d3hot := false, last := .none, stall := none, cmds := [], delayed := [], solve := { minTiles := 0, judged := none, next := none },
    rolling := false, downLinks := [false, false, false], islWord := islandWord0, islSeen := false }

/-- A safe-stop channel before configuration. -/
def islChannelReset : IslChannel :=
  { st := 0, cause := 0, v := 0, vPrev := 0, v0 := 0, t := 0, req := false, restartable := false, gate := false,
    settling := false, hsFail := false, lsFail := false, testHigh := true, missed := 0, seen := false }
/-- The island after its power-on: UNCONFIG, gates off, the reset input not armed (R377). -/
def islandReset : Island :=
  { locked := false, block := [], crc := 0, confirm := 0, ch := List.replicate 16 islChannelReset,
    word := 0, wordSeq := 0, newWord := none, sinceWord := 0, lost := true, hostReq := 0, armed := false, stuck := false,
    faults := 0, first := 0, regs := [], shadow := [], sfault := false }

/-- The backup domain after its loss (R417). -/
def backupReset : Backup :=
  { log := [none, none, none, none], lost := 0, event := false, active := false, policy := 0, holdFrom := none, holdSec := 0, holds := 0,
    wasReset := false, wasPor := true, wasVddArb := false, wasFault := false, chEnable := false,
    chCell := 0, chVlimit := 3000, chIlimit := 100, mv := 0, atLimit := false, mains := true }

/-- The machine right after reset: every lane and the arbiter held in reset, the island unconfigured, nothing waiting. -/
def State.reset : State :=
  { a := laneReset, b := laneReset, c := laneReset, arb := arbReset, isl := islandReset, bak := backupReset, free := 0,
    pending := [] }

end Sys2Proof.Machine
end

