-- ==== Sys2Proof/Machine/Rtc.lean ====
section
/-! DEFINITION. The real-time clock of a lane (chapter 14): the count, the weekday counter, following district time,
snapshots and writes. -/
namespace Sys2Proof.Machine

/-- The RTC as one number of 2⁻³² s units. -/
def Rtc.ticks (r : Rtc) : Nat := r.sec.toNat * 2 ^ 32 + r.frac.toNat

/-- The day number of a seconds count against PHASE. -/
def rtcDay (sec : Nat) (phase : Nat) : Int := fdiv ((sec : Int) - phase) 86400

/-- Move the weekday by n modulo 7 (R408). -/
def wdayMove (w : BitVec 3) (n : Int) : BitVec 3 := BitVec.ofNat 3 (fmod (w.toNat + n) 7)

/-- Load a count that is not reached by a carry: the weekday moves by whole days between `old` and the new seconds. -/
def Rtc.load (r : Rtc) (old : Nat) (v : Nat) : Rtc :=
  let sec := v / 2 ^ 32 % 2 ^ 48
  { r with sec := BitVec.ofNat 48 sec, frac := BitVec.ofNat 32 v,
           wday := wdayMove r.wday (rtcDay sec r.phase.toNat - rtcDay old r.phase.toNat) }

/-- Reduction of a written PHASE (R409). -/
def phaseNorm (p : Nat) : Nat := if 86400 ≤ p then p - 86400 else p

/-- The oscillator's advance of one edge (R405): 2^17 + δ, with the carry into the seconds and the weekday step of R407. -/
def Rtc.advance (r : Rtc) : Rtc :=
  let f := r.frac.toNat + (131072 + r.delta).toNat
  let left := r.slewLeft - 1
  let r := { r with run := true, slewLeft := left, delta := if left = 0 then 0 else r.delta }
  if f < 2 ^ 32 then { r with frac := BitVec.ofNat 32 f }
  else
    let sec := r.sec + 1
    let wday := if fmod ((sec.toNat : Int) - r.phase.toNat) 86400 = 0 then
        (if r.wday.toNat = 6 then 0 else r.wday + 1) else r.wday
    { r with frac := BitVec.ofNat 32 f, sec := sec, wday := wday }

/-- The weekday steps at the next edge (R407). -/
def Rtc.weekdaySteps (r : Rtc) : Bool :=
  decide (2 ^ 32 ≤ r.frac.toNat + (131072 + r.delta).toNat)
  && decide (fmod (((r.sec + 1).toNat : Int) - r.phase.toNat) 86400 = 0)

/-- Registers a host SET reads: staged seconds, fraction, weekday and phase. -/
structure RtcStage where
  sec : Nat
  frac : Nat
  wday : Nat
  phase : Nat
deriving DecidableEq, Repr

/-- One scheduled change applied at an edge. `before` is the RTC immediately before the edge, `elapsed` the 2⁻³² s units
since t1 of the slot that scheduled a TIMESET. -/
def Rtc.act (st : RtcStage) (before : Rtc) (elapsed : Nat) (r : Rtc) : RtcAct → Rtc
  | .align d =>
    let v := ((r.ticks : Int) - d).toNat
    { (({ r with wday := before.wday }).load before.sec.toNat v) with noTime := false, stepped := true }
  | .zero =>
    { (({ r with wday := before.wday }).load before.sec.toNat 0) with stepped := true }
  | .step e =>
    let v := ((r.ticks : Int) - e).toNat
    { (({ r with wday := before.wday }).load before.sec.toNat v) with
      stepped := true, stepCnt := satAdd 0xFFFF r.stepCnt 1 }
  | .timeset v =>
    { (({ r with wday := before.wday }).load before.sec.toNat (v + elapsed)) with
      noTime := false, setCnt := satAdd 0xFFFF r.setCnt 1 }
  | .set time wday ph =>
    let r1 := if time then
        { (({ r with wday := before.wday }).load before.sec.toNat
            (st.sec % 2 ^ 48 * 2 ^ 32 + st.frac / 2 ^ 17 % 2 ^ 15 * 2 ^ 17)) with noTime := false }
      else r
    let r2 := if wday then { r1 with wday := BitVec.ofNat 3 st.wday } else r1
    let r3 := if ph then { r2 with phase := BitVec.ofNat 17 (phaseNorm st.phase) } else r2
    { r3 with setCnt := satAdd 0xFFFF r.setCnt 1 }
  | .wday w => { r with wday := BitVec.ofNat 3 w }
  | .phase p => { r with phase := BitVec.ofNat 17 (phaseNorm p) }
  | .snap => r

/-- One oscillator edge: the advance, then the scheduled changes in order (R405, R411 to R415). -/
def Rtc.edge (st : RtcStage) (elapsed : Nat) (r : Rtc) : Rtc :=
  r.acts.foldl (fun x a => Rtc.act st r elapsed x a) { r.advance with acts := [] }

/-- The oscillator stop detector (R406). -/
def Rtc.stop (r : Rtc) : Rtc := { r with run := false, oscStop := true, noTime := true }

/-- The comparison of R412 with the measured error e, in 2⁻³² s units: slew within 0.1 s, step beyond it. -/
def Rtc.follow (r : Rtc) (e : Int) : Rtc :=
  let us := clampI (-8388607) 8388607 (roundShift (e * 1000000) 32)
  if e.natAbs * 10 ≤ 2 ^ 32 then
    { r with err := us, delta := clampI (-52) 52 (-(roundShift e 15)), slewLeft := 32768 }
  else
    { r with err := us, acts := r.acts ++ [.step (roundShift e 17 * 131072)] }

/-- RTC_STAT, RTC_WDAY, RTC_SLEW and RTC_SETCNT as the RTC domain holds them. -/
def Rtc.view (r : Rtc) (batLow : Bool) (m : RegMap) : RegMap :=
  let m := fbool m f_RTC_STAT_VBATLOST r.vbatLost
  let m := fbool m f_RTC_STAT_OSCSTOP r.oscStop
  let m := fbool m f_RTC_STAT_NOTIME r.noTime
  let m := fbool m f_RTC_STAT_STEPPED r.stepped
  let m := fbool m f_RTC_STAT_SLEWING (r.delta ≠ 0)
  let m := fbool m f_RTC_STAT_STANDBY r.standby
  let m := fbool m f_RTC_STAT_BATLOW batLow
  let m := fbool m f_RTC_STAT_RUN r.run
  let m := fset m f_RTC_WDAY_WDAY r.wday.toNat
  let m := fset m f_RTC_WDAY_PHASE r.phase.toNat
  let m := fset m f_RTC_SLEW_ERR (ofInt 24 r.err).toNat
  let m := fset m f_RTC_SLEW_DELTA (ofInt 7 r.delta).toNat
  let m := fset m f_RTC_SETCNT_STEPCNT r.stepCnt
  let m := fset m f_RTC_SETCNT_SETCNT r.setCnt
  fbool m f_LCTL_CLKSTAT_RTCOSC r.run

/-- A read of RC/SH bits of RTC_STAT or RTC_SETCNT: flags set at the refresh are cleared and counters reduced (R446).
`sh` is the shadow register file and `clr` the bits read. -/
def Rtc.readClear (r : Rtc) (sh : RegMap) (key : Nat) (clr : Word) : Rtc :=
  let w := rget sh key &&& clr
  if key = f_RTC_STAT_RUN.key then
    { r with vbatLost := r.vbatLost && !w.getLsbD 7, oscStop := r.oscStop && !w.getLsbD 6,
             stepped := r.stepped && !w.getLsbD 4, standby := r.standby && !w.getLsbD 2 }
  else if key = f_RTC_SETCNT_SETCNT.key then
    { r with stepCnt := r.stepCnt - w.toNat / 65536, setCnt := r.setCnt - w.toNat % 65536 }
  else r

end Sys2Proof.Machine
end

