-- ==== Sys2Proof/Machine/Linear.lean ====
section
/-! DEFINITION. Binary64 vectors and small dense matrices, and the matrix exponential (R77). The spec fixes the operations'
results to the bit but not the order inside them; the order here is ascending, with one fused operation per term (DESIGN
CHOICE, log 148). -/
namespace Sys2Proof.Machine

/-! ### Numbers, as bits -/

/-- 1.0, 0.5 and the infinity of a sign. -/
def d1 : Nat := 0x3FF0000000000000
def dHalf : Nat := 0x3FE0000000000000
def dInf (neg : Bool) : Nat := finf fmt64 neg
def dAdd (a b : Nat) : Nat := fadd fmt64 a b
def dSub (a b : Nat) : Nat := fsub fmt64 a b
def dMul (a b : Nat) : Nat := fmul fmt64 a b
def dDiv (a b : Nat) : Nat := fdivide fmt64 a b
/-- a × b + c with one rounding. -/
def dFma (a b c : Nat) : Nat := ffma fmt64 a b c
def dNeg (a : Nat) : Nat := fneg fmt64 a
def dAbs (a : Nat) : Nat := fabs fmt64 a
def dLt (a b : Nat) : Bool := flt fmt64 a b
def dLe (a b : Nat) : Bool := fle fmt64 a b
/-- The larger and the smaller of two; the first when unordered. -/
def dMax (a b : Nat) : Nat := if dLt a b then b else a
def dMin (a b : Nat) : Nat := if dLt b a then b else a
def dClamp (lo hi x : Nat) : Nat := dMin (dMax x lo) hi
def dInt (z : Int) : Nat := fofInt fmt64 z
/-- A quotient, 0 for a divisor of 0. -/
def dDiv0 (a b : Nat) : Nat := if dAbs b = 0 then 0 else dDiv a b
/-- binary64 to binary32. -/
def narrow (a : Nat) : Nat := fconv fmt64 fmt32 a

/-! ### Vectors and matrices -/

abbrev Vec := List Nat
abbrev Mat := List (List Nat)

def vAt (v : Vec) (i : Nat) : Nat := v.getD i 0
def mAt (m : Mat) (i j : Nat) : Nat := vAt (m.getD i []) j
/-- A dot product, ascending from 0.0. -/
def dDot (a b : Vec) : Nat := (a.zip b).foldl (fun s p => dFma p.1 p.2 s) 0
def vAdd (a b : Vec) : Vec := List.zipWith dAdd a b
def vSub (a b : Vec) : Vec := List.zipWith dSub a b
def vMul (a b : Vec) : Vec := List.zipWith dMul a b
def vNeg (a : Vec) : Vec := a.map dNeg
def vZero (n : Nat) : Vec := List.replicate n 0
/-- The matrix of a function. -/
def mOf (r c : Nat) (f : Nat → Nat → Nat) : Mat := (List.range r).map fun i => (List.range c).map fun j => f i j
/-- Transpose of a matrix with c columns. -/
def mT (c : Nat) (m : Mat) : Mat := (List.range c).map fun j => m.map fun r => vAt r j
def mVec (m : Mat) (v : Vec) : Vec := m.map fun r => dDot r v
/-- Product with a matrix of c columns. -/
def mMul (c : Nat) (a b : Mat) : Mat := let bt := mT c b; a.map fun r => bt.map fun k => dDot r k
def mAdd (a b : Mat) : Mat := List.zipWith vAdd a b
def mSub (a b : Mat) : Mat := List.zipWith vSub a b
def mMap (f : Nat → Nat) (m : Mat) : Mat := m.map fun r => r.map f
def mDiag (v : Vec) : Mat := mOf v.length v.length fun i j => if i = j then vAt v i else 0
def mEye (n : Nat) : Mat := mOf n n fun i j => if i = j then d1 else 0

/-- One elimination step on column k of the rows of [H | B], without row exchange. -/
def jordanStep (m : Mat) (k : Nat) : Mat :=
  let p := m.getD k []
  let pr := p.map fun x => dDiv x (vAt p k)
  m.mapIdx fun i r => if i = k then pr else List.zipWith (fun y x => dFma (dNeg (vAt r k)) y x) pr r
/-- H⁻¹ B of a positive definite H of order n. -/
def mSolve (n : Nat) (h b : Mat) : Mat :=
  ((List.range n).foldl jordanStep (List.zipWith (fun x y => x ++ y) h b)).map fun r => r.drop n

/-! ### The exponential (R77) -/

/-- The 1-norm: the largest column sum of magnitudes. -/
def mNorm1 (n : Nat) (m : Mat) : Nat := ((mT n m).map fun c => (c.map dAbs).foldl dAdd 0).foldl dMax 0
/-- The smallest s ≥ 0 with x / 2^s ≤ 0.5. -/
def expScale (x : Nat) : (fuel : Nat) → Nat → Nat
  | 0, s => s
  | k + 1, s => if dLe (dMul x (fofDyadic fmt64 1 (-(s : Int)))) dHalf then s else expScale x k (s + 1)
/-- exp(M) of a matrix of order n, by scaling and squaring with the Taylor series of degree 12. -/
def mExp (n : Nat) (m : Mat) : Mat :=
  let s := expScale (mNorm1 n m) 1100 0
  let a := mMap (fun x => dMul x (fofDyadic fmt64 1 (-(s : Int)))) m
  let t := (List.range 12).foldl (fun (p : Mat × Mat) k =>
    let term := mMap (fun x => dDiv x (dInt (k + 1 : Nat))) (mMul n p.2 a)
    (mAdd p.1 term, term)) (mEye n, mEye n)
  (List.range s).foldl (fun e _ => mMul n e e) t.1
/-- exp of a number, as that of a matrix of order 1. -/
def dExp (x : Nat) : Nat := mAt (mExp 1 [[x]]) 0 0

end Sys2Proof.Machine
end

