-- ==== Sys2Proof/Config.lean ====
section
/-! DEFINITION. What an implementation fixes and what the spec leaves open: constants with no body, so that no proof can
lean on a value. Each is named in the assumption log. -/
namespace Sys2Proof.Config

/-- A free 64-bit value, fresh for each count. -/
opaque free : Nat → BitVec 64

/-- Whether a quotient that is not whole is rounded up, where the spec leaves the rounding open. -/
opaque roundUp (num : Int) (den : Nat) : Bool
/-- An integer quotient whose rounding, and nothing else of it, the spec leaves open: the lane time base (R184, R185) and the
filters of the PTP servo (R293, R295). -/
def quot (num : Int) (den : Nat) : Int :=
  num.fdiv den + (if num.fmod den ≠ 0 ∧ roundUp num den = true then 1 else 0)

/-- Worst-case factorisation time in µs and factor solve time in ns that a model load measures (R143). -/
opaque tFact (nodes segs : Bytes) (horizon : Nat) : BitVec 20
opaque tFs (nodes segs : Bytes) (horizon : Nat) : BitVec 20
/-- The measurement point (substation and point) that the model objects name for an operating point (R93), by kind and number
of `opKey`: the object tables have no field for it. -/
opaque opPoint (vals : NMap Bytes) (kind i : Nat) : Option (BitVec 12 × BitVec 4)
/-- A trajectory value before its solution's grid start (R153 states none): object, element and time before the start. -/
opaque trajBefore (obj sub : Nat) (tau : Int) : BitVec 64
/-- A byte of a lane's problem store that no assembly has written, or of the solver's area of a record (R97, R431). -/
opaque storeByte (lane : LaneId) (slot : BitVec 64) (addr : Nat) : Byte
/-- Duration of a lane's assembly in µs, its own measurement (ASM_TIME). -/
opaque asmTime (lane : LaneId) (slot : BitVec 64) : BitVec 16

/-- Index, subindex and data of a journal record whose content the spec does not state (R333). -/
opaque recordRest (code : Nat) (slot : BitVec 64) : BitVec 280

/-- Journal code of the clearing of UNLOCKNEXT, which R365 asks for and R333 does not list. -/
opaque unlockCode : BitVec 16

/-- What the inactive bank of a lane holds after a commit that a trip or a reset cut off (Table 16-5): from what it held
before, the image being written and the slot in which the commit started. -/
opaque cutBank (lane : LaneId) (old new : Bytes) (start : BitVec 64) : Bytes

/-- Number of the self-test item that finds too little DRAM (TESTITEM). -/
opaque dramItem : BitVec 8
/-- The fuse block (R334, R264): root, device serial, STEP and GRADE. -/
opaque fuseRoot : BitVec 256
opaque serial : BitVec 64
opaque step : BitVec 8
opaque grade : Bool
/-- Factory latency constants of a port for a resolved mode (R286), in 0.25 ns. -/
opaque ingress (lane : LaneId) (port mode : Nat) : BitVec 16
opaque egress (lane : LaneId) (port mode : Nat) : BitVec 16
/-- Fitted DRAM of a lane in units of 256 MiB, and its ranks (R19, DRC_STAT). -/
opaque dramSize (lane : LaneId) : BitVec 8
opaque dramRanks (lane : LaneId) : BitVec 2

end Sys2Proof.Config
end

