-- ==== Sys2Proof/Machine/Solve.lean ====
section
/-! DEFINITION. The network model's checks and signatures (chapter 03) and the timing model (chapter 04), over a reader of
dictionary values. -/
namespace Sys2Proof.Machine

/-- A reader of dictionary values: index, subindex. -/
abbrev ObjReader := Nat → Nat → Bytes

/-- A value as a little-endian number; an element of an array value. -/
def objNat (g : ObjReader) (idx sub : Nat) : Nat := leNat (g idx sub)
def objElem (g : ObjReader) (idx sub sz i : Nat) : Nat := natAt (g idx sub) (sz * i) sz

/-! ### The model as objects -/

/-- Network n is present. -/
def netPresent (g : ObjReader) (n : Nat) : Bool := decide (n < 4) && objNat g (0x7008 + n) 1 == 1
/-- A zone, network feeder or branch exists: it has a parent. -/
def zoneExists (g : ObjReader) (z : Nat) : Bool := decide (z < 16) && objNat g (0x7010 + z) 1 != 0xFF
def nfExists (g : ObjReader) (f : Nat) : Bool := decide (f < 64) && objNat g (0x7020 + f) 1 != 0xFF
def branchExists (g : ObjReader) (b : Nat) : Bool := decide (b < 512) && objNat g (0x7100 + b) 1 != 0xFF
/-- Rows of the node, segment and link tables. -/
def nodeCount (g : ObjReader) : Nat := (g 0x7500 1).length / 16
def segCount (g : ObjReader) : Nat := (g 0x7501 1).length / 32
def linkCountT (g : ObjReader) : Nat := (g 0x7502 1).length / 12
def nodeNet (g : ObjReader) (i : Nat) : Nat := natAt (g 0x7500 1) (16 * i) 1
def nodeType (g : ObjReader) (i : Nat) : Nat := natAt (g 0x7500 1) (16 * i + 1) 1
def nodeZone (g : ObjReader) (i : Nat) : Nat := natAt (g 0x7500 1) (16 * i + 2) 1
def segFrom (g : ObjReader) (i : Nat) : Nat := natAt (g 0x7501 1) (32 * i) 2
def segTo (g : ObjReader) (i : Nat) : Nat := natAt (g 0x7501 1) (32 * i + 2) 2
def segMode (g : ObjReader) (i : Nat) : Nat := natAt (g 0x7501 1) (32 * i + 4) 1
def segBand (g : ObjReader) (i : Nat) : Nat := natAt (g 0x7501 1) (32 * i + 5) 1
def segPump (g : ObjReader) (i : Nat) : Nat := natAt (g 0x7501 1) (32 * i + 6) 2
/-- Parent branch and connection node of a substation on a network. -/
def subBranch (g : ObjReader) (n net : Nat) : Nat := objElem g (0xA000 + n) 5 2 net
def subNode (g : ObjReader) (n net : Nat) : Nat := objElem g (0xA000 + n) 6 2 net
/-- A substation is in the model: it has a parent or a connection. -/
def subExists (g : ObjReader) (n : Nat) : Bool :=
  (List.range 4).any fun k => subBranch g n k != 0xFFFF || subNode g n k != 0xFFFF
/-- The substations of the model, and those enabled. -/
def subsAll (g : ObjReader) : List Nat := (List.range 4096).filter (subExists g)
def subsEnabled (g : ObjReader) : List Nat := (subsAll g).filter fun n => objNat g (0xA000 + n) 1 == 1

/-- A sparsity mask of a substation: 0 A, 1 B, 2 E, 3 C, 4 D. -/
def subMask (g : ObjReader) (n k : Nat) : Nat := objElem g (0xA000 + n) 0x28 2 k
/-- The largest index + 1 of a row (or a column) that a mask of `cols` columns uses. -/
def maskRows (m cols : Nat) : Nat := (List.range 16).foldl (fun r b => if m.testBit b then max r (b / cols + 1) else r) 0
def maskCols (m cols : Nat) : Nat := (List.range 16).foldl (fun r b => if m.testBit b then max r (b % cols + 1) else r) 0

/-- Numbers of states and inputs of a substation (R73, R76). -/
def subDims (g : ObjReader) (n : Nat) : Nat × Nat :=
  if objNat g (0xA000 + n) 2 = 1 then
    (max (max (maskRows (subMask g n 0) 4) (maskCols (subMask g n 0) 4))
       (max (maskRows (subMask g n 1) 3) (max (maskRows (subMask g n 2) 2) (maskCols (subMask g n 3) 4))),
     max (maskCols (subMask g n 1) 3) (maskCols (subMask g n 4) 3))
  else
    let st := objNat g (0xA000 + n) 3 % 2
    (2 + st, 2 + st)

/-! ### Signatures (R95) -/

/-- CRC-64 of a byte string. -/
def crc64 (bs : Bytes) : BitVec 64 := bs.foldl crc64Byte 0

/-- Rotate a 16-bit mask left. -/
def rotl16 (x k : Nat) : Nat := (x * 2 ^ k) % 65536 + x / 2 ^ (16 - k)

/-- The signature of a subproblem (Table 03-7). -/
def subSignature (g : ObjReader) (n : Nat) : BitVec 64 :=
  let d := subDims g n
  let nets := (List.range 4).filter fun k => subNode g n k != 0xFFFF
  let form := objNat g (0xA000 + n) 2
  let mx := if form = 1 then (List.range 5).foldl (fun a k => a ^^^ rotl16 (subMask g n k) k) 0 else 0
  crc64 (leBytes 1 form ++ leBytes 1 d.1 ++ leBytes 1 d.2 ++ leBytes 1 (nets.headD 0) ++ leBytes 1 (objNat g 0x7000 3)
    ++ leBytes 1 (objNat g (0xA000 + n) 3) ++ leBytes 2 (objNat g (0xA000 + n) 4) ++ leBytes 4 (objNat g 0x7000 2)
    ++ leBytes 2 mx ++ leBytes 2 nets.length)

/-- The network signature (Table 03-8); bytes 0 and 1 of a link row are its feeders (DESIGN CHOICE, log 161). -/
def netSignature (g : ObjReader) : BitVec 64 :=
  let bits := (List.range 4).foldl (fun a n => a + (if netPresent g n then 2 ^ n else 0)) 0
  let head := leBytes 2 (objNat g 0x7000 1) ++ leBytes 1 (objNat g 0x7000 3) ++ leBytes 1 bits
    ++ leBytes 4 (objNat g 0x7000 2) ++ leBytes 4 (nodeCount g) ++ leBytes 4 (segCount g)
  let nodes := ((List.range (nodeCount g)).map fun i => leBytes 1 (nodeNet g i) ++ leBytes 1 (nodeType g i)
    ++ leBytes 1 (nodeZone g i)).flatten
  let segs := ((List.range (segCount g)).map fun i => slice (g 0x7501 1) (32 * i) 8).flatten
  let att (idx count : Nat) : Bytes :=
    ((List.range count).map fun i => leBytes 1 (objNat g (idx + i) 1) ++ leBytes 2 (objNat g (idx + i) 2)).flatten
  let links := ((List.range (linkCountT g)).map fun i => slice (g 0x7502 1) (12 * i) 2).flatten
  let subs := ((List.range 4096).map fun n => fit 8 (g (0xA000 + n) 6)).flatten
  crc64 (head ++ nodes ++ segs ++ att 0x7300 64 ++ att 0x7340 32 ++ att 0x7360 64 ++ att 0x7400 256 ++ links ++ subs)

/-! ### CHECK (R103, R108) -/

/-- A finding: code, index, subindex, table row (0xFFFFFFFF when not a table). -/
structure Finding where
  code : Nat
  index : Nat
  sub : Nat
  row : Nat
deriving DecidableEq, Repr

/-- A finding at a field, or at a table row. -/
def atField (b : Bool) (code index sub : Nat) : List Finding := if b then [⟨code, index, sub, 0xFFFFFFFF⟩] else []
def atRow (b : Bool) (code index row : Nat) : List Finding := if b then [⟨code, index, 0, row⟩] else []

/-- One round of spreading reachability over edges (from, to, both ways). -/
def spreadOnce (es : List (Nat × Nat × Bool)) (r : List Bool) : List Bool :=
  es.foldl (fun r e =>
    let r := if r.getD e.1 false then r.set e.2.1 true else r
    if e.2.2 && r.getD e.2.1 false then r.set e.1 true else r) r
/-- Reachability after a number of rounds. -/
def spread (es : List (Nat × Nat × Bool)) : (fuel : Nat) → List Bool → List Bool
  | 0, r => r
  | k + 1, r =>
    let r' := spreadOnce es r
    if r' == r then r else spread es k r'
/-- The segments as edges with their numbers; `both` when each is passed in either direction. -/
def segEdges (g : ObjReader) (both : Bool) : List (Nat × Nat × Bool) :=
  (List.range (segCount g)).map fun i => (segFrom g i, segTo g i, both || segMode g i == 1)
/-- The nodes connected to a pressure reference of their own network. -/
def reached (g : ObjReader) : List Bool :=
  spread ((segEdges g true).filter fun e => nodeNet g e.1 == nodeNet g e.2.1) (nodeCount g)
    ((List.range (nodeCount g)).map fun i => nodeType g i == 4)
/-- A FIXED segment that every source path opposes (R108, DIRECTION): without it, paths from source nodes along the permitted
directions reach its end and not its beginning. -/
def opposed (g : ObjReader) (i : Nat) : Bool :=
  let src := (List.range 64).filter (fun s => objNat g (0x7300 + s) 1 == 1) |>.map fun s => objNat g (0x7300 + s) 2
  let r := spread ((segEdges g false).eraseIdx i) (nodeCount g) ((List.range (nodeCount g)).map src.contains)
  segMode g i == 0 && r.getD (segTo g i) false && !r.getD (segFrom g i) false

/-- Findings of one attached object: source, store, pump set. Node type 1 alone counts as below network-feeder level (DESIGN
CHOICE, log 143). -/
def checkAttached (g : ObjReader) (idx : Nat) : List Finding :=
  if objNat g idx 1 = 1 then
    let n := objNat g idx 2
    atField (decide (nodeCount g ≤ n)) 2 idx 2 ++ atField (decide (n < nodeCount g) && nodeType g n == 1) 3 idx 2
  else []

/-- Findings of a substation. -/
def checkSub (g : ObjReader) (n : Nat) : List Finding :=
  let idx := 0xA000 + n
  let br := (List.range 4).any fun k => subBranch g n k != 0xFFFF && !branchExists g (subBranch g n k)
  let nd := (List.range 4).any fun k => subNode g n k != 0xFFFF && decide (nodeCount g ≤ subNode g n k)
  let at' := (List.range 4).any fun k =>
    decide (subNode g n k < nodeCount g) && nodeNet g (subNode g n k) != k
  let form := objNat g idx 2 == 1
  let d := subDims g n
  let inputs := (List.range 3).any fun c =>
    (List.range 2).any (fun r => (subMask g n 4).testBit (3 * r + c))
      && !(List.range 4).any fun r => (subMask g n 1).testBit (3 * r + c)
  atField br 2 idx 5 ++ atField nd 2 idx 6 ++ atField at' 3 idx 6
    ++ atField (form && (decide (4 < d.1) || decide (3 < d.2) || inputs)) 5 idx 0x28

/-- All findings in index order. A network without exactly one pressure reference is reported at row 0 (DESIGN CHOICE, log
162). -/
def modelFindings (g : ObjReader) : List Finding :=
  let zones := (List.range 16).flatMap fun z =>
    let p := objNat g (0x7010 + z) 1
    atField (decide (p ≠ 0xFF) && !netPresent g p) 2 (0x7010 + z) 1
  let feeders := (List.range 64).flatMap fun f =>
    let p := objNat g (0x7020 + f) 1
    let m := objNat g (0x7020 + f) 2
    atField (decide (p ≠ 0xFF) && !zoneExists g p) 2 (0x7020 + f) 1
      ++ atField (decide (p ≠ 0xFF) && decide (4 ≤ m) && decide (m ≠ 0xFF)) 2 (0x7020 + f) 2
  let branches := (List.range 512).flatMap fun b =>
    let p := objNat g (0x7100 + b) 1
    atField (decide (p ≠ 0xFF) && !nfExists g p) 2 (0x7100 + b) 1
  let sources := (List.range 64).flatMap fun s => checkAttached g (0x7300 + s)
  let stores := (List.range 32).flatMap fun s => checkAttached g (0x7340 + s)
  let flex := (List.range 64).flatMap fun f =>
    atField (objNat g (0x7360 + f) 1 == 1 && decide (nodeCount g ≤ objNat g (0x7360 + f) 2)) 2 (0x7360 + f) 2
  let pumps := (List.range 256).flatMap fun p =>
    let m := objNat g (0x7400 + p) 9
    checkAttached g (0x7400 + p) ++ atField (objNat g (0x7400 + p) 1 == 1 && decide (4 ≤ m) && decide (m ≠ 0xFF)) 2 (0x7400 + p) 9
  let nc := nodeCount g
  let r := reached g
  let refs (n : Nat) : Nat := ((List.range nc).filter fun i => nodeNet g i == n && nodeType g i == 4).length
  let nodes := atRow (decide (16384 < nc)) 1 0x7500 16384
    ++ (List.range nc).flatMap (fun i =>
      atRow (!netPresent g (nodeNet g i) || !zoneExists g (nodeZone g i)) 2 0x7500 i
        ++ atRow (decide (nodeNet g i < 3) && !r.getD i false) 4 0x7500 i)
    ++ (List.range 3).flatMap fun n => atRow (netPresent g n && refs n != 1) 4 0x7500 0
  let sc := segCount g
  let segs := atRow (decide (24576 < sc)) 1 0x7501 24576
    ++ (List.range sc).flatMap (fun i =>
      let p := segPump g i
      let sub (a : Nat) : Bool := nodeType g a == 1
      atRow (decide (nc ≤ segFrom g i) || decide (nc ≤ segTo g i) ||
          (decide (p ≠ 0xFFFF) && (decide (256 ≤ p) || objNat g (0x7400 + p) 1 != 1))) 2 0x7501 i
        ++ atRow (decide (p ≠ 0xFFFF) && (sub (segFrom g i) || sub (segTo g i))) 3 0x7501 i
        ++ atRow (opposed g i) 6 0x7501 i)
  let links := atRow (decide (256 < linkCountT g)) 1 0x7502 256
    ++ (List.range (linkCountT g)).flatMap fun i =>
      atRow (!nfExists g (natAt (g 0x7502 1) (12 * i) 1) || !nfExists g (natAt (g 0x7502 1) (12 * i + 1) 1)) 2 0x7502 i
  let subs := (List.range 4096).flatMap fun n => if subExists g n then checkSub g n else []
  let avail := (List.range 16).flatMap fun a =>
    let s := objNat g (0x7600 + a) 5
    atField (objNat g (0x7600 + a) 1 == 6 && !(decide (s < 64) && objNat g (0x7300 + s) 1 == 1)) 2 (0x7600 + a) 5
  zones ++ feeders ++ branches ++ sources ++ stores ++ flex ++ pumps ++ nodes ++ segs ++ links ++ avail ++ subs

/-- The outcome of CHECK: none when the model passes. -/
def modelCheck (g : ObjReader) : Option Finding := (modelFindings g).head?

/-! ### The timing model (Table 04-6), in units of 1/136 ns -/

/-- One nanosecond in these units. -/
def tns : Nat := 136

/-- Worst-case assembly time (R102). -/
def tAsm (records recomputed elems : Nat) : Nat := (200000 + 1100 * records + 3500 * recomputed + 18 * elems) * tns

/-- Records resident in the problem store (R140). -/
def resident (m n psBytes : Nat) : Nat := min m ((psBytes - 3072) / (768 + 112 * n))

/-- Streaming term of a round. -/
def tStr (m n psBytes : Nat) : Nat :=
  let s := m - resident m n psBytes
  -- 1.125 × 2 × bytes / 17 GB/s: 18 / 8 × bytes / 17 ns, which is 18 units a byte
  if s = 0 then 0 else 18 * (s * (768 + 112 * n)) + 300000 * tns

/-- One coupling round with T healthy tiles. -/
def tRound (m n psBytes tiles ksub jnet f tfs : Nat) : Nat :=
  (((m + tiles - 1) / max 1 tiles) * (ksub * 1000 + 1500) + (jnet * f * tfs + 20000) + 50000) * tns + tStr m n psBytes

/-- T_D of R130. -/
def tD (deadline : Nat) : Nat := (deadline * 20 - 101) * 50000 * tns

/-- The round budget (R130). -/
def roundBudget (deadline tasm tfact tround : Nat) : Nat :=
  if tD deadline < tasm + tfact then 0 else min 255 ((tD deadline - tasm - tfact) / max 1 tround)

/-- The optimiser fields the admission check may move (R142). -/
structure Admit where
  period : Nat
  deadline : Nat
  rounds : Nat
  ksub : Nat
  jnet : Nat
deriving DecidableEq, Repr

/-- What the check knows of the model: substations, horizon, problem store, nodes and segments, figures. -/
structure AdmModel where
  m : Nat
  n : Nat
  ps : Nat
  elems : Nat
  tFact : Nat
  tFs : Nat
deriving DecidableEq, Repr

/-- Worst-case solve time. -/
def admWc (x : AdmModel) (a : Admit) : Nat :=
  tAsm x.m x.m x.elems + x.tFact * 1000 * tns + a.rounds * tRound x.m x.n x.ps 48 a.ksub a.jnet 3 x.tFs
/-- The check passes. -/
def admOk (x : AdmModel) (a : Admit) : Bool := decide (admWc x a ≤ tD a.deadline)
/-- The largest value from `hi` down to `lo` at which a field passes, or `lo`. -/
def admLargest (ok : Nat → Bool) (lo : Nat) : (hi : Nat) → Nat
  | 0 => lo
  | k + 1 => if k + 1 ≤ lo then lo else if ok (k + 1) then k + 1 else admLargest ok lo k

/-- The least DEADLINE whose T_D is at least a time. -/
def deadlineFor (t : Nat) : Nat := ((t + 50000 * tns - 1) / (50000 * tns) + 101 + 19) / 20
/-- The steps of R142 in order, each only as far as needed, with the field it moves: 5 DEADLINE, 9 the round limit, 7 K_SUB,
0xA J_NET. -/
def admitSteps (x : AdmModel) : List (Nat × (Admit → Admit)) :=
  let need (f : Admit → Admit) (a : Admit) : Admit := if admOk x a then a else f a
  let rounds (lo : Nat) (a : Admit) : Admit :=
    { a with rounds := admLargest (fun r => admOk x { a with rounds := r }) (min lo a.rounds) a.rounds }
  let ksub (lo : Nat) (a : Admit) : Admit :=
    { a with ksub := admLargest (fun k => admOk x { a with ksub := k }) (min lo a.ksub) a.ksub }
  let jnet (a : Admit) : Admit := { a with jnet := admLargest (fun j => admOk x { a with jnet := j }) 1 a.jnet }
  [(5, fun a => if a.period * 1000 < a.deadline then { a with deadline := a.period * 1000 } else a),
   (9, need (rounds 10)), (7, need (ksub 10)), (9, need (rounds 1)), (7, need (ksub 1)), (0xA, need jnet),
   (5, need fun a => { a with deadline := max a.deadline (min (min 60000 (a.period * 1000)) (deadlineFor (admWc x a))) })]
/-- The value of a field. -/
def Admit.field (a : Admit) (k : Nat) : Nat :=
  if k = 5 then a.deadline else if k = 9 then a.rounds else if k = 7 then a.ksub else a.jnet
/-- The check's result: the fields in force, and each clamp in order: field, value before, value after. -/
def admit142 (x : AdmModel) (a : Admit) : Admit × List (Nat × Nat × Nat) :=
  (admitSteps x).foldl (fun r st =>
    let b := st.2 r.1
    (b, if b.field st.1 = r.1.field st.1 then r.2 else r.2 ++ [(st.1, r.1.field st.1, b.field st.1)])) (a, [])

/-! ### Hampers (R98) -/

/-- H, and the records of each hamper. -/
def hamperSizes (m : Nat) : List Nat :=
  let h := min 48 m
  (List.range h).map fun i => if i < m % h then (m + h - 1) / h else m / h

/-- Grid steps of an array that lie after its last element (R89): times in ns. -/
def extrapolated (tGrid start step count dt n : Nat) : Nat :=
  ((List.range n).filter fun k => decide (start + step * 1000000000 * count ≤ tGrid + k * dt * 1000000000)).length

end Sys2Proof.Machine
end

