-- ==== Sys2Proof/Machine/Water.lean ====
section
/-! DEFINITION. Water by IAPWS-IF97 Region 1 in binary64, with the 34 terms of the standard in their published order (R75,
R82, R243). The spec names the standard and the order of the terms; the coefficients, and the order of operations inside a
term, are the model's reading of it (PRESUMED, log 144). -/
namespace Sys2Proof.Machine

/-- The terms: I, J and n as a whole number over a power of ten. -/
def if97Terms : List (Nat × Int × Int × Nat) :=
  [(0, -2, 14632971213167, 14), (0, -1, -84548187169114, 14), (0, 0, -37563603672040, 13),
   (0, 1, 33855169168385, 13), (0, 2, -95791963387872, 14), (0, 3, 15772038513228, 14), (0, 4, -16616417199501, 15),
   (0, 5, 81214629983568, 17), (1, -9, 28319080123804, 17), (1, -7, -60706301565874, 17),
   (1, -1, -18990068218419, 15), (1, 0, -32529748770505, 15), (1, 1, -21841717175414, 15),
   (1, 3, -52838357969930, 18), (2, -3, -47184321073267, 17), (2, 0, -30001780793026, 17),
   (2, 1, 47661393906987, 18), (2, 3, -44141845330846, 19), (2, 17, -72694996297594, 29),
   (3, -4, -31679644845054, 18), (3, 0, -28270797985312, 19), (3, 6, -85205128120103, 23),
   (4, -5, -22425281908000, 19), (4, -2, -65171222895601, 20), (4, 10, -14341729937924, 26),
   (5, -8, -40516996860117, 20), (8, -11, -12734301741641, 22), (8, -6, -17424871230634, 23),
   (21, -29, -68762131295531, 32), (23, -31, 14478307828521, 33), (29, -38, 26335781662795, 36),
   (30, -39, -11947622640071, 36), (31, -40, 18228094581404, 37), (32, -41, -93537087292458, 39)]

/-- A whole power by repeated multiplication from 1.0. -/
def fpow (x : Nat) : Nat → Nat
  | 0 => 0x3FF0000000000000
  | k + 1 => fmul fmt64 (fpow x k) x
/-- A power with a whole exponent of either sign. -/
def fpowI (x : Nat) (k : Int) : Nat :=
  if 0 ≤ k then fpow x k.toNat else fdivide fmt64 0x3FF0000000000000 (fpow x (-k).toNat)

/-- Celsius to kelvin. -/
def kelvin (t : Nat) : Nat := fadd fmt64 t (fofRatio fmt64 27315 100)
/-- 7.1 − π of a pressure in Pa. -/
def if97A (p : Nat) : Nat := fsub fmt64 (fofRatio fmt64 71 10) (fdivide fmt64 p (fofInt fmt64 16530000))
/-- τ = 1386 K / T of a temperature in °C. -/
def if97Tau (t : Nat) : Nat := fdivide fmt64 (fofInt fmt64 1386) (kelvin t)
/-- A sum over the terms of k(I, J) n (7.1 − π)^(I − i) (τ − 1.222)^(J − j), ascending from 0.0. -/
def if97Sum (k : Int → Int → Int) (i j : Int) (t p : Nat) : Nat :=
  let a := if97A p
  let b := fsub fmt64 (if97Tau t) (fofRatio fmt64 1222 1000)
  if97Terms.foldl (fun s x =>
    let c := k x.1 x.2.1
    if c = 0 then s
    else fadd fmt64 s (fmul fmt64 (fmul fmt64 (fmul fmt64 (fofInt fmt64 c) (fofRatio fmt64 x.2.2.1 (10 ^ x.2.2.2)))
      (fpowI a (x.1 - i))) (fpowI b (x.2.1 - j)))) 0
/-- The specific gas constant, 461.526 J/(kg·K). -/
def if97R : Nat := fofRatio fmt64 461526 1000
/-- Density in kg/m³ of a temperature in °C and a pressure in Pa: 16.53 MPa / (R T γ_π). -/
def if97Rho (t p : Nat) : Nat :=
  fdivide fmt64 (fofInt fmt64 16530000)
    (fmul fmt64 (fmul fmt64 if97R (kelvin t)) (if97Sum (fun i _ => -i) 1 0 t p))
/-- Specific enthalpy in J/kg: R T τ γ_τ. -/
def if97H (t p : Nat) : Nat :=
  fmul fmt64 (fmul fmt64 if97R (fofInt fmt64 1386)) (if97Sum (fun _ j => j) 0 1 t p)
/-- Isobaric heat capacity in J/(kg·K): −R τ² γ_ττ. -/
def if97Cp (t p : Nat) : Nat :=
  let x := if97Tau t
  fneg fmt64 (fmul fmt64 (fmul fmt64 if97R (fmul fmt64 x x)) (if97Sum (fun _ j => j * (j - 1)) 0 2 t p))

end Sys2Proof.Machine
end

