-- ==== Sys2Proof/Machine/Assemble.lean ====
section
/-! DEFINITION. The assembler's subproblems (R73 to R78, R89, R97, R110 to R112): continuous-time model, discretisation,
constraints, cost weights, and the record's bytes. -/
namespace Sys2Proof.Machine

/-! ### Reading the model -/

/-- A binary32 field, and an element of a binary32 or binary64 array, in binary64. -/
def objF (g : ObjReader) (idx sub : Nat) : Nat := widen (objNat g idx sub)
def objF32 (g : ObjReader) (idx sub i : Nat) : Nat := widen (objElem g idx sub 4 i)
def objF64 (g : ObjReader) (idx sub i : Nat) : Nat := objElem g idx sub 8 i
/-- Δt in s and in binary64; the horizon. -/
def gridDt (g : ObjReader) : Nat := objNat g 0x7000 2
def gridN (g : ObjReader) : Nat := objNat g 0x7000 3

/-- The element of an array of `count` values in force at a time in ns (R89). -/
def heldAt (start step count t : Nat) : Nat :=
  if t < start then 0 else if step = 0 then count - 1 else min (count - 1) ((t - start) / (step * 1000000000))
/-- The value of grid step k of an array (R88, R89), binary32. -/
def gridVal (g : ObjReader) (grid : Nat) (vals start : Bytes) (step k : Nat) : Nat :=
  natAt vals (4 * heldAt (time80ns start) step (vals.length / 4) (grid + k * gridDt g * 1000000000)) 4
/-- Outdoor temperature (0x38) or demand (0x39) forecast of a substation at step k, binary32. -/
def subForecast (g : ObjReader) (grid n sub k : Nat) : Nat :=
  gridVal g grid (g (0xA000 + n) sub) (g (0xA000 + n) 0x3A) (objNat g (0xA000 + n) 0x3B) k

/-- An operating point of the snapshot (R93): kind and number. Kinds: 0 flow of a segment, 1 speed of a pump set, 2 primary
differential pressure of a substation, 3 and 4 its primary supply and return temperatures, 5 output of a source, 6 energy of a
store, 7 temperature of a node, 8 energy taken or temperature of a flexible load, 9 return temperature at a node, 10 to 12
inputs applied at a substation. -/
def opKey (kind i : Nat) : Nat := 65536 * kind + i
def opVal (ops : NMap Nat) (kind i : Nat) : Nat := mget (fun _ => 0) ops (opKey kind i)

/-- Density and heat capacity of a network's water at a temperature (R75, R82), the temperature held to Region 1 as R244 holds
it: 0 °C to 180 °C. -/
def netRhoCp (g : ObjReader) (net t : Nat) : Nat :=
  let p := objF g (0x7008 + net) 2
  let t := dClamp 0 (dInt 180) t
  dMul (if97Rho t p) (if97Cp t p)

/-! ### The continuous-time model (R73, R74, R76) -/

/-- Networks a substation is connected to; it is on the cold network when that is its first connection. -/
def subNets (g : ObjReader) (n : Nat) : List Nat := (List.range 4).filter fun k => subNode g n k != 0xFFFF
def subNet (g : ObjReader) (n : Nat) : Nat := (subNets g n).headD 0
def onCold (g : ObjReader) (n : Nat) : Bool := subNet g n == 2
def inMatrix (g : ObjReader) (n : Nat) : Bool := objNat g (0xA000 + n) 2 == 1
def hasStore (g : ObjReader) (n : Nat) : Bool := objNat g (0xA000 + n) 3 == 1
/-- A template parameter of Table 03-4. -/
def subPar (g : ObjReader) (n i : Nat) : Nat := objF64 g (0xA000 + n) 0x10 i

/-- A, B, E, C and D at full size: 4 × 4, 4 × 3, 4 × 2, 2 × 4, 2 × 3. -/
structure SubMats where
  a : Mat
  b : Mat
  e : Mat
  c : Mat
  d : Mat
deriving DecidableEq, Repr

/-- K_q of R73. -/
def valveGain (g : ObjReader) (ops : NMap Nat) (n : Nat) : Nat :=
  dMul (dDiv (subPar g n 5) (dInt 3600)) (fsqrt fmt64 (dDiv (dMax 0 (opVal ops 2 n)) (dInt 100000)))
/-- The template form (R73). On the cold network y1 is the heat removed: the output's W_s term changes sign and the state
equations keep theirs (R74; DEDUCED, log 149). -/
def templateMats (g : ObjReader) (ops : NMap Nat) (n : Nat) : SubMats :=
  let p (i : Nat) : Nat := subPar g n i
  let st := hasStore g n
  let one := if st then d1 else 0
  let ws := if onCold g n then dNeg (p 4) else p 4
  { a := [[dNeg (dDiv (dAdd (p 2) (p 3)) (p 0)), 0, 0, 0], [dDiv (p 2) (p 1), dNeg (dDiv (p 4) (p 1)), 0, 0],
          [0, 0, if st then dNeg (p 7) else 0, 0], [0, 0, 0, 0]],
    b := [[0, dDiv (p 2) (p 0), 0], [0, dDiv (dSub (p 4) (p 2)) (p 1), 0], [0, 0, one], [0, 0, 0]],
    e := [[dDiv (p 3) (p 0), 0], [0, 0], [0, if st then dNeg d1 else 0], [0, 0]],
    c := [[0, dNeg ws, 0, 0], [0, 0, 0, 0]],
    d := [[0, ws, one], [valveGain g ops n, 0, 0]] }
/-- The matrix form (R76): entries by row, zero where the mask bit is clear. -/
def matrixMats (g : ObjReader) (n : Nat) : SubMats :=
  let m (k o r c : Nat) : Mat := mOf r c fun i j =>
    if (subMask g n k).testBit (i * c + j) then objF64 g (0xA000 + n) 0x20 (o + i * c + j) else 0
  { a := m 0 0 4 4, b := m 1 16 4 3, e := m 2 28 4 2, c := m 3 36 2 4, d := m 4 44 2 3 }
def subMats (g : ObjReader) (ops : NMap Nat) (n : Nat) : SubMats :=
  if inMatrix g n then matrixMats g n else templateMats g ops n

/-- Ad, Bd and Ed (R77), rounded to binary32. -/
def discretise (dt nx nu : Nat) (m : SubMats) : Mat × Mat × Mat :=
  let o := nx + nu + 2
  let big := mOf o o fun i j =>
    if nx ≤ i then 0
    else dMul (if j < nx then mAt m.a i j else if j < nx + nu then mAt m.b i (j - nx) else mAt m.e i (j - nx - nu)) (dInt dt)
  let x := mExp o big
  let cut (c j0 w : Nat) : Mat := mOf 4 c fun i j => if i < nx ∧ j < w then narrow (mAt x i (j0 + j)) else 0
  (cut 4 0 nx, cut 3 nx nu, cut 2 (nx + nu) 2)

/-! ### Constraints and weights (R75, R111, R112) -/

/-- β = ρ · c_p · ΔT_p0 at the primary supply temperature (R74, R75). -/
def subBeta (g : ObjReader) (ops : NMap Nat) (n : Nat) : Nat :=
  let ts := opVal ops 3 n
  let tr := opVal ops 4 n
  dMul (netRhoCp g (subNet g n) ts) (if onCold g n then dSub tr ts else dSub ts tr)
/-- The largest finite binary32: the bound of a state that no parameter bounds (DESIGN CHOICE, log 149). -/
def fBig : Nat := 0x7F7FFFFF

/-- A substation's record. `ops` the operating points, `x0` its initial state in binary64, `flags` of Table 03-9. -/
def subProb (g : ObjReader) (ops : NMap Nat) (grid n : Nat) (x0 : Vec) (flags : Nat) (sig : BitVec 64) : SubProb :=
  let d := subDims g n
  let m := subMats g ops n
  let z := discretise (gridDt g) d.1 d.2 m
  let p (i : Nat) : Nat := narrow (subPar g n i)
  let states (xs : List Nat) : List Nat := (List.range 4).map fun i => if i < d.1 then vAt xs i else 0
  let inputs (xs : List Nat) : List Nat := (List.range 3).map fun i => if i < d.2 then vAt xs i else 0
  let arr (k len : Nat) : List Nat := (List.range len).map fun i => objElem g 0x6002 k 4 i
  let mid := narrow (dMul dHalf (dAdd (subPar g n 12) (subPar g n 13)))
  let eref := narrow (dMul (objF g 0x6002 8) (subPar g n 6))
  let block (k : Nat) : StepBlock :=
    { d := [subForecast g grid n 0x38 k, subForecast g grid n 0x39 k],
      xlo := states [p 12, fneg fmt32 fBig, 0, fneg fmt32 fBig], xhi := states [p 13, fBig, p 6, fBig],
      ulo := inputs [p 14, p 10, fneg fmt32 (p 9)], uhi := inputs [narrow d1, p 11, p 8],
      xref := if inMatrix g n then [0, 0, 0, 0] else states [mid, 0, eref, 0],
      cu := arr 9 3, beta := narrow (subBeta g ops n) }
  { num := n, form := objNat g (0xA000 + n) 2, nx := d.1, nu := d.2, flags := flags, sig := sig, dt := gridDt g,
    ad := z.1, bd := z.2.1, ed := z.2.2, c := mMap narrow m.c, d := mMap narrow m.d,
    x0 := (states x0).map narrow, q := arr 1 4, qn := arr 2 4, r := arr 3 3, s := arr 4 3,
    um1 := inputs ((List.range 3).map fun j => narrow (opVal ops (10 + j) n)), w1 := arr 5 4, w2 := arr 6 4,
    rhoS := objNat g 0x6001 3, rhoC := objNat g 0x6001 4, alpha := objNat g 0x6001 6, soft := objNat g 0x6002 7,
    thru := !inMatrix g n && !hasStore g n, blocks := (List.range (gridN g)).map block }

/-! ### The record's bytes (Tables 03-9, 03-10, 04-1) -/

def f32s (xs : List Nat) : Bytes := xs.flatMap (leBytes 4)
def f32m (m : Mat) : Bytes := m.flatMap f32s
/-- A per-step block with its coupling targets. -/
def StepBlock.bytes (b : StepBlock) (target : List Nat) : Bytes :=
  f32s b.d ++ f32s b.xlo ++ f32s b.xhi ++ f32s b.ulo ++ f32s b.uhi ++ f32s b.xref ++ f32s b.cu ++ leBytes 4 b.beta
    ++ f32s target ++ zeros 8
/-- A record: `area` the 256 bytes of the solver, `targets` the coupling targets by step. -/
def SubProb.bytes (p : SubProb) (area : Bytes) (targets : List (List Nat)) : Bytes :=
  leBytes 2 p.num ++ leBytes 1 p.form ++ leBytes 1 p.nx ++ leBytes 1 p.nu ++ leBytes 1 2 ++ leBytes 1 p.blocks.length
    ++ leBytes 1 p.flags ++ leBytes 8 p.sig.toNat ++ leBytes 4 p.dt ++ zeros 12
    ++ f32m p.ad ++ f32m p.bd ++ f32m p.ed ++ f32m p.c ++ f32m p.d ++ f32s p.x0 ++ zeros 8
    ++ f32s p.q ++ f32s p.qn ++ f32s p.r ++ f32s p.s ++ f32s p.um1 ++ f32s p.w1 ++ f32s p.w2
    ++ leBytes 4 p.rhoS ++ leBytes 4 p.rhoC ++ leBytes 4 p.alpha ++ leBytes 4 p.soft ++ zeros 140
    ++ fit 256 area ++ (p.blocks.mapIdx fun k b => b.bytes (targets.getD k [0, 0])).flatten
/-- A record as the assembler writes it. -/
def SubProb.fresh (p : SubProb) : Bytes := p.bytes [] []

end Sys2Proof.Machine
end

