-- ==== Sys2Proof/Machine/Coupling.lean ====
section
/-! DEFINITION. The coupling problem (R79 to R87, R113): its variables, linearisations and rows. Which rows gather the
relations, how a network feeder takes a node's plant, and what the fields of plant objects mean are the model's reading (DESIGN
CHOICE, log 150). -/
namespace Sys2Proof.Machine

/-! ### Variables -/

/-- The present objects of an index range. -/
def presentIn (g : ObjReader) (idx count : Nat) : List Nat := (List.range count).filter fun i => objNat g (idx + i) 1 == 1
def netLay (g : ObjReader) : NetLay :=
  { nc := nodeCount g, sc := segCount g, src := presentIn g 0x7300 64, sto := presentIn g 0x7340 32,
    pmp := presentIn g 0x7400 256, flx := presentIn g 0x7360 64, lk := linkCountT g, sub := subsAll g }
/-- Variables of a step by class: 0 node temperature, 1 segment flow, 2 segment temperature (at its outlet), 3 source output, 4
store charge, 5 store discharge, 6 pump speed, 7 flexible-load power, 8 link flow, 9 import, 10 export, 11 the two coupling
outputs of each substation. -/
def NetLay.sizes (y : NetLay) : List Nat :=
  [y.nc, y.sc, y.sc, y.src.length, y.sto.length, y.sto.length, y.pmp.length, y.flx.length, y.lk, 1, 1, 2 * y.sub.length]
def NetLay.stride (y : NetLay) : Nat := y.sizes.sum
/-- The variable of class c, place i, at step k. -/
def NetLay.var (y : NetLay) (k c i : Nat) : Nat := k * y.stride + (y.sizes.take c).sum + i
/-- The variable of an object of a class by its number. -/
def NetLay.srcVar (y : NetLay) (k s : Nat) : Nat := y.var k 3 (y.src.idxOf s)
def NetLay.pmpVar (y : NetLay) (k p : Nat) : Nat := y.var k 6 (y.pmp.idxOf p)
/-- The copy z of coupling output j of substation n. -/
def NetLay.zVar (y : NetLay) (k n j : Nat) : Nat := y.var k 11 (2 * y.sub.idxOf n + j)

/-- A row from coefficients; entries of one variable add up. -/
def netRow (cs : List (Nat × Nat)) (lo hi kind : Nat) : NetRow :=
  { co := cs.foldl (fun m c => mput m c.1 (dAdd (mget (fun _ => 0) m c.1) c.2)) [], lo := lo, hi := hi, kind := kind }
/-- An equality; a bound from below, from above, on both sides. -/
def rowEq (cs : List (Nat × Nat)) (b : Nat) : NetRow := netRow cs b b 0
def rowIn (kind lo hi : Nat) (cs : List (Nat × Nat)) : NetRow := netRow cs lo hi kind

/-! ### Tariffs (Table 03-6) -/

/-- The array of a kind, bound to an object from kind 6 on. -/
def tariffOf (g : ObjReader) (kind bound : Nat) : Option Nat :=
  (List.range 16).find? fun a =>
    objNat g (0x7600 + a) 1 == kind && (decide (kind < 6) || objNat g (0x7600 + a) 5 == bound)
/-- Its value at step k, in binary64; `none` without such an array. -/
def tariffAt (g : ObjReader) (grid kind bound k : Nat) : Option Nat :=
  (tariffOf g kind bound).map fun a =>
    widen (gridVal g grid (g (0x7600 + a) 4) (g (0x7600 + a) 2) (objNat g (0x7600 + a) 3) k)

/-! ### Segments (R80 to R84) -/

/-- A binary32 column of the segment table, in binary64: L at 8, V at 12, k at 16, U′ at 20, q_f at 24. -/
def segF (g : ObjReader) (i o : Nat) : Nat := widen (natAt (g 0x7501 1) (32 * i + o) 4)

/-- A segment linearised at the snapshot. -/
structure SegLin where
  fr : Nat
  tn : Nat
  free : Bool
  band : Nat
  pump : Nat
  /-- q̄, the inlet and outlet node, T̄ and ρ·c_p at the inlet, ground temperature, delay d and factor a. -/
  qb : Nat
  inlet : Nat
  outlet : Nat
  tin : Nat
  rc : Nat
  tg : Nat
  d : Nat
  a : Nat
  /-- Δp ≈ c1 · q − c0. -/
  c1 : Nat
  c0 : Nat
deriving DecidableEq, Repr

/-- The flow floor q_f in force. -/
def segFloor (g : ObjReader) (i : Nat) : Nat := if dAbs (segF g i 24) = 0 then objF g 0x7002 1 else segF g i 24
/-- q̄ of R81 from q0. -/
def flowPoint (qf q0 : Nat) : Nat := if dLe qf (dAbs q0) then q0 else if dLt q0 0 then dNeg qf else qf
/-- The delay of R82, ties up, within the band. -/
def delaySteps (v qb dt band : Nat) : Nat :=
  (clampI 0 band (froundHalfAway fmt64 (dDiv v (dMul (dAbs qb) (dInt dt))))).toNat
/-- The loss factor a of R82. -/
def lossFactor (u len rc qb : Nat) : Nat := dExp (dNeg (dDiv (dMul u len) (dMul rc (dAbs qb))))
def segLin (g : ObjReader) (ops : NMap Nat) (i : Nat) : SegLin :=
  let qb := flowPoint (segFloor g i) (opVal ops 0 i)
  let free := segMode g i == 1
  let rev := free && dLt qb 0
  let inlet := if rev then segTo g i else segFrom g i
  let tin := opVal ops 7 inlet
  let rc := netRhoCp g (nodeNet g inlet) tin
  let kq := dMul (segF g i 16) (dAbs qb)
  { fr := segFrom g i, tn := segTo g i, free := free, band := segBand g i, pump := segPump g i, qb := qb, inlet := inlet,
    outlet := if rev then segFrom g i else segTo g i, tin := tin, rc := rc, tg := objF g (0x7010 + nodeZone g (segFrom g i)) 2,
    d := delaySteps (segF g i 12) qb (gridDt g) (segBand g i), a := lossFactor (segF g i 20) (segF g i 8) rc qb,
    c1 := dMul (dInt 2) kq, c0 := dMul kq qb }

/-- The pump set of a segment linearised (R85): head ≈ hn · n + hq · q + hc, electrical power ≈ pn · n + pq · q + pc. -/
structure PumpLin where
  hn : Nat
  hq : Nat
  hc : Nat
  pn : Nat
  pq : Nat
  pc : Nat
deriving DecidableEq, Repr
def pumpLin (g : ObjReader) (ops : NMap Nat) (p q : Nat) : PumpLin :=
  let a (k : Nat) : Nat := objF g (0x7400 + p) (3 + k)
  let n := opVal ops 1 p
  let eta := objF g (0x7400 + p) 6
  let two := dInt 2
  let head := dAdd (dAdd (dMul (a 0) (dMul n n)) (dMul (a 1) (dMul n q))) (dMul (a 2) (dMul q q))
  let hn := dAdd (dMul (dMul two (a 0)) n) (dMul (a 1) q)
  let hq := dAdd (dMul (a 1) n) (dMul (dMul two (a 2)) q)
  let rest (f fn fq : Nat) : Nat := dSub (dSub f (dMul fn n)) (dMul fq q)
  let pn := dDiv (dMul hn q) eta
  let pq := dDiv (dAdd head (dMul hq q)) eta
  { hn := hn, hq := hq, hc := rest head hn hq, pn := pn, pq := pq, pc := rest (dDiv (dMul head q) eta) pn pq }
/-- The segment has a pump set that is present. -/
def SegLin.pumped (s : SegLin) (y : NetLay) : Bool := y.pmp.contains s.pump

/-! ### Fundamental cycles, over which pressure drops and pump heads sum to zero (R81, R85) -/

/-- A path in a forest of edges (number, ends): the edges with +1 (true) where taken forwards. -/
def treePath (es : List (Nat × Nat × Nat)) : (fuel : Nat) → (seen : List Nat) → (a b : Nat) → Option (List (Nat × Bool))
  | 0, _, _, _ => none
  | k + 1, seen, a, b =>
    if a = b then some []
    else es.findSome? fun e =>
      let go (v : Nat) (fwd : Bool) : Option (List (Nat × Bool)) :=
        if seen.contains v then none else (treePath es k (v :: seen) v b).map fun p => (e.1, fwd) :: p
      if e.2.1 = a then go e.2.2 true else if e.2.2 = a then go e.2.1 false else none
/-- The cycles closed by segments taken in row order, and the forest of the others. -/
def segCycles (g : ObjReader) : List (List (Nat × Bool)) :=
  ((List.range (segCount g)).foldl (fun (p : List (List (Nat × Bool)) × List (Nat × Nat × Nat)) i =>
    let u := segFrom g i
    let v := segTo g i
    match treePath p.2 (p.2.length + 1) [v] v u with
    | some q => (p.1 ++ [(i, true) :: q], p.2)
    | none => (p.1, p.2 ++ [(i, u, v)])) ([], [])).1

/-! ### Plant (R86, R87) -/

/-- COP or EER of a source, held to the limits of 0x7002, and whether they bind; the lift runs from its source temperature to
the snapshot temperature of its node. -/
def sourceCop (g : ObjReader) (ops : NMap Nat) (s : Nat) : Nat × Bool :=
  let f (k : Nat) : Nat := objF g (0x7300 + s) k
  let l := dSub (opVal ops 7 (objNat g (0x7300 + s) 2)) (f 0xB)
  let c := dAdd (dAdd (f 8) (dMul (f 9) l)) (dMul (f 0xA) (dMul l l))
  let h := dClamp (objF g 0x7002 2) (objF g 0x7002 3) c
  (h, h != c)
/-- Net electrical power of a source per watt of output: σ of a CHP, −1 / COP of a heat pump or chiller. -/
def sourcePower (g : ObjReader) (ops : NMap Nat) (s : Nat) : Nat :=
  if objNat g (0x7300 + s) 0xD = 0 then objF g (0x7300 + s) 6 else dNeg (dDiv0 d1 (sourceCop g ops s).1)
/-- Network feeders that exist; the one a node's plant is on: the lowest whose zone is the node's; the one of a metering feeder:
the lowest that names it. -/
def netFeeders (g : ObjReader) : List Nat := (List.range 64).filter (nfExists g)
def nodeFeeder (g : ObjReader) (node : Nat) : Option Nat :=
  (netFeeders g).find? fun f => objNat g (0x7020 + f) 1 == nodeZone g node
def meterFeeder (g : ObjReader) (m : Nat) : Option Nat := (netFeeders g).find? fun f => objNat g (0x7020 + f) 2 == m
/-- exp(−λ · Δt), and its powers. -/
def decay (g : ObjReader) (lam : Nat) : Nat := dExp (dNeg (dMul lam (dInt (gridDt g))))
def dPow (x : Nat) : Nat → Nat
  | 0 => d1
  | k + 1 => dMul (dPow x k) x

/-- What the rows of one solve are built from. -/
structure NetCtx where
  g : ObjReader
  ops : NMap Nat
  grid : Nat
  y : NetLay
  segs : List SegLin
  cycles : List (List (Nat × Bool))
def netCtx (g : ObjReader) (ops : NMap Nat) (grid : Nat) : NetCtx :=
  { g := g, ops := ops, grid := grid, y := netLay g, segs := (List.range (segCount g)).map (segLin g ops),
    cycles := segCycles g }

/-! ### Rows of one step -/

/-- Thermal transport (R82 to R84): every delay of the band has its place, at both ends of a FREE segment. -/
def NetCtx.transport (c : NetCtx) (k i : Nat) (s : SegLin) : NetRow :=
  let at' (node : Nat) (on : Bool) : List (Nat × Nat) := (List.range (min s.band k + 1)).map fun d =>
    (c.y.var (k - d) 0 node, if on ∧ d = s.d then dNeg s.a else 0)
  let rhs := dMul (dSub d1 s.a) s.tg
  rowEq ((c.y.var k 2 i, d1) :: at' s.inlet true ++ (if s.free then at' s.outlet false else []))
    (if s.d ≤ k then rhs else dFma s.a s.tin rhs)
/-- Segments that end, and that begin, at a node, with their numbers. -/
def NetCtx.into (c : NetCtx) (v : Nat) : List (Nat × SegLin) := (c.segs.mapIdx fun i s => (i, s)).filter fun p => p.2.tn == v
def NetCtx.from' (c : NetCtx) (v : Nat) : List (Nat × SegLin) := (c.segs.mapIdx fun i s => (i, s)).filter fun p => p.2.fr == v
/-- Substations connected at a node. -/
def NetCtx.subsAt (c : NetCtx) (v : Nat) : List Nat := c.y.sub.filter fun n => (List.range 4).any fun t => subNode c.g n t == v
/-- Flow balance at a junction or a substation connection. -/
def NetCtx.continuity (c : NetCtx) (k v : Nat) : NetRow :=
  rowEq ((c.into v).map (fun p => (c.y.var k 1 p.1, d1)) ++ (c.from' v).map (fun p => (c.y.var k 1 p.1, dNeg d1))
    ++ (c.subsAt v).map fun n => (c.y.zVar k n 1, dNeg d1)) 0
/-- Mixing at a node (R84): the mean of the inlet temperatures weighted by q̄; without an inlet, the snapshot temperature. -/
def NetCtx.mixing (c : NetCtx) (k v : Nat) : NetRow :=
  let ends := c.into v ++ c.from' v
  let w (p : Nat × SegLin) : Nat := if p.2.outlet = v then dAbs p.2.qb else 0
  let sum := (ends.map w).foldl dAdd 0
  let dry := dAbs sum = 0
  rowEq ((c.y.var k 0 v, if dry then d1 else sum) :: ends.map fun p => (c.y.var k 2 p.1, dNeg (w p)))
    (if dry then opVal c.ops 7 v else 0)
/-- Energy at a node that takes or gives heat (R84): what the segments bring, less what leaves the network's water at the
return temperature, is what substations, stores and sources exchange there; on the cold network with the other sign. -/
def NetCtx.energy (c : NetCtx) (k v : Nat) : NetRow :=
  let net := nodeNet c.g v
  let sg (x : Nat) : Nat := if net = 2 then dNeg x else x
  let ext := dMul (netRhoCp c.g net (opVal c.ops 7 v)) (opVal c.ops 9 v)
  let seg (neg : Bool) (p : Nat × SegLin) : List (Nat × Nat) :=
    let f (x : Nat) : Nat := sg (if neg then dNeg x else x)
    let e := dMul p.2.rc p.2.qb
    [(c.y.var k 2 p.1, if p.2.outlet = v then f e else 0), (c.y.var k 0 v, if p.2.outlet = v then 0 else f e),
     (c.y.var k 1 p.1, f (dSub (dMul p.2.rc p.2.tin) ext))]
  let const (ps : List (Nat × SegLin)) : Nat := (ps.map fun p => dMul (dMul p.2.rc p.2.qb) p.2.tin).foldl dAdd 0
  let at' (idx : Nat) (xs : List Nat) : List Nat := (List.range xs.length).filter fun j => objNat c.g (idx + vAt xs j) 2 == v
  rowEq ((c.into v).flatMap (seg false) ++ (c.from' v).flatMap (seg true)
      ++ (c.subsAt v).map (fun n => (c.y.zVar k n 0, dNeg d1))
      ++ (at' 0x7340 c.y.sto).flatMap (fun j => [(c.y.var k 4 j, dNeg d1), (c.y.var k 5 j, d1)])
      ++ (at' 0x7300 c.y.src).map fun j => (c.y.var k 3 j, d1))
    (sg (dSub (const (c.into v)) (const (c.from' v))))
/-- Pressure around a cycle (R81, R85). -/
def NetCtx.cycle (c : NetCtx) (k : Nat) (cy : List (Nat × Bool)) : NetRow :=
  let one (e : Nat × Bool) : List (Nat × Nat) × Nat :=
    match c.segs[e.1]? with
    | none => ([], 0)
    | some s =>
      let f (x : Nat) : Nat := if e.2 then x else dNeg x
      if s.pumped c.y then
        let h := pumpLin c.g c.ops s.pump s.qb
        ([(c.y.var k 1 e.1, f (dSub s.c1 h.hq)), (c.y.pmpVar k s.pump, f (dNeg h.hn))], f (dAdd s.c0 h.hc))
      else ([(c.y.var k 1 e.1, f s.c1)], f s.c0)
  rowEq (cy.flatMap fun e => (one e).1) ((cy.map fun e => (one e).2).foldl dAdd 0)

/-- Bounds and ramp of a source (Table 03-5). -/
def NetCtx.source (c : NetCtx) (k j s : Nat) : List NetRow :=
  let f (i : Nat) : Nat := objF c.g (0x7300 + s) i
  let av := (tariffAt c.g c.grid 6 s k).getD d1
  let v := c.y.var k 3 j
  let r := dMul (f 5) (dInt (gridDt c.g))
  let q0 := opVal c.ops 5 s
  [rowIn 1 (dMul av (f 3)) (dMul av (f 4)) [(v, d1)],
   if k = 0 then rowIn 3 (dSub q0 r) (dAdd q0 r) [(v, d1)]
   else rowIn 3 (dNeg r) r [(v, d1), (c.y.var (k - 1) 3 j, dNeg d1)]]
/-- Limits and energy of a store; E(k+1) by its charges and discharges so far. -/
def NetCtx.store (c : NetCtx) (k j s : Nat) : List NetRow :=
  let f (i : Nat) : Nat := objF c.g (0x7340 + s) i
  let dec := decay c.g (f 4)
  let dt := dInt (gridDt c.g)
  let e0 := dMul (dPow dec (k + 1)) (opVal c.ops 6 s)
  let cs := (List.range (k + 1)).flatMap fun i =>
    let w := dMul dt (dPow dec (k - i))
    [(c.y.var i 4 j, w), (c.y.var i 5 j, dNeg w)]
  [rowIn 2 0 (f 5) [(c.y.var k 4 j, d1)], rowIn 2 0 (f 6) [(c.y.var k 5 j, d1)],
   rowIn 2 (dNeg e0) (dSub (f 3) e0) cs]
/-- Power and energy of a flexible load: EV (kind 0) by its deadline step, THERMAL (kind 1) as a store of C · T. -/
def NetCtx.flexible (c : NetCtx) (k j s : Nat) : List NetRow :=
  let f (i : Nat) : Nat := objF c.g (0x7360 + s) i
  let dt := dInt (gridDt c.g)
  let thermal := objNat c.g (0x7360 + s) 3 == 1
  let dec := if thermal then decay c.g (f 8) else d1
  let dead := min (gridN c.g) ((time80ns (c.g (0x7360 + s) 9) - c.grid) / (gridDt c.g * 1000000000))
  let cs := (List.range (k + 1)).map fun i => (c.y.var i 7 j, dMul dt (dPow dec (k - i)))
  let e0 := dMul (dPow dec (k + 1)) (dMul (f 5) (opVal c.ops 8 s))
  [rowIn 0 0 ((tariffAt c.g c.grid 7 s k).getD (f 4)) [(c.y.var k 7 j, d1)],
   if thermal then rowIn 0 (dSub (dMul (f 5) (f 6)) e0) (dSub (dMul (f 5) (f 7)) e0) cs
   else rowIn 0 (if k + 1 = dead then dSub (f 5) (opVal c.ops 8 s) else dInf true) (dInf false) cs]
/-- The balance of active power of a network feeder (R87); the district import and export are on the lowest. -/
def NetCtx.balance (c : NetCtx) (k f : Nat) : NetRow :=
  let here (o : Option Nat) : Bool := o == some f
  let src := (c.y.src.mapIdx fun j s => (j, s)).filter fun p => here (nodeFeeder c.g (objNat c.g (0x7300 + p.2) 2))
  let flx := (c.y.flx.mapIdx fun j s => (j, s)).filter fun p => here (nodeFeeder c.g (objNat c.g (0x7360 + p.2) 2))
  let pmp := ((c.segs.mapIdx fun i s => (i, s)).filter fun p =>
      p.2.pumped c.y && here (meterFeeder c.g (objNat c.g (0x7400 + p.2.pump) 9))).map fun p =>
    (p.1, p.2.pump, pumpLin c.g c.ops p.2.pump p.2.qb)
  let lk (o : Nat) : List Nat := (List.range c.y.lk).filter fun i => natAt (c.g 0x7502 1) (12 * i + o) 1 == f
  let m := objNat c.g (0x7020 + f) 2
  let demand := if m < 4 then opVal c.ops 13 m else 0
  rowEq (src.map (fun p => (c.y.var k 3 p.1, sourcePower c.g c.ops p.2)) ++ flx.map (fun p => (c.y.var k 7 p.1, dNeg d1))
      ++ pmp.flatMap (fun p => [(c.y.pmpVar k p.2.1, dNeg p.2.2.pn), (c.y.var k 1 p.1, dNeg p.2.2.pq)])
      ++ (lk 0).map (fun i => (c.y.var k 8 i, dNeg d1)) ++ (lk 1).map (fun i => (c.y.var k 8 i, d1))
      ++ if (netFeeders c.g).head? = some f then [(c.y.var k 9 0, d1), (c.y.var k 10 0, dNeg d1)] else [])
    (dAdd demand ((pmp.map fun p => p.2.2.pc).foldl dAdd 0))
/-- The copies of a substation: free, or zero when it is disabled (R94). -/
def NetCtx.copies (c : NetCtx) (k n : Nat) : List NetRow :=
  let on := objNat c.g (0xA000 + n) 1 == 1
  (List.range 2).map fun j => rowIn 0 (if on then dInf true else 0) (if on then dInf false else 0) [(c.y.zVar k n j, d1)]

/-- The rows of step k; their number and their entries' places depend on the structure alone (R83). -/
def NetCtx.stepRows (c : NetCtx) (k : Nat) : List NetRow :=
  let g := c.g
  let nodes (p : Nat → Bool) : List Nat := (List.range c.y.nc).filter fun v => p (nodeType g v)
  let pumpRow (p : Nat) : NetRow := rowIn 0 (objF g (0x7400 + p) 7) (objF g (0x7400 + p) 8) [(c.y.pmpVar k p, d1)]
  let linkRow (i : Nat) : NetRow :=
    let cap := widen (natAt (g 0x7502 1) (12 * i + 4) 4)
    rowIn 0 (dNeg cap) cap [(c.y.var k 8 i, d1)]
  let limit (kind : Nat) : Nat := (tariffAt g c.grid kind 0xFFFF k).getD (dInf false)
  c.segs.mapIdx (fun i s => c.transport k i s)
    ++ (nodes fun t => t < 2).map (c.continuity k) ++ (nodes fun t => t < 2).map (c.mixing k)
    ++ (nodes fun t => 1 ≤ t).map (c.energy k) ++ c.cycles.map (c.cycle k)
    ++ ((c.segs.mapIdx fun i s => (i, s)).filter fun p => !p.2.free).map (fun p => rowIn 0 0 (dInf false) [(c.y.var k 1 p.1, d1)])
    ++ (c.y.src.mapIdx fun j s => c.source k j s).flatten ++ (c.y.sto.mapIdx fun j s => c.store k j s).flatten
    ++ c.y.pmp.map pumpRow ++ (c.y.flx.mapIdx fun j s => c.flexible k j s).flatten ++ (List.range c.y.lk).map linkRow
    ++ [rowIn 4 0 (limit 4) [(c.y.var k 9 0, d1)], rowIn 5 0 (limit 5) [(c.y.var k 10 0, d1)]]
    ++ c.y.sub.flatMap (c.copies k) ++ (netFeeders g).map (c.balance k)

/-- The prices of a step in g, per watt of a variable held over the step (R113): energy in MWh. -/
def NetCtx.stepCost (c : NetCtx) (k : Nat) : NMap Nat :=
  let mwh := dDiv (dInt (gridDt c.g)) (dInt 3600000000)
  let price (kind : Nat) : Nat := dMul mwh ((tariffAt c.g c.grid kind 0xFFFF k).getD 0)
  (c.y.src.mapIdx fun j s => (c.y.var 0 3 j,
    if objNat c.g (0x7300 + s) 0xD = 0 then dDiv0 (price 3) (objF c.g (0x7300 + s) 7) else 0))
    ++ [(c.y.var 0 9 0, price 1), (c.y.var 0 10 0, dNeg (price 2))]
/-- ξ̄ in a step (R113): the snapshot operating point; what has none is zero. -/
def NetCtx.stepRef (c : NetCtx) : List Nat :=
  let y := c.y
  (List.range y.nc).map (opVal c.ops 7) ++ (List.range y.sc).map (opVal c.ops 0) ++ c.segs.map (·.tin)
    ++ y.src.map (opVal c.ops 5) ++ vZero (2 * y.sto.length) ++ y.pmp.map (opVal c.ops 1)
    ++ vZero (y.flx.length + y.lk + 2 + 2 * y.sub.length)

/-- The coupling problem of a solve (R113). -/
def netProb (g : ObjReader) (ops : NMap Nat) (grid : Nat) : NetProb :=
  let c := netCtx g ops grid
  let n := gridN g
  { n := n, lay := c.y, rows := (List.range n).flatMap c.stepRows,
    cost := (List.range n).flatMap fun k =>
      let m := c.stepCost k
      (List.range c.y.stride).map fun i => mget (fun _ => 0) m i
    ref := (List.range n).flatMap fun _ => c.stepRef
    rhoC := objF g 0x6001 4, rhoN := objF g 0x6001 5, sigmaN := objF g 0x6001 7,
    clamped := if c.y.src.any fun s => objNat g (0x7300 + s) 0xD != 0 && (sourceCop g ops s).2 then n else 0 }

end Sys2Proof.Machine
end

