-- ==== Sys2Proof/Machine/Factor.lean ====
section
/-! DEFINITION. The matrix K of the network stage: its fixed ordering by nested dissection (R106), the size of its factor (R107),
the factorisation with its pivot rule (R118), and solves with refinement (R119). Vertices of the graph are the variables of ξ,
then the rows of A (DESIGN CHOICE, log 151). -/
namespace Sys2Proof.Machine

/-! ### The graph -/

abbrev Adj := List (List Nat)
/-- K's graph: a variable and a row that has a place for it are neighbours. -/
def NetProb.graph (p : NetProb) : Adj :=
  let nv := p.ref.length
  ((List.range nv).map fun v => ((p.rows.mapIdx fun r x => (nv + r, x)).filter fun e => e.2.co.any fun c => c.1 == v).map (·.1))
    ++ p.rows.map fun x => x.co.map (·.1)
def nbrs (a : Adj) (v : Nat) : List Nat := a.getD v []

/-- Breadth-first levels from a frontier into the rest of a part, each level ascending. -/
def levelsGo (a : Adj) : (fuel : Nat) → (rest front : List Nat) → List (List Nat)
  | 0, _, _ => []
  | k + 1, rest, front =>
    if front.isEmpty then []
    else
      let next := rest.filter fun v => front.any fun u => (nbrs a u).contains v
      front :: levelsGo a k (rest.filter fun v => !next.contains v) next
def levels (a : Adj) (part : List Nat) (v : Nat) : List (List Nat) :=
  levelsGo a (part.length + 1) (part.filter fun u => u != v) [v]
/-- The lowest-numbered vertex of greatest eccentricity of a connected part. -/
def peripheral (a : Adj) (part : List Nat) : Nat :=
  (part.foldl (fun (b : Nat × Nat) v =>
    let e := (levels a part v).length
    if b.2 < e then (v, e) else b) (0, 0)).1

/-- Eliminate a vertex: its neighbours become neighbours of one another. -/
def elimVertex (a : List (Nat × List Nat)) (v : Nat) : List (Nat × List Nat) :=
  let ns := ((a.find? fun p => p.1 == v).map (·.2)).getD []
  (a.filter fun p => p.1 != v).map fun p =>
    if ns.contains p.1 then (p.1, ((p.2 ++ ns).filter fun x => x != v && x != p.1).eraseDups) else p
/-- Minimum degree, ties to the lower number. -/
def minDegree : (fuel : Nat) → List (Nat × List Nat) → List Nat
  | 0, _ => []
  | k + 1, a =>
    let best := a.foldl (fun (b : Option (Nat × Nat)) p =>
      match b with
      | none => some (p.1, p.2.length)
      | some x => if p.2.length < x.2 then some (p.1, p.2.length) else b) none
    match best with
    | none => []
    | some x => x.1 :: minDegree k (elimVertex a x.1)
/-- Nested dissection of a part, ascending: components one after another; of a component over 64 vertices the parts below and
above the middle level, then that level. -/
def dissect (a : Adj) : (fuel : Nat) → List Nat → List Nat
  | 0, part => part
  | k + 1, part =>
    if part.length ≤ 64 then minDegree part.length (part.map fun v => (v, (nbrs a v).filter part.contains))
    else
      let own := (levels a part (part.headD 0)).flatten
      let comp := part.filter own.contains
      if comp.length < part.length then dissect a k comp ++ dissect a k (part.filter fun v => !own.contains v)
      else
        let ls := levels a part (peripheral a part)
        let mid := (ls.length - 1) / 2
        let low := (ls.take mid).flatten
        let high := (ls.drop (mid + 1)).flatten
        dissect a k (part.filter low.contains) ++ dissect a k (part.filter high.contains) ++ ls.getD mid []
/-- The fixed ordering (R106). -/
def NetProb.ordering (p : NetProb) : List Nat :=
  let n := p.ref.length + p.rows.length
  dissect p.graph (n + 1) (List.range n)

/-! ### Symbolic factorisation (R107) -/

/-- Columns below the diagonal by position, from position j on, with the fill of the columns before. -/
def fillGo : (fuel : Nat) → (j : Nat) → List (NMap Nat) → List (NMap Nat)
  | 0, _, _ => []
  | _, _, [] => []
  | k + 1, j, c :: rest =>
    let rest' := match c with
      | [] => rest
      | p :: ps => lmod rest (p.1 - j - 1) fun x => ps.foldl (fun x e => mput x e.1 0) x
    c :: fillGo k (j + 1) rest'
/-- The pattern of K below the diagonal under an ordering. -/
def patternOf (a : Adj) (order : List Nat) : List (NMap Nat) :=
  order.mapIdx fun j v => ((nbrs a v).map order.idxOf).foldl (fun m i => if j < i then mput m i 0 else m) []
/-- Entries of each column of the factor, diagonal included. -/
def factorSizes (a : Adj) (order : List Nat) : List Nat :=
  (fillGo order.length 0 (patternOf a order)).map fun c => c.length + 1
/-- Bytes of a factor, 8 for each entry, and of its leading columns that a workspace of `ws` bytes holds. -/
def factorSplit (sizes : List Nat) (ws : Nat) : Nat × Nat :=
  sizes.foldl (fun (p : Nat × Nat) n =>
    (p.1 + 8 * n, if p.2 = p.1 ∧ p.1 + 8 * n ≤ ws then p.1 + 8 * n else p.2)) (0, 0)

/-! ### K (R113) -/

def NetProb.nv (p : NetProb) : Nat := p.ref.length
/-- γ = 10⁻⁶ and Λ. -/
def gammaNet : Nat := fofRatio fmt64 1 1000000
def lamScale (j : Nat) : Nat := if j = 0 then fofRatio fmt64 1 1000000 else dInt 100
/-- The output that a variable copies: 0 or 1 for a z entry, by its place in the step. -/
def NetProb.zOf (p : NetProb) (v : Nat) : Option Nat :=
  let o := v % max 1 p.lay.stride
  let z := (p.lay.sizes.take 11).sum
  if z ≤ o then some ((o - z) % 2) else none
/-- ρ_c Λ² on a z entry, 0 elsewhere. -/
def NetProb.zWeight (p : NetProb) (v : Nat) : Nat :=
  match p.zOf v with | some j => dMul p.rhoC (dMul (lamScale j) (lamScale j)) | none => 0
/-- The diagonal of K: of H for a variable, −1/ρ_n for a row. -/
def NetProb.diag (p : NetProb) (v : Nat) : Nat :=
  if v < p.nv then dAdd (dAdd gammaNet p.sigmaN) (p.zWeight v) else dNeg (dDiv d1 p.rhoN)
/-- A · x, and Aᵀ · y. -/
def NetProb.mulA (p : NetProb) (x : Vec) : Vec :=
  p.rows.map fun r => r.co.foldl (fun s e => dFma e.2 (vAt x e.1) s) 0
def NetProb.mulAt (p : NetProb) (y : Vec) : Vec :=
  ((p.rows.zip y).foldl (fun m r => r.1.co.foldl (fun m e => m.modify e.1 fun s => dFma e.2 r.2 s) m) (vZero p.nv))
/-- K · x. -/
def NetProb.mulK (p : NetProb) (x : Vec) : Vec :=
  let h := x.take p.nv
  let y := x.drop p.nv
  vAdd (h.mapIdx fun v a => dMul (p.diag v) a) (p.mulAt y)
    ++ List.zipWith (fun a b => dSub a (dDiv b p.rhoN)) (p.mulA h) y

/-! ### Factorisation (R118) -/

/-- A pivot under the rule of R118: `pos` in the H block. -/
def pivotOf (thr : Nat) (pos : Bool) (d : Nat) : Nat × Bool :=
  if dLt (dAbs d) thr || dLt d 0 == pos then (if pos then thr else dNeg thr, true) else (d, false)
/-- Right-looking elimination of columns by position: block, diagonal, entries below. -/
def ldlGo (thr : Nat) : (fuel : Nat) → (j : Nat) → List (Bool × Nat × NMap Nat) → List (Nat × NMap Nat × Bool)
  | 0, _, _ => []
  | _, _, [] => []
  | k + 1, j, (pos, d0, c) :: rest =>
    let (d, rep) := pivotOf thr pos d0
    let l := c.map fun e => (e.1, dDiv e.2 d)
    let rest := l.foldl (fun rest e =>
      let w := dNeg (dMul e.2 d)
      lmod rest (e.1 - j - 1) fun x =>
        (x.1, dFma w e.2 x.2.1, (l.filter fun t => decide (e.1 < t.1)).foldl (fun m t =>
          mput m t.1 (dFma w t.2 (mget (fun _ => 0) m t.1))) x.2.2)) rest
    (d, l, rep) :: ldlGo thr k (j + 1) rest
/-- An entry of A by vertices. -/
def NetProb.entry (p : NetProb) (u v : Nat) : Nat :=
  let e (r x : Nat) : Nat := match p.rows[r - p.nv]? with | some w => mget (fun _ => 0) w.co x | none => 0
  if p.nv ≤ u ∧ v < p.nv then e u v else if p.nv ≤ v ∧ u < p.nv then e v u else 0
/-- The factor of K under an ordering. -/
def NetProb.factorise (p : NetProb) (order : List Nat) : Factor :=
  let pat := patternOf p.graph order
  let cols := (order.zip pat).map fun x =>
    (decide (x.1 < p.nv), p.diag x.1, x.2.map fun e => (e.1, p.entry x.1 (order.getD e.1 0)))
  let big := (order.map fun v => dAbs (p.diag v)).foldl dMax 0
  let f := ldlGo (dMul (fofRatio fmt64 1 1000000000000) big) order.length 0 cols
  { order := order, cols := f.map fun x => (x.1, x.2.1), regs := (f.filter fun x => x.2.2).length }

/-! ### Solves (R119) -/

/-- The factor's solve: forward, diagonal, backward. -/
def Factor.solve (f : Factor) (b : Vec) : Vec :=
  let y := (f.cols.mapIdx fun j c => (j, c)).foldl (fun b p =>
    let x := vAt b p.1
    p.2.2.foldl (fun b e => b.modify e.1 fun s => dFma (dNeg e.2) x s) b) (f.order.map (vAt b))
  let z := List.zipWith (fun a c => dDiv a c.1) y f.cols
  let x := (f.cols.mapIdx fun j c => (j, c)).foldr (fun p x =>
    p.2.2.foldl (fun x e => x.modify p.1 fun s => dFma (dNeg e.2) (vAt x e.1) s) x) z
  (List.range b.length).map fun v => vAt x (f.order.idxOf v)
/-- One step of refinement against the current K. -/
def NetProb.refine (p : NetProb) (f : Factor) (b x : Vec) : Vec := vAdd x (f.solve (vSub b (p.mulK x)))
/-- A linear solve: with the previous factor, two steps of refinement follow. -/
def NetProb.linSolve (p : NetProb) (f : Factor) (fresh : Bool) (b : Vec) : Vec :=
  let x := f.solve b
  if fresh then x else p.refine f b (p.refine f b x)

end Sys2Proof.Machine
end

