-- ==== Sys2Proof/Machine/Admm.lean ====
section
/-! DEFINITION. The iteration of R114: subproblems by Riccati recursion and projection, the network stage, duals and residuals,
cold and warm starts (R124 to R126), and what a round publishes (R147). Where the spec leaves the arithmetic's shape open, log
152 says what is taken (DESIGN CHOICE). -/
namespace Sys2Proof.Machine

/-! ### Numbers of a record, widened -/

def wide (v : Vec) : Vec := v.map widen
def wideM (m : Mat) : Mat := m.map wide
def vRound (v : Vec) : Vec := v.map narrow
def SubProb.blk (p : SubProb) (k : Nat) : StepBlock :=
  p.blocks.getD k { d := [], xlo := [], xhi := [], ulo := [], uhi := [], xref := [], cu := [], beta := 0 }
/-- The part of y(k) that neither state nor input gives (R73: the demand, without a store). -/
def SubProb.yFix (p : SubProb) (k : Nat) : Vec := [if p.thru then widen (vAt (p.blk k).d 1) else 0, 0]
/-- x(k) of an iterate; x(0) is the record's. -/
def SubProb.xAt (p : SubProb) (xs : Mat) (k : Nat) : Vec := if k = 0 then p.x0 else xs.getD (k - 1) (vZero 4)
/-- y(k) = C · x(k) + D · u(k), binary32. -/
def SubProb.yAt (p : SubProb) (xs us : Mat) (k : Nat) : Vec :=
  vRound (vAdd (vAdd (mVec (wideM p.c) (wide (p.xAt xs k))) (mVec (wideM p.d) (wide (us.getD k (vZero 3))))) (p.yFix k))

/-! ### The inner problem (R110, R114) -/

/-- One stage of the Riccati factor: W = P(k+1) with the state weights, the gains H⁻¹ Hus, H⁻¹, and Hus. -/
structure RicStage where
  w : Mat
  kx : Mat
  hi : Mat
  hus : Mat
deriving DecidableEq, Repr

/-- F, G and the output's matrix over the state and the last input. -/
def SubProb.f (p : SubProb) : Mat := mOf 7 7 fun i j => if i < 4 ∧ j < 4 then widen (mAt p.ad i j) else 0
def SubProb.g (p : SubProb) : Mat := mOf 7 3 fun i j => if i < 4 then widen (mAt p.bd i j) else if i = j + 4 then d1 else 0
def SubProb.cHat (p : SubProb) : Mat := mOf 2 7 fun i j => if j < 4 then widen (mAt p.c i j) else 0
def SubProb.dHat (p : SubProb) : Mat := wideM p.d
/-- ρ_s and ρ_c Λ². -/
def SubProb.rs (p : SubProb) : Nat := widen p.rhoS
def SubProb.rl (p : SubProb) (j : Nat) : Nat := dMul (widen p.rhoC) (dMul (lamScale j) (lamScale j))
/-- Q_k. -/
def SubProb.qk (p : SubProb) (k : Nat) : Vec := wide (if k + 1 = p.blocks.length then p.qn else p.q)
/-- Weights on y: the coupling penalty and ρ_s. -/
def SubProb.my (p : SubProb) : Vec := (List.range 2).map fun j => dAdd (p.rl j) p.rs

/-- Stage k from P(k+1), and P(k). -/
def SubProb.ricStep (p : SubProb) (k : Nat) (pk : Mat) : RicStage × Mat :=
  let w := mAdd pk (mDiag ((p.qk k).map (fun q => dAdd q p.rs) ++ vZero 3))
  let s := wide p.s
  let m := mDiag p.my
  let gt := mT 3 p.g
  let ft := mT 7 p.f
  let dt := mT 3 p.dHat
  let ct := mT 7 p.cHat
  let wf := mMul 7 w p.f
  let wg := mMul 3 w p.g
  let mc := mMul 7 m p.cHat
  let huu := mAdd (mAdd (mDiag ((List.range 3).map fun j => dAdd (dAdd (widen (vAt p.r j)) (vAt s j)) p.rs)) (mMul 3 gt wg))
    (mMul 3 dt (mMul 3 m p.dHat))
  let hus := mAdd (mAdd (mOf 3 7 fun i j => if j = i + 4 then dNeg (vAt s i) else 0) (mMul 7 gt wf)) (mMul 7 dt mc)
  let hss := mAdd (mAdd (mOf 7 7 fun i j => if i = j ∧ 4 ≤ i then vAt s (i - 4) else 0) (mMul 7 ft wf)) (mMul 7 ct mc)
  let hi := mSolve 3 huu (mEye 3)
  let kx := mMul 7 hi hus
  ({ w := w, kx := kx, hi := hi, hus := hus }, mSub hss (mMul 7 (mT 7 hus) kx))
/-- The Riccati factor, from step 0. -/
def SubProb.riccati (p : SubProb) : List RicStage :=
  ((List.range p.blocks.length).foldr (fun k (a : List RicStage × Mat) =>
    let r := p.ricStep k a.2
    (r.1 :: a.1, r.2)) ([], mOf 7 7 fun _ _ => 0)).1

/-- The argmin of the inner quadratic: `t` the targets of (x(k+1), u(k), y(k)) by step, `z` and `w` the coupling targets and
duals. Answers x and u, binary32. -/
def SubProb.argmin (p : SubProb) (rics : List RicStage) (t z w : Mat) : Mat × Mat :=
  let fk (k : Nat) : Vec := mVec (wideM p.ed) (wide (p.blk k).d) ++ vZero 3
  let tk (k : Nat) : Vec := wide (t.getD k (vZero 9))
  -- backward: gains of the constant part
  let back := (rics.mapIdx fun k r => (k, r)).foldr (fun e (a : List Vec × Vec) =>
    let k := e.1
    let r := e.2
    let b := p.blk k
    let qa := (List.range 4).map fun i =>
      dNeg (dFma (vAt (p.qk k) i) (widen (vAt b.xref i)) (dMul p.rs (vAt (tk k) i)))
    let tmp := vAdd (mVec r.w (fk k)) (vAdd a.2 (qa ++ vZero 3))
    let m := (List.range 2).map fun j =>
      dAdd (dMul (p.rl j) (dSub (widen (mAt z k j)) (widen (mAt w k j)))) (dMul p.rs (vAt (tk k) (7 + j)))
    let ey := vSub (vMul p.my (p.yFix k)) m
    let hu := vAdd (vAdd ((List.range 3).map fun j => dSub (widen (vAt b.cu j)) (dMul p.rs (vAt (tk k) (4 + j))))
      (mVec (mT 3 p.g) tmp)) (mVec (mT 3 p.dHat) ey)
    let hs := vAdd (mVec (mT 7 p.f) tmp) (mVec (mT 7 p.cHat) ey)
    let kff := mVec r.hi hu
    (kff :: a.1, vSub hs (mVec (mT 7 r.hus) kff))) ([], vZero 7)
  -- forward
  let fwd := (rics.zip back.1).foldl (fun (a : Nat × Vec × Vec × Mat × Mat) r =>
    let (k, x, u, xs, us) := a
    let u' := vRound (vNeg (vAdd (mVec r.1.kx (wide x ++ wide u)) r.2))
    let x' := vRound (vAdd (vAdd (mVec (wideM p.ad) (wide x)) (mVec (wideM p.bd) (wide u'))) ((fk k).take 4))
    (k + 1, x', u', xs ++ [x'], us ++ [u'])) (0, p.x0, p.um1, [], [])
  (fwd.2.2.2.1, fwd.2.2.2.2)

/-- Projection onto an interval; beyond the bound of a softened state, the minimiser with the soft cost (R110). -/
def softClamp (soft : Bool) (rho w1 w2 lo hi x : Nat) : Nat :=
  let out (d : Nat) : Nat := dMax 0 (dDiv (dSub (dMul rho d) w1) (dAdd rho w2))
  if !soft then dClamp lo hi x
  else if dLt hi x then dAdd hi (out (dSub x hi))
  else if dLt x lo then dSub lo (out (dSub lo x)) else x
/-- Projection of (x(k+1), u(k), y(k)) onto the bounds and the halfspace y1 − β·y2 ≤ 0 of step k, binary32. -/
def SubProb.project (p : SubProb) (k : Nat) (s : Vec) : Vec :=
  let b := p.blk k
  let x := (List.range 4).map fun i =>
    softClamp (p.soft.testBit i) p.rs (widen (vAt p.w1 i)) (widen (vAt p.w2 i)) (widen (vAt b.xlo i)) (widen (vAt b.xhi i)) (vAt s i)
  let u := (List.range 3).map fun j => dClamp (widen (vAt b.ulo j)) (widen (vAt b.uhi j)) (vAt s (4 + j))
  let be := widen b.beta
  let y1 := vAt s 7
  let y2 := vAt s 8
  let excess := dDiv (dFma (dNeg be) y2 y1) (dFma be be d1)
  vRound (x ++ u ++ if dLt 0 excess then [dSub y1 excess, dFma be excess y2] else [y1, y2])

/-- (x, u, y) of an iterate by step. -/
def SubProb.stack (p : SubProb) (xs us : Mat) : Mat :=
  (List.range p.blocks.length).map fun k => xs.getD k (vZero 4) ++ us.getD k (vZero 3) ++ p.yAt xs us k
/-- One inner iteration: (x, u), v and λ. -/
def SubProb.inner (p : SubProb) (rics : List RicStage) (z w : Mat) (s : (Mat × Mat) × Mat × Mat) : (Mat × Mat) × Mat × Mat :=
  let v := s.2.1
  let lam := s.2.2
  let al := widen p.alpha
  let xu := p.argmin rics (List.zipWith (fun a b => vRound (vSub (wide a) (wide b))) v lam) z w
  -- α (x, u, y) + (1 − α) v
  let h := List.zipWith (fun a b => List.zipWith (fun a b => dFma al (widen a) (dMul (dSub d1 al) (widen b))) a b)
    (p.stack xu.1 xu.2) v
  let v' := (List.zipWith (fun a l => vAdd a (wide l)) h lam).mapIdx fun k a => p.project k a
  let lam' := List.zipWith (fun a c => vRound (vSub a (wide c))) (List.zipWith (fun l a => vAdd (wide l) a) lam h) v'
  (xu, v', lam')
/-- A subproblem's part of a round (R114, R115): K_SUB inner iterations from its iterate entry. -/
def SubProb.round (p : SubProb) (ksub : Nat) (z : Mat) (e : IterEntry) : IterEntry :=
  let rics := p.riccati
  let v0 := (p.stack e.x e.u).mapIdx fun k a => p.project k (wide a)
  let l0 := e.dual.map fun d => d ++ [0, 0]
  let s := (List.range ksub).foldl (fun s _ => p.inner rics z e.w s) ((e.x, e.u), v0, l0)
  { x := s.1.1, u := s.1.2, dual := s.2.2.map (·.take 7), w := e.w }
/-- Every entry of an iterate is finite. -/
def IterEntry.finite (e : IterEntry) : Bool := (e.x ++ e.u ++ e.dual ++ e.w).all fun r => r.all (ffinite fmt32)
/-- A cold subproblem (R126). -/
def SubProb.cold (p : SubProb) : IterEntry :=
  let n := p.blocks.length
  { x := List.replicate n p.x0,
    u := p.blocks.map fun b => List.zipWith (fun l h => narrow (dMul dHalf (dAdd (widen l) (widen h)))) b.ulo b.uhi,
    dual := List.replicate n (vZero 7), w := List.replicate n (vZero 2) }

/-! ### The network stage (R113, R114) -/

/-- z of a substation by step, binary64. -/
def NetProb.zOfSub (p : NetProb) (xi : Vec) (n : Nat) : Mat :=
  (List.range p.n).map fun k => (List.range 2).map fun j => vAt xi (p.lay.zVar k n j)
/-- One inner iteration on ξ, the projected A·ξ and the network duals; `q` the linear part. -/
def NetProb.iter (p : NetProb) (f : Factor) (fresh : Bool) (q : Vec) (s : Vec × Vec × Vec) : Vec × Vec × Vec :=
  let (xi, ze, eta) := s
  let b := List.zipWith (fun x c => dFma p.sigmaN x (dNeg c)) xi q ++ List.zipWith (fun z e => dSub z (dDiv e p.rhoN)) ze eta
  let x := p.linSolve f fresh b
  let zt := List.zipWith (fun z d => dAdd z (dDiv d p.rhoN)) ze (vSub (x.drop p.nv) eta)
  let t := List.zipWith (fun z e => dAdd z (dDiv e p.rhoN)) zt eta
  let ze' := List.zipWith (fun (r : NetRow) v => dClamp r.lo r.hi v) p.rows t
  (x.take p.nv, ze', vAdd eta ((vSub zt ze').map fun d => dMul p.rhoN d))
/-- The linear part of the network's objective, from y and w of the substations. -/
def NetProb.linear (p : NetProb) (yw : List (Nat × Mat)) : Vec :=
  let base := List.zipWith (fun c r => dFma (dNeg gammaNet) r c) p.cost p.ref
  yw.foldl (fun q e => (e.2.mapIdx fun k r => (k, r)).foldl (fun q r =>
    (List.range 2).foldl (fun q j =>
      let v := p.lay.zVar r.1 e.1 j
      q.modify v fun c => dFma (dNeg (p.zWeight v)) (vAt r.2 j) c) q) q) base

/-- max ‖Λ(a − b)‖∞ over the steps. -/
def lamNorm (a b : Mat) : Nat :=
  (List.zipWith (fun r s => (List.range 2).foldl (fun m j =>
    dMax m (dAbs (dMul (lamScale j) (dSub (vAt r j) (vAt s j))))) 0) a b).foldl dMax 0
/-- A coupling round (R114). -/
def SolveIn.round (i : SolveIn) (f : Factor) (fresh : Bool) (s : RoundState) : RoundState :=
  let g : ObjReader := fun a b => mget objDflt i.vals (objKey a b)
  let ksub := objNat g 0x6000 7
  let p := i.net
  let subs := i.subs.map fun b =>
    let z := p.zOfSub s.xi b.num
    let e0 := if s.nans.contains b.num then b.cold else (s.entries.find? fun e => e.1 == b.num).map (·.2) |>.getD b.cold
    let e := b.round ksub (z.map vRound) e0
    (b.num, e, (List.range p.n).map fun k => wide (b.yAt e.x e.u k), z)
  let q := p.linear (subs.map fun x => (x.1, List.zipWith vAdd x.2.2.1 (wideM x.2.1.w)))
  let start := (s.xi, List.zipWith (fun (r : NetRow) v => dClamp r.lo r.hi v) p.rows (p.mulA s.xi), s.eta)
  let r := (List.range (objNat g 0x6000 0xA)).foldl (fun a _ => p.iter f fresh q a) start
  let out := subs.map fun x =>
    let z := p.zOfSub r.1 x.1
    let w := List.zipWith (fun w d => (List.range 2).map fun j =>
      narrow (dFma (lamScale j) (vAt d j) (widen (vAt w j)))) x.2.1.w (List.zipWith vSub x.2.2.1 z)
    (x.1, { x.2.1 with w := w }, lamNorm x.2.2.1 z, lamNorm z x.2.2.2)
  let nans := (out.filter fun x => !x.2.1.finite).map (·.1)
  { entries := out.foldl (fun m x => mput m x.1 x.2.1) s.entries, xi := r.1, eta := r.2.2,
    rp := (out.map fun x => x.2.2.1).foldl dMax 0, rd := dMul p.rhoC ((out.map fun x => x.2.2.2).foldl dMax 0),
    nans := nans, nanSeen := s.nanSeen || !nans.isEmpty, bad := !((r.1 ++ r.2.2).all (ffinite fmt64)) }

/-! ### Cold and warm starts (R124 to R126) -/

/-- A trajectory shifted by s steps, its end repeated (R125). -/
def shiftBy {α : Type} (s : Int) (d : α) (xs : List α) : List α :=
  (List.range xs.length).map fun (k : Nat) => xs.getD (clampI 0 (xs.length - 1 : Nat) ((k : Int) + s)).toNat d
/-- Blocks of equal size, one for each step. -/
def stepBlocks (n size : Nat) (xs : Vec) : List Vec := (List.range n).map fun k => (xs.drop (k * size)).take size
def IterEntry.shift (s : Int) (e : IterEntry) : IterEntry :=
  { x := shiftBy s [] e.x, u := shiftBy s [] e.u, dual := shiftBy s [] e.dual, w := shiftBy s [] e.w }
/-- The start of a solve: `w` the warm-start set, `shift`, the substations that start cold, and whether the coupling level does;
with the network signature changed every w is zeroed. -/
def SolveIn.start (i : SolveIn) (w : Option RoundState) (shift : Int) (cold : List Nat) (coldNet sigChanged : Bool) : RoundState :=
  let p := i.net
  let from' (b : SubProb) : IterEntry :=
    match w with
    | none => b.cold
    | some s =>
      if cold.contains b.num then b.cold
      else match s.entries.find? fun e => e.1 == b.num with
        | none => b.cold
        | some e =>
          let e := e.2.shift shift
          if sigChanged then { e with w := e.w.map fun _ => vZero 2 } else e
  let net : Vec × Vec := match w, coldNet with
    | some s, false =>
      ((shiftBy shift [] (stepBlocks p.n p.lay.stride s.xi)).flatten,
       (shiftBy shift [] (stepBlocks p.n (p.rows.length / max 1 p.n) s.eta)).flatten)
    | _, _ => (p.ref, vZero p.rows.length)
  { rp := 0, rd := 0, nans := [], nanSeen := false, bad := false, entries := i.subs.foldl (fun m b => mput m b.num (from' b)) [], xi := net.1, eta := net.2 }

/-! ### What a round publishes (R147, Table 04-7) -/

/-- Cost terms: tracking, input, input move, input price, soft penalty of the substations; fuel, import, export. -/
def SubProb.costs (p : SubProb) (e : IterEntry) : Vec :=
  let half (w x : Nat) : Nat := dMul (dMul dHalf w) (dMul x x)
  let sum (f : Nat → Vec) : Nat := ((List.range p.blocks.length).flatMap f).foldl dAdd 0
  let u (k : Nat) : Vec := wide (e.u.getD k (vZero 3))
  let prev (k : Nat) : Vec := if k = 0 then wide p.um1 else u (k - 1)
  let x (k : Nat) : Vec := wide (e.x.getD k (vZero 4))
  let sig (k i : Nat) : Nat :=
    dMax 0 (dMax (dSub (vAt (x k) i) (widen (vAt (p.blk k).xhi i))) (dSub (widen (vAt (p.blk k).xlo i)) (vAt (x k) i)))
  [sum fun k => (List.range 4).map fun i => half (vAt (p.qk k) i) (dSub (vAt (x k) i) (widen (vAt (p.blk k).xref i))),
   sum fun k => (List.range 3).map fun j => half (widen (vAt p.r j)) (vAt (u k) j),
   sum fun k => (List.range 3).map fun j => half (widen (vAt p.s j)) (dSub (vAt (u k) j) (vAt (prev k) j)),
   sum fun k => (List.range 3).map fun j => dMul (widen (vAt (p.blk k).cu j)) (vAt (u k) j),
   sum fun k => (List.range 4).map fun i =>
     if p.soft.testBit i then dAdd (dMul (widen (vAt p.w1 i)) (sig k i)) (half (widen (vAt p.w2 i)) (sig k i)) else 0]
def SolveIn.costs (i : SolveIn) (s : RoundState) : Vec :=
  let p := i.net
  let e (b : SubProb) : IterEntry := ((s.entries.find? fun e => e.1 == b.num).map (·.2)).getD b.cold
  let cls (c : Nat) : Nat := (List.range p.n).foldl (fun a k =>
    (List.range (p.lay.sizes.getD c 0)).foldl (fun a j => dFma (vAt p.cost (p.lay.var k c j)) (vAt s.xi (p.lay.var k c j)) a) a) 0
  i.subs.foldl (fun a b => vAdd a (b.costs (e b))) (vZero 5) ++ [cls 3, cls 9, cls 10]
/-- Active constraints: soft state bounds exceeded, inputs at a bound, coupling halfspace; sources, stores, ramps, import and
export limits at a bound. -/
def SubProb.active (p : SubProb) (e : IterEntry) : List Nat :=
  let cnt (f : Nat → List Bool) : Nat := ((List.range p.blocks.length).flatMap f).count true
  let x (k i : Nat) : Nat := widen (mAt e.x k i)
  let u (k j : Nat) : Nat := widen (mAt e.u k j)
  [cnt fun k => (List.range 4).map fun i => p.soft.testBit i
     && (dLt (widen (vAt (p.blk k).xhi i)) (x k i) || dLt (x k i) (widen (vAt (p.blk k).xlo i))),
   cnt fun k => (List.range p.nu).map fun j =>
     dLe (widen (vAt (p.blk k).uhi j)) (u k j) || dLe (u k j) (widen (vAt (p.blk k).ulo j)),
   cnt fun k => let y := wide (p.yAt e.x e.u k); [dLe 0 (dFma (dNeg (widen (p.blk k).beta)) (vAt y 1) (vAt y 0))]]
def SolveIn.active (i : SolveIn) (s : RoundState) : List Nat :=
  let e (b : SubProb) : IterEntry := ((s.entries.find? fun e => e.1 == b.num).map (·.2)).getD b.cold
  let at' := i.net.rows.zip (i.net.mulA s.xi)
  let cnt (kind : Nat) : Nat := (at'.filter fun r => r.1.kind == kind && (dLe r.2 r.1.lo || dLe r.1.hi r.2)).length
  i.subs.foldl (fun a b => List.zipWith (fun x y => x + y) a (b.active (e b))) [0, 0, 0]
    ++ [cnt 1, cnt 2, cnt 3, (at'.filter fun r => r.1.kind == 4 && dLe r.1.hi r.2).length,
        (at'.filter fun r => r.1.kind == 5 && dLe r.1.hi r.2).length]
/-- The published trajectories by object key, binary32. -/
def SolveIn.trajectories (i : SolveIn) (s : RoundState) : NMap (List Nat) :=
  let p := i.net
  let y := p.lay
  let series (f : Nat → Nat) : List Nat := (List.range p.n).map fun k => narrow (f k)
  let v (k c j : Nat) : Nat := vAt s.xi (y.var k c j)
  let put (m : NMap (List Nat)) (x : Nat × List Nat) : NMap (List Nat) := mput m x.1 x.2
  let m := (y.src.mapIdx fun j n => (objKey (0x6100 + n) 1, series fun k => v k 3 j)).foldl put []
  let m := (y.sto.mapIdx fun j n => (objKey (0x6140 + n) 1, series fun k => dSub (v k 4 j) (v k 5 j))).foldl put m
  let m := (y.pmp.mapIdx fun j n => (objKey (0x6160 + n) 1, series fun k => v k 6 j)).foldl put m
  let m := (y.flx.mapIdx fun j n => (objKey (0x6260 + n) 1, series fun k => v k 7 j)).foldl put m
  i.subs.foldl (fun m b =>
    let e := ((s.entries.find? fun e => e.1 == b.num).map (·.2)).getD b.cold
    put m (objKey (0x6400 + b.num / 256) (b.num % 256), e.u.flatten)) m
/-- The result of a round as it is published. -/
def SolveIn.publish (i : SolveIn) (s : RoundState) : Published :=
  let g : ObjReader := fun a b => mget objDflt i.vals (objKey a b)
  { grid := i.grid, dt := gridDt g, n := gridN g, subs := i.subs.map fun b => (b.num, hasStore g b.num), rp := s.rp, rd := s.rd,
    cost := i.costs s, act := i.active s, traj := i.trajectories s }

end Sys2Proof.Machine
end

