-- ==== Sys2Proof/Machine/SolveRun.lean ====
section
/-! DEFINITION. How a solve in progress counts its rounds, ends, and is flagged (R119, R123, R128, R147, R148). -/
namespace Sys2Proof.Machine

/-- Healthy tiles. -/
def SolvOwn.tiles (o : SolvOwn) : Nat := 48 - ((List.range 48).filter fun i => o.retired.getLsbD i).length
/-- A value of a snapshot's dictionary. -/
def SolveIn.g (i : SolveIn) : ObjReader := fun idx sub => mget objDflt i.vals (objKey idx sub)

/-- A round's state meets both tolerances (R114). -/
def SolveRun.converged (r : SolveRun) (s : RoundState) : Bool :=
  r.warmMode && fle fmt64 s.rp r.epsP && fle fmt64 s.rd r.epsD
/-- The rounds a solve runs at most (R123). -/
def SolveRun.limit (r : SolveRun) : Nat := min r.cap r.budget
/-- The solve ends by R123 at a round that left a state. -/
def SolveRun.endsAt (r : SolveRun) (round : Nat) (s : RoundState) : Bool :=
  (decide (round ≠ 0) && r.converged s) || decide (r.limit ≤ round)
/-- The status of a solve published at a round (R123, Table 04-8). -/
def SolveRun.status (r : SolveRun) (round : Nat) (s : RoundState) : Nat :=
  if r.converged s then 1
  else if round = r.limit then (if r.cap ≤ r.budget then (if r.warmMode then 2 else 3) else 4)
  else 5

/-- The factor of this solve's K under an ordering. -/
def SolveRun.factorise (r : SolveRun) (order : List Nat) : Factor := r.inp.net.factorise order
/-- The flags of Table 04-7: `nan` when a subproblem restarted, `piv` when pivots were replaced, `adm` ADMFAIL. -/
def SolveRun.flags (r : SolveRun) (nan piv adm : Bool) : Nat :=
  r.coldNet.toNat + 2 * r.warmMode.toNat + 4 * r.forced.toNat + 8 * r.refact.toNat + 16 * (decide (r.streamed ≠ 0)).toNat
    + 32 * nan.toNat + 64 * piv.toNat + 128 * adm.toNat

/-- The end of a solve without publication (R148): status, flags, number and round alone change, with the last solve's cold
subproblems of SOLV_PFLAGS; flags 5 and 6, which lanes learn at their own pace, stay clear (DESIGN CHOICE, log 153). -/
def Solver.endWithout (s : Solver) (r : SolveRun) (status : Nat) : Solver :=
  { s with run := none,
           last := { s.last with status := status, flags := r.flags false false s.admFail, num := r.num, round := 0,
                                 coldSub := r.coldSub } }

end Sys2Proof.Machine
end

