-- ==== Sys2Proof/Machine/Mtr.lean ====
section
/-! DEFINITION. Electrical metering (chapter 07): scaling and trim, zero crossings, cycles and windows, per-cycle
quantities, energy registers and latch records. -/
namespace Sys2Proof.Machine

/-! ### The table of R217 -/

/-- π × 2^140, rounded down. -/
def piFix : Nat := 4378741080330103799233250808471022728399424

/-- Fixed-point Taylor terms of sine and cosine at scale 2^140: (sine, cosine), alternating from the term given. -/
def sinCosGo (x2 : Nat) : (k n : Nat) → (term : Nat) → Int × Int
  | 0, _, _ => (0, 0)
  | k + 1, n, term =>
    -- term is x^n / n!; n even goes to the cosine, odd to the sine
    let r := sinCosGo x2 k (n + 1) (term * x2 / 2 ^ 140 / (n + 1))
    let s : Int := if n % 4 < 2 then term else -(term : Int)
    if n % 2 = 0 then (r.1, r.2 + s) else (r.1 + s, r.2)

/-- Sine and cosine of 2π j / 2^20 at scale 2^140, for j ≤ 2^17. -/
def sinCosFix (j : Nat) : Int × Int := sinCosGo (piFix * j / 2 ^ 19) 34 0 (2 ^ 140)

/-- Table entry i: cosine and sine of 2π i / 2^20, rounded to binary64 (R217). -/
def trigTab (i : Nat) : Nat × Nat :=
  let i := i % 2 ^ 20
  let q := i / 2 ^ 18
  let j := i % 2 ^ 18
  let (s, c) := if j ≤ 2 ^ 17 then sinCosFix j else (fun p : Int × Int => (p.2, p.1)) (sinCosFix (2 ^ 18 - j))
  let (co, si) : Int × Int := match q with
    | 0 => (c, s)
    | 1 => (-s, c)
    | 2 => (-c, -s)
    | _ => (s, -c)
  (fofDyadic fmt64 co (-140), fofDyadic fmt64 si (-140))

/-- Interpolated cosine and sine for a fraction of a turn given in binary64 (R217). -/
def trigAt (turn : Nat) : Nat × Nat :=
  let fr := fsub fmt64 turn (fofInt fmt64 (ffloorI fmt64 turn))
  let u := fmul fmt64 fr (fofInt fmt64 (2 ^ 20))
  let i := (ffloorI fmt64 u).toNat
  let f := fsub fmt64 u (fofInt fmt64 i)
  let a := trigTab i
  let b := trigTab (i + 1)
  (ffma fmt64 f (fsub fmt64 b.1 a.1) a.1, ffma fmt64 f (fsub fmt64 b.2 a.2) a.2)

/-! ### Configuration -/

/-- A channel's objects (Table 07-1): SCALE binary64 bits, OFFSET, TRIM binary32 bits. -/
structure ChanObj where
  scale : Nat
  offset : Int
  trim : Nat
deriving DecidableEq, Repr

/-- A feeder's objects (Table 07-2) with the nominal period in 10 ns units. -/
structure FeederCfg where
  enable : Bool
  refPhase : Nat
  zcTimeout : Nat
  latchN : Nat
  vnom : Nat
  inom : Nat
  sagPct : Nat
  pnom : Nat
  chans : List ChanObj
deriving DecidableEq, Repr

/-- Nominal period of a NOMFREQ code. -/
def nomPeriod (code : Nat) : Nat := if code = 1 then 1666667 else 2000000

/-- The value of a code (R209). -/
def mtrScale (c : ChanObj) (code : Int) : Nat := ffma fmt64 (fofInt fmt64 (code - c.offset)) c.scale 0

/-- Trim in binary64. -/
def trim64 (c : ChanObj) : Nat := fconv fmt32 fmt64 c.trim

/-- The feeder runs one slot late: some current channel has a negative trim (R209). -/
def feederLate (c : FeederCfg) : Bool := (c.chans.drop 3).any fun k => flt fmt64 (trim64 k) 0

/-- The trimmed value of a channel (R209). -/
def trimmed (c : ChanObj) (current : Bool) (prev cur next : Nat) : Nat :=
  if !current then cur
  else
    let t := trim64 c
    if flt fmt64 t 0 then
      fadd fmt64 cur (fmul fmt64 (fdivide fmt64 (fneg fmt64 t) (fofInt fmt64 50)) (fsub fmt64 next cur))
    else fadd fmt64 cur (fmul fmt64 (fdivide fmt64 t (fofInt fmt64 50)) (fsub fmt64 prev cur))

/-! ### State of a feeder -/

/-- A register at zero. -/
def ereg0 : EReg := { val := 0, wrap := 0, res := 0, intv := 0, k := 0 }
/-- An empty interval. -/
def latch0 : LatchAcc :=
  { cycles := 0, nominal := 0, partials := 0, nozc := false, clip := false, sag := false, start := none, last := 0,
    openOff := 0xFFFF, closeOff := 0xFFFF, minP := none, maxP := none, minV := [none, none, none] }
/-- A feeder that has not begun. -/
def feeder0 : Feeder :=
  { mode := .off, tOpen := 0, tRef := 2000000, lastCross := 0, crossed := false, below := false, prev := none,
    held := none, sums := List.replicate 21 0, folded := 0, open2 := [], regs := List.replicate 36 ereg0, acc := latch0,
    seq := 0, flags := 0, ring := [], fresh := [], q := [], qVis := [], stage := 0 }

/-- The strobe time of a slot. -/
def tSlot (n : Nat) : Int := 5000 * (n : Int)

/-- Begin acquisition at a slot (R215). -/
def Feeder.begin (f : Feeder) (c : FeederCfg) (n : Nat) : Feeder :=
  { f with mode := .acquire, tOpen := tSlot n, tRef := c.pnom, lastCross := tSlot n, crossed := false, below := false,
           prev := none, held := none, sums := List.replicate 21 0, folded := 0, open2 := [],
           acc := { f.acc with openOff := if f.acc.cycles = 0 ∧ f.acc.partials = 0 then 0xFFFF else f.acc.openOff } }

/-- A difference of times over 5000, in binary64: a fraction of Δ. -/
def perSlot (d : Int) : Nat := fdivide fmt64 (fofInt fmt64 d) (fofInt fmt64 5000)

/-- Fold one sample with its weight into the sums (R216, R217). -/
def foldSample (tOpen : Int) (tRef : Nat) (sums : List Nat) (w : Nat) (s : MtrSample) : List Nat :=
  let turn := fdivide fmt64 (fofInt fmt64 (tSlot s.slot - tOpen)) (fofInt fmt64 tRef)
  let cs := trigAt turn
  let m := fmul fmt64
  let ad := fadd fmt64
  ((List.range 3).map fun k =>
    let v := s.x.getD k 0
    let i := s.x.getD (k + 3) 0
    let g (j : Nat) : Nat := sums.getD (7 * k + j) 0
    let ns := fneg fmt64 cs.2
    [ad (g 0) (m w (m v v)), ad (g 1) (m w (m i i)), ad (g 2) (m w (m v i)),
     ad (g 3) (m w (m v cs.1)), ad (g 4) (m w (m v ns)), ad (g 5) (m w (m i cs.1)), ad (g 6) (m w (m i ns))]).flatten

/-- The weight of the first sample of a cycle: 0.5 + (t_first − t_a) / Δ. -/
def firstWeight (tOpen : Int) (n : Nat) : Nat := fadd fmt64 0x3FE0000000000000 (perSlot (tSlot n - tOpen))
/-- The weight of the last sample: 0.5 + (t_b − t_last) / Δ. -/
def lastWeight (tClose : Int) (n : Nat) : Nat := fadd fmt64 0x3FE0000000000000 (perSlot (tClose - tSlot n))
/-- 1.0. -/
def one64 : Nat := 0x3FF0000000000000

/-- Fold the oldest open sample, which is not the last of its cycle. -/
def Feeder.foldOldest (f : Feeder) : Feeder :=
  match f.open2 with
  | [] => f
  | s :: rest =>
    let w := if f.folded = 0 then firstWeight f.tOpen s.slot else one64
    { f with sums := foldSample f.tOpen f.tRef f.sums w s, folded := f.folded + 1, open2 := rest }

/-- Add a sample to the cycle in progress; three stay open, since each can turn out to be the last. -/
def Feeder.addSample (f : Feeder) (s : MtrSample) : Feeder :=
  let f := { f with open2 := f.open2 ++ [s] }
  let f := if 3 < f.open2.length then f.foldOldest else f
  { f with acc := { f.acc with start := f.acc.start.orElse fun _ => some s.slot, last := s.slot } }

/-- Fold the open samples of a cycle that closes at `tClose`, `n` of it being folded already (R216). -/
def foldOpen (tOpen : Int) (tRef : Nat) (tClose : Int) : (n : Nat) → List Nat → List MtrSample → List Nat
  | _, sums, [] => sums
  | n, sums, [s] =>
    foldSample tOpen tRef sums (if n = 0 then perSlot (tClose - tOpen) else lastWeight tClose s.slot) s
  | n, sums, s :: rest =>
    foldOpen tOpen tRef tClose (n + 1)
      (foldSample tOpen tRef sums (if n = 0 then firstWeight tOpen s.slot else one64) s) rest

/-- Sums of the samples before `tClose`, with their number; and the samples left for the next cycle. -/
def Feeder.closeSums (f : Feeder) (tClose : Int) : List Nat × Nat × List MtrSample :=
  let mine := f.open2.filter fun s => decide (tSlot s.slot < tClose)
  let rest := f.open2.filter fun s => !decide (tSlot s.slot < tClose)
  (foldOpen f.tOpen f.tRef tClose f.folded f.sums mine, f.folded + mine.length, rest)

/-! ### Quantities (Table 07-3) -/

/-- Key of a quantity. -/
def qKey (code level : Nat) : Nat := 4 * code + level

/-- √max(0, a² − b²) / b, or 0.0 when b is below the limit (THD). -/
def thd (tot fund limit : Nat) : Nat :=
  if flt fmt64 fund limit then 0
  else
    let d := fsub fmt64 (fmul fmt64 tot tot) (fmul fmt64 fund fund)
    fdivide fmt64 (fsqrt fmt64 (if flt fmt64 d 0 then 0 else d)) fund

/-- All quantities of a cycle of period `t` (10 ns units) from its sums. -/
def cycleQuantities (c : FeederCfg) (sums : List Nat) (t : Nat) : NMap Nat :=
  let m := fmul fmt64
  let d := fdivide fmt64
  let ratio := d (fofInt fmt64 5000) (fofInt fmt64 t)
  let two := fofInt fmt64 2
  let r2 := fsqrt fmt64 two
  let ph (k : Nat) : List Nat :=
    let g (j : Nat) : Nat := sums.getD (7 * k + j) 0
    let scale := m two ratio
    let vr := m scale (g 3)
    let vi := m scale (g 4)
    let ir := m scale (g 5)
    let ii := m scale (g 6)
    let absf (a b : Nat) : Nat := fsqrt fmt64 (fadd fmt64 (m a a) (m b b))
    let v := fsqrt fmt64 (m ratio (g 0))
    let v1 := d (absf vr vi) r2
    let i := fsqrt fmt64 (m ratio (g 1))
    let i1 := d (absf ir ii) r2
    let p := m ratio (g 2)
    let p1 := d (fadd fmt64 (m vr ir) (m vi ii)) two
    let q1 := d (fsub fmt64 (m vi ir) (m vr ii)) two
    let s := m v i
    let pf := if s % 2 ^ 63 = 0 then 0 else d p s
    let lim (x : Nat) : Nat := m (fofRatio fmt64 1 1000) (fconv fmt32 fmt64 x)
    [v, v1, i, i1, p, p1, q1, s, pf, thd v v1 (lim c.vnom), thd i i1 (lim c.inom)]
  let a := ph 0
  let b := ph 1
  let e := ph 2
  let sum3 (j : Nat) : Nat := fadd fmt64 (fadd fmt64 (a.getD j 0) (b.getD j 0)) (e.getD j 0)
  let P := sum3 4
  let S := sum3 7
  let secs := d (fofInt fmt64 t) (fofInt fmt64 100000000)
  let put (q : NMap Nat) (code level v : Nat) : NMap Nat := mset (fun _ => 0) q (qKey code level) v
  let q := ([a, b, e].mapIdx fun k l => (k, l)).foldl (fun q p =>
    (p.2.mapIdx fun j v => (j, v)).foldl (fun q x => put q (x.1 + 1) p.1 x.2) q) []
  let q := put q 5 3 P
  let q := put q 6 3 (sum3 5)
  let q := put q 7 3 (sum3 6)
  let q := put q 8 3 S
  let q := put q 9 3 (if S % 2 ^ 63 = 0 then 0 else d P S)
  let q := put q 0xC 3 (d (fofInt fmt64 100000000) (fofInt fmt64 t))
  put q 0xD 3 secs

/-- A selector of R220 that names a quantity. -/
def mtrSelOk (sel : Nat) : Bool :=
  let code := sel / 256
  let level := sel / 16 % 4
  decide (sel % 4 + 16 * level + 256 * code = sel) && decide (1 ≤ code) && decide (code ≤ 0xD) &&
  (if level = 3 then decide (5 ≤ code ∧ code ≤ 9) || decide (0xC ≤ code) else decide (code ≤ 0xB))

/-! ### Energy registers (R221 to R224) -/

/-- Credit an amount in units of the register's LSB (R223). -/
def EReg.creditUnits (r : EReg) (e : Nat) : EReg :=
  let rho := fadd fmt64 r.res e
  let k := (ffloorI fmt64 rho).toNat
  let v := r.val.toNat + k
  { val := BitVec.ofNat 64 v, wrap := r.wrap + BitVec.ofNat 16 (v / 2 ^ 64)
    res := fsub fmt64 rho (fofInt fmt64 k), intv := r.intv + k, k := r.k + k }

/-- Credit an energy in J to a register of 1 µWh (R223). -/
def EReg.credit (r : EReg) (j : Nat) : EReg := r.creditUnits (fdivide fmt64 j (fofRatio fmt64 36 10000))

/-- What register j of a set is credited with (Table 07-4): a power, or none. -/
def creditOf (p p1 q1 s : Nat) (full : Bool) (j : Nat) : Option Nat :=
  let neg (x : Nat) : Bool := flt fmt64 x 0
  let n (x : Nat) : Nat := fneg fmt64 x
  match j with
  | 0 => if neg p then none else some p
  | 1 => if neg p then some (n p) else none
  | 2 => if !full || neg p1 then none else some p1
  | 3 => if full && neg p1 then some (n p1) else none
  | 4 => if full && !neg p1 && !neg q1 then some q1 else none
  | 5 => if full && neg p1 && !neg q1 then some q1 else none
  | 6 => if full && neg p1 && neg q1 then some (n q1) else none
  | 7 => if full && !neg p1 && neg q1 then some (n q1) else none
  | _ => if full then some s else none

/-- Credit every register of a feeder for a cycle (R221, R222); `full` is false for partial and truncated cycles. -/
def creditAll (regs : List EReg) (q : NMap Nat) (t : Nat) (full : Bool) : List EReg :=
  let secs := fdivide fmt64 (fofInt fmt64 t) (fofInt fmt64 100000000)
  let g (code level : Nat) : Nat := mget (fun _ => 0) q (qKey code level)
  regs.mapIdx fun r x =>
    let s := r / 9
    match creditOf (g 5 s) (g 6 s) (g 7 s) (g 8 s) full (r % 9) with
    | some p => x.credit (fmul fmt64 p secs)
    | none => x

/-! ### Closing cycles and windows -/

/-- Minimum and maximum of binary64 values already seen. -/
def minF (a : Option Nat) (x : Nat) : Option Nat :=
  match a with | none => some x | some y => some (if flt fmt64 x y then x else y)
def maxF (a : Option Nat) (x : Nat) : Option Nat :=
  match a with | none => some x | some y => some (if flt fmt64 y x then x else y)

/-- How a cycle ends; `cut` is a nominal window that a crossing ends (R214). -/
inductive CloseKind where
  | cycle | partly | timeout (count : Nat) | nominal | cut | truncated
deriving DecidableEq, Repr

/-- Close the cycle or window in progress at time `t` (R212 to R216). `offc` is the offset code of the close, 0xFFFF for
a nominal one. -/
def Feeder.close (f : Feeder) (c : FeederCfg) (t : Int) (offc : Nat) (kind : CloseKind) : Feeder :=
  let (sums, n, rest) := f.closeSums t
  let per := (t - f.tOpen).toNat
  let fresh := { f with tOpen := t, sums := List.replicate 21 0, folded := 0, open2 := rest }
  if n = 0 ∨ per = 0 then fresh
  else
    let q := cycleQuantities c sums per
    let full := match kind with | .partly => false | .truncated => false | _ => true
    let regs := creditAll f.regs q per full
    let nom := match kind with | .nominal => true | .cut => true | .timeout _ => true | _ => false
    let a := f.acc
    let a := match kind with
      | .partly => { a with partials := a.partials + 1, closeOff := offc }
      | .truncated => a
      | _ =>
        let cnt := match kind with | .timeout k => k | _ => 1
        let P := mget (fun _ => 0) q (qKey 5 3)
        let vs := (List.range 3).map fun k => mget (fun _ => 0) q (qKey 1 k)
        let limit := fdivide fmt64 (fmul fmt64 (fofInt fmt64 c.sagPct) (fconv fmt32 fmt64 c.vnom)) (fofInt fmt64 100)
        { a with cycles := a.cycles + cnt, nominal := a.nominal + (if nom then cnt else 0)
                 nozc := a.nozc || nom, sag := a.sag || vs.any fun v => flt fmt64 v limit
                 minP := minF a.minP P, maxP := maxF a.maxP P, closeOff := offc
                 minV := List.zipWith (fun m v => minF m v) a.minV vs }
    { fresh with regs := regs, acc := a, q := if full then q else f.q
                 tRef := match kind with | .cycle => per | _ => c.pnom }

/-- A crossing between two samples, but for the spacing condition (R210, R211): its time and offset code. -/
def Feeder.crossing (f : Feeder) (c : FeederCfg) (p s : MtrSample) : Option (Int × Nat) :=
  let x0 := p.x.getD c.refPhase 0
  let x1 := s.x.getD c.refPhase 0
  if fle fmt64 x0 0 && flt fmt64 0 x1 && f.below then
    let tr := trim64 (c.chans.getD c.refPhase ⟨0, 0, 0⟩)
    let frac := fdivide fmt64 (fmul fmt64 (fofInt fmt64 5000) x0) (fsub fmt64 x0 x1)
    let off := 700 + froundHalfEven fmt64 frac + froundHalfEven fmt64 (fmul fmt64 (fofInt fmt64 100) tr)
    some (tSlot p.slot + off - 700, off.toNat)
  else none

/-- The spacing condition of R210 and its exemptions. -/
def Feeder.spaced (f : Feeder) (c : FeederCfg) (t : Int) : Bool :=
  f.mode == FeederMode.nozc || !f.crossed || decide (7 * (c.pnom : Int) ≤ 10 * (t - f.lastCross))

/-- Timeout and nominal windows whose end the time `t` has reached (R213): at most `fuel` closes. -/
def Feeder.windows (c : FeederCfg) (t : Int) : (fuel : Nat) → Feeder → Feeder
  | 0, f => f
  | k + 1, f =>
    let zc : Int := c.zcTimeout * 100000
    match f.mode with
    | .off => f
    | .nozc =>
      if f.tOpen + c.pnom ≤ t then Feeder.windows c t k (f.close c (f.tOpen + c.pnom) 0xFFFF .nominal) else f
    | _ =>
      if f.lastCross + zc ≤ t then
        let cnt := max 1 ((2 * c.zcTimeout * 100000 + c.pnom) / (2 * c.pnom))
        Feeder.windows c t k { (f.close c (f.lastCross + zc) 0xFFFF (.timeout cnt)) with mode := .nozc }
      else f

/-- A timeout expires at time `t` (R213). -/
def Feeder.timesOut (f : Feeder) (c : FeederCfg) (t : Int) : Bool :=
  (f.mode == FeederMode.acquire || f.mode == FeederMode.track) && decide (f.lastCross + c.zcTimeout * 100000 ≤ t)
/-- A nominal window closes at time `t`. -/
def Feeder.windowEnds (f : Feeder) (c : FeederCfg) (t : Int) : Bool :=
  f.mode == FeederMode.nozc && decide (f.tOpen + c.pnom ≤ t)

/-- An accepted crossing at time `t` closes the cycle or window in progress (R212, R214, R215). -/
def Feeder.cross (f : Feeder) (c : FeederCfg) (t : Int) (off : Nat) : Feeder :=
  let kind := match f.mode with | .acquire => CloseKind.partly | .nozc => .cut | _ => .cycle
  let f := f.close c t off kind
  let a := f.acc
  { f with mode := .track, lastCross := t, crossed := true, below := false,
           acc := if decide (a.cycles = 0) && decide (a.partials = 0) then { a with openOff := off } else a }

/-- The work on one sample n with its neighbour (R209 to R214): windows that end before a crossing close first. Answers
the feeder and whether a timeout was counted. -/
def Feeder.sample (f : Feeder) (c : FeederCfg) (s : MtrSample) (next : List Nat) : Feeder × Bool :=
  let prev := f.prev.getD s
  let x' := s.x.mapIdx fun k x =>
    trimmed (c.chans.getD k ⟨0, 0, 0⟩) (decide (3 ≤ k)) (prev.x.getD k 0) x (next.getD k 0)
  let ref := s.x.getD c.refPhase 0
  let h := fmul fmt64 (fmul fmt64 (fofRatio fmt64 2 100) (fsqrt fmt64 (fofInt fmt64 2))) (fconv fmt32 fmt64 c.vnom)
  let f := { f with below := f.below || flt fmt64 ref (fneg fmt64 h) }
  let cr := if f.prev.isSome then f.crossing c prev s else none
  let f := { f with acc := { f.acc with clip := f.acc.clip || s.clip } }.addSample ⟨s.slot, x', s.clip⟩
  let now := tSlot s.slot
  let upTo := match cr with | some (t, _) => min (t - 1) now | none => now
  let g := Feeder.windows c upTo 70000 f
  let z := match cr with
    | some (t, off) =>
      if g.spaced c t then (g.cross c t off, f.timesOut c upTo) else (Feeder.windows c now 70000 g, f.timesOut c now)
    | none => (g, f.timesOut c now)
  ({ z.1 with prev := some s }, z.2)

/-! ### Latching (R227 to R230) -/

/-- The latch record of the interval (Table 07-8). -/
def Feeder.record (f : Feeder) (i : Nat) : Bytes :=
  let a := f.acc
  let intv (r : Nat) : Nat := (f.regs.getD r ereg0).intv
  let rev := decide (intv 27 ≠ 0) && decide (intv 28 ≠ 0)
  let fl := a.nozc.toNat + 2 * rev.toNat + 4 * a.clip.toNat + 8 * a.sag.toNat
  let f32 (x : Option Nat) : Bytes := leBytes 4 (fconv fmt64 fmt32 (x.getD 0))
  let body := leBytes 4 (f.seq + 1) ++ leBytes 2 fl ++ leBytes 1 i ++ leBytes 1 (min 1 a.partials)
    ++ leBytes 4 a.cycles ++ leBytes 4 a.nominal ++ leBytes 8 (a.start.getD 0) ++ leBytes 8 a.last
    ++ leBytes 2 a.openOff ++ leBytes 2 a.closeOff ++ f32 a.minP ++ f32 a.maxP ++ (a.minV.map f32).flatten ++ zeros 8
    ++ ((List.range 9).map fun j => leBytes 8 (intv (27 + j))).flatten
    ++ ((List.range 3).map fun k => ((List.range 4).map fun j => leBytes 8 (intv (9 * k + j))).flatten).flatten
  body ++ leBytes 4 (crc32 body).toNat ++ zeros 20

/-- Write the latch record and begin a new interval. -/
def Feeder.latch (f : Feeder) (i : Nat) : Feeder :=
  let rec' := f.record i
  let seq := (f.seq + 1) % 2 ^ 32
  { f with seq := seq, fresh := f.fresh ++ [rec']
           regs := f.regs.map fun r => { r with intv := 0 }
           acc := { latch0 with openOff := f.acc.closeOff } }

/-- The slot's records enter the ring at t1 of the next slot, with the flags of the last (R227, R229). -/
def Feeder.show (f : Feeder) : Feeder :=
  f.fresh.foldl (fun f r =>
    { f with flags := natAt r 4 2, ring := mset (fun _ => zeros 256) f.ring (natAt r 0 4 % 256) r }) { f with fresh := [] }
/-- The sequence number of the last record that the ring shows. -/
def Feeder.shown (f : Feeder) : Nat := f.seq - f.fresh.length

/-- The latch is due (R227). -/
def Feeder.latchDue (f : Feeder) (c : FeederCfg) : Bool := decide (c.latchN ≤ f.acc.cycles)

/-- End the cycle in progress at a trip (R231): it credits only the active totals, up to 25 µs after its last sample. -/
def Feeder.truncate (f : Feeder) (c : FeederCfg) : Feeder :=
  match f.mode, f.open2.getLast? with
  | .off, _ => f
  | _, none => f
  | _, some s => f.close c (tSlot s.slot + 2500) 0xFFFF .truncated

end Sys2Proof.Machine
end

