-- ==== Sys2Proof/Machine/Thm.lean ====
section
/-! DEFINITION. Thermal metering (chapter 08): temperatures, flow, credits, latches, quantities, totals and pulse
outputs. -/
namespace Sys2Proof.Machine

/-- A circuit's objects (Table 08-2). Floating-point fields are bits of their object's type. -/
structure CircCfg where
  enable : Bool
  cold : Bool
  supply : Nat
  ret : Nat
  src : Nat
  sel : Nat
  vpp : Nat
  kf : Nat
  retPipe : Bool
  ain : Bool
  pconst : Nat
  psel : Nat
  pscale : Nat
  poffset : Nat
  ktable : Bool
  latchN : Nat
  flowAvg : Nat
  freqTo : Nat
  kt : List Nat
  ktMin : Nat
  ktMax : Nat
deriving DecidableEq, Repr

/-- binary32 bits widened. -/
def w64 (x : Nat) : Nat := fconv fmt32 fmt64 x
/-- A decimal number in binary64. -/
def dec64 (z : Int) (den : Nat) : Nat := fofRatio fmt64 z den

/-! ### Temperatures (R236, R237) -/

/-- A code that marks a faulty sensor (R236). -/
def rtdFaultCode (c : Nat) : Bool := c == 0 || c == 0xFFFFFF

/-- Resistance of a code, exact in binary64 (R236). -/
def rtdOhm (pt1000 : Bool) (code : Nat) : Nat := fofDyadic fmt64 code (if pt1000 then -13 else -16)

/-- The coefficients of R237. -/
def iecA : Nat := dec64 39083 10000000
def iecB : Nat := dec64 (-5775) 10000000000
def iecC : Nat := dec64 (-4183) 1000000000000000

/-- One Newton step on R/R0 = 1 + A T + B T² + C (T − 100) T³ (R237). -/
def newtonStep (ratio t : Nat) : Nat :=
  let m := fmul fmt64
  let ad := fadd fmt64
  let one := fofInt fmt64 1
  let t2 := m t t
  let t3 := m t2 t
  let f := ad (ad (ad one (m iecA t)) (m iecB t2)) (m iecC (m (fsub fmt64 t (fofInt fmt64 100)) t3))
  let d := ad (ad iecA (m (m (fofInt fmt64 2) iecB) t))
    (m iecC (fsub fmt64 (m (fofInt fmt64 4) t3) (m (fofInt fmt64 300) t2)))
  fsub fmt64 t (fdivide fmt64 (fsub fmt64 f ratio) d)

/-- The temperature of a code that is not a fault code, with OFFSET and the clamp of R237. -/
def rtdTemp (pt1000 : Bool) (offset : Nat) (code : Nat) : Nat :=
  let r := rtdOhm pt1000 code
  let r0 := fofInt fmt64 (if pt1000 then 1000 else 100)
  let ratio := fdivide fmt64 r r0
  let four := fofInt fmt64 4
  let disc := fsub fmt64 (fmul fmt64 iecA iecA)
    (fmul fmt64 (fmul fmt64 four iecB) (fsub fmt64 (fofInt fmt64 1) ratio))
  let t := fdivide fmt64 (fadd fmt64 (fneg fmt64 iecA) (fsqrt fmt64 disc)) (fmul fmt64 (fofInt fmt64 2) iecB)
  let t := if flt fmt64 r r0 then newtonStep ratio (newtonStep ratio (newtonStep ratio (newtonStep ratio t))) else t
  let t := fadd fmt64 t (w64 offset)
  let lo := fofInt fmt64 (-50)
  let hi := fofInt fmt64 200
  if flt fmt64 t lo then lo else if flt fmt64 hi t then hi else t

/-- A channel takes the agreed code of a slot in which a new one arrived (R236). -/
def RtdChan.take (c : RtdChan) (pt1000 : Bool) (offset code : Nat) : RtdChan :=
  if rtdFaultCode code then { c with fault := true }
  else { fault := false, temp := rtdTemp pt1000 offset code }

/-! ### State at a start -/

/-- A circuit's empty interval. -/
def thmAcc0 : ThmAcc :=
  { start := none, startTb := 0, last := 0, flags := 0, loS := none, hiS := none, loR := none, hiR := none, hiP := none,
    uncredited := 0 }
/-- A circuit at a start. -/
def circ0 : Circ :=
  { regs := List.replicate 4 ereg0, seq := 0, acc := thmAcc0, win := [], winLen := 0, stale := false, ring := [], fresh := [], q := [],
    qVis := [] }
/-- A pulse output at a start. -/
def vpoOut0 : VpoOut :=
  { owed := 0, accr := 0, active := none, lastEnd := none, moved := [], backlog := false, width := 0 }
/-- Thermal metering at a start. -/
def thm0 : Thm :=
  { chans := List.replicate 16 { fault := true, temp := 0 }, circs := List.replicate 8 circ0,
    counts := List.replicate 16 [], tbPrev := none, vpo := List.replicate 16 vpoOut0, tseq := 0, lastFlask := 0,
    merge := none, want := none, merging := false, stage := 0, metered := 0, qVis := [], q := [] }

/-! ### Flow (R239, R242) -/

/-- A rising edge that the debouncing accepts (R239): low and high times in ns, and time since the previous accepted edge
in periods of 10.24 MHz. -/
def edgeAccepted (deb lowNs highNs since : Nat) : Bool :=
  let d := match deb with | 0 => 0 | 1 => 1000 | 2 => 10000 | 3 => 100000 | 4 => 1000000 | _ => 10000000
  decide (d ≤ lowNs) && decide (d ≤ highNs) && decide (512 ≤ since)

/-- 50 µs in binary64. -/
def slotSecs : Nat := dec64 5 100000

/-- The count difference of the slot (R242); 0 in the first agreed slot. -/
def countDelta (h : List (BitVec 32)) : Int :=
  match h with
  | a :: b :: _ => (a - b).toInt
  | _ => 0

/-- Volume of a slot and whether the direction is reverse (R242); `frame` is the point's value and whether it is stale. -/
def slotVolume (c : CircCfg) (counts : List (BitVec 32)) (frame : Nat × Bool) : Nat × Bool × Bool :=
  match c.src with
  | 1 => (fmul fmt64 (fofInt fmt64 (countDelta counts).natAbs) c.vpp, false, false)
  | 2 =>
    let p := (counts.headD 0).toNat
    if p = 0 then (0, false, false)
    else (fdivide fmt64 (fmul fmt64 slotSecs (fdivide fmt64 (fofInt fmt64 10240000) (fofInt fmt64 p))) c.kf, false, false)
  | 3 => (fmul fmt64 (fofInt fmt64 (countDelta counts).natAbs) c.vpp, decide (countDelta counts < 0), false)
  | 4 => if frame.2 then (0, false, true)
         else (fmul fmt64 slotSecs (fabs fmt64 frame.1), flt fmt64 frame.1 0, false)
  | _ => (0, false, false)

/-! ### Energy (R243, R244) -/

/-- Clamp a finite binary64 value; answers whether it moved. -/
def clampF (lo hi x : Nat) : Nat × Bool :=
  if flt fmt64 x lo then (lo, true) else if flt fmt64 hi x then (hi, true) else (x, false)

/-- The bilinear lookup of KTABLE, with its clamp flag (R243, R244). -/
def ktLookup (c : CircCfg) (ts tr : Nat) : Nat × Bool :=
  let lo := w64 c.ktMin
  let hi := w64 c.ktMax
  let g := fdivide fmt64 (fsub fmt64 hi lo) (fofInt fmt64 32)
  let s := clampF lo hi ts
  let r := clampF lo hi tr
  let u := fdivide fmt64 (fsub fmt64 s.1 lo) g
  let v := fdivide fmt64 (fsub fmt64 r.1 lo) g
  let i := min 31 (ffloorI fmt64 u).toNat
  let j := min 31 (ffloorI fmt64 v).toNat
  let fu := fsub fmt64 u (fofInt fmt64 i)
  let fv := fsub fmt64 v (fofInt fmt64 j)
  let k (a b : Nat) : Nat := w64 (c.kt.getD (33 * a + b) 0)
  let mix (a b f : Nat) : Nat := ffma fmt64 f (fsub fmt64 b a) a
  (mix (mix (k i j) (k i (j + 1)) fv) (mix (k (i + 1) j) (k (i + 1) (j + 1)) fv) fu, s.2 || r.2)

/-- What one circuit computes in a slot. -/
structure SlotHeat where
  vol : Nat
  rev : Bool
  stale : Bool
  e : Nat
  clamp : Bool
  rho : Nat
  p : Nat
deriving DecidableEq, Repr

/-- Energy of a slot (R243). -/
def slotHeat (c : CircCfg) (ts tr : Nat) (ainCode : Int) (counts : List (BitVec 32)) (frame : Nat × Bool) : SlotHeat :=
  let (v, rev, stale) := slotVolume c counts frame
  let p := if c.ain then ffma fmt64 (fofInt fmt64 ainCode) (w64 c.pscale) (w64 c.poffset) else w64 c.pconst
  let tLim (t : Nat) : Nat × Bool := clampF 0 (fofInt fmt64 180) t
  let pc := clampF (fofInt fmt64 100000) (fofInt fmt64 2500000) p
  let a := tLim ts
  let b := tLim tr
  let loc := if c.retPipe then b.1 else a.1
  let rho := if97Rho loc pc.1
  let sg (x : Nat) : Nat := if c.cold then fneg fmt64 x else x
  if c.ktable then
    -- the density of quantity 0x06 clamps its own inputs, and flags it
    let k := ktLookup c ts tr
    let loc := if c.retPipe then b else a
    { vol := v, rev := rev, stale := stale, e := fmul fmt64 (fmul fmt64 (sg v) k.1) (fsub fmt64 ts tr),
      clamp := k.2 || loc.2 || pc.2,
      rho := rho, p := p }
  else
    let dh := fsub fmt64 (if97H a.1 pc.1) (if97H b.1 pc.1)
    { vol := v, rev := rev, stale := stale, e := fmul fmt64 (fmul fmt64 (sg v) rho) dh, clamp := a.2 || b.2 || pc.2,
      rho := rho, p := p }

/-! ### Latching (R248, R249) -/

/-- Circuit c latches in a slot: the agreed time base passed a multiple of LATCHN seconds (R248). -/
def thmLatchDue (c : CircCfg) (tbPrev : Option (BitVec 64)) (tb : BitVec 64) : Bool :=
  match tbPrev with
  | none => false
  | some p => c.enable && decide (p.toNat / (c.latchN * 1000000) < tb.toNat / (c.latchN * 1000000))

/-- A latch record (Table 08-5). -/
def thmRecord (i : Nat) (cold : Bool) (seq : Nat) (a : ThmAcc) (intv : List Nat) (pfail : Bool) : Bytes :=
  let f32 (x : Option Nat) : Bytes := leBytes 4 (fconv fmt64 fmt32 (x.getD 0))
  let rev := decide (intv.getD 0 0 ≠ 0) && decide (intv.getD 1 0 ≠ 0)
  let body := leBytes 4 seq ++ leBytes 2 (pfail.toNat + 2 * rev.toNat + a.flags) ++ leBytes 1 i ++ leBytes 1 cold.toNat
    ++ leBytes 8 (a.start.getD 0).toNat ++ leBytes 8 a.last.toNat ++ leBytes 8 a.startTb.toNat
    ++ ((List.range 4).map fun r => leBytes 8 (intv.getD r 0)).flatten
    ++ f32 a.loS ++ f32 a.hiS ++ f32 a.loR ++ f32 a.hiR ++ f32 a.hiP ++ leBytes 4 a.uncredited ++ zeros 36
  body ++ leBytes 4 (crc32 body).toNat

/-- A record of a circuit, in its ring from the next slot (R248). -/
def Circ.putRecord (x : Circ) (seq : Nat) (rec' : Bytes) : Circ := { x with seq := seq, fresh := x.fresh ++ [rec'] }
/-- The slot's records enter the ring at t1 of the next slot. -/
def Circ.show (x : Circ) : Circ :=
  x.fresh.foldl (fun x r => { x with ring := mset (fun _ => zeros 128) x.ring (natAt r 0 4 % 256) r }) { x with fresh := [] }
/-- The sequence number of the last record that the ring shows. -/
def Circ.shown (x : Circ) : Nat := x.seq - x.fresh.length

/-- Latch a circuit in slot s: the interval ends with the slot before (R248). -/
def Circ.latch (x : Circ) (i : Nat) (c : CircCfg) (s : BitVec 64) (tb : BitVec 64) : Circ :=
  let seq := (x.seq + 1) % 2 ^ 32
  let a := { x.acc with last := s - 1 }
  let x := x.putRecord seq (thmRecord i c.cold seq a (x.regs.map (·.intv)) false)
  { x with regs := x.regs.map fun r => { r with intv := 0 }
           acc := { thmAcc0 with start := some s, startTb := tb } }

/-! ### A slot of one circuit (R245, R247) -/

/-- The mean of a window of binary64 values, summed from the oldest. -/
def meanF (xs : List Nat) : Nat :=
  if xs.isEmpty then 0
  else fdivide fmt64 (xs.foldr (fun x acc => fadd fmt64 acc x) 0) (fofInt fmt64 xs.length)

/-- Code and index of a thermal quantity. -/
def tqKey (code idx : Nat) : Nat := 16 * code + idx

/-- A circuit's metering of slot s. -/
def Circ.slot (x : Circ) (i : Nat) (c : CircCfg) (h : SlotHeat) (ts tr : Nat) (fault : Bool) : Circ :=
  let pos := flt fmt64 0 h.e
  let cr (r : EReg) (lsb v : Nat) (go : Bool) : EReg := if go then r.creditUnits (fdivide fmt64 v lsb) else r
  let lsb := [dec64 1 1000, dec64 1 1000, dec64 1 1000000, dec64 1 1000000]
  let regs := x.regs.mapIdx fun r y =>
    match r with
    | 0 => cr y (lsb.getD 0 0) h.e (!h.rev && pos && !fault)
    | 1 => cr y (lsb.getD 1 0) h.e (h.rev && pos && !fault)
    | 2 => cr y (lsb.getD 2 0) h.vol (!h.rev)
    | _ => cr y (lsb.getD 3 0) h.vol h.rev
  let sgnd (v : Nat) : Nat := if h.rev then fneg fmt64 v else v
  let flow := fdivide fmt64 (sgnd h.vol) slotSecs
  let power := fdivide fmt64 (sgnd h.e) slotSecs
  let win := if x.winLen = c.flowAvg then (((flow, power) :: x.win).take c.flowAvg) else [(flow, power)]
  let bad := !pos || fault
  let a := x.acc
  let fl := a.flags ||| (if fault then 4 else 0) ||| (if h.stale then 8 else 0) ||| (if h.clamp then 16 else 0)
    ||| (if flt fmt64 h.e 0 && !fault then 32 else 0)
  let a := { a with flags := fl, loS := minF a.loS ts, hiS := maxF a.hiS ts, loR := minF a.loR tr, hiR := maxF a.hiR tr
                    hiP := maxF a.hiP power, uncredited := min (2 ^ 32 - 1) (a.uncredited + bad.toNat) }
  let put (q : NMap Nat) (code v : Nat) : NMap Nat := mset (fun _ => 0) q (tqKey code i) v
  let q := put (put (put [] 1 ts) 2 tr) 3 (fsub fmt64 ts tr)
  let q := put (put q 4 (meanF (win.map (·.1)))) 5 (meanF (win.map (·.2)))
  { x with regs := regs, win := win, winLen := c.flowAvg, acc := a, stale := h.stale, q := put (put q 6 h.rho) 7 h.p }

/-- A disabled circuit keeps its interval; its quantities read 0.0 and its window restarts (R247, R248). -/
def Circ.idle (x : Circ) : Circ := { x with win := [], winLen := 0, stale := false, q := [] }

/-- Edge rate over the last 2,000 slots (Table 08-4). -/
def edgeRate (h : List (BitVec 32)) : Nat :=
  let n := min 2000 (h.length - 1)
  if n = 0 then 0
  else fdivide fmt64 (fofInt fmt64 (h.headD 0 - h.getD n 0).toInt) (fmul fmt64 (fofInt fmt64 n) slotSecs)

/-- A thermal selector that names a quantity (R247). -/
def thmSelOk (sel : Nat) : Bool :=
  let code := sel / 256
  decide (sel % 16 + 256 * code = sel) &&
  ((decide (1 ≤ code ∧ code ≤ 7) && decide (sel % 16 < 8)) || (decide (0x10 ≤ code ∧ code ≤ 0x12)))

/-! ### Pulse outputs (R257 to R259) -/

/-- A pulse output's objects (R256). -/
structure VpoCfg where
  enable : Bool
  thm : Bool
  unit : Nat
  reg : Nat
  weight : Nat
  width : Nat
deriving DecidableEq, Repr

/-- The end of a pulse's width in slot s: it leaves the owed count (R259). -/
def VpoOut.widthEnd (v : VpoOut) (s : BitVec 64) : VpoOut :=
  match v.active with
  | some (b, w) =>
    if b.toNat + w ≤ s.toNat then
      let o := v.owed - 1
      { v with owed := o, active := none, lastEnd := some s, backlog := v.backlog && decide (o ≠ 0) }
    else v
  | none => v

/-- Accrual of the k units credited in slot s; answers the pulses lost (R257). -/
def VpoOut.accrue (v : VpoOut) (c : VpoCfg) (s : BitVec 64) (k : Nat) : VpoOut × Nat :=
  let a := v.accr + k
  let n := a / c.weight
  let o := v.owed + n
  let moved := (if n = 0 then v.moved else (s, n) :: v.moved).filter fun m => decide (s.toNat ≤ m.1.toNat + 20000)
  ({ v with accr := a % c.weight, owed := min 65535 o, moved := moved }, o - 65535)

/-- The effective width of a pulse that starts in slot s (R258). -/
def VpoOut.effWidth (v : VpoOut) (c : VpoCfg) (s : BitVec 64) : Nat :=
  let p := (v.moved.filter fun m => decide (m.1.toNat < s.toNat) && decide (s.toNat ≤ m.1.toNat + 20000)).foldl
    (fun t m => t + m.2) 0
  if v.backlog then 20
  else if 40 * c.width * p ≤ 20000 then 20 * c.width
  else max 20 (10000 / p)

/-- Start a pulse in slot s where it is due (R258, R259); answers the width to send. -/
def VpoOut.start (v : VpoOut) (c : VpoCfg) (s : BitVec 64) : Option (VpoOut × Nat) :=
  let w := v.effWidth c s
  let gap := match v.lastEnd with | none => true | some e => decide (e.toNat + w ≤ s.toNat)
  if c.enable && decide (1 ≤ v.owed) && v.active.isNone && gap then
    some ({ v with active := some (s, w), width := w, backlog := v.backlog || (decide (w = 20) && decide (2 ≤ v.owed)) },
          w)
  else none

/-! ### Totals and flask (R251 to R254) -/

/-- No record. -/
def totals0 : TotalsRec :=
  { valid := false, tseq := 0, lastFlask := 0, slot := 0, mtrSeq := [], thmSeq := [], regs := [], pulses := [] }
/-- No flask. -/
def flask0 : Flask :=
  { valid := false, fseq := 0, baseSeq := 0, cause := 0, slot := 0, regs := [], mtr := [], thm := [], pulses := [] }

/-- The newest valid record of two banks (R251). -/
def newestTotals (a b : TotalsRec) : Option TotalsRec :=
  if a.valid && b.valid then some (if a.tseq.toNat < b.tseq.toNat then b else a)
  else if a.valid then some a else if b.valid then some b else none

/-- The state of the pulse outputs as a record carries it: owed count, flags with BACKLOG in bit 0, accrual. -/
def pulseState (t : Thm) : List (Nat × Nat × Nat) := t.vpo.map fun v => (v.owed, v.backlog.toNat, v.accr)

/-- All registers: 36 of each feeder, then 4 of each circuit. -/
def allRegs (fs : List Feeder) (t : Thm) : List EReg := (fs.map (·.regs)).flatten ++ (t.circs.map (·.regs)).flatten

/-- The record of the state at the end of a slot. -/
def totalsRecord (fs : List Feeder) (t : Thm) (latchSlot : BitVec 64) (lastFlask : BitVec 32) : TotalsRec :=
  { valid := true, tseq := t.tseq + 1, lastFlask := lastFlask, slot := latchSlot, mtrSeq := fs.map (·.seq),
    thmSeq := t.circs.map (·.seq), regs := (allRegs fs t).map fun r => (r.val, r.res, r.wrap), pulses := pulseState t }

/-- The flask of a freeze (Table 08-8): deltas since the newest valid record. -/
def flaskRecord (fs : List Feeder) (t : Thm) (base : Option TotalsRec) (fseq : BitVec 32) (cause : Nat)
    (s : BitVec 64) : Flask :=
  let b := base.getD totals0
  { valid := true, fseq := fseq, baseSeq := b.tseq, cause := cause, slot := s,
    regs := (allRegs fs t).mapIdx fun i r => (r.val - (b.regs.getD i (0, 0, 0)).1, r.intv, r.res),
    mtr := fs.map (·.acc), thm := t.circs.map (·.acc), pulses := pulseState t }

/-- The pulse outputs take a record's state. -/
def Thm.takePulses (t : Thm) (ps : List (Nat × Nat × Nat)) : Thm :=
  { t with vpo := t.vpo.mapIdx fun o v =>
      let p := ps.getD o (0, 0, 0)
      { v with owed := p.1, backlog := p.2.1 % 2 == 1, accr := p.2.2 } }

/-- Load the base into the registers and the pulse outputs (R253). -/
def loadBase (fs : List Feeder) (t : Thm) (base : Option TotalsRec) : List Feeder × Thm :=
  let b := base.getD totals0
  let reg (i : Nat) (r : EReg) : EReg :=
    let x := b.regs.getD i (0, 0, 0)
    { r with val := x.1, res := x.2.1, wrap := x.2.2, intv := 0, k := 0 }
  let fs := fs.mapIdx fun f x =>
    { x with regs := x.regs.mapIdx (fun r y => reg (36 * f + r) y), seq := b.mtrSeq.getD f 0 }
  let circs := t.circs.mapIdx fun c x =>
    { x with regs := x.regs.mapIdx (fun r y => reg (144 + 4 * c + r) y), seq := b.thmSeq.getD c 0 }
  (fs, { t.takePulses b.pulses with circs := circs, tseq := b.tseq, lastFlask := b.lastFlask })

/-- The agreed entry of one register from the flasks that apply, lowest letter first (R253): delta, interval, residue. -/
def agreeEntry (es : List (BitVec 64 × Nat × Nat)) : BitVec 64 × Nat × Nat :=
  let ds := es.map fun e => (e.1.toNat : Int)
  let is := es.map fun e => (e.2.1 : Int)
  let pick (xs : List Int) : Int :=
    match xs with
    | [a, b, c] => mid3 a b c
    | [a, b] => max a b
    | [a] => a
    | _ => 0
  let d := pick ds
  (BitVec.ofNat 64 d.toNat, (pick is).toNat, ((es.find? fun e => decide ((e.1.toNat : Int) = d)).map (·.2.2)).getD 0)

/-- The base among the records that the lanes taking part hold, lowest letter first; each lane gives its valid records
(R253). -/
def agreeBase (lanes : List (List TotalsRec)) : Option TotalsRec :=
  let best (xs : List TotalsRec) : Option TotalsRec :=
    xs.foldl (fun b x => match b with
      | none => some x
      | some y => some (if y.tseq.toNat < x.tseq.toNat then x else y)) none
  let all := lanes.flatten
  let shared := all.filter fun x => decide (2 ≤ (lanes.filter fun l => l.contains x).length)
  if lanes.length ≤ 1 then best all else (best shared).orElse fun _ => best all

/-- The flasks that apply to a base (R253). -/
def flaskApplies (base : Option TotalsRec) (f : Flask) : Bool :=
  match base with
  | none => false
  | some b => f.valid && decide (f.baseSeq = b.tseq) && decide (b.lastFlask.toNat < f.fseq.toNat)

/-- The merge plan of the flasks that apply (R253, R254). -/
def mergePlan (base : Option TotalsRec) (flasks : List Flask) : Option MergePlan :=
  match flasks.filter (flaskApplies base) with
  | [] => none
  | f :: fs =>
    some { fseq := (f :: fs).foldl (fun m x => if m.toNat < x.fseq.toNat then x.fseq else m) 0,
           regs := (List.range 176).map fun i => agreeEntry ((f :: fs).map fun x => x.regs.getD i (0, 0, 0)),
           baseRes := (List.range 176).map fun i => (((base.getD totals0).regs.getD i (0, 0, 0)).2).1,
           mtr := f.mtr, thm := f.thm, pulses := f.pulses }

/-- Merge one register (R254). -/
def EReg.merge (r : EReg) (baseRes : Nat) (e : BitVec 64 × Nat × Nat) : EReg :=
  let rho := fadd fmt64 r.res (fsub fmt64 e.2.2 baseRes)
  let k := ffloorI fmt64 rho
  let v : Int := (r.val.toNat : Int) + e.1.toNat + k
  { r with val := ofInt 64 v, wrap := r.wrap + ofInt 16 (fdiv v (2 ^ 64)), res := fsub fmt64 rho (fofInt fmt64 k) }

/-- Merge the agreed flask into the registers, and write the records of the interrupted intervals (R254). -/
def mergeFlask (fs : List Feeder) (t : Thm) (cold : Nat → Bool) (m : MergePlan) : List Feeder × Thm :=
  let ent (i : Nat) : BitVec 64 × Nat × Nat := m.regs.getD i (0, 0, 0)
  let fs := fs.mapIdx fun f x =>
    let x := { x with regs := x.regs.mapIdx fun r y => y.merge (m.baseRes.getD (36 * f + r) 0) (ent (36 * f + r)) }
    match (m.mtr.getD f latch0).start with
    | none => x
    | some _ =>
      -- the record takes the flask's interval state and increments; the interval since the start goes on
      let rs : List EReg := x.regs.mapIdx fun r z => { z with intv := (ent (36 * f + r)).2.1 }
      let y : Feeder := { x with acc := m.mtr.getD f latch0, regs := rs }
      let z := y.latch f
      { x with seq := z.seq, fresh := z.fresh }
  let circs := t.circs.mapIdx fun c x =>
    let x := { x with regs := x.regs.mapIdx fun r y => y.merge (m.baseRes.getD (144 + 4 * c + r) 0) (ent (144 + 4 * c + r)) }
    let a := m.thm.getD c thmAcc0
    match a.start, a.loS with
    | some _, some _ =>
      let seq := (x.seq + 1) % 2 ^ 32
      x.putRecord seq (thmRecord c (cold c) seq a ((List.range 4).map fun r => (ent (144 + 4 * c + r)).2.1) true)
    | _, _ => x
  (fs, { t with circs := circs, merge := none })

end Sys2Proof.Machine
end

