-- ==== Sys2Proof/Machine/Port.lean ====
section
/-! DEFINITION. Field ports (chapter 09): frame filters, IPv6 and neighbour discovery, transmit queues and gates. -/
namespace Sys2Proof.Machine

/-- A port's objects (Table 09-2), as far as PORT reads them. -/
structure PortCfg where
  enable : Bool
  mode : Nat
  mac : BitVec 48
  pvid : Nat
  vlans : List Nat
  txvid : Nat
  addr0 : BitVec 128
  plen0 : Nat
  addr1 : BitVec 128
  plen1 : Nat
  router : BitVec 128
  role : Nat
  xport : Nat
  peer : Bool
  tcmap : List Nat
  gateEn : Bool
  udpPort : Nat
deriving DecidableEq, Repr

/-- A PTP port that is off. -/
def ptpPort0 : PtpPort :=
  { st := 0, foreign := none, seen := 0, sync := none, syncSeq := 0, annSeq := 0, reqSeq := 0, tReq := none, d21 := none,
    delay := none }
/-- A port with its link down. -/
def port0 : PortSt :=
  { up := false, mode := 0, an := 0, addr := [0, 0, 0], queues := List.replicate 8 [], oper := none, pend := none,
    entry := 0, nd := [], ndTick := 0, echoSec := 0, echoCnt := 0, busyTill := 0, lastTx := none, ptp := ptpPort0 }

/-- The default MAC address of port p (R264). -/
def macDefault (serial : Nat) (p : Nat) : BitVec 48 := BitVec.ofNat 48 (0x024A * 2 ^ 32 + serial % 2 ^ 24 * 256 + p)

/-- The link-local address with the modified EUI-64 identifier of a MAC address (R271). -/
def linkLocal (mac : BitVec 48) : BitVec 128 :=
  let m := mac.toNat
  BitVec.ofNat 128 (0xFE80 * 2 ^ 112 + (((m / 2 ^ 24) ^^^ 0x020000) * 2 ^ 40 + 0xFFFE * 2 ^ 24 + m % 2 ^ 24))

/-- The port's three addresses; zero is unset. -/
def PortCfg.addrs (c : PortCfg) : List (BitVec 128) := [linkLocal c.mac, c.addr0, c.addr1]

/-- The solicited-node group of an address (R275). -/
def solicited (a : BitVec 128) : BitVec 128 := BitVec.ofNat 128 (0xFF02 * 2 ^ 112 + 0x1FF * 2 ^ 24 + a.toNat % 2 ^ 24)
/-- ff02::x. -/
def ff02 (x : Nat) : BitVec 128 := BitVec.ofNat 128 (0xFF02 * 2 ^ 112 + x)

/-- The multicast groups a port has joined (R275), with the all-nodes group that router advertisements come to. -/
def PortSt.groups (s : PortSt) (c : PortCfg) : List (BitVec 128) :=
  let own := (c.addrs.zip s.addr).filterMap fun p => if p.1 ≠ 0 ∧ (p.2 = 1 ∨ p.2 = 2) then some (solicited p.1) else none
  own ++ [ff02 1] ++ (if c.role ≠ 0 ∧ c.xport = 0 then [ff02 0x181, ff02 0x6B] else [])

/-- An address that the port holds as valid. -/
def PortSt.owns (s : PortSt) (c : PortCfg) (a : BitVec 128) : Bool :=
  (c.addrs.zip s.addr).any fun p => decide (a ≠ 0) && p.1 == a && p.2 == 2

/-! ### Receiving (R264, R265, R272) -/

/-- Sum of big-endian 16-bit words, an odd last byte padded with zero. -/
def wordSum : Bytes → Nat
  | [] => 0
  | [a] => a.toNat * 256
  | a :: b :: r => a.toNat * 256 + b.toNat + wordSum r

/-- Fold a sum into 16 bits with end-around carry; sums stay below 2^32. -/
def fold16 (n : Nat) : Nat :=
  let n := n % 65536 + n / 65536
  let n := n % 65536 + n / 65536
  n % 65536 + n / 65536

/-- The IPv6 UDP checksum field of a datagram. -/
def udpChecksum (src dst : BitVec 128) (sport dport : Nat) (body : Bytes) : BitVec 16 :=
  let len := 8 + body.length
  let s := wordSum (beBytes 16 src.toNat ++ beBytes 16 dst.toNat ++ beBytes 4 len ++ beBytes 4 17 ++
    beBytes 2 sport ++ beBytes 2 dport ++ beBytes 2 len) + wordSum body
  let c := 65535 - fold16 s
  BitVec.ofNat 16 (if c = 0 then 65535 else c)

/-- Why a port drops a frame: which field of PORT_RXDROP counts it; `pause` counts none. -/
inductive RxDrop where
  | line | filtered | ip | pause
deriving DecidableEq, Repr

/-- What a port hands on: a UDP datagram for XACT, or a packet for TIME or neighbour discovery. -/
inductive RxGood where
  | afesh (src : BitVec 128) (sport : Nat) (body : Bytes)
  | other
deriving DecidableEq, Repr

/-- Bytes as a big-endian number. -/
def beAt (bs : Bytes) (o n : Nat) : Nat := beNat (slice bs o n)

/-- A MAC address the port takes: its own, the multicast of a joined group, or a PTP group address over Ethernet. -/
def macAccepted (s : PortSt) (c : PortCfg) (da : Nat) : Bool :=
  da == c.mac.toNat
  || (s.groups c).any (fun g => da == 0x3333 * 2 ^ 32 + g.toNat % 2 ^ 32)
  || (decide (c.role ≠ 0 ∧ c.xport = 1) && (da == 0x011B19000000 || da == 0x0180C200000E))

/-- A Router Alert option stands in a list of Hop-by-Hop options. -/
def routerAlert : Nat → Bytes → Bool
  | 0, _ => false
  | n + 1, os =>
    match beAt os 0 1 with
    | 5 => beAt os 1 1 == 2
    | 0 => !os.isEmpty && routerAlert n (os.drop 1)
    | _ => routerAlert n (os.drop (2 + beAt os 1 1))

/-- The IPv6 checks of R272 on a packet. -/
def ipFilter (s : PortSt) (c : PortCfg) (p : Bytes) : Except RxDrop RxGood :=
  let dst := BitVec.ofNat 128 (beAt p 24 16)
  let src := BitVec.ofNat 128 (beAt p 8 16)
  if !(s.owns c dst || (s.groups c).contains dst) then .error .ip
  else
    let nh := beAt p 6 1
    let body := (p.drop 40).take (beAt p 4 2)
    if nh = 58 then .ok .other
    else if nh = 0 then
      -- a Hop-by-Hop header with a Router Alert option is accepted in front of an MLD message only
      let hl := 8 + 8 * beAt body 1 1
      let icmp := body.drop hl
      if beAt body 0 1 = 58 ∧ routerAlert hl (slice body 2 (hl - 2)) = true ∧ (beAt icmp 0 1 = 130 ∨ beAt icmp 0 1 = 131 ∨ beAt icmp 0 1 = 132
        ∨ beAt icmp 0 1 = 143) then .ok .other else .error .ip
    else if nh = 17 then
      let len := beAt body 4 2
      let dport := beAt body 2 2
      let sport := beAt body 0 2
      let pay := (body.take len).drop 8
      let ck := beAt body 6 2
      if ck = 0 ∨ (udpChecksum src dst sport dport pay).toNat ≠ ck then .error .ip
      else if dport = c.udpPort then .ok (.afesh src sport pay)
      else if dport = 319 ∨ dport = 320 then .ok .other
      else .error .ip
    else .error .ip

/-- The filters of R264, R265 and R272 on a frame without its FCS. -/
def rxFilter (s : PortSt) (c : PortCfg) (fcsOk : Bool) (f : Bytes) : Except RxDrop RxGood :=
  let tagged := beAt f 12 2 == 0x8100
  let n := f.length + 4
  if !fcsOk || decide (n < 64) || decide ((if tagged then 1522 else 1518) < n) then .error .line
  else
    let ty := if tagged then beAt f 16 2 else beAt f 12 2
    let vid := beAt f 14 2 % 4096
    if ty = 0x8808 then .error .pause
    else if !macAccepted s c (beAt f 0 6) then .error .filtered
    else if tagged && !(vid == c.pvid || (decide (vid ≠ 0) && c.vlans.contains vid)) then .error .filtered
    else
      let p := f.drop (if tagged then 18 else 14)
      if ty = 0x86DD then ipFilter s c p
      else if ty = 0x88F7 ∧ c.role ≠ 0 ∧ c.xport = 1 then .ok .other
      else .error .ip

/-! ### Transmit queues (R265, R266) -/

/-- Bytes of a frame on the line with its FCS: Ethernet header, tag, IPv6 and further headers, at least 64. -/
def TxFrame.wire (f : TxFrame) (c : PortCfg) : Nat :=
  let tag := if c.txvid = 0 then 0 else 4
  max (64 + tag) (f.body.length + (if f.eth then 18 else 58 + f.hdr) + tag)

/-- Enqueue a frame into the queue of its class; answers whether it met a full queue (R266). -/
def PortSt.enqueue (s : PortSt) (c : PortCfg) (f : TxFrame) : PortSt × Bool :=
  let q := c.tcmap.getD f.cls 0 % 8
  let used := ((s.queues.getD q []).map fun x => x.wire c).foldl (· + ·) 0
  if 32768 < used + f.wire c then (s, true)
  else ({ s with queues := s.queues.modify q fun xs => xs ++ [f] }, false)

/-- The addresses in common prefixes: an address within `n` bits of another. -/
def inPrefix (a b : BitVec 128) (n : Nat) : Bool := decide (a.toNat / 2 ^ (128 - n) = b.toNat / 2 ^ (128 - n))

/-- The next hop of a destination (R271): itself on a prefix of the port's addresses, else ROUTER; none without it. -/
def nextHop (c : PortCfg) (dst : BitVec 128) : Option (BitVec 128) :=
  if inPrefix dst (linkLocal c.mac) 64 || (decide (c.addr0 ≠ 0) && inPrefix dst c.addr0 c.plen0)
    || (decide (c.addr1 ≠ 0) && inPrefix dst c.addr1 c.plen1) then some dst
  else if c.router ≠ 0 then some c.router else none

/-- The address a port sends from: a valid address on the destination's prefix, else another valid one; none while every
address is tentative or unused (R271). -/
def sourceAddr (s : PortSt) (c : PortCfg) (dst : BitVec 128) : Option (BitVec 128) :=
  let ok (i : Nat) : Bool := s.addr.getD i 0 == 2
  let ll := linkLocal c.mac
  if ok 1 && inPrefix dst c.addr0 c.plen0 then some c.addr0
  else if ok 2 && inPrefix dst c.addr1 c.plen1 then some c.addr1
  else if ok 0 && (inPrefix dst ll 64 || decide (dst.toNat / 2 ^ 112 = 0xFF02)) then some ll
  else if ok 1 then some c.addr0 else if ok 2 then some c.addr1 else if ok 0 then some ll else none

/-- Outcome of a send, besides the port: queue full, cache entry replaced, no router. -/
structure SendFlags where
  qfull : Nat
  ncfull : Bool
  norouter : Bool
deriving DecidableEq, Repr

/-- An ICMPv6 message of neighbour discovery or MLD as a frame of class 1. -/
def icmpFrame (src dst : BitVec 128) (body : Bytes) : TxFrame :=
  let s := wordSum (beBytes 16 src.toNat ++ beBytes 16 dst.toNat ++ beBytes 4 body.length ++ beBytes 4 58) + wordSum body
  { cls := 1, eth := false, hdr := 0, tag := 0, dst := dst, sport := 0, dport := 0, csum := BitVec.ofNat 16 (65535 - fold16 s), body := body,
    stamp := 0, t2 := 0 }

/-- A Neighbor Solicitation for a target: from the unspecified address while detection runs (R271). -/
def nsFrame (c : PortCfg) (src target : BitVec 128) : TxFrame :=
  icmpFrame src (solicited target) (beBytes 4 (135 * 2 ^ 24) ++ beBytes 4 0 ++ beBytes 16 target.toNat ++
    (if src = 0 then [] else beBytes 2 0x0101 ++ beBytes 6 c.mac.toNat))
/-- A Neighbor Advertisement of an own address. -/
def naFrame (c : PortCfg) (dst target : BitVec 128) (solicitedFlag : Bool) : TxFrame :=
  icmpFrame target dst (beBytes 4 (136 * 2 ^ 24) ++ beBytes 4 (if solicitedFlag then 0x60000000 else 0x20000000)
    ++ beBytes 16 target.toNat ++ beBytes 2 0x0201 ++ beBytes 6 c.mac.toNat)
/-- An MLDv2 report of the joined groups behind a Router Alert option, from the unspecified address while the link-local
one is not valid. -/
def mldFrame (s : PortSt) (c : PortCfg) : TxFrame :=
  let gs := (s.groups c).filter fun g => decide (g ≠ ff02 1)
  { icmpFrame (if s.addr.getD 0 0 = 2 then linkLocal c.mac else 0) (ff02 0x16) (beBytes 4 (143 * 2 ^ 24)
      ++ beBytes 4 gs.length ++ (gs.map fun g => beBytes 4 (4 * 2 ^ 24) ++ beBytes 16 g.toNat).flatten) with hdr := 8 }

/-- A full cache replaces its least recently used entry. -/
def ndInsert (s : PortSt) (e : NdEntry) : PortSt × Bool :=
  if s.nd.length < 64 then ({ s with nd := s.nd ++ [e] }, false)
  else
    let lru := s.nd.foldl (fun m x => min m x.used) s.ndTick
    ({ s with nd := (s.nd.filter fun x => decide (x.used ≠ lru)) ++ [e] }, true)

/-- Send a frame to its destination's next hop through the neighbour cache (R271, R273). -/
def PortSt.send (s : PortSt) (c : PortCfg) (f : TxFrame) : PortSt × SendFlags :=
  let q (r : PortSt × Bool) (nc : Bool) : PortSt × SendFlags := (r.1, ⟨r.2.toNat, nc, false⟩)
  if f.eth || decide (f.dst.toNat / 2 ^ 120 = 0xFF) then q (s.enqueue c f) false
  else match nextHop c f.dst with
    | none => (s, ⟨0, false, true⟩)
    | some hop =>
      let s := { s with ndTick := s.ndTick + 1 }
      let ns := nsFrame c ((sourceAddr s c hop).getD 0) hop
      match s.nd.find? (fun e => e.addr == hop) with
      | some e =>
        let upd (g : NdEntry → NdEntry) : PortSt :=
          { s with nd := s.nd.map fun x => if x.addr = hop then g { x with used := s.ndTick } else x }
        if e.mac.isNone then q (upd (fun x => { x with wait := x.wait ++ [f] }), false) false
        else if e.stale then
          let a := (upd id).enqueue c f
          let b := a.1.enqueue c ns
          (b.1, ⟨a.2.toNat + b.2.toNat, false, false⟩)
        else q ((upd id).enqueue c f) false
      | none =>
        let (s, full) := ndInsert s { addr := hop, mac := none, stale := false, used := s.ndTick, wait := [f] }
        q (s.enqueue c ns) full

/-- A Neighbor Advertisement, or the source of a solicitation, confirms an address (R273). -/
def PortSt.confirm (s : PortSt) (c : PortCfg) (a : BitVec 128) (mac : BitVec 48) : PortSt × Nat :=
  match s.nd.find? (fun e => e.addr == a) with
  | none => (s, 0)
  | some e =>
    let s := { s with nd := s.nd.map fun x =>
      if x.addr = a then { x with mac := some mac, stale := false, wait := [] } else x }
    e.wait.foldl (fun p f => let r := p.1.enqueue c f; (r.1, p.2 + r.2.toNat)) (s, 0)

/-- Link up (R271, R275): every address held runs detection. -/
def PortSt.linkUp (s : PortSt) (c : PortCfg) (mode an : Nat) : PortSt :=
  { s with up := true, mode := mode, an := an, addr := c.addrs.map fun a => if a = 0 then 0 else 1 }
/-- What a port sends at link-up: a solicitation for each address, then an MLD report. -/
def PortSt.upFrames (s : PortSt) (c : PortCfg) : List TxFrame :=
  ((c.addrs.filter fun a => decide (a ≠ 0)).map fun a => nsFrame c 0 a) ++ [mldFrame s c]

/-- Link down: the frames queued stay unless a write restarts the port (R261). -/
def PortSt.linkDown (s : PortSt) : PortSt := { s with up := false, mode := 0, an := 0, addr := [0, 0, 0] }

/-! ### Gates (R267 to R269) -/

/-- The interval of an entry in ns; 0 counts as 1 unit. -/
def gateIntv (e : Nat) : Nat := 8 * max 1 (e % 2 ^ 24)
/-- The gate cycle in ns. -/
def GateList.cycle (g : GateList) : Nat := (g.entries.map gateIntv).foldl (· + ·) 0

/-- The entry at an offset into the cycle, and what is left of it. -/
def gateAt : List Nat → (i off : Nat) → Nat × Nat
  | [], i, _ => (i, 0)
  | e :: es, i, off => if off < gateIntv e then (i, gateIntv e - off) else gateAt es (i + 1) (off - gateIntv e)

/-- Offset into the gate cycle at a time in ns of the PTP clock. -/
def GateList.offset (g : GateList) (now : Nat) : Nat :=
  if g.cycle = 0 then 0 else fmod ((now : Int) - g.base) g.cycle

/-- The gates of the entry in progress; all open without a list in force. -/
def PortSt.gates (s : PortSt) (c : PortCfg) : Nat :=
  if !c.gateEn then 0xFF
  else match s.oper with
    | none => 0xFF
    | some g => g.entries.getD s.entry 0xFF000000 / 2 ^ 24

/-- First cycle start of a list at or after an instant, in ns. -/
def GateList.startAfter (g : GateList) (t : Nat) : Nat :=
  if g.cycle = 0 ∨ t ≤ g.base then
    (if g.cycle = 0 then t else t + fmod ((g.base : Int) - t) g.cycle)
  else t + fmod ((g.base : Int) - t) g.cycle

/-- Line rate of a resolved mode, Mb/s. -/
def lineRate : Nat → Nat
  | 3 => 1000 | 4 => 2500 | 5 => 10000 | 6 => 10 | 7 => 100 | 8 => 1000 | _ => 10

/-- Time a frame takes with its start delimiter and inter-frame gap, in ps. -/
def frameTime (s : PortSt) (c : PortCfg) (f : TxFrame) : Nat := (f.wire c + 20) * 8 * 1000000 / lineRate s.mode

/-- How long queue q stays open from an entry on, in ns, over at most two cycles of entries. -/
def openFor (q : Nat) (first : Nat) : List Nat → Nat
  | [] => first
  | e :: es => if (e / 2 ^ 24).testBit q then openFor q (first + gateIntv e) es else first

/-- The gate of queue q never closes in a list. -/
def alwaysOpen (q : Nat) (g : GateList) : Bool := g.entries.all fun e => (e / 2 ^ 24).testBit q
/-- The longest open window, in ns, of queue q in a list that closes its gate. -/
def longestOpen (q : Nat) (g : GateList) : Nat :=
  let es := g.entries
 ((List.range es.length).map fun i => openFor q 0 ((es ++ es).drop i)).foldl max 0

/-- The queue that transmits next: the highest one whose gate is open and that holds a frame (R266). -/
def PortSt.nextQueue (s : PortSt) (c : PortCfg) : Option (Nat × TxFrame) :=
  ([7, 6, 5, 4, 3, 2, 1, 0].filterMap fun q =>
    if (s.gates c).testBit q then ((s.queues.getD q []).head?).map fun f => (q, f) else none).head?

/-- Drop from each queue's head the frames longer than every open window of the list (R269). -/
def PortSt.gateDrops (s : PortSt) (c : PortCfg) : PortSt × Nat :=
  match c.gateEn, s.oper with
  | true, some g =>
    let qs := s.queues.mapIdx fun q xs => xs.dropWhile fun f => !alwaysOpen q g && decide (1000 * longestOpen q g < frameTime s c f)
    let n := (List.zipWith (fun (a b : List TxFrame) => a.length - b.length) s.queues qs).foldl (· + ·) 0
    ({ s with queues := qs }, n)
  | _, _ => (s, 0)

/-- The frame fits its queue's window at a time in ns (R269). -/
def PortSt.fits (s : PortSt) (c : PortCfg) (now q : Nat) (f : TxFrame) : Bool :=
  match c.gateEn, s.oper with
  | true, some g =>
    let left := (gateAt g.entries 0 (g.offset now)).2
    alwaysOpen q g || decide (frameTime s c f ≤ 1000 * openFor q left ((g.entries ++ g.entries).drop (s.entry + 1)))
  | _, _ => true

end Sys2Proof.Machine
end

