-- ==== Sys2Proof/Machine/Time.lean ====
section
/-! DEFINITION. The PTP clock, protocol and servo, and the waymark pins (chapter 09). The clock and
message times are in 2⁻¹⁶ ns, rates in 2⁻⁴⁰. -/
namespace Sys2Proof.Machine

/-- 2⁻¹⁶ ns units in a nanosecond. -/
def clkNs : Nat := 65536
/-- A waymark pin at reset. -/
def wmk0 : WmkPin := { level := false, held := false, ref := none, fallAt := none }
/-- The time unit at reset. -/
def time0 : TimeUnit :=
  { clock := 0, y := 0, yi := 0, offs := [], lastT2 := none, filt := 0, locked := false, inRun := 0, outRun := 0,
    parent := none, parentId := none, gm := false, fifo := [], pins := List.replicate 4 wmk0 }

/-- Objects of the instance and of a port that TIME reads (Tables 09-2 and 09-7). -/
structure TimeCfg where
  domain : Nat
  prio1 : Nat
  prio2 : Nat
  cls : Nat
  kpsh : Nat
  kish : Nat
  stepThr : Nat
  lockThr : Nat
  dlysh : Nat
  ident : BitVec 64
deriving DecidableEq, Repr

/-- 500 ppm in 2⁻⁴⁰. -/
def ppm500 : Int := 549755814

/-! ### The clock (R284) -/

/-- What the clock advances in `n` fabric clocks: 2.5 ns × (1 + y) each. DESIGN CHOICE: what falls below the 16-bit fraction
is dealt with once for all `n` clocks, and whether it counts up is left open. -/
def clkAdvance (y : Int) (n : Nat) : Nat := (Config.quot (n * (163840 * (2 ^ 40 + y))) (2 ^ 40)).toNat
/-- The clock `n` fabric clocks later. -/
def TimeUnit.at (t : TimeUnit) (n : Nat) : Nat := t.clock + clkAdvance t.y n
/-- Nanoseconds since the epoch at a clock value. -/
def nsOf (c : Nat) : Nat := c / clkNs
/-- Seconds, nanoseconds and 16-bit fraction of a clock value. -/
def clockParts (c : Nat) : Nat × Nat × Nat := (nsOf c / 1000000000 % 2 ^ 48, nsOf c % 1000000000, c % 65536)
/-- A clock value at the resolution `res` of a timestamp (Table 09-3, R300); which neighbour it takes is left open. -/
def atRes (c res : Nat) : Nat := (Config.quot c res).toNat * res

/-- A clock step by a signed amount in 2⁻¹⁶ ns (R294): y_I stays, the filter history and LOCKED are cleared. Pulses that are
high fall at their own end on the new scale (R299). -/
def TimeUnit.stepBy (t : TimeUnit) (d : Int) : TimeUnit :=
  let c := ((t.clock : Int) + d).toNat
  { t with clock := c, pins := t.pins.map fun p => { p with ref := some c }, offs := [], lastT2 := none, locked := false
           inRun := 0, outRun := 0 }

/-- The clock as it is loaded at a start or a rejoin: the servo unlocked and without a parent, outputs waiting for their
first instant after it (R285, R299). -/
def TimeUnit.load (t : TimeUnit) (c : Nat) : TimeUnit :=
  { t.stepBy ((c : Int) - t.clock) with filt := 0, parent := none, parentId := none }

/-! ### Messages (R288 to R291) -/


/-- A PTP message: header, then the body; fields big-endian. -/
def ptpMsg (c : TimeCfg) (ty port seq : Nat) (corr : Int) (logIntv : Nat) (body : Bytes) : Bytes :=
  beBytes 1 ty ++ beBytes 1 0x12 ++ beBytes 2 (34 + body.length) ++ beBytes 1 c.domain ++ beBytes 1 0 ++ beBytes 2 0
    ++ beBytes 8 (ofInt 64 corr).toNat ++ beBytes 4 0 ++ beBytes 8 c.ident.toNat ++ beBytes 2 (port + 1)
    ++ beBytes 2 seq ++ beBytes 1 (match ty with | 0 => 0 | 1 => 1 | 9 => 3 | _ => 5) ++ beBytes 1 logIntv ++ body

/-- Put bytes into a byte string at an offset. -/
def putAt (bs : Bytes) (o : Nat) (x : Bytes) : Bytes := bs.take o ++ x ++ bs.drop (o + x.length)

/-- A frame of class 0 that carries a PTP message: to UDP port 319 or 320 with a trailer on event messages over UDP
(R288, R291). -/
def ptpFrame (pc : PortCfg) (src : BitVec 128) (event peer : Bool) (stamp : Nat) (t2 : Int) (m : Bytes) : TxFrame :=
  let dst := ff02 (if peer then 0x6B else 0x181)
  let p := if event then 319 else 320
  let body := if event && pc.xport == 0 then m ++ zeros 2 else m
  { cls := 0, eth := decide (pc.xport = 1), hdr := 8, tag := 0, dst := dst, sport := p, dport := p, csum := udpChecksum src dst p p body,
    body := body, stamp := stamp, t2 := t2 }

/-- The words of an originTimestamp and of the fraction added to the correction field (Table 09-8). -/
def tsBytes (c : Nat) : Bytes :=
  let (s, ns, _) := clockParts c
  beBytes 6 s ++ beBytes 4 ns

/-- Insert a transmit time into a departing frame (R290 to R292). -/
def insertStamp (f : TxFrame) (ttx : Nat) : TxFrame :=
  let corr0 : Int := (BitVec.ofNat 64 (beAt f.body 8 8)).toInt
  let fin (body : Bytes) (sum : Nat) : TxFrame :=
    -- the trailer keeps the checksum valid
    if f.eth then { f with body := body }
    else { f with body := putAt body (body.length - 2) (beBytes 2 (65535 - fold16 sum)) }
  match f.stamp with
  | 1 =>
    let frac := (clockParts ttx).2.2
    let corr := beBytes 8 (ofInt 64 (corr0 + frac)).toNat
    let ts := tsBytes ttx
    let old := wordSum (slice f.body 8 8)
    -- words inserted replace zeros in the timestamp and change the correction field
    fin (putAt (putAt f.body 34 ts) 8 corr) (wordSum ts + wordSum corr + (65535 - fold16 old))
  | 2 =>
    let corr := beBytes 8 (ofInt 64 (corr0 + ((ttx : Int) - f.t2))).toNat
    let old := wordSum (slice f.body 8 8)
    fin (putAt f.body 8 corr) (wordSum corr + (65535 - fold16 old))
  | 3 =>
    let (s, ns, fr) := clockParts ttx
    let send := leBytes 6 s ++ leBytes 4 ((ns * 65536 + fr) * 65536 / 1000000000)
    let old := wordSum (slice f.body 14 10)
    let ck := fold16 ((65535 - f.csum.toNat) + (65535 - fold16 old) + wordSum send)
    { f with body := putAt f.body 14 send, csum := BitVec.ofNat 16 (if ck = 65535 then 65535 else 65535 - ck) }
  | _ => f

/-! ### Best master clock (R288, R289) -/

/-- The data set of this lane's instance as an Announce. -/
def ownSet (c : TimeCfg) : Announce :=
  { ident := c.ident, srcPort := 0, prio1 := c.prio1, cls := c.cls, acc := 0xFE, var := 0xFFFF, prio2 := c.prio2,
    gm := c.ident, steps := 0 }

/-- Lexicographic order of lists of numbers. -/
def lexLt : List Nat → List Nat → Bool
  | [], _ => false
  | _, [] => false
  | a :: as, b :: bs => decide (a < b) || (decide (a = b) && lexLt as bs)

/-- One data set is better than another: by the grandmaster's attributes, or by topology for the same grandmaster. -/
def betterSet (a b : Announce) : Bool :=
  if a.gm = b.gm then lexLt [a.steps, a.ident.toNat, a.srcPort] [b.steps, b.ident.toNat, b.srcPort]
  else lexLt [a.prio1, a.cls, a.acc, a.var, a.prio2, a.gm.toNat] [b.prio1, b.cls, b.acc, b.var, b.prio2, b.gm.toNat]

/-- The best of the foreign masters qualified at the ports, with its port. -/
def bestForeign (ps : List (PortSt × PortCfg)) : Option (Nat × Announce) :=
  (ps.mapIdx fun i p => (i, p)).foldl (fun b x =>
    match x.2.1.ptp.foreign with
    | none => b
    | some a =>
      if x.2.1.ptp.seen < 2 ∨ x.2.2.role = 0 ∨ x.2.2.role = 2 ∨ !x.2.1.up then b
      else match b with
        | none => some (x.1, a)
        | some (j, y) => if betterSet a y then some (x.1, a) else some (j, y)) none

/-- The state the algorithm gives a port: 0 off, 1 LISTENING, 2 MASTER, 3 SLAVE, 4 PASSIVE. -/
def ptpState (c : TimeCfg) (best : Option (Nat × Announce)) (i : Nat) (p : PortSt × PortCfg) : Nat :=
  let own := ownSet c
  if p.2.role = 0 ∨ !p.1.up ∨ !p.2.enable then 0
  else match best with
    | none => if p.2.role = 3 then 1 else 2
    | some (j, b) =>
      let mine := p.1.ptp.foreign.filter fun _ => decide (2 ≤ p.1.ptp.seen)
      if p.2.role = 2 then 2
      else if c.cls < 128 then
        (match mine with
          | some a => if betterSet own a then 2 else 4
          | none => if p.2.role = 3 then 1 else 2)
      else if betterSet own b then (if p.2.role = 3 then 1 else 2)
      else if i = j then 3
      else match mine with
        | some a => if a.gm = b.gm && betterSet b a then 4 else (if p.2.role = 3 then 1 else 2)
        | none => if p.2.role = 3 then 1 else 2

/-- Run the algorithm: states of the ports, parent, and whether the lane is grandmaster. A new parent clears the filter
history (R293); a lane that becomes grandmaster leaves lock (R296). -/
def runBmca (t : TimeUnit) (c : TimeCfg) (ps : List (PortSt × PortCfg)) : TimeUnit × List PortSt :=
  let best := bestForeign ps
  let sts := ps.mapIdx fun i p => (ptpState c best i p, p.1)
  let parent := (sts.mapIdx fun i s => (i, s.1)).findSome? fun x => if x.2 = 3 then some x.1 else none
  let from' := parent.bind fun i => ((ps.map (·.1)).getD i port0).ptp.foreign.map fun a => (a.ident, a.srcPort)
  let changed := decide (parent ≠ t.parent) || decide (from' ≠ t.parentId)
  let t := { t with parent := parent, parentId := from', gm := parent.isNone && sts.any (fun s => s.1 == 2) }
  let t := if changed then { t with offs := [], lastT2 := none, inRun := 0, outRun := 0,
                                    locked := t.locked && parent.isSome && !t.gm } else t
  let t := if changed && parent.isNone then { t with y := t.yi, locked := false } else t
  (t, sts.map fun s => { s.2 with ptp :=
    if s.1 = 3 && changed then { s.2.ptp with st := s.1, delay := none, d21 := none, sync := none }
    else { s.2.ptp with st := s.1 } })

/-! ### The servo (R293 to R297) -/

/-- What an offset does to the servo, besides the unit itself: clamp flag, step count. -/
structure ServoOut where
  slewLim : Bool
  stepped : Bool
deriving DecidableEq, Repr

/-- An offset o, in 2⁻¹⁶ ns, of a Sync received at t2. -/
def TimeUnit.offset (t : TimeUnit) (c : TimeCfg) (o t2 : Int) : TimeUnit × ServoOut :=
  let offs := (o :: t.offs).take 3
  let T := match t.lastT2 with | some p => t2 - p | none => 0
  let t := { t with offs := offs, lastT2 := some t2 }
  match offs with
  | [a, b, d] =>
    let m := mid3 a b d
    let t := { t with filt := m }
    if c.stepThr * 65536 < m.natAbs then
      (t.stepBy (-m), ⟨false, true⟩)
    else
      -- rate terms 2^−K × õ / T in 2⁻⁴⁰; the rounding of the quotient is left open
      let q (k : Nat) : Int := Config.quot (m * 2 ^ 40) (2 ^ k * T.toNat)
      let yi0 := t.yi - q c.kish
      let yi := clampI (-ppm500) ppm500 yi0
      let y0 := yi - q c.kpsh
      let y := clampI (-ppm500) ppm500 y0
      let ok := decide (m.natAbs ≤ c.lockThr * 65536)
      let inRun := if ok then min 16 (t.inRun + 1) else 0
      let outRun := if ok then 0 else min 4 (t.outRun + 1)
      let locked := if t.locked then decide (outRun < 4) else decide (inRun = 16)
      ({ t with y := y, yi := yi, inRun := if t.locked && !locked then 0 else inRun, outRun := outRun, locked := locked },
        ⟨decide (yi ≠ yi0) || decide (y ≠ y0), false⟩)
  | _ => (t, ⟨false, false⟩)

/-- A new path delay measurement (R293). -/
def pathDelay (old : Option Int) (sh : Nat) (new : Int) : Int :=
  match old with
  | none => new
  | some d => d + Config.quot (new - d) (2 ^ sh)

/-- Lock lost for want of Syncs (R296). DEDUCED: y runs on until the next update (R295), since the lane holds over at y_I
only without a parent (R297). -/
def TimeUnit.loseLock (t : TimeUnit) : TimeUnit := { t with locked := false, inRun := 0, outRun := 0 }

/-! ### Waymarks (R298 to R300) -/

/-- A waymark pin's objects; `start` is the first clock value, in 2⁻¹⁶ ns, that is not before START. -/
structure WmkCfg where
  mode : Nat
  edge : Nat
  start : Nat
  period : Nat
  width : Nat
  unlocked : Nat
deriving DecidableEq, Repr

/-- An output is held low: UNLOCKED is 1 and the servo is not locked (R298). -/
def WmkCfg.held (c : WmkCfg) (locked : Bool) : Bool := decide (c.mode = 2 ∧ c.unlocked = 1) && !locked
/-- A pin under the state of the servo: held low or let go; one let go rises at its next instant. -/
def WmkPin.hold (p : WmkPin) (c : WmkCfg) (locked : Bool) : WmkPin :=
  if c.held locked then { p with held := true, level := false, fallAt := none } else { p with held := false }

/-- The last instant START + k × PERIOD, in 2⁻¹⁶ ns, that the clock has reached. -/
def wmkInstant (c : WmkCfg) (clk : Nat) : Option Nat :=
  if clk < c.start ∨ c.period = 0 then none
  else some (c.start + (clk - c.start) / (c.period * clkNs) * (c.period * clkNs))

/-- A rise that is due: an instant reached and not yet passed (R298, R299). -/
def WmkPin.rise (p : WmkPin) (c : WmkCfg) (clk : Nat) (locked : Bool) : Option WmkPin :=
  if c.mode ≠ 2 then none
  else match wmkInstant c clk with
    | none => none
    | some i =>
      if (match p.ref with | none => true | some r => decide (r < i)) then
        let held := c.held locked
        some { level := !held, held := held, ref := some i, fallAt := if held then none else some (i + c.width * clkNs) }
      else none

/-- A fall that is due (R298, R299). -/
def WmkPin.fall (p : WmkPin) (clk : Nat) : Option WmkPin :=
  match p.fallAt with
  | some e => if e ≤ clk then some { p with level := false, fallAt := none } else none
  | none => none

/-- The resolution of an event stamp: 0.5 ns (R300). -/
def halfNs : Nat := 32768

end Sys2Proof.Machine
end

