-- ==== Sys2Proof/Machine/LaneOps.lean ====
section
/-! DEFINITION. What a lane's units read of its dictionary, keys and agreed image. -/
namespace Sys2Proof.Machine

/-! ### Dictionary values -/

/-- A field's value. -/
def Dict.get (d : Dict) (idx sub : Nat) : Bytes := mget objDflt d.vals (objKey idx sub)
/-- A field's value as a number. -/
def Dict.nat (d : Dict) (idx sub : Nat) : Nat := leNat (d.get idx sub)
/-- Write a field's value. -/
def Dict.put (d : Dict) (idx sub : Nat) (v : Bytes) : Dict := { d with vals := mset objDflt d.vals (objKey idx sub) v }
/-- Age of an object that a partner writes: slots since its last write was applied (R53). -/
def Dict.objAge (d : Dict) (s : BitVec 64) (idx sub : Nat) : Nat :=
  match d.written.find? fun x => decide (x.1 = objKey idx sub) with
  | none => 16777215
  | some x => min 16777215 (s - x.2).toNat
/-- A signed field. -/
def Dict.int (d : Dict) (idx sub : Nat) : Int :=
  let v := d.get idx sub
  (BitVec.ofNat (8 * v.length) (leNat v)).toInt
/-- A BOOL field. -/
def Dict.flag (d : Dict) (idx sub : Nat) : Bool := d.nat idx sub == 1
/-- A big-endian address held as OCTETS. -/
def Dict.addr (d : Dict) (idx sub : Nat) : BitVec 128 := BitVec.ofNat 128 (beNat (fit 16 (d.get idx sub)))
/-- An element of an array field. -/
def Dict.elem (d : Dict) (idx sub sz i : Nat) : Nat := natAt (d.get idx sub) (sz * i) sz

/-- The objects of the active model: of a pending model's objects, their active values (R70). -/
def Lane.activeObj (l : Lane) (idx sub : Nat) : Bytes :=
  mget (fun k => mget objDflt l.dict.vals k) l.solver.held (objKey idx sub)
/-- The objects as written, the pending model's among them. -/
def Lane.pendingObj (l : Lane) (idx sub : Nat) : Bytes := l.dict.get idx sub

/-! ### Unit configuration -/

/-- A metering channel (Table 07-1). -/
def Dict.mtrChan (d : Dict) (ch : Nat) : ChanObj :=
  { scale := d.nat (0x2020 + ch) 1, offset := d.int (0x2020 + ch) 2, trim := d.nat (0x2020 + ch) 3 }
/-- A feeder (Table 07-2). -/
def Dict.feederCfg (d : Dict) (f : Nat) : FeederCfg :=
  let i := 0x2010 + f
  { enable := d.flag i 1, refPhase := d.nat i 2, zcTimeout := d.nat i 3, latchN := d.nat i 4, vnom := d.nat i 5,
    inom := d.nat i 6, sagPct := d.nat i 7, pnom := nomPeriod (d.nat 0x2000 1),
    chans := (List.range 6).map fun k => d.mtrChan (6 * f + k) }
/-- A thermal circuit (Table 08-2). -/
def Dict.circCfg (d : Dict) (c : Nat) : CircCfg :=
  let i := 0x3010 + c
  { enable := d.flag i 1, cold := d.nat i 2 == 1, supply := d.nat i 3, ret := d.nat i 4, src := d.nat i 5, sel := d.nat i 6,
    vpp := d.nat i 7, kf := d.nat i 8, retPipe := d.nat i 9 == 1, ain := d.nat i 0xA == 1, pconst := d.nat i 0xB,
    psel := d.nat i 0xC, pscale := d.nat i 0xD, poffset := d.nat i 0xE, ktable := d.nat i 0xF == 1,
    latchN := d.nat i 0x10, flowAvg := d.nat i 0x11, freqTo := d.nat i 0x12,
    kt := words4 (d.get i 0x13) 0 1089, ktMin := d.nat i 0x14, ktMax := d.nat i 0x15 }
/-- A pulse output (R256). -/
def Dict.vpoCfg (d : Dict) (o : Nat) : VpoCfg :=
  let i := 0x3100 + o
  { enable := d.flag i 1, thm := d.nat i 2 == 1, unit := d.nat i 3, reg := d.nat i 4, weight := max 1 (d.nat i 5),
    width := d.nat i 6 }
/-- The FLOWSRC of the lowest-numbered enabled circuit that names a pulse input, 0 for none (R239). -/
def Dict.namedMode (d : Dict) (n : Nat) : Nat :=
  let names (c : Nat) : Bool :=
    d.flag (0x3010 + c) 1 && decide (1 ≤ d.nat (0x3010 + c) 5) && decide (d.nat (0x3010 + c) 5 ≤ 3)
      && d.nat (0x3010 + c) 6 == n
  match (List.range 8).find? names with
  | some c => d.nat (0x3010 + c) 5
  | none => 0
/-- The mode of a pulse input: 2 frequency, 3 either half of a pair, else it counts (R239). The circuit that decides
input 2k decides whether 2k and 2k + 1 form a pair. -/
def Dict.pulseMode (d : Dict) (n : Nat) : Nat := if d.namedMode (n - n % 2) = 3 then 3 else d.namedMode n
/-- A loop (Table 05-1). -/
def Dict.loopCfg (d : Dict) (n : Nat) : LoopCfg :=
  let i := 0x4000 + n
  { enable := d.flag i 1, rate := d.nat i 2, phase := d.nat i 3, firstSec := d.nat i 4, nsec := d.nat i 5,
    inKind := d.nat i 6, inSel := d.nat i 7, inScale := d.nat i 8, inOffset := d.nat i 9, spKind := d.nat i 0xA,
    spSel := d.nat i 0xB, spConst := d.nat i 0xC, spScale := d.nat i 0xD, spOffset := d.nat i 0xE, dir := d.flag i 0xF,
    gain := d.nat i 0x10, offset := d.nat i 0x11, lo := d.nat i 0x12, hi := d.nat i 0x13, dest := d.nat i 0x14,
    destIdx := d.nat i 0x15, vzero := d.nat i 0x16, vspan := d.nat i 0x17, runSrc := d.nat i 0x18,
    offMode := d.nat i 0x19, offVal := d.nat i 0x1A, opts := d.nat i 0x1B }
/-- A port of a lane by lane-local index (Table 09-2). -/
def Dict.portCfg (d : Dict) (lane : LaneId) (p : Nat) : PortCfg :=
  let i := 0x8000 + 16 * lane.num + p
  let mac := beNat (fit 6 (d.get i 3))
  { enable := d.flag i 1, mode := d.nat i 2,
    mac := if mac = 0 then macDefault Config.serial.toNat (16 * lane.num + p) else BitVec.ofNat 48 mac,
    pvid := d.nat i 4, vlans := (List.range 16).map fun k => d.elem i 5 2 k, txvid := d.nat i 6, addr0 := d.addr i 7,
    plen0 := d.nat i 8, addr1 := d.addr i 9, plen1 := d.nat i 0xA, router := d.addr i 0xB, role := d.nat i 0xC,
    xport := d.nat i 0xD, peer := d.nat i 0xE == 1, tcmap := (List.range 5).map fun k => d.elem i 0x14 1 k,
    gateEn := d.flag i 0x15, udpPort := d.nat 0x8040 1 }
/-- The written gate list of a port. -/
def Dict.gateList (d : Dict) (lane : LaneId) (p : Nat) : GateList :=
  let i := 0x8000 + 16 * lane.num + p
  { base := time80ns (d.get i 0x16), entries := (List.range (d.nat i 0x18)).map fun k => d.elem i 0x17 4 k }
/-- The PTP instance (Table 09-7). -/
def Dict.timeCfg (d : Dict) (lane : LaneId) : TimeCfg :=
  { domain := d.nat 0x1300 1, prio1 := d.nat 0x1300 2, prio2 := d.nat 0x1300 3, cls := d.nat 0x1300 4,
    kpsh := d.nat 0x1300 5, kish := d.nat 0x1300 6, stepThr := d.nat 0x1300 7, lockThr := d.nat 0x1300 8,
    dlysh := d.nat 0x1300 9,
    ident := BitVec.ofNat 64 (0x024A * 2 ^ 48 + Config.serial.toNat % 2 ^ 32 * 2 ^ 16 + 0x0A + lane.num) }
/-- A waymark pin of a lane (R298). -/
def Dict.wmkCfg (d : Dict) (lane : LaneId) (w : Nat) : WmkCfg :=
  let i := 0x1310 + 4 * lane.num + w
  { mode := d.nat i 1, edge := d.nat i 2, start := time80Clk (d.get i 3), period := d.nat i 4, width := d.nat i 5,
    unlocked := d.nat i 6 }

/-! ### Keys (R335, R336) -/

/-- Generation of a domain by its code. -/
def Gens.dom (g : Gens) : Nat → Nat
  | 1 => g.ses | 2 => g.sst | 3 => g.agr | _ => g.sto
/-- Generation of a leaf. -/
def Gens.leafGen (g : Gens) (dom num : Nat) : Nat := mget (fun _ => 0) g.leaf (65536 * dom + num)
/-- The path of a leaf under generations in force. -/
def Gens.path (g : Gens) (dom num : Nat) : KeyPath :=
  { dom := dom, num := num, gDev := g.dev, gDom := g.dom dom, gLeaf := g.leafGen dom num }
/-- Labels of the domains and of their leaves (Table 11-1). -/
def domLabel : Nat → Bytes
  | 1 => ascii "LJ3-SES" | 2 => ascii "LJ3-SUB" | 3 => ascii "LJ3-AGR" | _ => ascii "LJ3-STO"
def leafLabel : Nat → Bytes
  | 1 => ascii "LJ3-PTN" | 2 => ascii "LJ3-SST" | 3 => ascii "LJ3-LAN" | _ => ascii "LJ3-IMG"
/-- The fuse root as a byte string. -/
def rootKey : Bytes := beBytes 32 Config.fuseRoot.toNat
/-- The device key. -/
def deviceKey (gDev : Nat) : Bytes := kdf rootKey (ascii "LJ3-DEV") (leBytes 8 Config.serial.toNat ++ leBytes 4 gDev) 2
/-- The key of a path (R335). -/
def KeyPath.key (p : KeyPath) : Bytes :=
  let dom := kdf (deviceKey p.gDev) (domLabel p.dom) (leBytes 4 p.gDev ++ leBytes 4 p.gDom) 2
  kdf dom (leafLabel p.dom) (leBytes 4 p.gDom ++ leBytes 4 p.gLeaf ++ leBytes 2 p.num) 2
/-- The key of a leaf under the generations in force in a lane. -/
def Lane.leafKey (l : Lane) (dom num : Nat) : Bytes := (l.keyA.gens.path dom num).key
/-- The agreement key of a source lane, as the tag engines hold it (R339). -/
def Lane.agreementKey (l : Lane) (src : LaneId) : Bytes :=
  match l.key.engines[src.num]? with
  | some p => p.key
  | none => []

/-! ### Times -/

/-- Agreed district time in ns. -/
def Image.dtNsTotal (g : Image) : Nat := g.dtSec.toNat * 1000000000 + g.dtNs.toNat
/-- Whole µs of a lane's own time base. -/
def TbUnit.us (t : TbUnit) : Nat := t.tb.toNat / 2 ^ 32
/-- The lane's own time base set to a whole number of µs. -/
def TbUnit.setUs (t : TbUnit) (us : Nat) : TbUnit := { t with tb := BitVec.ofNat 96 (us * 2 ^ 32) }
/-- The time base `n` fabric clocks later: 0.0025 µs × (1 + κ) each, rounded to the last bit of the fraction (R184). -/
def TbUnit.advance (t : TbUnit) (n : Nat) : TbUnit :=
  { t with tb := t.tb + BitVec.ofInt 96 (Config.quot (n * (1000000000000000 + t.kappa) * 2 ^ 32) 400000000000000000) }
/-- κ_target (R185): the servo's frequency term while it is locked, else from the oscillator count. -/
def kappaTarget (t : TbUnit) (u : TimeUnit) : Int :=
  if u.locked then Config.quot (u.yi * 1000000000000000) (2 ^ 40)
  else Config.quot ((800000000 - (t.rtcN : Int)) * 1000000000000000) t.rtcN
/-- One step of κ (R184); answers whether it stands at a limit. -/
def TbUnit.steer (t : TbUnit) (u : TimeUnit) : TbUnit × Bool :=
  let k := t.kappa + clampI (-50000) 50000 (kappaTarget t u - t.kappa)
  let k := clampI (-100000000000) 100000000000 k
  ({ t with kappa := k }, decide (k.natAbs = 100000000000))

/-! ### Points of substations (R279, R332) -/

/-- Key of a point. -/
def pointKey (sub p : Nat) : Nat := 16 * sub + p
/-- A point as stored: value bits, quality, sample time, slot of admission; none when it has carried no value. -/
def Dict.point (d : Dict) (sub p : Nat) : Option (Nat × Nat × BitVec 80 × BitVec 64) :=
  (d.points.find? fun x => decide (x.1 = pointKey sub p)).map (·.2)
/-- Age of a point in a slot (R53). -/
def Dict.pointAge (d : Dict) (s : BitVec 64) (sub p : Nat) : Nat :=
  match d.point sub p with
  | none => 16777215
  | some x => min 16777215 (s.toNat - x.2.2.2.toNat)
/-- A point's value in binary64, and whether it is older than the STALE limit of its substation. -/
def Dict.pointVal (d : Dict) (s : BitVec 64) (sub p : Nat) : Nat × Bool :=
  let stale := decide (d.nat (0xA000 + sub) 7 < d.pointAge s sub p)
  match d.point sub p with
  | none => (0, stale)
  | some x => (fconv fmt32 fmt64 x.1, stale)

/-! ### Changes every unit makes -/

/-- Apply a function to the lane's registers. -/
def Lane.reg (l : Lane) (f : RegMap → RegMap) : Lane := { l with regs := f l.regs }
/-- A change of an object held in the dictionary image (R469): DIRTY, and a class 1 commit due in this slot. -/
def Lane.touchImage (l : Lane) : Lane :=
  { l with nvm := { l.nvm with dirty := true, dirtySince := l.slot, dict := { l.nvm.dict with queued := true } } }
/-- An uncorrectable error of a cause, reported at the next roll call (R382); the first cause stays until it is sent. -/
def Lane.raiseUce (l : Lane) (cause : Nat) : Lane :=
  { l with regs := fset l.regs f_LCTL_RJSTAT_UCECAUSE cause
           rep := { l.rep with uce := if l.rep.uce = 0 then cause else l.rep.uce } }
/-- Send an output frame (R58, Table 02-7). -/
def Lane.emit (l : Lane) (me : LaneId) (kind idx value : Nat) : Lane :=
  { l with sent := l.sent ++ [outFrame l.slot me kind idx value] }
/-- A journal record (R333). -/
def Lane.journal (l : Lane) (code src idx sub : Nat) (data : Bytes) : Lane :=
  let c := fget l.regs f_XACT_COMMITNUM_NUM
  let j : JRec := { slot := l.slot, code := code, src := src, idx := idx, sub := sub, data := fit 32 data, commit := c }
  { l with dict := { l.dict with journal := l.dict.journal ++ [j], journalCount := l.dict.journalCount + 1 } }
/-- A journal record of which the spec states only the code: the rest is free. -/
def Lane.journalFree (l : Lane) (code src : Nat) : Lane :=
  let v := (Config.recordRest code l.slot).toNat
  l.journal code src (v % 65536) (v / 65536 % 256) (leBytes 32 (v / 2 ^ 24))
/-- An EVENT to every session that enables it (R326), sent at the end of the slot. -/
def Lane.event (l : Lane) (code : Nat) (data : Bytes) : Lane := { l with evq := l.evq ++ [(code, data, 0xFF)] }
/-- An agreed event that is a cause of Table 15-7; the arbiter raises it at its next strobe (R455). -/
def Lane.cause (l : Lane) (v : Nat) : Lane := { l with irq := l.irq ||| 2 ^ v }
/-- Remove the keys of a sparse map that a predicate rejects. -/
def mfilter {α : Type} (p : Nat → Bool) (m : NMap α) : NMap α := m.filter fun x => p x.1

end Sys2Proof.Machine
end

