-- ==== Sys2Proof/Machine/Loops.lean ====
section
/-! DEFINITION. The loop engine in a lane (chapter 05): sources, due loops, output frames, bank swaps, resets and traces. -/
namespace Sys2Proof.Machine

/-! ### Loops of a lane -/

/-- A loop at a start. -/
def loopState0 : LoopState :=
  { running := false, bank := false, pend := false, clamp := 0, nonfin := false, rawOut := 0, out := 0, err := 0, nfcnt := 0 }
/-- A loop's state. -/
def Lane.loop (l : Lane) (n : Nat) : LoopState := mget (fun _ => loopState0) l.leng.loops n
/-- Write a loop's state. -/
def Lane.setLoop (l : Lane) (n : Nat) (x : LoopState) : Lane :=
  { l with leng := { l.leng with loops := mset (fun _ => loopState0) l.leng.loops n x } }
/-- A section's states. -/
def Lane.sec (l : Lane) (s : Nat) : BitVec 64 × BitVec 64 := mget (fun _ => (0, 0)) l.leng.secs s
/-- Write a section's states. -/
def Lane.setSec (l : Lane) (s : Nat) (x : BitVec 64 × BitVec 64) : Lane :=
  { l with leng := { l.leng with secs := mset (fun _ => (0, 0)) l.leng.secs s x } }
/-- Zero the states of a range of sections (R164). -/
def Lane.zeroSecs (l : Lane) (first n : Nat) : Lane :=
  { l with leng := { l.leng with secs := mfilter (fun s => !(decide (first ≤ s) && decide (s < first + n))) l.leng.secs } }

/-- The enabled loops in ascending number: ENABLE is 0 by default, so every enabled loop is listed. -/
def Dict.enabledLoops (d : Dict) : List Nat :=
  d.vals.filterMap fun p =>
    if p.1 % 256 = 1 ∧ 0x4000 ≤ p.1 / 256 ∧ p.1 / 256 < 0x4200 ∧ leNat p.2 = 1 then some (p.1 / 256 - 0x4000) else none
/-- A loop is due in a slot (R159). -/
def LoopCfg.due (c : LoopCfg) (s : BitVec 64) : Bool := c.enable && decide (s.toNat % rateD c.rate = c.phase)
/-- A VAO (1) or VDO (2) is loop-owned (R151). -/
def Dict.loopOwned (d : Dict) (kind idx : Nat) : Bool :=
  d.enabledLoops.any fun n => d.nat (0x4000 + n) 0x14 == kind && d.nat (0x4000 + n) 0x15 == idx

/-- Coefficients of a section in a bank (R156). -/
def Dict.coef (d : Dict) (s : Nat) (bank : Bool) : Coef :=
  let v := d.get (0x4400 + s / 16) (4 * (s % 16) + bank.toNat)
  let f (k : Nat) : Nat := widen (natAt v (4 * k) 4)
  { b0 := f 0, b1 := f 1, b2 := f 2, a1 := f 3, a2 := f 4 }
/-- FRZ of a section. -/
def Dict.frz (d : Dict) (s : Nat) : Bool := d.flag (0x4400 + s / 16) (4 * (s % 16) + 2)

/-! ### Sources (Table 05-2) -/

/-- An agreed metering quantity as visible since t1 (R220, Table 01-7); a disabled feeder's read 0.0 (R215). -/
def Lane.mtrQuantity (l : Lane) (sel : Nat) : Nat :=
  if l.dict.flag (0x2010 + sel % 4) 1 then
    mget (fun _ => 0) (l.feeders.getD (sel % 4) feeder0).qVis (qKey (sel / 256) (sel / 16 % 4))
  else 0
/-- An agreed thermal quantity (R247); a disabled circuit's read 0.0 (R248). -/
def Lane.thmQuantity (l : Lane) (sel : Nat) : Nat :=
  if sel / 256 < 0x10 then
    if !l.dict.flag (0x3010 + sel % 16) 1 then 0 else mget (fun _ => 0) (l.thm.circs.getD (sel % 16) circ0).qVis (tqKey (sel / 256) (sel % 16))
  else mget (fun _ => 0) l.thm.qVis (tqKey (sel / 256) (sel % 16))

/-- Where a trajectory of Table 04-7 is published: index, subindex, first element and stride of its values. -/
def trajObject (sel : Nat) : Nat × Nat × Nat × Nat :=
  let n := sel / 2 ^ 8 % 2 ^ 16
  match sel / 2 ^ 24 with
  | 0x61 => (0x6100 + n, 1, 0, 1)
  | 0x62 => (0x6140 + n, 1, 0, 1)
  | 0x63 => (0x6160 + n, 1, 0, 1)
  | 0x64 => (0x6260 + n, 1, 0, 1)
  | _ => (0x6400 + n / 256, n % 256, sel % 4, 3)

/-- A trajectory value at the agreed district time (R153). -/
def Lane.trajectory (l : Lane) (hold : Bool) (sel : Nat) : Nat :=
  match l.solver.last.result with
  | none => 0
  | some p =>
    let o := trajObject sel
    let xs := mget (fun _ => []) p.traj (objKey o.1 o.2.1)
    let v (k : Nat) : Nat := widen (vAt xs (o.2.2.1 + o.2.2.2 * k))
    let dt := p.dt * 1000000000
    let n := p.n
    let tau : Int := (l.img.dtNsTotal : Int) - p.grid
    if tau < 0 then (Config.trajBefore o.1 o.2.2.1 tau).toNat
    else
      let k := tau.toNat / dt
      if n ≤ k + 1 ∨ hold = true then v (min k (n - 1))
      else
        let f := fofRatio fmt64 (tau.toNat % dt : Nat) dt
        fadd fmt64 (v k) (fmul fmt64 f (fsub fmt64 (v (k + 1)) (v k)))

/-- A W word that a loop reads: an output word from the published image, any other as it stands in the lane (R152). -/
def loopWord (wordIn : Nat → Int) (pub : OutImage) (a : Nat) : Int :=
  if 0x8000 ≤ a ∧ a ≤ 0x900F then getW pub a else wordIn a

/-- The raw value of a source, binary64 bits. -/
def Lane.rawValue (l : Lane) (wordIn : Lane → Nat → Int) (hold : Bool) (kind sel : Nat) : Nat :=
  match kind with
  | 1 => (l.loop (sel % 512)).out.toNat
  | 2 => fofInt fmt64 (l.img.ain.getD (sel % 32) (0, false)).1
  | 3 => l.mtrQuantity sel
  | 4 => l.thmQuantity sel
  | 5 => widen (match l.dict.point (sel / 2 ^ 16 % 4096) (sel % 16) with | some x => x.1 | none => 0)
  | 6 => fofInt fmt64 (loopWord (wordIn l) l.lseq.pub (sel % 65536))
  | 7 => l.trajectory hold sel
  | _ => 0

/-! ### One loop in a slot (R154 to R163) -/

/-- A value converted for the loop's destination and sent (R158). -/
def Lane.emitLoop (l : Lane) (me : LaneId) (c : LoopCfg) (u : Nat) : Lane :=
  match c.dest with
  | 1 => l.emit me 1 c.destIdx (vaoCode u (widen c.vzero) (widen c.vspan))
  | 2 => l.emit me 2 c.destIdx (vdoBit u (widen c.lo) (widen c.hi)).toNat
  | _ => l

/-- The run condition (R162): the run-enable bit of the image in force. -/
def Lane.runs (l : Lane) (c : LoopCfg) (n : Nat) : Bool :=
  l.leng.active && c.enable && (c.runSrc == 0 || (l.lseq.run ≠ 0 && getQ l.lseq.pub (0x100 + n)))

/-- What the loops of a slot hand on: sections computed, emission of the last frame in 1.6 ns, and the nodes of every
loop computed, with its clamp states before and after. -/
structure LoopPass where
  secs : Nat
  emit : Nat
  nodes : List (Nat × LoopResult × Nat × Nat)
deriving DecidableEq, Repr

/-- One due loop. -/
def Lane.loopSlot (l : Lane) (me : LaneId) (wordIn : Lane → Nat → Int) (p : LoopPass) (n : Nat) : Lane × LoopPass :=
  let c := l.dict.loopCfg n
  let x := l.loop n
  if !c.due l.slot then (l, p)
  else if x.running then
    let ss := (List.range c.nsec).map fun j =>
      let s := c.firstSec + j
      { coef := l.dict.coef s x.bank, frz := l.dict.frz s, s1 := (l.sec s).1.toNat, s2 := (l.sec s).2.toNat : Section }
    let hold := c.opts.testBit 2
    let r := loopCompute c ss (x.clamp ≠ 0) (l.rawValue wordIn hold c.inKind c.inSel)
      (l.rawValue wordIn hold c.spKind c.spSel)
    let l := (r.secs.mapIdx fun j o => (j, o)).foldl (fun l o =>
      l.setSec (c.firstSec + o.1) (BitVec.ofNat 64 o.2.2.1, BitVec.ofNat 64 o.2.2.2)) l
    let x' := { x with clamp := r.clamp, nonfin := r.nonfin, rawOut := BitVec.ofNat 64 r.raw, out := BitVec.ofNat 64 r.out
                       err := BitVec.ofNat 64 r.e, nfcnt := satAdd 0xFFFFFFFF x.nfcnt r.nonfin.toNat }
    let l := l.setLoop n x'
    let l := if r.nonfin then l.reg fun m =>
        fset (fset (fflag (fbump m f_LENG_STAT_NFCNT) f_LENG_STAT_NONFIN) f_LENG_NFLAST_LOOP n) f_LENG_NFLAST_SLOT
          (l.slot.toNat % 65536)
      else l
    (l.emitLoop me c r.out,
      { secs := p.secs + c.nsec, emit := if c.dest = 0 then p.emit else 250 + 2 * (p.secs + c.nsec - 1),
        nodes := p.nodes ++ [(n, r, x.clamp, r.clamp)] })
  else if c.offMode = 1 then
    let u := widen c.offVal
    ((l.setLoop n { x with out := BitVec.ofNat 64 u }).emitLoop me c u,
      { p with emit := if c.dest = 0 then p.emit else 250 + 2 * p.secs })
  else (l, p)

/-- The loops that ran in the slot before and are not enabled any more. -/
def Lane.stoppedLoops (l : Lane) : List Nat :=
  (l.leng.loops.filter fun p => p.2.running && !l.dict.flag (0x4000 + p.1) 1).map (·.1)
/-- The run conditions of the slot; a loop that becomes running with RSTONEN starts from zero states (R162, R163). -/
def Lane.loopRuns (l : Lane) : Lane :=
  let l := l.stoppedLoops.foldl (fun l n => l.setLoop n { l.loop n with running := false }) l
  l.dict.enabledLoops.foldl (fun l n =>
    let c := l.dict.loopCfg n
    let x := l.loop n
    let r := l.runs c n
    let l := if r && !x.running && c.opts.testBit 1 then l.zeroSecs c.firstSec c.nsec else l
    if r = x.running then l else l.setLoop n { x with running := r }) l

/-! ### Traces (R170 to R172) -/

/-- Settings of a trace channel. -/
def Lane.traceCfg (l : Lane) (c : Nat) : TraceCfg :=
  let f (x : Fld) : Nat := fget l.regs (x.at (0x20 * c))
  { mode := f f_LENG_TRTRIG_MODE, link := f f_LENG_TRTRIG_LINK, prePct := f f_LENG_TRTRIG_PREPCT,
    level := f f_LENG_TRLEVHI_LEVHI * 2 ^ 32 + f f_LENG_TRLEVLO_LEVLO }

/-- The node value of a computed loop; none where the section position is beyond the cascade (R171). -/
def nodeValue (r : LoopResult) (node sec : Nat) : Option Nat :=
  match node with
  | 0 => some r.x
  | 1 => some r.e
  | 2 => if sec < r.secs.length then some (if sec = 0 then r.e else (r.secs.getD (sec - 1) (0, 0, 0)).1) else none
  | 3 => (r.secs[sec]?).map (·.1)
  | 4 => some r.raw
  | 5 => some r.out
  | _ => none

/-- A trace channel. -/
def Lane.traceOf (l : Lane) (c : Nat) : TraceChan := l.leng.traces.getD c traceChan0
/-- Change a trace channel. -/
def Lane.modTrace (l : Lane) (c : Nat) (f : TraceChan → TraceChan) : Lane :=
  { l with leng := { l.leng with traces := lmod l.leng.traces c f } }

/-- Record one channel's sample of the slot. -/
def Lane.traceOne (l : Lane) (nodes : List (Nat × LoopResult × Nat × Nat)) (c : Nat) : Lane :=
  let f (x : Fld) : Nat := fget l.regs (x.at (0x20 * c))
  match nodes.find? fun x => decide (x.1 = f f_LENG_TRSRC_LOOP) with
  | none => l
  | some (_, r, was, now) =>
    match nodeValue r (f f_LENG_TRSRC_NODE) (f f_LENG_TRSRC_SEC) with
    | none => l
    | some v =>
      let g := l.traceCfg c
      let t := traceSample g (l.traceOf g.link).trigSlot.isSome l.slot v was now (l.traceOf c)
      let l := l.modTrace c fun _ => t.1
      if t.2 then l.reg fun m => fflag m (f_LENG_TRSTAT_PRESHORT.at (0x20 * c)) else l

/-- How many channels stand between a channel and one that is not LINKED. -/
def Lane.linkDepth (l : Lane) : (fuel : Nat) → Nat → Nat
  | 0, _ => 0
  | k + 1, c => if (l.traceCfg c).mode = 6 then 1 + l.linkDepth k (l.traceCfg c).link else 0

/-- The samples of a slot, a channel after the one it follows. -/
def Lane.traceSlot (l : Lane) (nodes : List (Nat × LoopResult × Nat × Nat)) : Lane :=
  if nodes.isEmpty then l
  else
    let live := (List.range 16).filter fun c => (l.traceOf c).st == 1 || (l.traceOf c).st == 2
    (List.range 17).foldl (fun l d =>
      (live.filter fun c => l.linkDepth 16 c == d).foldl (fun l c => l.traceOne nodes c) l) l

/-- ARM, STOP and FORCE (R172). -/
def Lane.traceArm (l : Lane) (c : Nat) : Lane :=
  l.modTrace c fun _ => Sys2Proof.Machine.traceArm (fget l.regs (f_LENG_TRDEPTH_DEPTH.at (0x20 * c)))
def Lane.traceStop (l : Lane) (c : Nat) : Lane := l.modTrace c fun t => { t with st := 0 }
def Lane.traceForce (l : Lane) (c : Nat) : Lane :=
  l.modTrace c fun t => if t.st = 1 then { t with force := true } else t

/-! ### The engine's slot -/

/-- All due loops in ascending number, then the traces (Table 01-5). -/
def Lane.loopsSlot (l : Lane) (me : LaneId) (wordIn : Lane → Nat → Int) : Lane :=
  if !l.leng.active then l
  else
    let l := l.loopRuns
    let s := l.dict.enabledLoops.foldl (fun s n => s.1.loopSlot me wordIn s.2 n) (l, ⟨0, 0, []⟩)
    let p := s.2
    (s.1.traceSlot p.nodes).reg fun m =>
      let m := fmax (fset m f_LENG_SECLOAD_LASTSEC p.secs) f_LENG_SECLOAD_MAXSEC p.secs
      fmax (fset m f_LENG_EMIT_LASTEMIT p.emit) f_LENG_EMIT_MAXEMIT p.emit

/-! ### Bank swaps and resets (R164, R167, Table 05-7) -/

/-- A swap request that has no effect. -/
def Lane.swapIgnored (l : Lane) : Lane :=
  l.reg fun m => fflag (fbump m f_LENG_SWAPCNT_IGNORED) f_LENG_STAT_SWAPIGN

/-- A swap request for one loop. -/
def Lane.swapLoop (l : Lane) (n : Nat) : Lane :=
  let x := l.loop n
  if !l.dict.flag (0x4000 + n) 1 || x.pend then l.swapIgnored else l.setLoop n { x with pend := true }

/-- A swap request for every enabled loop of a group. -/
def Lane.swapGroup (l : Lane) (g : Nat) : Lane :=
  (l.dict.enabledLoops.filter fun n => decide (l.dict.nat (0x4000 + n) 0x1B / 16 = g)).foldl (fun l n => l.swapLoop n) l

/-- Step 5 of Table 01-6 for one loop: BANK toggles, SWAPPEND clears and RSTONSWAP decides the states. -/
def Lane.swapApply (l : Lane) (n : Nat) : Lane :=
  let c := l.dict.loopCfg n
  let x := l.loop n
  if x.pend && c.due l.slot then
    let l := l.setLoop n { x with pend := false, bank := !x.bank }
    let l := if c.opts.testBit 0 then l.zeroSecs c.firstSec c.nsec else l
    (l.reg fun m => fflag (fbump m f_LENG_SWAPCNT_APPLIED) f_LENG_STAT_SWAPDONE).touchImage
  else l

/-- Step 5 for every loop due with a swap pending. -/
def Lane.step5Run (l : Lane) : Lane :=
  if l.step5 then l
  else { (l.dict.enabledLoops.foldl (fun l n => l.swapApply n) l) with step5 := true }

/-- RESET of a loop (R164). -/
def Lane.loopReset (l : Lane) (n : Nat) : Lane :=
  l.zeroSecs (l.dict.nat (0x4000 + n) 4) (l.dict.nat (0x4000 + n) 5)

/-! ### What registers and objects show -/

/-- STATUS of a loop (Table 05-1). -/
def loopStatus (x : LoopState) : Nat :=
  x.running.toNat + 2 * x.bank.toNat + 4 * x.pend.toNat + 8 * (decide (x.clamp = 1)).toNat
    + 16 * (decide (x.clamp = 2)).toNat + 32 * x.nonfin.toNat

/-- LENG's read-only fields. -/
def Lane.lengView (l : Lane) (m : RegMap) : RegMap :=
  let m := fbool m f_LENG_STAT_ACTIVE l.leng.active
  let x := l.loop (fget m f_LENG_BANKSEL_LOOP)
  let m := fbool (fbool m f_LENG_BANKSEL_PENDING x.pend) f_LENG_BANKSEL_BANK x.bank
  (List.range 16).foldl (fun m c =>
    let t := l.traceOf c
    let o := 0x20 * c
    fset (fset (fset m (f_LENG_TRSTAT_STATE.at o) t.st) (f_LENG_TRSTAT_TRIGIDX.at o) t.trigIdx) (f_LENG_TRPTR_WRPTR.at o)
      t.wrptr) m

/-- A section's block in the section window (Table 05-4). -/
def Lane.sectionBlock (l : Lane) (s : Nat) : Bytes :=
  let o := 4 * (s % 16)
  let i := 0x4400 + s / 16
  fit 20 (l.dict.get i o) ++ fit 20 (l.dict.get i (o + 1)) ++ leBytes 1 (l.dict.frz s).toNat ++ zeros 7
    ++ leBytes 8 (l.sec s).1.toNat ++ leBytes 8 (l.sec s).2.toNat

/-- A record of the trace ring that LENG_TRPAGE shows, by its number in the window. -/
def Lane.traceRecord (l : Lane) (i : Nat) : Bytes :=
  let t := l.traceOf (fget l.regs f_LENG_TRPAGE_CHAN)
  let x := mget (fun _ => ((0 : BitVec 64), (0 : BitVec 64))) t.ring (65536 * fget l.regs f_LENG_TRPAGE_PAGE + i)
  leBytes 8 x.1.toNat ++ leBytes 8 x.2.toNat

end Sys2Proof.Machine
end

