-- ==== Sys2Proof/Machine/LogicSlot.lean ====
section
/-! DEFINITION. The logic sequencer in a lane (chapter 06): capture, publication, execution, restarts, image changes and
retain records. -/
namespace Sys2Proof.Machine

/-- A small change of the sequencer. -/
def Lane.seq (l : Lane) (f : Lseq → Lseq) : Lane := { l with lseq := f l.lseq }

/-! ### What the program sees (Tables 06-2, 06-4, 06-5) -/

/-- An I bit. -/
def Lane.bitInput (l : Lane) (a : Nat) : Bool :=
  if a ≤ 0x3F then l.img.din.getLsbD a
  else if a ≤ 0x5F then (l.img.ain.getD (a - 0x40) (0, false)).2
  else if a ≤ 0x77 then (l.img.mtr.getD (a - 0x60) (0, false)).2
  else if 0x100 ≤ a ∧ a ≤ 0x8FF then
    let x := l.loop ((a - 0x100) / 4)
    match a % 4 with
    | 0 => x.running
    | 1 => x.clamp == 1
    | 2 => x.clamp == 2
    | _ => x.nonfin
  else if 0x1000 ≤ a ∧ a ≤ 0x103F then
    let n := (a - 0x1000) / 4
    match a % 4 with
    | 0 => l.word.island.stopping.getLsbD n
    | 1 => l.word.island.stopped.getLsbD n
    | 2 => l.word.island.fault.getLsbD n
    | _ => l.word.island.restartable.getLsbD n
  else if 0x2000 ≤ a ∧ a ≤ 0x200F then (l.feeders.getD ((a - 0x2000) / 4) feeder0).flags.testBit (a % 4)
  else if 0x4000 ≤ a ∧ a ≤ 0x43FF then l.dict.flag (0x5100 + (a - 0x4000) / 64) (1 + (a - 0x4000) % 64)
  else false

/-- A quantity word of the active image's quantity table (Table 06-8). -/
def Lane.quantityWord (l : Lane) (n : Nat) : Int :=
  match l.lseq.image with
  | none => 0
  | some im =>
    let e := (im.quant.getD n 0).toNat
    let sel := e % 2 ^ 31
    let q := if e.testBit 31 then (if thmSelOk sel then some (l.thmQuantity sel) else none)
      else if mtrSelOk sel then some (l.mtrQuantity sel) else none
    match q with
    | some x => toWord (fmul fmt64 x (widen (e / 2 ^ 32)))
    | none => 0

/-- An input word (Table 06-4). -/
def Lane.wordInput (l : Lane) (a : Nat) : Int :=
  if a ≤ 0x1F then (l.img.ain.getD a (0, false)).1
  else if 0x100 ≤ a ∧ a ≤ 0x2FF then toWord (fmul fmt64 (l.loop (a - 0x100)).out.toNat (fofInt fmt64 65536))
  else if 0x300 ≤ a ∧ a ≤ 0x4FF then toWord (fmul fmt64 (l.loop (a - 0x300)).rawOut.toNat (fofInt fmt64 65536))
  else if 0x500 ≤ a ∧ a ≤ 0x6FF then toWord (l.loop (a - 0x500)).err.toNat
  else if 0x800 ≤ a ∧ a ≤ 0x8FF then l.quantityWord (a - 0x800)
  else if 0x10000 ≤ a ∧ a ≤ 0x1FFFF then
    match l.dict.point ((a - 0x10000) / 16) (a % 16) with
    | some x => toWord (fmul fmt64 (widen x.1) (fofInt fmt64 1000))
    | none => 0
  else if 0x20000 ≤ a ∧ a ≤ 0x2FFFF then (l.dict.pointAge l.slot ((a - 0x20000) / 16) (a % 16) : Nat)
  else 0

/-- The force table's enabled entries with their numbers, ascending (R198). -/
def Dict.forces (d : Dict) : List (Nat × BitVec 64) :=
  d.vals.filterMap fun p =>
    let i := p.1 / 256
    let v := BitVec.ofNat 64 (leNat p.2)
    if 0x5200 ≤ i ∧ i ≤ 0x520F ∧ 1 ≤ p.1 % 256 ∧ v.getLsbD 32 = true then some (64 * (i - 0x5200) + p.1 % 256 - 1, v) else none

/-- An S bit. -/
def Lane.sBit (l : Lane) (a : Nat) : Bool :=
  match a with
  | 0 => true
  | 6 => l.lseq.pubSeen
  | 7 => l.mask.count == 3
  | 8 => l.mask.count == 2
  | 9 => l.mask.count == 1
  | 0xA => l.word.sync
  | 0xB => !l.dict.forces.isEmpty
  | 0xC => l.lseq.ownDropPrev
  | _ => decide (2 ≤ a) && decide (a ≤ 5) && l.lseq.first.testBit a

/-! ### Cycles (R173, R186, R462) -/

/-- L of the active image, 200 without one. -/
def Lane.logicLen (l : Lane) : Nat := match l.lseq.image with | some im => im.len | none => 200
/-- A cycle begins in this slot: by its length, or by a RESTART. -/
def Lane.cycleStarts (l : Lane) : Bool :=
  l.leng.active && (l.lseq.restart.isSome
    || (l.lseq.run != 2 && decide ((l.slot - l.lseq.cycle).toNat = l.logicLen)))
/-- The blanket image is to be published in this slot (R195, R197). -/
def Lane.blanketNow (l : Lane) : Bool :=
  l.lseq.blanketDue && (l.lseq.restart.isSome || decide ((l.slot - l.lseq.cycle).toNat = l.logicLen))

/-- An image published with its output frames (R179). -/
def Lane.publish (l : Lane) (me : LaneId) (o : OutImage) : Lane :=
  let l := l.seq fun q => { q with pub := o }
  let owned := l.dict.enabledLoops.map fun n => (l.dict.nat (0x4000 + n) 0x14, l.dict.nat (0x4000 + n) 0x15)
  let l := (List.range 4).foldl (fun l g =>
    let outs := (List.range 16).filter fun i => !owned.contains (2, 16 * g + i)
    let mask := (outs.map fun i => 2 ^ i).sum
    let vals := (outs.map fun i => if getQ o (16 * g + i) then 2 ^ i else 0).sum
    if mask = 0 then l else l.emit me 3 g (mask * 65536 + vals)) l
  let vaos := match l.lseq.image with
    | none => []
    | some im => (List.range 16).filter fun n => imageWrites im 6 (0x9000 + n) && !owned.contains (1, n)
  let l := vaos.foldl (fun l n => l.emit me 1 n (clampI 0 65535 (getW o (0x9000 + n))).toNat) l
  l.emit me 4 0 ((List.range 16).map fun n => if getQ o (0x1000 + n) then 2 ^ n else 0).sum

/-- The captured image of the addresses the program uses, with the input forces (R174, R199). -/
def Lane.capture (l : Lane) : Lane :=
  match l.lseq.image with
  | none => l
  | some im =>
    let ops := im.prog.filter fun w => !(opAreas (opOf w)).isEmpty
    let inI := ops.foldl (fun m w => if areaOf w = 0 then mset (fun _ => false) m (addrOf w) (l.bitInput (addrOf w)) else m) []
    let inW := ops.foldl (fun m w =>
      if areaOf w = 6 ∧ (addrOf w < 0x8000 ∨ 0x10000 ≤ addrOf w) then mset (fun _ => 0) m (addrOf w) (l.wordInput (addrOf w))
      else m) []
    let fs := l.dict.forces.map (·.2)
    let inI := fs.foldl (fun m e => if entArea e = 0 then mset (fun _ => false) m (entAddr e) (e.getLsbD 0) else m) inI
    let inW := fs.foldl (fun m e =>
      if entArea e = 6 ∧ (entAddr e < 0x8000 ∨ 0x10000 ≤ entAddr e) then
        mset (fun _ => 0) m (entAddr e) (BitVec.ofNat 32 (entVal e)).toInt
      else m) inW
    l.seq fun q => { q with inI := inI, inW := inW }

/-- B of the active image (R194). -/
def Lane.budget (l : Lane) : Nat := seqBudget (l.dict.nat 0x5000 2) l.logicLen
/-- B is below W_c of the active image. -/
def Lane.budgetLow (l : Lane) : Bool :=
  match l.lseq.image with | some im => decide (l.budget < im.wc) | none => false

/-! ### Step 6 (R174, R195 to R197) -/

/-- An image with nothing in it, to change from when none is active. -/
def emptyImage : LImage :=
  { id := 0, len := 200, prog := [], consts := [], timers := [], counters := [], edges := 0, wc := 0, depth := 0, tag := [],
    blanket := [], quant := [], raw := [] }

/-- The blanket image of the image that was stopped, which a swap at the RESTART may already have replaced (R196, R197). -/
def Lane.blanket (l : Lane) : OutImage :=
  let owned (kind : Nat) := l.dict.enabledLoops.filterMap fun n =>
    if l.dict.nat (0x4000 + n) 0x14 = kind then some (l.dict.nat (0x4000 + n) 0x15) else none
  let im := (l.lseq.stopImg.orElse fun _ => l.lseq.image).getD emptyImage
  blanketImage im.blanket (owned 2).contains
    (fun n => imageWrites im 6 (0x9000 + n) && !(owned 1).contains n) l.lseq.pub

/-- The state a RESTART leaves for its first cycle (R197). -/
def Lane.restartState (l : Lane) (tl : Nat) : Lane :=
  match l.lseq.restart with
  | none => l
  | some false =>
    (l.seq fun q =>
      let r := resumeTimers ((tl : Int) - q.stopTl) q
      { r with restart := none, run := 1, due := false, nextFirst := q.nextFirst ||| 16 }).reg
      fun m => fset m f_LSEQ_STAT_STARTMODE 3
  | some true =>
    (l.seq fun q =>
      let r := coldClear q
      { r with restart := none, run := 1, due := false, nextFirst := q.nextFirst ||| 4 }).reg
      fun m => fset m f_LSEQ_STAT_STARTMODE 4

/-- Step 6 of Table 01-6: publication of the cycle that ended, or of the blanket image; then, when a cycle begins, the
capture, the forces and the start of execution. -/
def Lane.step6Run (l : Lane) (me : LaneId) : Lane :=
  if l.step6 then l
  else
    let l := { l with step6 := true }
    let l := if l.blanketNow then
        (l.publish me l.blanket).seq fun q => { q with blanketDue := false, stopImg := none }
      else l
    if !l.cycleStarts then l
    else
      let l := if l.lseq.due && l.lseq.restart.isNone then l.publish me (applyForces (l.dict.forces.map (·.2)) l.lseq.own) else l
      let tl := max l.lseq.tl l.img.tb.toNat
      -- retained timers resume with the stored elapsed time
      let l := if l.lseq.nextFirst.testBit 3 then l.seq (resumeTimers ((tl : Int) - l.lseq.tl)) else l
      let l := l.restartState tl
      let l := l.seq fun q => { q with
        tl := tl, cycle := l.slot, due := false, first := q.nextFirst, nextFirst := 0, pubSeen := q.published
        published := decide (l.solver.last.result.isSome) && decide (l.solver.last.pubSlot = l.slot)
        ownDropPrev := q.ownDrop, ownDrop := false, work := q.own }
      match l.lseq.image with
      | none => l.seq fun q => { q with due := true, own := ⟨[], []⟩ }
      | some _ => l.capture.seq fun q => { q with
          exec := { running := true, idx := 0, acc := false, wacc := 0, stack := [], clocks := 2400, budget := l.budget } }

/-! ### Execution -/

/-- A store that the word makes to a loop-owned output (R179). -/
def Lane.dropsStore (l : Lane) (w : Word) : Bool :=
  let op := opOf w
  let a := addrOf w
  let stores := op == 8 || op == 9 || ((op == 0xA || op == 0xB) && l.lseq.exec.acc)
  (stores && areaOf w == 1 && decide (a ≤ 0x3F) && l.dict.loopOwned 2 a)
  || (op == 0x39 && decide (0x9000 ≤ a) && l.dict.loopOwned 1 (a - 0x9000))

/-- The end of an execution: its cost, and what END or the watchdog leaves (R183, R195). -/
def Lane.execEnd (l : Lane) : Lane :=
  let c := l.lseq.exec.clocks / 64
  let l := l.reg fun m => fmax (fsat m f_LSEQ_EXEC_LASTEXEC c) f_LSEQ_EXEC_MAXEXEC c
  if l.lseq.run = 2 then
    let i := l.lseq.exec.idx
    (((l.reg fun m => fset (fflag m f_LSEQ_STAT_OVERRUN) f_LSEQ_STOPAT_INDEX i).journalFree 6 0xFF).event 6 (leBytes 4 i)).cause 7
      |>.seq fun q => { q with own := q.work, stopImg := q.image }
  else l.seq fun q => { q with due := true, own := q.work }

/-- One instruction of the program, with the watchdog. -/
def Lane.instr (l : Lane) (im : LImage) (w : Word) : Lane :=
  let drop := l.dropsStore w && decide (l.lseq.exec.clocks + opClocks (opOf w) ≤ l.lseq.exec.budget)
  let l := if drop then (l.seq fun q => { q with ownDrop := true }).reg fun m => fflag m f_LSEQ_STAT_OWNDROP else l
  let l := l.seq fun q => seqStep im l.sBit l.lseq.exec.budget q w
  if l.lseq.exec.running then l else l.execEnd

/-- The word at the index of an execution in progress. -/
def Lane.nextInstr (l : Lane) : Option (LImage × Word) :=
  if l.lseq.exec.running then
    match l.lseq.image with
    | some im => (im.prog[l.lseq.exec.idx]?).map fun w => (im, w)
    | none => none
  else none

/-- Run to END or the watchdog; every path is forward, so the program's length bounds the instructions (R181). -/
def Lane.runLogic : (fuel : Nat) → Lane → Lane
  | 0, l => l
  | k + 1, l => match l.nextInstr with | some (im, w) => Lane.runLogic k (l.instr im w) | none => l
/-- The whole rest of an execution. -/
def Lane.finishLogic (l : Lane) : Lane :=
  match l.lseq.image with | some im => Lane.runLogic im.prog.length l | none => l

/-- The instruction a command names: one execution of it where it is the next one of the program. -/
def Lane.instrCmd (l : Lane) (op area addr : Nat) : Lane :=
  match l.nextInstr with
  | some (im, w) => if opOf w = op ∧ areaOf w = area ∧ addrOf w = addr then l.instr im w else l
  | none => l

/-- The cost of the next instruction would exceed the budget (R195). -/
def Lane.watchdogDue (l : Lane) : Bool :=
  match l.nextInstr with
  | some (_, w) => decide (l.lseq.exec.budget < l.lseq.exec.clocks + opClocks (opOf w))
  | none => false
/-- The watchdog stop. -/
def Lane.watchdogStop (l : Lane) : Lane :=
  match l.nextInstr with | some (im, w) => if l.watchdogDue then l.instr im w else l | none => l

/-- Execution has not ended by the strobe of slot c + L (R176). -/
def Lane.execLate (l : Lane) : Bool :=
  l.lseq.exec.running && decide (l.logicLen ≤ (l.slot - l.lseq.cycle).toNat)
/-- The lane publishes nothing for that cycle and reports. -/
def Lane.execTimeout (l : Lane) : Lane :=
  if l.execLate then (l.seq fun q => { q with exec := { q.exec with running := false }, due := false }).raiseUce 5 else l

/-- RESTART at step 1 (R197). -/
def Lane.requestRestart (l : Lane) (cold : Bool) : Lane :=
  if l.lseq.run = 2 then l.seq fun q => { q with restart := some cold }
  else l.reg fun m => fbump m f_LSEQ_FORCE_IGNRESTART

/-! ### Image load and change (R191 to R193, R201) -/

/-- A field of the load and change report. -/
def Lane.report20 (l : Lane) (sub : Nat) (v : Bytes) : Lane := { l with dict := l.dict.put 0x5020 sub v }

/-- The result of a load check, in LSEQ_LOADRES and object 0x5020. -/
def Lane.loadResult (l : Lane) (code idx wc depth : Nat) (id : Nat) : Lane :=
  ((((((l.report20 1 (leBytes 1 code)).report20 2 (leBytes 4 idx)).report20 3 (leBytes 4 wc)).report20 4 (leBytes 1 depth)
    ).report20 9 (leBytes 4 id)).report20 0xA [0]).reg fun m => fset (fset m f_LSEQ_LOADRES_CODE code) f_LSEQ_LOADRES_INDEX idx

/-- The checks of R192 in order; TIME only where `time`. -/
def Lane.checkImage (l : Lane) (bs : Bytes) (time : Bool) : (Nat × Nat) × Nat × Nat :=
  if cmac (l.leafKey 4 2) (untagged bs) ≠ slice bs 37 16 then ((1, 0), 0, 0)
  else
    let r := imageCheck bs
    if r.1.1 = 0 ∧ time = true ∧ seqBudget (l.dict.nat 0x5000 2) (decImage bs).len < r.2.1 then ((10, 0), r.2) else r

/-- The addresses of an image's stores, coded as in an instruction. -/
def storeCodes (im : LImage) : List Nat :=
  (im.prog.filterMap fun w =>
    if (8 ≤ opOf w ∧ opOf w ≤ 0xB ∧ areaOf w = 1) ∨ opOf w = 0x39 then some (areaOf w * 2 ^ 20 + addrOf w) else none
    ).foldl (fun acc c => if acc.contains c then acc else acc ++ [c]) []

/-- The end of a load check: the image is pending, or refused (R192, R193). -/
def Lane.imageChecked (l : Lane) : Lane :=
  match l.lseq.checking with
  | none => l
  | some (bs, c) =>
    let r := l.checkImage bs true
    let im := decImage bs
    let l := (l.seq fun q => { q with checking := none }).loadResult r.1.1 r.1.2 r.2.1 r.2.2 im.id.toNat
    if r.1.1 ≠ 0 then l.reg fun m => fflag m f_LSEQ_STAT_REFUSED
    else
      let owned := (storeCodes im).filter fun a =>
        if a / 2 ^ 20 = 1 then decide (a % 2 ^ 20 ≤ 0x3F) && l.dict.loopOwned 2 (a % 2 ^ 20)
        else decide (0x9000 ≤ a % 2 ^ 20) && l.dict.loopOwned 1 (a % 2 ^ 20 - 0x9000)
      let l := l.report20 7 (owned.map (leBytes 4)).flatten
      let l := if l.lseq.pendImg.isSome then l.report20 0xA [1] else l
      l.seq fun q => { q with pendImg := some (im, c) }

/-- The pending image swaps in this slot (R193). -/
def Lane.swapDue (l : Lane) : Bool :=
  match l.lseq.pendImg with
  | some (_, c) => l.cycleStarts && decide (c.toNat + 100 ≤ l.slot.toNat)
  | none => false

/-- The forces row of Table 06-12. -/
def Lane.dropForces (l : Lane) (im : LImage) : Lane :=
  let gone := l.dict.forces.filter fun f => !imageUses im (entArea f.2) (entAddr f.2)
  let l := gone.foldl (fun l f => { l with dict := l.dict.put (0x5200 + f.1 / 64) (1 + f.1 % 64) (zeros 8) }) l
  (l.report20 5 (gone.map fun f => leBytes 2 f.1).flatten).reg fun m => fbump m f_LSEQ_FORCE_REMOVED gone.length

/-- Step 3 of Table 01-6: the pending image swaps in with the state that Table 06-12 carries over. -/
def Lane.imageSwap (l : Lane) : Lane :=
  match l.lseq.pendImg with
  | none => l
  | some (im, _) =>
    let old := l.lseq.image.getD emptyImage
    let cold := l.lseq.restart == some true
    let l := l.dropForces im
    let q0 := l.lseq
    let kept := if cold then coldClear q0 else carryOver old im q0
    let disc (k : Nat) (f : Nat → Bool) : Nat := ((List.range k).filter f).length
    let n := [disc old.timers.length fun i => !(decide (i < im.timers.length) && timerType old i == timerType im i),
              disc old.counters.length fun i => !(decide (i < im.counters.length) && counterType old i == counterType im i),
              old.edges - im.edges]
    let orphans := (storeCodes old).filter fun c => !(storeCodes im).contains c
    let l := if cold then l
      else (l.report20 6 (orphans.map (leBytes 4)).flatten).report20 8 (n.map (leBytes 2)).flatten
    let l := l.seq fun _ => { kept with image := some im, pendImg := none, run := if q0.run = 2 then 2 else 1
                                        nextFirst := kept.nextFirst ||| 32 }
    let l := { l with nvm := { l.nvm with logic := { l.nvm.logic with queued := true } } }
    -- the cycle that ends here is published by the old image's length, and the new one begins in this slot
    (l.seq fun q => { q with cycle := l.slot - BitVec.ofNat 64 im.len }).reg fun m => fflag m f_LSEQ_STAT_SWAPPED

/-- Step 3, once in a slot; a lane whose check has not ended by the swap slot reports (R193). -/
def Lane.step3Run (l : Lane) : Lane :=
  if l.step3 then l
  else
    let l := { l with step3 := true }
    if l.swapDue then l.imageSwap else l

/-- The check of a committed image has not ended by the slot in which it would swap in. -/
def Lane.checkLate (l : Lane) : Bool :=
  match l.lseq.checking with
  | some (_, c) => l.cycleStarts && decide (c.toNat + 100 ≤ l.slot.toNat)
  | none => false

/-! ### Retain records (R203, R204) -/

/-- The period of RETAINPER that a logic time lies in. -/
def Lane.retainPeriod (l : Lane) : Nat := l.lseq.tl / (1000 * max 1 (l.dict.nat 0x5000 5))
/-- A retain record is due: the cycle that ended crossed the period. -/
def Lane.retainDue (l : Lane) : Bool :=
  l.lseq.run == 1 && l.lseq.image.isSome && l.lseq.due && decide (l.retainPeriod ≠ l.lseq.lastRetain)

/-- The retain record of the present state. -/
def Lane.retainRecord (l : Lane) (im : LImage) : RetainRec :=
  { valid := true, seq := l.lseq.retainSeq + 1, imageId := im.id, flags := l.lseq.flags, counters := l.lseq.counters,
    edges := l.lseq.edges,
    timers := l.lseq.timers.filterMap fun p =>
      if timerRetain im p.1 then some (p.1, p.2, ((l.lseq.tl : Int) - p.2.start).toNat) else none }

/-- Write it over the older of the two records. -/
def Lane.retainWrite (l : Lane) : Lane :=
  match l.lseq.image with
  | none => l
  | some im =>
    let r := l.retainRecord im
    let l := l.seq fun q => { q with retainSeq := r.seq, lastRetain := l.retainPeriod }
    { l with nvm := if r.seq.getLsbD 0 then { l.nvm with retA := r } else { l.nvm with retB := r } }

/-- A WARM start loads a settled retain record (R204). -/
def Lane.warmLoad (l : Lane) (r : RetainRec) : Lane :=
  l.seq fun q => { q with
    flags := r.flags, counters := r.counters, edges := r.edges, retainSeq := r.seq
    timers := r.timers.map fun p => (p.1, { p.2.1 with start := (q.tl : Int) - p.2.2 }) }

/-! ### What registers show -/

/-- LSEQ's read-only fields. -/
def Lane.lseqView (l : Lane) (m : RegMap) : RegMap :=
  let q := l.lseq
  let m := fset m f_LSEQ_STAT_RUN q.run
  let m := fbool (fbool m f_LSEQ_STAT_PENDING q.pendImg.isSome) f_LSEQ_STAT_BUDGETLOW l.budgetLow
  let m := fset (fset m f_LSEQ_CYCLE_LSLOTS (match q.image with | some im => im.len | none => 0)) f_LSEQ_CYCLE_BUDGETPCT
    (l.dict.nat 0x5000 2)
  let m := fset m f_LSEQ_WCET_WCET (match q.image with | some im => im.wc | none => 0)
  let m := fset m f_LSEQ_IMAGEID_ID (match q.image with | some im => im.id.toNat | none => 0)
  let m := fset m f_LSEQ_FORCE_ACTIVE l.dict.forces.length
  let m := fset (fset m f_LSEQ_LTLO_LTLO (q.tl % 2 ^ 32)) f_LSEQ_LTHI_LTHI (q.tl / 2 ^ 32)
  let m := fbool m f_LSEQ_TBCORR_SRC l.time.locked
  fset m f_LSEQ_TBCORR_KAPPA (ofInt 24 (Config.quot (l.tbu.kappa * 2 ^ 32) 1000000000000000)).toNat

end Sys2Proof.Machine
end

