-- ==== Sys2Proof/Machine/MeterSlot.lean ====
section
/-! DEFINITION. Metering in a lane (chapters 07 and 08): the metering instant of a slot, latches, presets, totals, trips,
conversions and pulse inputs. -/
namespace Sys2Proof.Machine

/-! ### Electrical feeders -/

/-- A feeder, and a change of one. -/
def Lane.feeder (l : Lane) (f : Nat) : Feeder := l.feeders.getD f feeder0
def Lane.modFeeder (l : Lane) (f : Nat) (g : Feeder → Feeder) : Lane := { l with feeders := lmod l.feeders f g }

/-- A feeder's sample of the slot, scaled (R209). -/
def Lane.mtrSample (l : Lane) (c : FeederCfg) (f : Nat) : MtrSample :=
  { slot := l.slot.toNat, clip := (List.range 6).any fun k => (l.img.mtr.getD (6 * f + k) (0, false)).2
    x := (List.range 6).map fun k => mtrScale (c.chans.getD k ⟨0, 0, 0⟩) (l.img.mtr.getD (6 * f + k) (0, false)).1 }

/-- One sample with what the registers record of it: timeouts and the last crossing. -/
def Lane.feederSample (l : Lane) (c : FeederCfg) (f : Nat) (s : MtrSample) (next : List Nat) : Lane :=
  let x := l.feeder f
  let r := x.sample c s next
  let l := l.modFeeder f fun _ => r.1
  let l := if r.2 then l.reg fun m => fbump m { f_MTR_ZCTO_TO0 with hi := 8 * f + 7, lo := 8 * f } else l
  if r.1.crossed && (!x.crossed || decide (r.1.lastCross ≠ x.lastCross)) then
    let n := s.slot - 1
    l.reg fun m => fset (fset m (f_MTR_ZCLAST_SLOT.at (4 * f)) n) (f_MTR_ZCLAST_OFFSET.at (4 * f))
      (r.1.lastCross - 5000 * (n : Int) + 700).toNat
  else l

/-- A feeder's part of the metering instant: acquisition, then the sample, one slot late while a current trim is negative
(R209, R215). -/
def Lane.feederWork (l : Lane) (f : Nat) : Lane :=
  let c := l.dict.feederCfg f
  if !c.enable then l.modFeeder f fun x => { x with mode := .off, q := [], held := none, prev := none }
  else
    let l := if (l.feeder f).mode = .off then l.modFeeder f fun x => x.begin c l.slot.toNat else l
    let s := l.mtrSample c f
    let held := (l.feeder f).held
    if feederLate c then
      match held with
      | none => l.modFeeder f fun x => { x with held := some s }
      | some h => (l.feederSample c f h s.x).modFeeder f fun x => { x with held := some s }
    else
      match held with
      | none => l.feederSample c f s s.x
      | some h => ((l.feederSample c f h s.x).feederSample c f s s.x).modFeeder f fun x => { x with held := none }

/-- The closes and credits of a feeder in this slot, once (R212 to R223). -/
def Lane.feederCloses (l : Lane) (f : Nat) : Lane :=
  if (l.feeder f).stage = 0 then (l.feederWork f).modFeeder f fun x => { x with stage := 1 } else l

/-- The latch of a feeder in this slot, after every close (R227). -/
def Lane.feederLatch (l : Lane) (f : Nat) : Lane :=
  let l := l.feederCloses f
  let x := l.feeder f
  if x.stage = 1 then
    let l := l.modFeeder f fun x => { x with stage := 2 }
    let c := l.dict.feederCfg f
    if c.enable && x.latchDue c then
      { (l.modFeeder f fun x => x.latch f) with thm := { l.thm with want := some l.slot } }.reg fun m =>
        forBits m f_MTR_STAT_LATCHED (2 ^ f)
    else l
  else l

/-- A lane that is running and has not tripped meters (R215, R231). -/
def Lane.meters (l : Lane) : Bool := l.leng.active && l.trip.isNone

/-- All feeders (Table 01-5). -/
def Lane.mtrSlot (l : Lane) : Lane :=
  if l.meters then (List.range 4).foldl (fun l f => l.feederLatch f) l else l

/-! ### Thermal circuits -/

/-- A circuit, and a change of one. -/
def Lane.circ (l : Lane) (c : Nat) : Circ := l.thm.circs.getD c circ0
def Lane.modCirc (l : Lane) (c : Nat) (g : Circ → Circ) : Lane :=
  { l with thm := { l.thm with circs := lmod l.thm.circs c g } }

/-- New agreed resistance codes reach their channels (R236, R237). -/
def Lane.rtdTake (l : Lane) : Lane :=
  let cs := l.thm.chans.mapIdx fun n c =>
    let x := l.img.rtd.getD n (0, false)
    if x.2 then RtdChan.take c (l.dict.nat (0x3020 + n) 1 == 1) (l.dict.nat (0x3020 + n) 2) x.1 else c
  { l with thm := { l.thm with chans := cs } }

/-- A circuit latches in this slot: a boundary of the agreed time base was passed since the slot before (R248). -/
def Lane.circLatchDue (l : Lane) (c : Nat) : Bool := thmLatchDue (l.dict.circCfg c) l.thm.tbPrev l.img.tb
/-- The latch of a circuit, before the credit of the slot. -/
def Lane.circLatch (l : Lane) (c : Nat) : Lane :=
  if l.circLatchDue c then
    let l := l.modCirc c fun x => x.latch c (l.dict.circCfg c) l.slot l.img.tb
    { l with thm := { l.thm with want := some l.slot } }.reg fun m => forBits m f_THM_STAT_LATCHED (2 ^ c)
  else l

/-- The latches of the slot, once. -/
def Lane.thmLatches (l : Lane) : Lane :=
  if l.thm.stage = 0 then
    let l := (List.range 8).foldl (fun l c => l.circLatch c) l
    { l with thm := { l.thm with stage := 1 } }
  else l

/-- The credit of one circuit (R242 to R247). -/
def Lane.circSlot (l : Lane) (c : Nat) : Lane :=
  let g := l.dict.circCfg c
  let l := l.modCirc c fun x =>
    let a := if x.acc.start.isSome then x.acc else { x.acc with start := some l.slot, startTb := l.img.tb }
    { x with acc := { a with last := l.slot } }
  if !g.enable then l.modCirc c Circ.idle
  else
    let chan (n : Nat) : RtdChan := l.thm.chans.getD n ⟨true, 0⟩
    let ts := (chan g.supply).temp
    let tr := (chan g.ret).temp
    let fault := (chan g.supply).fault || (chan g.ret).fault
    let h := slotHeat g ts tr (l.img.ain.getD (g.psel % 32) (0, false)).1 (l.thm.counts.getD (g.sel % 16) [])
      (l.dict.pointVal l.slot (g.sel / 2 ^ 16 % 4096) (g.sel % 16))
    l.modCirc c fun x => x.slot c g h ts tr fault

/-- Channel and input quantities (Table 08-4). -/
def Lane.thmInputs (l : Lane) : NMap Nat :=
  (List.range 16).foldl (fun q n =>
    let mode := l.dict.pulseMode n
    let h := l.thm.counts.getD n []
    let put (q : NMap Nat) (code v : Nat) : NMap Nat := mset (fun _ => 0) q (tqKey code n) v
    let q := put q 0x10 (l.thm.chans.getD n ⟨true, 0⟩).temp
    let q := put q 0x11 (if mode = 2 ∨ (mode = 3 ∧ n % 2 = 1) then 0 else edgeRate h)
    let p := (h.headD 0).toNat
    put q 0x12 (if mode = 2 ∧ p ≠ 0 then fdivide fmt64 (fofInt fmt64 10240000) (fofInt fmt64 p) else 0)) []

/-- The merge of the agreed flask, at the metering instant of the slot after first agreement (R254). -/
def Lane.flaskMerge (l : Lane) : Lane :=
  match l.thm.merge with
  | none => l
  | some m =>
    if l.slot = l.firstSlot then l
    else
      let r := mergeFlask l.feeders l.thm (fun c => l.dict.nat (0x3010 + c) 2 == 1) m
      { l with feeders := r.1, thm := { r.2 with lastFlask := m.fseq, merging := true, want := some l.slot } }

/-- A pulse output at the metering instant: width end, accrual, start (R257 to R259). -/
def Lane.vpoWidthEnd (l : Lane) (o : Nat) : Lane :=
  { l with thm := { l.thm with vpo := lmod l.thm.vpo o fun v => v.widthEnd l.slot } }

/-- Units credited since the last accrual to the register an output counts. -/
def Lane.vpoUnits (l : Lane) (c : VpoCfg) : Nat :=
  if c.thm then ((l.circ (c.unit % 8)).regs.getD c.reg ereg0).k else ((l.feeder (c.unit % 4)).regs.getD c.reg ereg0).k

/-- Accrual of an enabled output (R257). -/
def Lane.vpoAccrue (l : Lane) (o : Nat) : Lane :=
  let c := l.dict.vpoCfg o
  if c.enable then
    let r := (l.thm.vpo.getD o vpoOut0).accrue c l.slot (l.vpoUnits c)
    let l := { l with thm := { l.thm with vpo := lmod l.thm.vpo o fun _ => r.1 } }
    if r.2 = 0 then l else l.reg fun m => fflag (fbump m (f_THM_VPOCNT_LOST.at (8 * o)) r.2) (f_THM_VPOSTAT_OVERFLOW.at (8 * o))
  else l

/-- The start of an owed pulse with its frame; none while the strobe carries ARBFAULT (R258, R259). -/
def Lane.vpoStart (l : Lane) (me : LaneId) (o : Nat) : Lane :=
  if l.word.arbFault then l
  else match (l.thm.vpo.getD o vpoOut0).start (l.dict.vpoCfg o) l.slot with
    | none => l
    | some (v, w) => { l with thm := { l.thm with vpo := lmod l.thm.vpo o fun _ => v } }.emit me 5 o (w * 65536 + 1)

/-- All pulse outputs, and every register's units taken. -/
def Lane.vpoSlot (l : Lane) (me : LaneId) : Lane :=
  let l := (List.range 16).foldl (fun l o => ((l.vpoWidthEnd o).vpoAccrue o).vpoStart me o) l
  let z (rs : List EReg) : List EReg := rs.map fun r => { r with k := 0 }
  { l with feeders := l.feeders.map fun f => { f with regs := z f.regs }
           thm := { l.thm with circs := l.thm.circs.map fun c => { c with regs := z c.regs } } }

/-- A pulse in progress when the strobe first carries ARBFAULT stays owed (R259). -/
def Lane.vpoHalt (l : Lane) : Lane :=
  { l with thm := { l.thm with vpo := l.thm.vpo.map fun v => { v with active := none } } }

/-- The thermal part of the metering instant (Table 01-5). -/
def Lane.thmSlot (l : Lane) (me : LaneId) : Lane :=
  if !l.meters || l.thm.stage == 2 then l
  else
    let l := l.rtdTake
    let l := { l with thm := { l.thm with counts := l.thm.counts.mapIdx fun n h => ((l.img.pulse.getD n 0) :: h).take 2001 } }
    let l := l.thmLatches.flaskMerge
    let l := (List.range 8).foldl (fun l c => l.circSlot c) l
    let l := { l with thm := { l.thm with q := l.thmInputs } }
    let l := l.vpoSlot me
    { l with thm := { l.thm with stage := 2, metered := l.slot, tbPrev := some l.img.tb } }

/-- Quantities and latch records of the slot before become visible at t1 (Table 01-7), and the slot's work begins anew. -/
def Lane.meterBegin (l : Lane) : Lane :=
  { l with feeders := l.feeders.map fun f => { f.show with qVis := f.q, stage := 0 }
           thm := { l.thm with qVis := l.thm.q, stage := 0, circs := l.thm.circs.map fun c => { c.show with qVis := c.q } } }

/-- The metering instant of the slot. -/
def Lane.meterSlot (l : Lane) (me : LaneId) : Lane :=
  let l := l.mtrSlot.thmSlot me
  let clip := ((List.range 24).map fun n => if (l.img.mtr.getD n (0, false)).2 then 2 ^ n else 0).sum
  l.reg fun m => forBits m f_MTR_CLIPSEEN_CLIP clip

/-! ### Presets and calibration locks (R225, R233, R238, R246) -/

/-- The data of a PRESET record: old and new value, old and new wrap counter. -/
def presetData (old new : EReg) : Bytes :=
  leBytes 8 old.val.toNat ++ leBytes 8 new.val.toNat ++ leBytes 2 old.wrap.toNat ++ leBytes 2 new.wrap.toNat

/-- A preset of a feeder's register. -/
def Lane.mtrPreset (l : Lane) (src f r value wrap : Nat) : Lane :=
  let old := (l.feeder f).regs.getD r ereg0
  let new := { old with val := BitVec.ofNat 64 value, wrap := BitVec.ofNat 16 wrap }
  ((l.modFeeder f fun x => { x with regs := lmod x.regs r fun _ => new }).journal 2 src 0x2070 3 (presetData old new)).reg
    fun m => fflag m f_MTR_STAT_PRESET
/-- A preset of a circuit's register. -/
def Lane.thmPreset (l : Lane) (src c r value wrap : Nat) : Lane :=
  let old := (l.circ c).regs.getD r ereg0
  let new := { old with val := BitVec.ofNat 64 value, wrap := BitVec.ofNat 16 wrap }
  (l.modCirc c fun x => { x with regs := lmod x.regs r fun _ => new }).journal 2 src 0x3070 3 (presetData old new)

/-- A change of CALLOCK or TCALLOCK: the calibration count, and the journal. -/
def Lane.calChange (l : Lane) (src idx : Nat) : Lane :=
  { l with dict := l.dict.put idx 3 (leBytes 4 (l.dict.nat idx 3 + 1)) }.journalFree 3 src

/-! ### Totals in MRAM (R251, R254, R255) -/

/-- A totals write starts at the end of the slot, after its metering (R251). -/
def Lane.totalsDue (l : Lane) (me : LaneId) : Bool :=
  l.thm.want.isSome && l.nvm.totBusy.isNone && l.meters && l.mask.has me && decide (l.thm.metered = l.slot)
def Lane.totalsStart (l : Lane) : Lane :=
  match l.thm.want with
  | none => l
  | some s =>
    let r := totalsRecord l.feeders l.thm s l.thm.lastFlask
    { l with thm := { l.thm with want := none }
             nvm := { l.nvm with totBusy := some (l.nvm.totNextB, r), totNextB := !l.nvm.totNextB } }

/-- The record being written is the merged one (R254). -/
def Lane.mergedBusy (l : Lane) : Bool :=
  match l.nvm.totBusy with
  | some (_, r) => l.thm.merging && decide (r.lastFlask = l.thm.lastFlask)
  | none => false

/-- A totals write is complete with its CRC; after the merged record the flask is cleared (R254). -/
def Lane.totalsDone (l : Lane) : Lane :=
  match l.nvm.totBusy with
  | none => l
  | some (b, r) =>
    let merged := l.mergedBusy
    let n := { l.nvm with totBusy := none }
    let n := if b then { n with totB := r } else { n with totA := r }
    let l := { l with nvm := n, thm := { l.thm with tseq := r.tseq } }
    if merged then
      { l with nvm := { l.nvm with flask := flask0 }, thm := { l.thm with merging := false } }.reg fun m =>
        fflag m f_THM_TOTSTAT_MERGED
    else l

/-! ### Trips (R231, R252, R505) -/

/-- The metering instant of the slot has begun and not ended. -/
def Lane.metering (l : Lane) : Bool :=
  l.thm.stage ≠ 2 && (l.thm.stage ≠ 0 || l.feeders.any fun f => f.stage ≠ 0)
/-- A trip: a metering instant in progress is completed, metering freezes, a totals write is abandoned, and the flask is being written. Cause bits: 1 POWER_FAIL_N,
2 input monitor, 4 RESET_N. -/
def Lane.tripNow (l : Lane) (me : LaneId) (cause : Nat) : Lane :=
  if !l.meters then l
  else
    let l := if l.metering then l.meterSlot me else l
    let s := l.thm.metered
    let fs := l.feeders.mapIdx fun f x => x.truncate (l.dict.feederCfg f)
    let base := newestTotals l.nvm.totA l.nvm.totB
    let last := match base with | some b => b.lastFlask | none => 0
    let fseq := (if l.nvm.fseq.toNat < last.toNat then last else l.nvm.fseq) + 1
    let l := { l with feeders := fs }
    -- the abandoned bank fails its CRC
    let n := match l.nvm.totBusy with
      | some (true, _) => { l.nvm with totB := { l.nvm.totB with valid := false } }
      | some (false, _) => { l.nvm with totA := { l.nvm.totA with valid := false } }
      | none => l.nvm
    { l with trip := some { slot := s, written := false }
             nvm := { n with totBusy := none, flaskBusy := some (flaskRecord fs l.thm base fseq cause s) } }

/-- The flask write is complete with its CRC. -/
def Lane.flaskDone (l : Lane) : Lane :=
  match l.nvm.flaskBusy with
  | none => l
  | some f =>
    { l with nvm := { l.nvm with flask := f, fseq := f.fseq, flaskBusy := none }
             trip := l.trip.map fun t => { t with written := true } }

/-! ### Conversions and pulse inputs (R235, R236, R239, R240) -/

/-- A resistance code: the ratio times this lane's reference value, in units of the channel's LSB. -/
def Lane.rtdCode (l : Lane) (me : LaneId) (ch : Nat) (x : RtdSense) : Nat :=
  match x with
  | .opened => 0xFFFFFF
  | .shorted => 0
  | .ratio num den =>
    let sh : Nat := if l.dict.nat (0x3020 + ch) 1 = 1 then 13 else 16
    match fdec fmt64 (l.dict.elem 0x3000 1 8 me.num) with
    | .fin _ m e =>
      let z := e + sh
      let q := if 0 ≤ z then Config.quot (num * m * 2 ^ z.toNat : Nat) den
        else Config.quot (num * m : Nat) (den * 2 ^ (-z).toNat)
      (clampI 1 0xFFFFFE q).toNat
    | _ => 0xFFFFFF

/-- The conversion window that has ended by now; none in the first two windows of a slot count. -/
def rtdWindow (s : BitVec 64) : Option Nat := if s.toNat < 2000 then none else some (s.toNat / 2000 - 1)

/-- The end of a window: its result, once (R235). -/
def Lane.rtdConvert (l : Lane) (me : LaneId) (ch : Nat) (x : RtdSense) : Lane :=
  match rtdWindow l.slot with
  | none => l
  | some w =>
    let o := l.rtdOwn.getD ch ⟨none, none⟩
    if (match o.last with | some p => decide (w ≤ p.1) | none => false) then l
    else
      let c := l.rtdCode me ch x
      { l with rtdOwn := lmod l.rtdOwn ch fun o => { last := some (w, c), prev := o.last } }.reg fun m =>
        fset (fset m (f_THM_RAW_CONV.at (4 * ch)) (w % 256)) (f_THM_RAW_CODE.at (4 * ch)) c

/-- The RTD entry a lane offers in a slot: a result is offered from slot 2000 w + 2002 until the next (R235). -/
def RtdOwn.entry (o : RtdOwn) (s : BitVec 64) : Nat × Nat :=
  let fit (p : Nat × Nat) : Bool := decide (2000 * p.1 + 2002 ≤ s.toNat)
  match o.last, o.prev with
  | some p, q => if fit p then (p.2, p.1 % 256) else match q with | some r => (r.2, r.1 % 256) | none => (0, 0)
  | none, _ => (0, 0)

/-- The conversion number due in a slot, by Table 02-3: 256, which no entry carries, where none is. -/
def rtdDue (s : BitVec 64) : Nat :=
  if s.toNat % 2000 = 2 ∧ 2002 ≤ s.toNat then ((s.toNat - 2) / 2000 - 1) % 256 else 256

/-- The value of a pulse entry at the strobe (R239, R240): period, level of the second input of a pair, or count. -/
def Lane.pulseEntry (l : Lane) (n : Nat) : BitVec 32 :=
  let o := l.pulseOwn.getD n ⟨0, 0⟩
  match l.dict.pulseMode n with
  | 2 => BitVec.ofNat 32 o.period
  | 3 => if n % 2 = 1 then BitVec.ofNat 32 (l.plevel.getLsbD n).toNat else o.count
  | _ => o.count

/-- An edge on a pulse input: counted up, counted by direction, or timed. -/
def Lane.flowEdge (l : Lane) (n lowNs highNs since : Nat) (level : Bool) : Lane :=
  if edgeAccepted (l.dict.nat (0x3040 + n) 1) lowNs highNs since then
    let mode := l.dict.pulseMode n
    let l := { l with pulseOwn := lmod l.pulseOwn n fun o =>
      match mode with
      | 2 => { o with period := min since (2 ^ 32 - 1) }
      | 3 => if n % 2 = 1 then o else { o with count := if level then o.count + 1 else o.count - 1 }
      | _ => { o with count := o.count + 1 } }
    l.reg fun m => fset m (f_THM_PULSERAW_VALUE.at (4 * n)) (l.pulseEntry n).toNat
  else l

/-- No edge within FREQTO: the period reads 0. -/
def Lane.freqTimeout (l : Lane) (n : Nat) : Lane :=
  if l.dict.pulseMode n = 2 then
    { l with pulseOwn := lmod l.pulseOwn n fun o => { o with period := 0 } }.reg fun m =>
      fset m (f_THM_PULSERAW_VALUE.at (4 * n)) 0
  else l

/-! ### What registers show -/

/-- MTR's read-only agreed fields. -/
def Lane.mtrView (l : Lane) (m : RegMap) : RegMap :=
  let m := fset m f_MTR_STAT_NOZC (((List.range 4).map fun f => if (l.feeder f).mode = .nozc then 2 ^ f else 0).sum)
  let m := fbool (fbool m f_MTR_STAT_CALLOCK (l.dict.flag 0x2000 2)) f_MTR_STAT_FROZEN l.trip.isSome
  (List.range 4).foldl (fun m f =>
    let x := l.feeder f
    let m := fset m (f_MTR_LATCHSEQ_SEQ.at (4 * f)) x.shown
    let m := (List.range 36).foldl (fun m r =>
      let g := x.regs.getD r ereg0
      fset (fset m (f_MTR_ELO_ELO.at (0x120 * f + 8 * r)) (g.val.toNat % 2 ^ 32)) (f_MTR_EHI_EHI.at (0x120 * f + 8 * r))
        (g.val.toNat / 2 ^ 32)) m
    (List.range 18).foldl (fun m k =>
      let w (r : Nat) : Nat := (x.regs.getD r ereg0).wrap.toNat
      fset (fset m (f_MTR_WRAP_WRAPEVEN.at (0x48 * f + 4 * k)) (w (2 * k))) (f_MTR_WRAP_WRAPODD.at (0x48 * f + 4 * k))
        (w (2 * k + 1))) m) m

/-- THM's read-only agreed fields. -/
def Lane.thmView (l : Lane) (m : RegMap) : RegMap :=
  let bits (n : Nat) (p : Nat → Bool) : Nat := ((List.range n).map fun k => if p k then 2 ^ k else 0).sum
  let m := fset m f_THM_STAT_STALEFLOW (bits 8 fun c => (l.circ c).stale)
  let m := fset m f_THM_STAT_RTDFAULT (if l.inRun then bits 16 fun n => (l.thm.chans.getD n ⟨true, 0⟩).fault else 0)
  let pend := l.thm.merge.isSome || l.thm.merging
  let m := fbool (fbool m f_THM_TOTSTAT_MERGEPEND pend) f_THM_TOTSTAT_TOTALS (l.inRun && !pend)
  let m := fbool (fbool m f_THM_TOTSTAT_FROZEN l.trip.isSome) f_THM_TOTSTAT_TCALLOCK (l.dict.flag 0x3000 2)
  let m := fset m f_THM_TSEQ_TSEQ l.thm.tseq.toNat
  let m := (List.range 8).foldl (fun m c =>
    let x := l.circ c
    let m := fset m (f_THM_LATCHSEQ_SEQ.at (4 * c)) x.shown
    let m := (List.range 4).foldl (fun m r =>
      let g := x.regs.getD r ereg0
      fset (fset m (f_THM_ELO_ELO.at (0x20 * c + 8 * r)) (g.val.toNat % 2 ^ 32)) (f_THM_EHI_EHI.at (0x20 * c + 8 * r))
        (g.val.toNat / 2 ^ 32)) m
    (List.range 2).foldl (fun m k =>
      let w (r : Nat) : Nat := (x.regs.getD r ereg0).wrap.toNat
      fset (fset m (f_THM_WRAP_WRAPEVEN.at (8 * c + 4 * k)) (w (2 * k))) (f_THM_WRAP_WRAPODD.at (8 * c + 4 * k))
        (w (2 * k + 1))) m) m
  (List.range 16).foldl (fun m o =>
    let v := l.thm.vpo.getD o vpoOut0
    let m := fbool (fbool m (f_THM_VPOSTAT_BACKLOG.at (8 * o)) v.backlog) (f_THM_VPOSTAT_ACTIVE.at (8 * o)) v.active.isSome
    fset (fset m (f_THM_VPOSTAT_OWED.at (8 * o)) v.owed) (f_THM_VPOCNT_WIDTH.at (8 * o)) v.width) m

/-- The high halves of the energy registers read as restored until a low half is read (R226, R232). -/
def Lane.latchTotals (l : Lane) : Lane :=
  let hi (r : EReg) : Word := BitVec.ofNat 32 (r.val.toNat / 2 ^ 32)
  let put (m : RegMap) (k : Nat) (rs : List EReg) : RegMap :=
    (rs.mapIdx fun i r => (i, r)).foldl (fun m p => rset m (k + 8 * p.1) (hi p.2)) m
  let m := (l.feeders.mapIdx fun f x => (f, x)).foldl (fun m p => put m (f_MTR_EHI_EHI.key + 0x120 * p.1) p.2.regs) l.latch
  { l with latch := (l.thm.circs.mapIdx fun c x => (c, x)).foldl (fun m p =>
      put m (f_THM_EHI_EHI.key + 0x20 * p.1) p.2.regs) m }

/-- A latch ring as bytes. -/
def mtrRing (f : Feeder) : Bytes := ((List.range 256).map fun q => mget (fun _ => zeros 256) f.ring q).flatten
def thmRing (c : Circ) : Bytes := ((List.range 256).map fun q => mget (fun _ => zeros 128) c.ring q).flatten

end Sys2Proof.Machine
end

