-- ==== Sys2Proof/Machine/Nvm.lean ====
section
/-! DEFINITION. The images in MRAM (chapter 16): commit records, commits, retags and the check of a stored image. -/
namespace Sys2Proof.Machine

/-! ### The dictionary image -/

/-- Bit 1, BANK, of every loop as the image holds it (R164). -/
def Lane.bankBytes (l : Lane) : Bytes :=
  (List.range 64).map fun k => BitVec.ofNat 8 (((List.range 8).map fun j => if (l.loop (8 * k + j)).bank then 2 ^ j else 0).sum)
/-- A field is held in the dictionary image. -/
def keyHeld (k : Nat) : Bool := match objDesc? (k / 256) (k % 256) with | some d => d.held | none => false
/-- The dictionary image: the BANK bits, then every held field that differs from its default, as key, length and value. -/
def Lane.dictImage (l : Lane) : Bytes :=
  l.bankBytes ++ (l.dict.vals.filter fun p => keyHeld p.1).flatMap fun p => leBytes 4 p.1 ++ leBytes 4 p.2.length ++ p.2
/-- The fields of an image. -/
def decFields : (fuel : Nat) → Bytes → NMap Bytes
  | 0, _ => []
  | fuel + 1, bs =>
    if bs.length < 8 then []
    else (natAt bs 0 4, slice bs 8 (natAt bs 4 4)) :: decFields fuel (bs.drop (8 + natAt bs 4 4))
/-- Session 7 of a dictionary that holds no session object (R307). -/
def Dict.firstSession (d : Dict) : Dict :=
  if d.vals.any fun p => decide (0x120000 ≤ p.1) && decide (p.1 < 0x120800) then d
  else ((d.put 0x1207 1 [1]).put 0x1207 2 [0]).put 0x1207 4 (leBytes 8 0x8000000000000000)
/-- Load a dictionary image: fields it does not hold take their defaults. -/
def Lane.loadDict (l : Lane) (bs : Bytes) : Lane :=
  let f := bs.drop 64
  let vals := (decFields f.length f).foldl (fun m p => mset objDflt m p.1 p.2) []
  let l := { l with dict := ({ l.dict with vals := vals } : Dict).firstSession }
  (List.range 512).foldl (fun l n =>
    let b := (bs.getD (n / 8) 0).getLsbD (n % 8)
    if b ≠ (l.loop n).bank then l.setLoop n { loopState0 with bank := b } else l) l
/-- Every object at its default, as without any stored image (R461). -/
def Lane.loadDefaults (l : Lane) : Lane := { l with dict := ({ l.dict with vals := [] } : Dict).firstSession }

/-! ### Commit records (R467) -/

/-- The tag of an image of a class under generations (R348). -/
def imageTag (g : Gens) (cls : Nat) (bs : Bytes) : Bytes := cmac (g.path 4 cls).key bs
/-- The bytes of a commit record before its CRC (Table 16-3). -/
def CommitRec.bytes (r : CommitRec) : Bytes :=
  leBytes 4 0x434D4954 ++ leBytes 1 r.cls ++ leBytes 1 r.bank.toNat ++ zeros 2 ++ leBytes 4 r.cseq.toNat ++ leBytes 4 r.len
    ++ leBytes 4 r.imageId.toNat ++ leBytes 4 r.gSto ++ leBytes 4 r.gLeaf ++ zeros 4 ++ fit 16 r.tag ++ leBytes 8 r.slot.toNat
    ++ zeros 4
/-- The slot of the active record: the valid record with the higher CSEQ. -/
def ImageClass.activeSlot (c : ImageClass) : Option (Bool × CommitRec) :=
  match c.rec0, c.rec1 with
  | some a, some b => if a.cseq.toNat < b.cseq.toNat then some (true, b) else some (false, a)
  | some a, none => some (false, a)
  | none, some b => some (true, b)
  | none, none => none
/-- The active record. -/
def ImageClass.active (c : ImageClass) : Option CommitRec := c.activeSlot.map (·.2)
/-- The image of a record. -/
def ImageClass.image (c : ImageClass) (r : CommitRec) : Bytes := if r.bank then c.bankB else c.bankA
/-- The CSEQ of the active record, 0 without one. -/
def ImageClass.cseq (c : ImageClass) : BitVec 32 := match c.active with | some r => r.cseq | none => 0
/-- Write an image into the inactive bank and its record into the slot that does not hold the active one (Table 16-4). -/
def ImageClass.store (c : ImageClass) (cls : Nat) (cseq : BitVec 32) (id : BitVec 32) (g : Gens) (slot : BitVec 64)
    (bs : Bytes) : ImageClass :=
  let act := c.activeSlot
  let bank := match act with | some (_, r) => !r.bank | none => false
  let r : CommitRec := { cls := cls, bank := bank, cseq := cseq, len := bs.length, imageId := id, gSto := g.sto,
                         gLeaf := g.leafGen 4 cls, tag := imageTag g cls bs, slot := slot }
  let c := if bank then { c with bankB := bs } else { c with bankA := bs }
  match act with
  | some (false, _) => { c with rec1 := some r }
  | _ => { c with rec0 := some r }
/-- An image whose active record exists and whose tag verifies under generations; none without a record. -/
def ImageClass.verified (c : ImageClass) (cls : Nat) (g : Gens) : Option Bool :=
  c.active.map fun r => imageTag g cls (c.image r) == r.tag
/-- The image ID a logic image carries (Table 06-8). -/
def imageIdOf (cls : Nat) (bs : Bytes) : BitVec 32 := if cls = 2 then (decImage bs).id else 0

/-! ### Commits (R468, R469) -/

/-- The class of an image. -/
def Nvm.cls (n : Nvm) (c : Nat) : ImageClass := if c = 2 then n.logic else n.dict
/-- Replace a class. -/
def Nvm.setCls (n : Nvm) (c : Nat) (x : ImageClass) : Nvm := if c = 2 then { n with logic := x } else { n with dict := x }
/-- A commit due in this slot starts, unless one of its class runs. -/
def Lane.commitStart (l : Lane) (c : Nat) (bs : Bytes) : Lane :=
  let x := l.nvm.cls c
  if x.queued && x.busy.isNone then
    { l with nvm := l.nvm.setCls c { x with queued := false, busy := some { start := l.slot, image := bs, step := 1 } } }
  else l
/-- Commits due in this slot start with the images as they stand after the boundary. -/
def Lane.commitsStart (l : Lane) : Lane :=
  if l.trip.isSome then l
  else
    let l := if l.nvm.dict.queued && l.nvm.dict.busy.isNone then l.commitStart 1 l.dictImage else l
    match l.lseq.image with | some im => l.commitStart 2 im.raw | none => l
/-- A commit of class `c` reaches the end of step 4 after `ms`; a retag holds it at step 1, a trip has ended it. -/
def Lane.commitDone (l : Lane) (c ms : Nat) : Lane :=
  let x := l.nvm.cls c
  match x.busy with
  | none => l
  | some b =>
    if l.nvm.retag.isSome || l.trip.isSome then l
    else
      let y := { x.store c (x.cseq + 1) (imageIdOf c b.image) l.keyA.gens b.start b.image with busy := none }
      let n := l.nvm.setCls c y
      let still := decide (c = 2) || decide (b.start.toNat < l.nvm.dirtySince.toNat)
      ({ l with nvm := { n with dirty := n.dirty && still } }).reg fun m =>
        fmax (fsat (fflag m f_NVM_STAT_COMMITDONE) f_NVM_CTIME_LASTTIME ms) f_NVM_CTIME_MAXTIME ms

/-! ### Retag (R350) -/

/-- A class through a retag: a second record with the tag under the new generation, then release of the old one. -/
def ImageClass.retagged (x : ImageClass) (cls : Nat) (g : Gens) : ImageClass :=
  match x.activeSlot with
  | none => x
  | some (s, r) =>
    let r' := { r with cseq := r.cseq + 1, gSto := g.sto, gLeaf := g.leafGen 4 cls, tag := imageTag g cls (x.image r) }
    if s then { x with rec0 := some r', rec1 := none } else { x with rec1 := some r', rec0 := none }
/-- The retag ends: new records, the generation in MRAM, the old records released. Tamper suspends it (Table 11-7). -/
def Lane.retagDone (l : Lane) (suspended : Bool) : Lane :=
  match l.nvm.retag with
  | none => l
  | some r =>
    if suspended then l
    else
      let n := l.nvm
      let g := r.target
      let n := if r.dict then { n with dict := n.dict.retagged 1 g } else n
      let n := if r.logic then { n with logic := n.logic.retagged 2 g } else n
      let leaf := mset (fun _ => 0) (mset (fun _ => 0) n.gens.leaf (65536 * 4 + 1) (g.leafGen 4 1)) (65536 * 4 + 2) (g.leafGen 4 2)
      { l with nvm := { n with retag := none, gens := { n.gens with sto := g.sto, leaf := leaf } } }

/-! ### What a reset leaves of a lane (R406, R471, R472) -/

/-- A commit cut off: unless a retag held it at its first step, the inactive bank holds part of the image (Table 16-5). -/
def ImageClass.cutOff (c : ImageClass) (me : LaneId) (waits : Bool) : ImageClass :=
  let d := { c with busy := none, queued := false }
  match c.busy, waits with
  | some b, false =>
    match c.active with
    | some r => if r.bank then { d with bankA := Config.cutBank me c.bankA b.image b.start }
      else { d with bankB := Config.cutBank me c.bankB b.image b.start }
    | none => { d with bankA := Config.cutBank me c.bankA b.image b.start }
  | _, _ => d
/-- A write in progress that the reset cuts off fails its CRC. -/
def Nvm.cutOff (n : Nvm) (me : LaneId) : Nvm :=
  let n := match n.totBusy with
    | some (true, _) => { n with totB := { n.totB with valid := false } }
    | some (false, _) => { n with totA := { n.totA with valid := false } }
    | none => n
  let n := if n.flaskBusy.isSome then { n with flask := { n.flask with valid := false } } else n
  { n with totBusy := none, flaskBusy := none, retag := none, dirty := false,
           dict := n.dict.cutOff me n.retag.isSome, logic := n.logic.cutOff me n.retag.isSome }
/-- The lane at its reset: only MRAM and the backup cell keep their contents. -/
def Lane.afterReset (l : Lane) (me : LaneId) (init : Lane) : Lane :=
  let r := { l.rtc with stepped := false, delta := 0, slewLeft := 0, err := 0, stepCnt := 0, setCnt := 0, acts := [] }
  { init with rtc := r, nvm := l.nvm.cutOff me, shadow := r.view false [] }

/-- NVM's read-only fields. -/
def Lane.nvmView (l : Lane) (m : RegMap) : RegMap :=
  let n := l.nvm
  let busy := n.dict.busy.isSome || n.logic.busy.isSome
  let m := fbool (fbool m f_NVM_STAT_BUSY1 n.dict.busy.isSome) f_NVM_STAT_BUSY2 n.logic.busy.isSome
  let m := fbool (fbool m f_NVM_STAT_RETAGWAIT (busy && n.retag.isSome)) f_NVM_STAT_DIRTY n.dirty
  let m := fbool m f_NVM_STAT_QUEUED (n.dict.queued && n.dict.busy.isSome)
  fset (fset m f_NVM_DCSEQ_CSEQ n.dict.cseq.toNat) f_NVM_LCSEQ_CSEQ n.logic.cseq.toNat

end Sys2Proof.Machine
end

