-- ==== Sys2Proof/Machine/PortLane.lean ====
section
/-! DEFINITION. The field ports, the PTP instance and the waymark pins of a lane (chapter 09). An instant inside a slot is
given in fabric clocks since the strobe. -/
namespace Sys2Proof.Machine

/-! ### Ports -/

/-- A port of the lane by lane-local index. -/
def Lane.port (l : Lane) (p : Nat) : PortSt := l.ports.getD p port0
/-- Change one port. -/
def Lane.modPort (l : Lane) (p : Nat) (f : PortSt → PortSt) : Lane := { l with ports := lmod l.ports p f }
/-- A port's objects. -/
def Lane.portCfg (l : Lane) (me : LaneId) (p : Nat) : PortCfg := l.dict.portCfg me p
/-- The instance's objects. -/
def Lane.timeCfg (l : Lane) (me : LaneId) : TimeCfg := l.dict.timeCfg me
/-- A register of port p. -/
def Lane.portReg (l : Lane) (p : Nat) (g : RegMap → Nat → RegMap) : Lane := l.reg fun m => g m (0x20 * p)
/-- Count in a register of port p. -/
def Lane.portCount (l : Lane) (p : Nat) (f : Fld) (n : Nat := 1) : Lane := l.portReg p fun m o => fbump m (f.at o) n
/-- The arbiter gates the lane's transmit: it does not take part (R270, R386). -/
def Lane.txGated (l : Lane) (me : LaneId) : Bool := !l.mask.has me

/-- The lane's PTP clock at an instant of the slot. -/
def Lane.clk (l : Lane) (fab : Nat) : Nat := l.time.at fab
/-- Change the time unit at an instant: a new rate applies from that instant on, and pins wait for the first instant after
a step (R295, R299). -/
def Lane.timeAt (l : Lane) (fab : Nat) (f : TimeUnit → TimeUnit) (stepped : TimeUnit → Bool) : Lane :=
  let t := l.time
  let t' := f t
  let t' := { t' with clock := t'.clock + clkAdvance t.y fab - clkAdvance t'.y fab }
  let t' := if stepped t' then { t' with pins := t'.pins.map fun p => { p with ref := some (t'.at fab) } } else t'
  { l with time := t' }

/-- The waymark outputs follow the state of the servo (R298). -/
def Lane.holdPins (l : Lane) (me : LaneId) : Lane :=
  { l with time := { l.time with pins := l.time.pins.mapIdx fun w p => p.hold (l.dict.wmkCfg me w) l.time.locked } }

/-- The best master clock algorithm over the lane's ports (R288). -/
def Lane.bmca (l : Lane) (me : LaneId) (fab : Nat) : Lane :=
  let ps := l.ports.mapIdx fun i s => (s, l.portCfg me i)
  let r := runBmca l.time (l.timeCfg me) ps
  Lane.holdPins { (l.timeAt fab (fun _ => r.1) fun _ => false) with ports := r.2 } me

/-- Send a frame on a port through neighbour discovery, with the drops of R266, R271 and R273 counted. While the transmit
is gated the frame is discarded without count (R270). -/
def Lane.portSend (l : Lane) (me : LaneId) (p : Nat) (f : TxFrame) : Lane :=
  let c := l.portCfg me p
  if !c.enable || l.txGated me then l
  else
    let r := (l.port p).send c f
    let l := (l.modPort p fun _ => r.1).portCount p f_PORT_TXDROP_QFULL r.2.qfull
    l.reg fun m =>
      let m := if r.2.ncfull then fflag m f_PORT_NDSTAT_NCFULL else m
      if r.2.norouter then fflag m f_PORT_NDSTAT_NOROUTER else m
/-- A UDP datagram from AFESHPORT on a port; one without a usable source address does not leave (R271). -/
def Lane.sendUdp (l : Lane) (me : LaneId) (p cls : Nat) (dst : BitVec 128) (dport : Nat) (stamp : Nat) (body : Bytes) : Lane :=
  let c := l.portCfg me p
  match sourceAddr (l.port p) c dst with
  | none => l
  | some src =>
    l.portSend me p
      { cls := cls, eth := false, hdr := 8, tag := 0, dst := dst, sport := c.udpPort, dport := dport,
        csum := udpChecksum src dst c.udpPort dport body, body := body, stamp := stamp, t2 := 0 }

/-- Enqueue a frame whose path is known, counting a full queue; nothing while the transmit is gated (R270). -/
def Lane.portEnqueue (l : Lane) (me : LaneId) (p : Nat) (f : TxFrame) : Lane :=
  if l.txGated me then l
  else
    let r := (l.port p).enqueue (l.portCfg me p) f
    (l.modPort p fun _ => r.1).portCount p f_PORT_TXDROP_QFULL r.2.toNat
/-- Frames queued before the transmit was gated do not leave when the gate lifts (R270). -/
def Lane.gateTx (l : Lane) (me : LaneId) : Lane :=
  if l.txGated me then { l with ports := l.ports.map fun s => { s with queues := List.replicate 8 [] } } else l
/-- The modes to which a port's configured MODE can resolve (R262, R263). -/
def modeOk (p cfg mode : Nat) : Bool :=
  if p < 12 then (match cfg with | 0 => mode == 1 || mode == 2 | 1 => mode == 1 | _ => mode == 2)
  else (match cfg with | 0 => mode == 3 | 1 => mode == 4 | 2 => mode == 5 | _ => mode == 6 || mode == 7 || mode == 8)
/-- A mode that auto-negotiates. -/
def autoNeg (p cfg : Nat) : Bool := decide (p < 12) || cfg == 0 || cfg == 3

/-- A port's link comes up (R271, R275). -/
def Lane.portUp (l : Lane) (me : LaneId) (p mode : Nat) : Lane :=
  let c := l.portCfg me p
  if 16 ≤ p ∨ (l.port p).up = true ∨ c.enable = false ∨ modeOk p c.mode mode = false then l
  else
    let l := l.modPort p fun s => s.linkUp c mode (if autoNeg p c.mode then 2 else 4)
    (((l.port p).upFrames c).foldl (fun l f => l.portEnqueue me p f) l).bmca me 0
/-- A port's link goes down: counted, its addresses and foreign master forgotten. -/
def Lane.portDown (l : Lane) (me : LaneId) (p fab : Nat) : Lane :=
  if (l.port p).up then
    ((l.modPort p fun s => { s.linkDown with ptp := { s.ptp with foreign := none, seen := 0, sync := none } }).portCount p
      f_PORT_LINK_LINKDN).bmca me fab
  else l
/-- A write of MODE or ENABLE restarts a port and discards its queues (R261). -/
def Lane.portRestart (l : Lane) (me : LaneId) (p : Nat) : Lane :=
  (l.portDown me p 0).modPort p fun s => { s with queues := List.replicate 8 [] }
/-- Detection of address k runs again after a write of it (R271). -/
def Lane.addrWritten (l : Lane) (me : LaneId) (p k : Nat) : Lane :=
  let c := l.portCfg me p
  let a := c.addrs.getD k 0
  if !(l.port p).up then l
  else
    let l := l.modPort p fun s => { s with addr := s.addr.set k (if a = 0 then 0 else 1) }
    if a = 0 then l else l.portSend me p (nsFrame c 0 a)
/-- Duplicate address detection of address k ends (R271). -/
def Lane.dadDone (l : Lane) (p k : Nat) (conflict : Bool) : Lane :=
  if (l.port p).addr.getD k 0 = 1 then l.modPort p fun s => { s with addr := s.addr.set k (if conflict then 3 else 2) } else l
/-- A node that uses a tentative address conflicts with it. -/
def Lane.dadConflict (l : Lane) (me : LaneId) (p : Nat) (target : BitVec 128) : Lane :=
  (List.range 3).foldl (fun l k =>
    if (l.portCfg me p).addrs.getD k 0 = target ∧ target ≠ 0 then l.dadDone p k true else l) l

/-! ### Neighbour discovery, echo and MLD (R273 to R275) -/

/-- A Neighbor Solicitation: an own valid address is answered and its sender kept; a tentative one conflicts. -/
def Lane.rxSolicit (l : Lane) (me : LaneId) (p : Nat) (src target : BitVec 128) (mac : BitVec 48) : Lane :=
  let c := l.portCfg me p
  let l := if src = 0 then l.dadConflict me p target else l
  if !(l.port p).owns c target then l
  else if src = 0 then l.portEnqueue me p (naFrame c (ff02 1) target false)
  else
    let s := l.port p
    let l := if s.nd.any (fun e => e.addr == src) then
        let r := s.confirm c src mac
        (l.modPort p fun _ => { r.1 with nd := r.1.nd.map fun e => if e.addr = src then { e with stale := true } else e }).portCount p
          f_PORT_TXDROP_QFULL r.2
      else
        let s := { s with ndTick := s.ndTick + 1 }
        let r := ndInsert s { addr := src, mac := some mac, stale := true, used := s.ndTick, wait := [] }
        (l.modPort p fun _ => r.1).reg fun m => if r.2 then fflag m f_PORT_NDSTAT_NCFULL else m
    l.portEnqueue me p (naFrame c src target true)
/-- A Neighbor Advertisement confirms an entry and releases the frames that wait for it. -/
def Lane.rxAdvert (l : Lane) (me : LaneId) (p : Nat) (target : BitVec 128) (mac : BitVec 48) : Lane :=
  let l := l.dadConflict me p target
  let r := (l.port p).confirm (l.portCfg me p) target mac
  (l.modPort p fun _ => r.1).portCount p f_PORT_TXDROP_QFULL r.2
/-- An entry becomes stale 30 s after it was last confirmed. -/
def Lane.ndStale (l : Lane) (p : Nat) (a : BitVec 128) : Lane :=
  l.modPort p fun s => { s with nd := s.nd.map fun e => if e.addr = a ∧ e.mac.isSome = true then { e with stale := true } else e }
/-- An Echo Request to an own address is answered within 1232 bytes and 100 requests a second (R274). -/
def Lane.rxEcho (l : Lane) (me : LaneId) (p : Nat) (src dst : BitVec 128) (head : BitVec 32) (data : Bytes) : Lane :=
  let c := l.portCfg me p
  if !(l.port p).owns c dst then l
  else
    let sec := l.slot.toNat / 20000
    let l := l.modPort p fun s => if s.echoSec = sec then s else { s with echoSec := sec, echoCnt := 0 }
    if 1232 < data.length ∨ 100 ≤ (l.port p).echoCnt then l.portCount p f_PORT_RXDROP_ECHODROP
    else
      let l := l.modPort p fun s => { s with echoCnt := s.echoCnt + 1 }
      l.portSend me p (icmpFrame dst src (beBytes 4 (129 * 2 ^ 24) ++ beBytes 4 head.toNat ++ data))
/-- An MLD query is answered with reports of the joined groups (R275). -/
def Lane.rxMldQuery (l : Lane) (me : LaneId) (p : Nat) : Lane := l.portEnqueue me p (mldFrame (l.port p) (l.portCfg me p))

/-- An ICMPv6 message of an accepted packet; neighbour discovery comes with hop limit 255. -/
def Lane.rxIcmp (l : Lane) (me : LaneId) (p hop : Nat) (src dst : BitVec 128) (b : Bytes) : Lane :=
  let target := BitVec.ofNat 128 (beAt b 8 16)
  let mac := BitVec.ofNat 48 (beAt b 26 6)
  match beAt b 0 1 with
  | 128 => l.rxEcho me p src dst (BitVec.ofNat 32 (beAt b 4 4)) (b.drop 8)
  | 130 => l.rxMldQuery me p
  | 135 => if hop = 255 then l.rxSolicit me p src target mac else l
  | 136 => if hop = 255 then l.rxAdvert me p target mac else l
  | _ => l

/-! ### Transmission and gates (R267 to R270, R286) -/

/-- 0.25 ns in units of the PTP clock. -/
def quarterNs : Nat := 16384
/-- The resolution of a port's timestamps (Table 09-3): 1 ns on ports 0 to 11, 0.25 ns on the others. -/
def stampRes (p : Nat) : Nat := if p < 12 then clkNs else quarterNs
/-- The transmit stamp of R286. -/
def Lane.txStamp (l : Lane) (me : LaneId) (p fab : Nat) : Nat :=
  let e : Int := (Config.egress me p (l.port p).mode).toNat + l.dict.int (0x8000 + 16 * me.num + p) 0x13
  ((atRes (l.clk fab) (stampRes p) : Int) + e * quarterNs).toNat
/-- The receive stamp of R286, in 2⁻¹⁶ ns. -/
def Lane.rxStamp (l : Lane) (me : LaneId) (p fab : Nat) : Int :=
  let i : Int := (Config.ingress me p (l.port p).mode).toNat + l.dict.int (0x8000 + 16 * me.num + p) 0x12
  (((atRes (l.clk fab) (stampRes p) : Int) - i * quarterNs).toNat : Nat)

/-- The head of the highest open queue starts when the line is free and the frame fits its window (R266, R269), tagged with
TXVID and its queue's PCP (R265). While the transmit is gated, frames that reach it are discarded without count (R270). -/
def Lane.txStart (l : Lane) (me : LaneId) (p fab : Nat) : Lane :=
  let c := l.portCfg me p
  if !(l.port p).up then l
  else if l.txGated me then l.gateTx me
  else
    let d := (l.port p).gateDrops c
    let l := (l.modPort p fun _ => d.1).portCount p f_PORT_TXDROP_GATEDROP d.2
    let s := l.port p
    let now := l.slot.toNat * 50000000 + fab * 2500
    match s.nextQueue c with
    | none => l
    | some (q, f) =>
      let pop := l.modPort p fun s => { s with queues := lmod s.queues q List.tail }
      if now < s.busyTill ∨ s.fits c (nsOf (l.clk fab)) q f = false then l
      else
        let t := l.txStamp me p fab
        let out := { insertStamp f t with tag := if c.txvid = 0 then 0 else 8192 * q + c.txvid }
        let ty := beAt f.body 0 1 % 16
        let l := pop.modPort p fun s =>
          { s with busyTill := now + frameTime s c f, lastTx := some out,
                   ptp := if f.stamp = 1 ∧ (ty = 1 ∨ ty = 2) then { s.ptp with tReq := some (beAt f.body 30 2, (t : Int)) } else s.ptp }
        l.portCount p f_PORT_TXCNT_TX
/-- The entry in progress is the one into which the PTP clock falls (R267). -/
def Lane.gateEntry (l : Lane) (p fab : Nat) : Lane :=
  match (l.port p).oper with
  | some g => l.modPort p fun s => { s with entry := (gateAt g.entries 0 (g.offset (nsOf (l.clk fab)))).1 }
  | none => l
/-- After a step of the clock every list continues with the entry into which the new time falls (R268). -/
def Lane.gatesStep (l : Lane) (fab : Nat) : Lane := (List.range 16).foldl (fun l p => l.gateEntry p fab) l
/-- The stored gate lists of the lane's own ports are in force from a start or a rejoin (R267). -/
def Lane.loadGates (l : Lane) (me : LaneId) : Lane :=
  (List.range 16).foldl (fun l p =>
    (l.modPort p fun s => { s with oper := some (l.dict.gateList me p), pend := none }).gateEntry p 0) l
/-- A written list becomes operational at its change time (R268). -/
def Lane.gateChange (l : Lane) (p fab : Nat) : Lane :=
  match (l.port p).pend with
  | some (g, t) =>
    if t ≤ nsOf (l.clk fab) then (l.modPort p fun s => { s with oper := some g, pend := none }).gateEntry p fab else l
  | none => l

/-! ### PTP (R288 to R297) -/

/-- State of a port in the protocol. -/
def Lane.ptpSt (l : Lane) (p : Nat) : Nat := (l.port p).ptp.st
/-- Change the protocol state of a port. -/
def Lane.modPtp (l : Lane) (p : Nat) (f : PtpPort → PtpPort) : Lane := l.modPort p fun s => { s with ptp := f s.ptp }
/-- A PTP message leaves by its port's class 0 queue. -/
def Lane.ptpSend (l : Lane) (me : LaneId) (p : Nat) (event peer : Bool) (stamp : Nat) (t2 : Int) (m : Bytes) : Lane :=
  let c := l.portCfg me p
  let src := if c.xport = 1 then some 0 else sourceAddr (l.port p) c (ff02 0x181)
  match src with
  | some a => l.portEnqueue me p (ptpFrame c a event peer stamp t2 m)
  | none => l
/-- The sender is the port's foreign master. -/
def Lane.fromParent (l : Lane) (p : Nat) (ident : BitVec 64) : Bool :=
  l.ptpSt p == 3 && (match (l.port p).ptp.foreign with | some a => a.ident == ident | none => false)
/-- A measured offset reaches the servo; its flags and counts (R293 to R296). After a step every gate list continues with
the entry into which the new time falls (R268). -/
def Lane.servo (l : Lane) (me : LaneId) (fab : Nat) (o t2 : Int) : Lane :=
  let r := l.time.offset (l.timeCfg me) o t2
  let l := l.timeAt fab (fun _ => r.1) fun _ => r.2.stepped
  let l := l.reg fun m =>
    let m := if r.2.slewLim then fflag m f_TIME_STAT_SLEWLIM else m
    if r.2.stepped then fbump (fflag m f_TIME_STAT_STEPPED) f_TIME_STEPS_STEPCNT else m
  (if r.2.stepped then l.gatesStep fab else l).holdPins me
/-- An offset from t1 and the corrections of a Sync received at t2. -/
def Lane.syncOffset (l : Lane) (me : LaneId) (p fab : Nat) (t2 t1ns corr : Int) : Lane :=
  let d := t2 - t1ns * 65536 - corr
  let l := l.modPtp p fun x => { x with d21 := some d, sync := none }
  l.servo me fab (d - ((l.port p).ptp.delay.getD 0)) t2
/-- A Sync from the parent. -/
def Lane.rxSync (l : Lane) (me : LaneId) (p fab : Nat) (ident : BitVec 64) (twoStep : Bool) (seq : Nat) (t1ns corr : Int) : Lane :=
  if !l.fromParent p ident then l
  else
    let t2 := l.rxStamp me p fab
    if twoStep then l.modPtp p fun x => { x with sync := some (seq, t2, corr) } else l.syncOffset me p fab t2 t1ns corr
/-- The Follow_Up of a two-step parent. -/
def Lane.rxFollowUp (l : Lane) (me : LaneId) (p fab : Nat) (ident : BitVec 64) (seq : Nat) (t1ns corr : Int) : Lane :=
  match (l.port p).ptp.sync with
  | some (n, t2, c) => if l.fromParent p ident && n == seq then l.syncOffset me p fab t2 t1ns (corr + c) else l
  | none => l
/-- A Delay_Req at a master port is answered with a Delay_Resp (Table 09-8). -/
def Lane.rxDelayReq (l : Lane) (me : LaneId) (p fab : Nat) (ident : BitVec 64) (srcPort seq : Nat) (corr : Int) : Lane :=
  if l.ptpSt p ≠ 2 ∨ (l.portCfg me p).peer = true then l
  else
    let t4 := (l.rxStamp me p fab).toNat
    let ns := t4 / 65536
    let body := beBytes 6 (ns / 1000000000) ++ beBytes 4 (ns % 1000000000) ++ beBytes 8 ident.toNat ++ beBytes 2 srcPort
    let intv := l.dict.nat (0x8000 + 16 * me.num + p) 0x11
    l.ptpSend me p false false 0 0 (ptpMsg (l.timeCfg me) 9 p seq (corr - (t4 % 65536 : Nat)) intv body)
/-- A new path delay of a port. -/
def Lane.newDelay (l : Lane) (me : LaneId) (p : Nat) (d : Int) : Lane :=
  l.modPtp p fun x => { x with delay := some (pathDelay x.delay (l.timeCfg me).dlysh d), tReq := none }
/-- A Delay_Resp completes a path delay: half of (t2 − t1) + (t4 − t3), corrections removed. -/
def Lane.rxDelayResp (l : Lane) (me : LaneId) (p : Nat) (ident : BitVec 64) (seq : Nat) (t4ns corr : Int) : Lane :=
  let x := (l.port p).ptp
  match x.tReq, x.d21 with
  | some (n, t3), some d =>
    if l.fromParent p ident && n == seq then l.newDelay me p (Config.quot (d + (t4ns * 65536 - corr - t3)) 2) else l
  | _, _ => l
/-- A Pdelay_Req is answered with a one-step Pdelay_Resp. -/
def Lane.rxPdelayReq (l : Lane) (me : LaneId) (p fab : Nat) (ident : BitVec 64) (srcPort seq : Nat) (corr : Int) : Lane :=
  if (l.portCfg me p).role = 0 ∨ (l.portCfg me p).peer = false ∨ (l.port p).up = false then l
  else l.ptpSend me p true true 2 (l.rxStamp me p fab)
    (ptpMsg (l.timeCfg me) 3 p seq corr 0x7F (zeros 10 ++ beBytes 8 ident.toNat ++ beBytes 2 srcPort))
/-- A one-step Pdelay_Resp completes a peer delay: half of (t4 − t1) less the correction. -/
def Lane.rxPdelayResp (l : Lane) (me : LaneId) (p fab : Nat) (seq : Nat) (corr : Int) : Lane :=
  match (l.port p).ptp.tReq with
  | some (n, t1) =>
    if n == seq && (l.portCfg me p).peer then l.newDelay me p (Config.quot (l.rxStamp me p fab - t1 - corr) 2) else l
  | none => l
/-- An Announce enters the best master clock algorithm. -/
def Lane.rxAnnounce (l : Lane) (me : LaneId) (p fab : Nat) (a : Announce) : Lane :=
  let c := l.portCfg me p
  if c.role = 0 ∨ (l.port p).up = false ∨ a.ident = (l.timeCfg me).ident then l
  else
    let l := l.modPtp p fun x =>
      match x.foreign with
      | some b =>
        if b.ident = a.ident ∧ b.srcPort = a.srcPort then { x with foreign := some a, seen := min 2 (x.seen + 1) }
        else if betterSet a b then { x with foreign := some a, seen := 1 } else x
      | none => { x with foreign := some a, seen := 1 }
    l.bmca me fab
/-- A master port sends a one-step Sync. -/
def Lane.txSync (l : Lane) (me : LaneId) (p : Nat) : Lane :=
  if l.ptpSt p ≠ 2 then l
  else
    let seq := (l.port p).ptp.syncSeq
    let l := l.modPtp p fun x => { x with syncSeq := (seq + 1) % 65536 }
    l.ptpSend me p true false 1 0
      (ptpMsg (l.timeCfg me) 0 p seq 0 (l.dict.nat (0x8000 + 16 * me.num + p) 0xF) (zeros 10))
/-- A master port sends an Announce: the parent's data set one step further, or the lane's own. -/
def Lane.txAnnounce (l : Lane) (me : LaneId) (p : Nat) : Lane :=
  if l.ptpSt p ≠ 2 then l
  else
    let seq := (l.port p).ptp.annSeq
    let l := l.modPtp p fun x => { x with annSeq := (seq + 1) % 65536 }
    let c := l.timeCfg me
    let a := match l.time.parent with
      | some q => ((l.port q).ptp.foreign.map fun (b : Announce) => { b with steps := b.steps + 1 }).getD (ownSet c)
      | none => ownSet c
    let body := zeros 10 ++ beBytes 2 (l.dict.nat 0x1320 1) ++ beBytes 1 0 ++ beBytes 1 a.prio1 ++ beBytes 1 a.cls ++ beBytes 1 a.acc
      ++ beBytes 2 a.var ++ beBytes 1 a.prio2 ++ beBytes 8 a.gm.toNat ++ beBytes 2 a.steps ++ beBytes 1 0xA0
    l.ptpSend me p false false 0 0 (ptpMsg c 11 p seq 0 (l.dict.nat (0x8000 + 16 * me.num + p) 0x10) body)
/-- A slave port sends a Delay_Req. -/
def Lane.txDelayReq (l : Lane) (me : LaneId) (p : Nat) : Lane :=
  if l.ptpSt p ≠ 3 ∨ (l.portCfg me p).peer = true then l
  else
    let seq := (l.port p).ptp.reqSeq
    let l := l.modPtp p fun x => { x with reqSeq := (seq + 1) % 65536, tReq := none }
    l.ptpSend me p true false 1 0 (ptpMsg (l.timeCfg me) 1 p seq 0 0x7F (zeros 10))
/-- A port with the peer delay mechanism sends a Pdelay_Req. -/
def Lane.txPdelayReq (l : Lane) (me : LaneId) (p : Nat) : Lane :=
  if (l.portCfg me p).role = 0 ∨ (l.portCfg me p).peer = false ∨ (l.port p).up = false then l
  else
    let seq := (l.port p).ptp.reqSeq
    let l := l.modPtp p fun x => { x with reqSeq := (seq + 1) % 65536, tReq := none }
    l.ptpSend me p true true 1 0 (ptpMsg (l.timeCfg me) 2 p seq 0 0x7F (zeros 20))
/-- No Sync for 4 intervals, at the SLAVE port: lock is lost (R296). -/
def Lane.syncLost (l : Lane) (me : LaneId) (p fab : Nat) : Lane :=
  if l.ptpSt p ≠ 3 ∨ l.time.locked = false then l
  else ((l.timeAt fab TimeUnit.loseLock fun _ => false).reg fun m => fbump m f_TIME_STEPS_SYNCLOSS).holdPins me
/-- The announce receipt timeout forgets the port's foreign master (R296). -/
def Lane.announceLost (l : Lane) (me : LaneId) (p fab : Nat) : Lane :=
  (((l.syncLost me p fab).modPtp p fun x => { x with foreign := none, seen := 0, sync := none })).bmca me fab

/-- A PTP message of an accepted frame. -/
def Lane.rxPtp (l : Lane) (me : LaneId) (p fab : Nat) (b : Bytes) : Lane :=
  let ident := BitVec.ofNat 64 (beAt b 20 8)
  let srcPort := beAt b 28 2
  let seq := beAt b 30 2
  let corr : Int := (BitVec.ofNat 64 (beAt b 8 8)).toInt
  let ns : Int := (beAt b 34 6 * 1000000000 + beAt b 40 4 : Nat)
  if beAt b 4 1 ≠ (l.timeCfg me).domain ∨ beAt b 1 1 % 16 ≠ 2 then l
  else match beAt b 0 1 % 16 with
  | 0 => l.rxSync me p fab ident ((beAt b 6 1).testBit 1) seq ns corr
  | 1 => l.rxDelayReq me p fab ident srcPort seq corr
  | 2 => l.rxPdelayReq me p fab ident srcPort seq corr
  | 3 => l.rxPdelayResp me p fab seq corr
  | 8 => l.rxFollowUp me p fab ident seq ns corr
  | 9 => if BitVec.ofNat 64 (beAt b 44 8) = (l.timeCfg me).ident ∧ beAt b 52 2 = p + 1 then l.rxDelayResp me p ident seq ns corr else l
  | 11 => l.rxAnnounce me p fab
      { ident := ident, srcPort := srcPort, prio1 := beAt b 47 1, cls := beAt b 48 1, acc := beAt b 49 1, var := beAt b 50 2,
        prio2 := beAt b 52 1, gm := BitVec.ofNat 64 (beAt b 53 8), steps := beAt b 61 2 }
  | _ => l

/-! ### Waymarks (R298 to R300) -/

/-- A pin's objects. -/
def Lane.wmk (l : Lane) (me : LaneId) (w : Nat) : WmkCfg := l.dict.wmkCfg me w
/-- Change one pin. -/
def Lane.modPin (l : Lane) (w : Nat) (p : WmkPin) : Lane := { l with time := { l.time with pins := l.time.pins.set w p } }
/-- A periodic output rises when its instant has come. -/
def Lane.wmkRise (l : Lane) (me : LaneId) (w fab : Nat) : Lane :=
  match (l.time.pins.getD w wmk0).rise (l.wmk me w) (l.clk fab) l.time.locked with
  | some p => if w < 4 then l.modPin w p else l
  | none => l
/-- A periodic output falls WIDTH after its rise. -/
def Lane.wmkFall (l : Lane) (w fab : Nat) : Lane :=
  match (l.time.pins.getD w wmk0).fall (l.clk fab) with
  | some p => l.modPin w p
  | none => l
/-- A configured edge is stamped into the FIFO of 64; a full FIFO loses the newest (R300). -/
def Lane.wmkEvent (l : Lane) (me : LaneId) (w fab : Nat) (falling : Bool) : Lane :=
  let c := l.wmk me w
  if 4 ≤ w ∨ c.mode ≠ 1 then l
  else
    let l := l.modPin w { (l.time.pins.getD w wmk0) with level := !falling }
    if !c.edge.testBit (if falling then 1 else 0) then l
    else if 64 ≤ l.time.fifo.length then l.reg fun m => fflag m f_TIME_EVHDR_EVOVF
    else { l with time := { l.time with fifo := l.time.fifo ++ [(w, falling, atRes (l.clk fab) halfNs)] } }
/-- A pin whose objects changed starts again: its first rise is the first instant after now. -/
def Lane.wmkRestart (l : Lane) (me : LaneId) (w : Nat) : Lane :=
  if w < 4 then (l.modPin w { level := false, held := false, ref := some (l.clk 0), fallAt := none }).holdPins me else l

/-! ### What the registers show -/

/-- PORT's read-only fields. -/
def Lane.portView (l : Lane) (me : LaneId) (m : RegMap) : RegMap :=
  let bits (p : Nat → Bool) : Nat := ((List.range 16).map fun i => (p i).toNat * 2 ^ i).sum
  let m := fbool m f_PORT_STAT_TXGATED (l.txGated me && l.life != .held)
  let m := fset m f_PORT_STAT_LINK (bits fun i => (l.port i).up)
  let m := fset m f_PORT_NDSTAT_DADFAIL (bits fun i => (l.port i).addr.contains 3)
  (List.range 16).foldl (fun m i =>
    let s := l.port i
    let c := l.portCfg me i
    let o := 0x20 * i
    let an := if s.up then s.an else if !c.enable then 0 else if autoNeg i c.mode then 1 else 4
    let m := fset (fset m (f_PORT_LINK_MODE.at o) s.mode) (f_PORT_LINK_ANSTATE.at o) an
    let m := fbool (fbool m (f_PORT_LINK_UP.at o) s.up) (f_PORT_GATE_OPER.at o) (c.gateEn && s.oper.isSome)
    let m := fbool m (f_PORT_GATE_PENDING.at o) s.pend.isSome
    fset (fset m (f_PORT_GATE_ENTRY.at o) s.entry) (f_PORT_GATE_GATES.at o) (s.gates c)) m

/-- TIME's read-only fields. -/
def Lane.timeView (l : Lane) (me : LaneId) (m : RegMap) : RegMap :=
  let t := l.time
  let sat (x : Int) : Nat := (ofInt 32 (clampI (-2147483647) 2147483647 x)).toNat
  let bits (p : WmkPin → Bool) : Nat := ((t.pins.mapIdx fun i x => (p x).toNat * 2 ^ i)).sum
  let m := fset m f_TIME_STAT_PARENT (t.parent.getD 0)
  let m := fbool (fbool (fbool m f_TIME_STAT_GM t.gm) f_TIME_STAT_SLAVE t.parent.isSome) f_TIME_STAT_LOCKED t.locked
  let m := fset m f_TIME_OFFSET_OFFSET (sat (roundShift t.filt 14))
  let m := fset m f_TIME_FREQ_YI (ofInt 32 t.yi).toNat
  let m := fset m f_TIME_PATHDLY_DELAY
    (match t.parent with | some q => sat (roundShift ((l.port q).ptp.delay.getD 0) 14) | none => 0)
  let m := (List.range 16).foldl (fun m i =>
    let md := (l.port i).mode
    fset (fset m (f_TIME_LAT_EGRESS.at (4 * i)) (Config.egress me i md).toNat) (f_TIME_LAT_INGRESS.at (4 * i))
      (Config.ingress me i md).toNat) m
  let m := fset (fset m f_TIME_WMK_HELD (bits (·.held))) f_TIME_WMK_LEVEL (bits (·.level))
  fset m f_TIME_WMK_ACTIVE (((List.range 4).map fun w => (decide ((l.wmk me w).mode ≠ 0)).toNat * 2 ^ w).sum)

/-- A read of TIME_EVHDR removes the oldest stamp and latches it; the value read (R300). -/
def Lane.eventPop (l : Lane) : Lane × Word :=
  let ovf := fget l.regs f_TIME_EVHDR_EVOVF
  match l.time.fifo with
  | [] => (l, BitVec.ofNat 32 (ovf * 2 ^ 30))
  | (w, falling, t) :: rest =>
    let (s, ns, fr) := clockParts t
    let l := { l with time := { l.time with fifo := rest } }
    let l := l.reg fun m =>
      let m := fset (fset m f_TIME_EVNS_NS ns) f_TIME_EVSLO_SECLO (s % 2 ^ 32)
      fset (fset m f_TIME_EVSHI_SECHI (s / 2 ^ 32)) f_TIME_EVSHI_FRAC fr
    (l, BitVec.ofNat 32 (2 ^ 31 + ovf * 2 ^ 30 + min 63 rest.length * 256 + falling.toNat * 16 + w))
/-- A read of TIME_CLKNS latches the seconds and fraction of the same fabric clock (R284). -/
def Lane.clockLatch (l : Lane) (fab : Nat) : Lane :=
  let (s, ns, fr) := clockParts (l.clk fab)
  l.reg fun m =>
    let m := fset (fset m f_TIME_CLKNS_NS ns) f_TIME_CLKSLO_SECLO (s % 2 ^ 32)
    fset (fset m f_TIME_CLKSHI_SECHI (s / 2 ^ 32)) f_TIME_CLKSHI_FRAC fr

end Sys2Proof.Machine
end

