-- ==== Sys2Proof/Machine/Device.lean ====
section
/-! DEFINITION. Access to the lanes of the device, and how a command's effect on one lane becomes an outcome. -/
namespace Sys2Proof.Machine

/-- A lane of the device. -/
def State.lane (s : State) : LaneId → Lane
  | .A => s.a | .B => s.b | .C => s.c
/-- The device with one lane replaced. -/
def State.setLane (s : State) (me : LaneId) (l : Lane) : State :=
  match me with
  | .A => { s with a := l } | .B => { s with b := l } | .C => { s with c := l }
/-- A change of one lane. -/
def State.onLane (s : State) (me : LaneId) (f : Lane → Lane) : State := s.setLane me (f (s.lane me))
/-- The same change of every lane. -/
def State.onLanes (s : State) (f : LaneId → Lane → Lane) : State := { s with a := f .A s.a, b := f .B s.b, c := f .C s.c }
/-- The same change of the lanes of a set. -/
def State.onSet (s : State) (m : LaneSet) (f : LaneId → Lane → Lane) : State :=
  s.onLanes fun x l => if m.has x then f x l else l

/-- The outcome of a command that changes one lane. -/
def laneNext (s : State) (me : LaneId) (f : Lane → Lane) : Host.Outcome State Fault Refusal := .next (s.onLane me f)
/-- The outcome of an event that happens in a lane only under a condition; otherwise nothing occurs. -/
def laneWhen (s : State) (me : LaneId) (p : Lane → Bool) (f : Lane → Lane) : Host.Outcome State Fault Refusal :=
  laneNext s me fun l => if p l then f l else l

end Sys2Proof.Machine
end

