-- ==== Sys2Proof/Machine/Agreement.lean ====
section
/-! DEFINITION. Lane agreement (chapter 02): the round-1 message, the exchange, the decision of sets, selection, frame
admission, ages and cross-lane links. -/
namespace Sys2Proof.Machine

/-! ### The round-1 message (Table 02-1) -/

/-- A sample entry: code in `w` bits, CLIP above it. -/
def encSample (w : Nat) (x : Int × Bool) : Bytes :=
  leBytes 4 ((ofInt w x.1).toNat + (if x.2 then 2 ^ w else 0))
/-- A sample entry read back. -/
def decSample (w : Nat) (bs : Bytes) (o : Nat) : Int × Bool :=
  let n := natAt bs o 4
  ((BitVec.ofNat w n).toInt, n.testBit w)

/-- A frame entry with its header (Table 02-2). -/
def encEntry (e : FrameEntry) : Bytes :=
  leBytes 1 e.port ++ leBytes 1 e.kind ++ leBytes 2 e.body.length ++ leBytes 2 e.source ++ zeros 2
    ++ leBytes 4 e.seq.toNat ++ e.body

/-- The bytes of a round-1 message before its tag. -/
def encRound1 (l : LaneId) (i : InputSet) : Bytes :=
  let entries := (i.frames.map encEntry).flatten
  leBytes 2 0x0A01 ++ leBytes 1 l.num ++ leBytes 1 i.links ++ leBytes 8 i.slot.toNat
    ++ leBytes 2 (408 + entries.length + 16) ++ leBytes 2 i.frames.length ++ leBytes 8 i.tb.toNat
    ++ leBytes 6 i.ptpSec.toNat ++ leBytes 4 i.ptpNs.toNat ++ zeros 14
    ++ (i.mtr.map (encSample 24)).flatten ++ (i.ain.map (encSample 16)).flatten ++ leBytes 8 i.din.toNat
    ++ (i.rtd.map fun r => leBytes 3 r.1 ++ leBytes 1 r.2).flatten
    ++ (i.pulse.map fun p => leBytes 4 p.toNat).flatten ++ entries

/-- Read `n` frame entries. -/
def decEntries : (n : Nat) → Bytes → List FrameEntry
  | 0, _ => []
  | n + 1, bs =>
    let len := natAt bs 2 2
    { port := natAt bs 0 1, kind := natAt bs 1 1, source := natAt bs 4 2,
      seq := BitVec.ofNat 32 (natAt bs 8 4), body := slice bs 12 len } :: decEntries n (bs.drop (12 + len))

/-- Read a round-1 message. -/
def decRound1 (bs : Bytes) : InputSet :=
  { links := natAt bs 3 1, slot := BitVec.ofNat 64 (natAt bs 4 8), tb := BitVec.ofNat 64 (natAt bs 16 8),
    ptpSec := BitVec.ofNat 48 (natAt bs 24 6), ptpNs := BitVec.ofNat 32 (natAt bs 30 4),
    mtr := (List.range 24).map fun n => decSample 24 bs (48 + 4 * n),
    ain := (List.range 32).map fun n => decSample 16 bs (144 + 4 * n),
    din := BitVec.ofNat 64 (natAt bs 272 8),
    rtd := (List.range 16).map fun n => (natAt bs (280 + 4 * n) 3, natAt bs (283 + 4 * n) 1),
    pulse := (List.range 16).map fun n => BitVec.ofNat 32 (natAt bs (344 + 4 * n) 4),
    frames := decEntries (natAt bs 14 2) (bs.drop 408) }

/-- The message with the tag of the source lane's agreement key (R45). -/
def signRound1 (k : Bytes) (l : LaneId) (i : InputSet) : Bytes :=
  let body := encRound1 l i
  body ++ cmac k body

/-- The source lane a message names. -/
def msgSource (bs : Bytes) : Option LaneId := LaneId.ofNum? (natAt bs 2 1)

/-- A round-1 message of any slot that passes tag verification under its source's key (R46). -/
def Lane.genuine (l : Lane) (bs : Bytes) : Bool :=
  match msgSource bs with
  | none => false
  | some src =>
    let n := bs.length
    decide (424 ≤ n) && decide (n ≤ 5120) && decide (natAt bs 0 2 = 0x0A01) && decide (natAt bs 12 2 = n)
    && (cmac (l.agreementKey src) (bs.take (n - 16)) == bs.drop (n - 16))

/-- A genuine round-1 message of slot s. -/
def Lane.verifyRound1 (l : Lane) (bs : Bytes) : Bool := l.genuine bs && decide (natAt bs 4 8 = l.slot.toNat)
/-- A genuine round-1 message of an earlier slot: its round has closed (R47). -/
def Lane.staleRound1 (l : Lane) (bs : Bytes) : Bool := l.genuine bs && decide (natAt bs 4 8 < l.slot.toNat)

/-! ### The exchange (R44 to R46, R55, R56) -/

/-- Exactly one link is agreed down and both of its lanes take part: relay mode (R56). The link is that from the lane named to
the next one. -/
def Lane.relayLink (l : Lane) : Option LaneId :=
  match [LaneId.A, .B, .C].filter fun x => l.agree.agreedDown.getD x.num false with
  | [x] => if l.mask.has x && l.mask.has x.next then some x else none
  | _ => none
/-- The other end of the cut link, where this lane relays for lane x. -/
def Lane.relayDest (l : Lane) (me x : LaneId) : Option LaneId :=
  if l.relayLink = some me.next then
    (if x = me.next then some me.prev else if x = me.prev then some me.next else none)
  else none
/-- The relay lane forwards a message unchanged (R56). -/
def Lane.forward (l : Lane) (dest : Option LaneId) (echo : Bool) (msgs : List Bytes) : Lane :=
  match dest with
  | some y => { l with agree := { l.agree with relay := l.agree.relay ++ [(y, echo, msgs)] } }
  | none => l

/-- Where the link to another lane is, from lane `me`: false link 0, true link 1. -/
def linkTo (me other : LaneId) : Bool := decide (other = me.prev)

/-- Update a link's own view. -/
def Agree.modLink (a : Agree) (link1 : Bool) (f : LinkView → LinkView) : Agree :=
  if link1 then { a with link1 := f a.link1 } else { a with link0 := f a.link0 }

/-- Count TAGFAIL, CRCERR or LATE of a link. -/
def linkCount (r : RegMap) (link1 : Bool) (f : Fld) : RegMap := fbump r (f.at (if link1 then 4 else 0))

/-- The slot's exchange is open. -/
def Lane.exchanging (l : Lane) : Bool := l.agree.stage == .exchange

/-- A frame arrives on a link: with a bad link CRC it is only an error of the link (R55). -/
def Lane.linkFrame (l : Lane) (link1 crcOk : Bool) : Lane :=
  if crcOk then { l with agree := l.agree.modLink link1 fun v => { v with got := true } }
  else { l with agree := l.agree.modLink link1 fun v => { v with err := true, errs := 0 :: v.errs }
                regs := linkCount l.regs link1 f_XLNK_ERR0_CRCERR }

/-- One round-1 message, direct or from an echo: late, failing its tag, or kept as a copy of its source's set (R46, R47). A
genuine message of a later slot is no message of this one and has no count. -/
def Lane.takeCopy (l : Lane) (me : LaneId) (link1 echo : Bool) (bs : Bytes) : Lane :=
  if !l.exchanging || (!echo && l.agree.round1Closed) || l.staleRound1 bs then
    { l with regs := linkCount l.regs link1 f_XLNK_ERR0_LATE }
  else if !l.genuine bs then { l with regs := linkCount l.regs link1 f_XLNK_ERR0_TAGFAIL }
  else if !l.verifyRound1 bs then l
  else match msgSource bs with
    | none => l
    | some src =>
      if src = me then l
      else if echo then { l with agree := { l.agree with echoed := l.agree.echoed ++ [(src, bs)] } }
      else { l with agree := { l.agree with direct := l.agree.direct ++ [(src, bs)] } }

/-- A round-1 message received on a link (R44); the relay lane forwards it too (R56). An empty one is a link frame that
carries no message of agreement. -/
def Lane.round1Receive (l : Lane) (me : LaneId) (link1 crcOk : Bool) (bs : Bytes) : Lane :=
  let l := l.linkFrame link1 crcOk
  if !crcOk || bs.isEmpty then l
  else
    let dest := (msgSource bs).bind (l.relayDest me)
    (l.takeCopy me link1 false bs).forward dest false [bs]

/-- Round 1 closes, and the lane sends its echoes (Table 02-4). -/
def Lane.round1Close (l : Lane) : Lane :=
  if l.exchanging then { l with agree := { l.agree with round1Closed := true } } else l
/-- The echo a lane sends to another lane: the messages received directly from the third lane (R44). -/
def Lane.echoFor (l : Lane) (dest : LaneId) : List Bytes :=
  (l.agree.direct.filter fun p => decide (p.1 ≠ dest)).map (·.2)

/-- An echo received on a link: its messages count as copies except those of the echoing lane itself (R46). The relay lane
forwards the echo of a cut lane that carries its own messages, which is the one meant for the other cut lane (R44, R56). An
echo comes only after the close of round 1 (Table 02-4), which its arrival shows if nothing has before. -/
def Lane.echoReceive (l : Lane) (me : LaneId) (link1 crcOk : Bool) (sender : LaneId) (msgs : List Bytes) : Lane :=
  let l := l.linkFrame link1 crcOk
  if crcOk then
    let mine := msgs.all fun m => msgSource m == some me
    let l := l.round1Close
    let l := if mine then l.forward (l.relayDest me sender) true msgs else l
    (msgs.filter fun m => msgSource m != some sender).foldl (fun l m => l.takeCopy me link1 true m) l
  else l

/-- Absent set: which count, and the last absent set. -/
def Lane.absentSet (l : Lane) (src : LaneId) (equiv : Bool) : Lane :=
  let r := if equiv then fflag (fbump l.regs f_XLNK_SETS_EQUIVCNT) f_XLNK_STAT_EQUIV
    else fflag (fbump l.regs f_XLNK_SETS_MISSCNT) f_XLNK_STAT_MISSING
  let r := fset r f_XLNK_LASTBAD_SRC src.num
  let r := fbool r f_XLNK_LASTBAD_CAUSE equiv
  let r := fset r f_XLNK_LASTBAD_SLOT (l.slot.toNat % 65536)
  { l with regs := r, rep := { l.rep with absent := satAdd 255 l.rep.absent 1 } }

/-- The decision of one source's set (R46). -/
def Lane.decideSet (l : Lane) (me src : LaneId) : Lane :=
  let copies := if src = me then [l.agree.own]
    else (l.agree.direct ++ l.agree.echoed).filterMap fun p => if p.1 = src then some p.2 else none
  match copies with
  | [] => l.absentSet src false
  | c :: cs =>
    if cs.any (· != c) then l.absentSet src true
    else { l with agree := { l.agree with sets := l.agree.sets ++ [(src, decRound1 c)] } }

/-- Close of round 2 (R46): every source of the member mask is decided; a listener offers no set of its own (R397). -/
def Lane.round2Close (l : Lane) (me : LaneId) : Lane :=
  if l.exchanging then
    let l := { l with agree := { l.agree with sets := [] } }
    let l := l.mask.toList.foldl (fun l x => l.decideSet me x) l
    { l with agree := { l.agree with stage := .closed } }
  else l

/-! ### Selection (Table 02-3) -/

/-- Samples and times: mid value of three, floor of the mean of two, the value of one. -/
def selectMid : List Int → Option Int
  | [] => none
  | [a] => some a
  | [a, b] => some (fdiv (a + b) 2)
  | a :: b :: c :: _ => some (mid3 a b c)

/-- CLIP flags: majority of three, OR of two, the flag of one. -/
def selectClip : List Bool → Bool
  | [] => false
  | [a] => a
  | [a, b] => a || b
  | a :: b :: c :: _ => (a && b) || (a && c) || (b && c)

/-- Logic inputs: bitwise majority, common value or the previous one, the value of one. -/
def selectDin (prev : BitVec 64) : List (BitVec 64) → BitVec 64
  | [] => prev
  | [a] => a
  | [a, b] => (a &&& b) ||| ((a ^^^ b) &&& prev)
  | a :: b :: c :: _ => (a &&& b) ||| (a &&& c) ||| (b &&& c)

/-- A channel of samples with its CLIP flag. -/
def selectSample (prev : Int × Bool) (xs : List (Int × Bool)) : Int × Bool :=
  match selectMid (xs.map (·.1)) with
  | none => prev
  | some v => (v, selectClip (xs.map (·.2)))

/-- Pulse counts: previous agreed count plus the selected signed difference. -/
def selectCount (prev : BitVec 32) (xs : List (BitVec 32)) : BitVec 32 :=
  match selectMid (xs.map fun x => (x - prev).toInt) with
  | none => prev
  | some d => prev + ofInt 32 d

/-- PTP readings as (seconds, nanoseconds) in one number for comparison. -/
def ptpKey (i : InputSet) : Int := i.ptpSec.toNat * 2 ^ 32 + i.ptpNs.toNat

/-- The agreed district time: mid value of three, the earlier of two, the reading of one. -/
def selectPtp : List Int → Option Int
  | [] => none
  | [a] => some a
  | [a, b] => some (min a b)
  | a :: b :: c :: _ => some (mid3 a b c)

/-- RTD channel n with the conversion number due: the column follows the number of entries that carry it (R48). -/
def selectRtd (due : Nat) (prev : Nat) (xs : List (Nat × Nat)) : Nat × Bool :=
  match selectMid ((xs.filter fun x => decide (x.2 = due)).map fun x => (x.1 : Int)) with
  | none => (prev, false)
  | some v => (v.toNat, true)

/-- Age after a slot: zero on a new value, else one more, saturating at 16,777,215 (R53). -/
def ageNext (fresh : Bool) (a : Nat) : Nat := if fresh then 0 else min 16777215 (a + 1)

/-! ### Frame admission (R50, R52) -/

/-- Sort order of entries: kind, source, sequence. -/
def entryLe (a b : FrameEntry) : Bool :=
  decide (a.kind < b.kind) || (decide (a.kind = b.kind) &&
    (decide (a.source < b.source) || (decide (a.source = b.source) && decide (a.seq.toNat ≤ b.seq.toNat))))

/-- Insertion into a sorted list, after equal entries. DESIGN CHOICE (log 138): of entries with equal kind, source and
sequence number the one of the lowest-lettered lane's set stands first and is the one admitted. -/
def insertEntry (e : FrameEntry) : List FrameEntry → List FrameEntry
  | [] => [e]
  | x :: xs => if entryLe x e then x :: insertEntry e xs else e :: x :: xs

/-- The union of the entries in admission order. -/
def sortEntries (xs : List FrameEntry) : List FrameEntry := xs.foldl (fun acc e => insertEntry e acc) []

/-- Key of a source in the admission history. -/
def admKey (e : FrameEntry) : Nat := 65536 * e.kind + e.source

/-- No source has history before its first entry. -/
def admNone : AdmSrc := { seq := 0, fresh := true, restarted := false, stime := 0, period := 0 }

/-- Sample time of a substation report body for R52: seconds [31:0] above the fraction (Table 09-5). -/
def reportTime (body : Bytes) : BitVec 64 :=
  BitVec.ofNat 64 (natAt body 12 4 * 2 ^ 32 + natAt body 16 4)
/-- Reporting period of a substation report body, s (Table 09-5). -/
def reportPeriod (body : Bytes) : Nat := natAt body 23 1

/-- A report later by at least D seconds (R52). -/
def laterBy (d : Nat) (new old : BitVec 64) : Bool :=
  let x := (new - old).toNat
  decide (d * 2 ^ 32 ≤ x) && decide (x ≤ 2 ^ 63 - 1)

/-- How an entry is judged: discarded, admitted by its number, or admitted by R52, of a substation after a restart of its
history or by its sample time. -/
def frameAdmitted (h : AdmSrc) (e : FrameEntry) : Bool × Bool :=
  if serialLater e.seq h.seq then (true, false)
  else if h.fresh then (true, h.restarted && e.kind == 1)
  else if e.kind = 1 && (laterBy 1 (reportTime e.body) h.stime) && laterBy h.period (reportTime e.body) h.stime then
    (true, true)
  else (false, false)

/-- Admission of one entry: the new history, and whether it enters the image and by R52. -/
def Image.admitOne (g : Image) (e : FrameEntry) : Image × Bool × Bool :=
  let h := mget (fun _ => admNone) g.adm (admKey e)
  let (ok, byR52) := frameAdmitted h e
  if ok then
    let h' : AdmSrc := { seq := e.seq, fresh := false, restarted := false,
                         stime := if e.kind = 1 then reportTime e.body else 0,
                         period := if e.kind = 1 then reportPeriod e.body else 0 }
    ({ g with adm := mset (fun _ => admNone) g.adm (admKey e) h', frames := g.frames ++ [e] }, true, byR52)
  else (g, false, false)

end Sys2Proof.Machine
end

