-- ==== Sys2Proof/Machine/SolveSlot.lean ====
section
/-! DEFINITION. The network model, the assembler and the solver in a lane (chapters 03 and 04). -/
namespace Sys2Proof.Machine

/-- A small change of the agreed solver, and of the lane's own progress. -/
def Lane.slv (l : Lane) (f : Solver → Solver) : Lane := { l with solver := f l.solver }
def Lane.sown (l : Lane) (f : SolvOwn → SolvOwn) : Lane := { l with solv := f l.solv }

/-! ### Clamp report (R323) -/

/-- Add entries to the clamp report, which keeps the last 4096. -/
def Lane.addClamps (l : Lane) (es : List ClampEntry) : Lane :=
  let all := l.dict.clamps ++ es
  let l := { l with dict := { l.dict with clamps := all.drop (all.length - 4096), clampCount := l.dict.clampCount + es.length } }
  if es.isEmpty then l else l.cause 11
/-- Entries that arise outside a commit raise EVENT CLAMPS. -/
def Lane.addClampsEvent (l : Lane) (es : List ClampEntry) : Lane :=
  if es.isEmpty then l
  else
    let n := l.dict.clampCount
    (l.addClamps es).event 3 (leBytes 4 n ++ leBytes 4 (n + es.length - 1))
/-- An entry of a scalar or of an array element. -/
def Lane.clampEntry (l : Lane) (commit idx sub reason src elem req app : Nat) : ClampEntry :=
  let t := match objDesc? idx sub with | some d => d.type | none => 0
  { slot := l.slot, commit := commit, idx := idx, sub := sub, reason := reason, type := t, src := src, elem := elem,
    req := BitVec.ofNat 64 req, app := BitVec.ofNat 64 app }

/-! ### Admission (R142) -/

/-- Effective mode of R122: WARM, and MODEFORCED. -/
def effMode (mode m : Nat) : Bool × Bool :=
  match mode with
  | 0 => (decide (512 < m), false)
  | 1 => (decide (2048 < m), decide (2048 < m))
  | _ => (true, false)

/-- Problem store in bytes, of the partition in force. -/
def Lane.psBytes (l : Lane) : Nat := l.dict.part.getD 0 20 * 2 ^ 20
/-- The admission check's view of the active model. -/
def Lane.admModel (l : Lane) : AdmModel :=
  let g := l.activeObj
  { m := if l.solver.active then (subsAll g).length else 0, n := objNat g 0x7000 3, ps := l.psBytes,
    elems := if l.solver.active then nodeCount g + segCount g else 0, tFact := l.solver.tFact, tFs := l.solver.tFs }
/-- The admission check: the fields it moves, as clamp entries with the commit number, and ADMFAIL. -/
def Lane.admission (l : Lane) (commit src : Nat) : Lane × List ClampEntry :=
  let x := l.admModel
  let lim := if (effMode (l.dict.nat 0x6000 2) x.m).1 then 9 else 8
  let a : Admit := { period := l.dict.nat 0x6000 3, deadline := l.dict.nat 0x6000 5, rounds := l.dict.nat 0x6000 lim,
                     ksub := l.dict.nat 0x6000 7, jnet := l.dict.nat 0x6000 0xA }
  let r := admit142 x a
  let sub (k : Nat) : Nat := if k = 9 then lim else k
  let put (d : Dict) (k : Nat) (v : Nat) : Dict := d.put 0x6000 (sub k) (leBytes (if k = 5 then 4 else 1) v)
  let es := r.2.map fun c => l.clampEntry commit 0x6000 (sub c.1) 0x19 src 0xFFFFFFFF c.2.1 c.2.2
  let d := r.2.foldl (fun d c => put d c.1 c.2.2) l.dict
  let l := { l with dict := d }
  (l.slv fun s => { s with admFail := !admOk x r.1 }, es)

/-! ### Model load (R70, R103 to R109) -/

/-- EVENT MODELLOAD with the state and refusal code (Table 10-10). -/
def Lane.modelEvent (l : Lane) : Lane := l.event 4 (leBytes 1 l.solver.mstate ++ leBytes 1 l.solver.refCode)

/-- A model object: of the model above substation level, or a substation's. -/
def modelObj (idx : Nat) : Bool := decide (0x7000 ≤ idx ∧ idx ≤ 0x7FFF) || decide (0xA000 ≤ idx ∧ idx ≤ 0xAFFF)

/-- A table that mixes structure and parameter columns (R68, R80, Table 03-2): bytes of a row, of which the structure columns. -/
def structCols (idx : Nat) : Option (Nat × Nat) :=
  if idx = 0x7501 then some (32, 8) else if idx = 0x7502 then some (12, 2) else none
/-- A table's rows with the parameter columns of another's. -/
def mergeCols (row cols : Nat) (held new : Bytes) : Bytes :=
  (List.range (held.length / row)).flatMap fun i =>
    (held.drop (row * i)).take cols
      ++ ((if row * (i + 1) ≤ new.length then new else held).drop (row * i + cols)).take (row - cols)
/-- A written structure object counts as one in its set; a mixed table when its rows or structure columns changed (DESIGN
CHOICE, log 154). -/
def structWritten (old new : Dict) (k : Nat) : Bool :=
  match structCols (k / 256) with
  | none => true
  | some (row, cols) =>
    let a := mget objDflt old.vals k
    let b := mget objDflt new.vals k
    let cut (x : Bytes) : List Bytes := (List.range (x.length / row)).map fun i => (x.drop (row * i)).take cols
    cut a != cut b

/-- A set with structure objects has been committed (R70): it forms the pending model, or merges into it; `old` is the
dictionary before the set, `keys` the fields of the set. The pending version is the active one + 1 (DESIGN CHOICE, log 160). -/
def Lane.modelLoad (l : Lane) (old : Dict) (keys : List Nat) : Lane :=
  let ks := keys.filter fun k => modelObj (k / 256)
  let held := ks.foldl (fun h k => if h.any (fun p => p.1 == k) then h else mput h k (mget objDflt old.vals k)) l.solver.held
  (l.slv fun s => { s with mstate := 1, commitAt := l.slot, held := held, pendVer := s.mver + 1 }).modelEvent

/-- A set of parameter objects alone, applied while a load is pending, changes the active model too (R70). -/
def Lane.paramLoad (l : Lane) (keys : List Nat) : Lane :=
  let held := keys.foldl (fun h k =>
    if h.any (fun p => p.1 == k) then
      let now := mget objDflt l.dict.vals k
      mput h k (match structCols (k / 256) with
        | some (row, cols) => mergeCols row cols (mget (fun _ => []) h k) now
        | none => now)
    else h) l.solver.held
  l.slv fun s => { s with held := held }

/-- A refusal (R108): every object of the sets returns to its active value, the clamp report lists it, and the journal
records it; data of the record and the entry of an array: DESIGN CHOICE, log 162. -/
def Lane.refuseModel (l : Lane) (f : Finding) : Lane :=
  let s := l.solver
  let val (b : Bytes) : Nat := leNat (b.take 8)
  let es := s.held.map fun p =>
    let now := mget objDflt l.dict.vals p.1
    let d := objDesc? (p.1 / 256) (p.1 % 256)
    let size (b : Bytes) : Nat := match d with | some d => if typeSize d.type = 0 then b.length else val b | none => 0
    l.clampEntry 0 (p.1 / 256) (p.1 % 256) 0x1A 0xFF 0xFFFFFFFF (size now) (size p.2)
  let vals := s.held.foldl (fun v p => mset objDflt v p.1 p.2) l.dict.vals
  let l := { l with dict := { l.dict with vals := vals } }
  let l := l.slv fun s => { s with mstate := 4, held := [], refCode := f.code, refIndex := f.index, refSub := f.sub,
                                   refRow := f.row }
  let l := (l.reg fun m => fflag m f_ASM_STAT_REFUSED).touchImage
  ((l.journal 4 0xFF f.index f.sub (leBytes 1 f.code ++ leBytes 4 f.row)).addClampsEvent es).modelEvent

/-- The check ends (R103, R108); it runs in CHECK alone. -/
def Lane.checkDone (l : Lane) : Lane :=
  if l.solver.mstate ≠ 1 then l
  else match modelCheck l.pendingObj with
  | none => (l.slv fun s => { s with mstate := 2 }).modelEvent
  | some f => l.refuseModel f
/-- Network-stage workspace in bytes, of the partition in force. -/
def Lane.wsBytes (l : Lane) : Nat := l.dict.part.getD 2 6 * 2 ^ 20
/-- The ordering and the symbolic factorisation end (R103, R106, R107); they run in ORDER alone. Both depend on the structure
only, so the problem they look at has no measurements in it. -/
def Lane.orderDone (l : Lane) : Lane :=
  if l.solver.mstate ≠ 2 then l
  else
    let p := netProb l.pendingObj [] 0
    let order := p.ordering
    let split := factorSplit (factorSizes p.graph order) l.wsBytes
    (l.slv fun s => { s with mstate := 3, pendOrder := order, factorBytes := split.1, factorHeld := split.2 }).modelEvent
/-- The lane is not READY by slot c + 40,000 (R105). -/
def Lane.loadLateDue (l : Lane) : Bool :=
  (l.solver.mstate == 1 || l.solver.mstate == 2) && decide (l.solver.commitAt.toNat + 40000 ≤ l.slot.toNat)
def Lane.loadLate (l : Lane) : Lane := (l.reg fun m => fflag m f_ASM_STAT_LATE).raiseUce 2
/-- REFUSED leaves to IDLE at the next slot. -/
def Lane.modelIdle (l : Lane) : Lane := if l.solver.mstate = 4 then (l.slv fun s => { s with mstate := 0 }).modelEvent else l

/-- Activation (R104): signatures, figures and the admission check with it. -/
def Lane.activate (l : Lane) : Lane :=
  let g := l.pendingObj
  let n := objNat g 0x7000 3
  let sigs := (subsAll g).foldl (fun m k => mset (fun _ => 0) m k (subSignature g k)) []
  let l := l.slv fun s => { s with
    mstate := 0, held := [], active := true, mver := s.mver + 1, netSig := netSignature g, sigs := sigs, order := s.pendOrder,
    tFact := (Config.tFact (g 0x7500 1) (g 0x7501 1) n).toNat, tFs := (Config.tFs (g 0x7500 1) (g 0x7501 1) n).toNat }
  let r := (l.reg fun m => fflag m f_ASM_STAT_ACTIVATED).admission 0 0xFF
  (r.1.addClampsEvent r.2).modelEvent

/-! ### The snapshot (R91 to R94, R121 to R127, R130) -/

/-- The age limit of an operating point (R93): the STALE limit of its substation, or 300,000 slots above substation level. -/
def opLimit (g : ObjReader) (kind i : Nat) : Nat :=
  if (2 ≤ kind ∧ kind ≤ 4) ∨ 10 ≤ kind then objNat g (0xA000 + i) 7 else 300000
/-- An operating point from the measurement point that the model names for it, when that is fresh. -/
def Lane.opMeasured (l : Lane) (g : ObjReader) (vals : NMap Bytes) (kind i : Nat) : Option Nat :=
  match Config.opPoint vals kind i with
  | none => none
  | some p =>
    match l.dict.point p.1.toNat p.2.toNat with
    | some x => if l.dict.pointAge l.slot p.1.toNat p.2.toNat ≤ opLimit g kind i then some (widen x.1) else none
    | none => none
/-- Its value in the previous solution (R81, R93, R112): of ξ at step k where ξ holds it, of u(0), else what that solve took. -/
def WarmSet.opValue (w : WarmSet) (k kind i : Nat) : Nat :=
  let v (x : Nat) : Nat := vAt w.st.xi x
  match kind with
  | 0 => v (w.lay.var k 1 i)
  | 1 => v (w.lay.pmpVar k i)
  | 5 => v (w.lay.srcVar k i)
  | 7 => v (w.lay.var k 0 i)
  | _ =>
    if 10 ≤ kind then
      match w.st.entries.find? fun e => e.1 == i with
      | some e => widen (mAt e.2.u 0 (kind - 10))
      | none => 0
    else opVal w.ops kind i
/-- The operating points of a snapshot that measurement points give: kinds and numbers. -/
def opList (y : NetLay) (subs : List Nat) : List (Nat × Nat) :=
  (List.range y.sc).map (fun i => (0, i)) ++ y.pmp.map (fun i => (1, i))
    ++ (subs.flatMap fun n => [(2, n), (3, n), (4, n)]) ++ y.src.map (fun i => (5, i)) ++ y.sto.map (fun i => (6, i))
    ++ (List.range y.nc).map (fun i => (7, i)) ++ y.flx.map (fun i => (8, i)) ++ (List.range y.nc).map (fun i => (9, i))
    ++ subs.flatMap fun n => [(10, n), (11, n), (12, n)]
/-- The shift of R125 from a warm-start set. -/
def Lane.warmShift (l : Lane) (g : ObjReader) (w : WarmSet) : Int :=
  fdiv ((l.img.dtNsTotal : Int) - w.tGrid) (gridDt g * 1000000000)
/-- The operating points, each with whether it is a fallback; the demand of the metering feeders is measured at every
snapshot. `w` the previous solution when its structure is the model's. -/
def Lane.opPoints (l : Lane) (g : ObjReader) (vals : NMap Bytes) (subs : List Nat) (w : Option WarmSet) : NMap (Nat × Bool) :=
  let y := netLay g
  let m := (opList y subs).foldl (fun m p =>
    mput m (opKey p.1 p.2) (match l.opMeasured g vals p.1 p.2 with
      | some v => (v, false)
      | none => (match w with
          | some w => w.opValue (clampI 0 (gridN g - 1 : Nat) (l.warmShift g w)).toNat p.1 p.2
          | none => 0, true))) []
  (List.range 4).foldl (fun m f => mput m (opKey 13 f) (l.mtrQuantity (0x530 + f), false)) m
/-- The previous solution's prediction for t_s of a substation's states (R92): only of one solved with its present signature. -/
def Lane.predicted (l : Lane) (g : ObjReader) (n : Nat) : Option (List Nat) :=
  match l.solver.warm with
  | none => none
  | some w =>
    if (w.sigs.find? fun p => p.1 == n).map (·.2) != some (mget (fun _ => 0) l.solver.sigs n) then none
    else match w.st.entries.find? fun e => e.1 == n with
      | none => none
      | some e =>
        let s := l.warmShift g w
        if s ≤ 0 then some (mget (fun _ => [0, 0, 0, 0]) w.x0s n) else e.2.x[s.toNat - 1]?
/-- A state's value at the snapshot, and where it comes from: 0 a fresh point, 1 PRED, 2 DEFAULT (R92). -/
def Lane.stateSource (l : Lane) (g : ObjReader) (n i : Nat) : Nat × Nat :=
  let p := objElem g (0xA000 + n) 0x30 1 i
  match (if p < 16 ∧ l.dict.pointAge l.slot n p ≤ objNat g (0xA000 + n) 7 then l.dict.point n p else none),
    l.predicted g n with
  | some x, _ => (widen x.1, 0)
  | none, some e => if p = 0xFF then (objF64 g (0xA000 + n) 0x31 i, 2) else (widen (vAt e i), 1)
  | none, none => (objF64 g (0xA000 + n) 0x31 i, 2)
/-- Some state of a substation comes from a source. -/
def Lane.stateFrom (l : Lane) (n from' : Nat) : Bool :=
  (List.range (subDims l.activeObj n).1).any fun i => (l.stateSource l.activeObj n i).2 == from'
def Lane.staleSub (l : Lane) (n : Nat) : Bool := l.stateFrom n 1 || l.stateFrom n 2

/-- What decides a substation's discretised matrices. -/
def discKey (g : ObjReader) (n : Nat) : Bytes :=
  g 0x7000 2 ++ [2, 3, 0x10, 0x20, 0x28].flatMap fun k => g (0xA000 + n) k

/-- Grid steps extrapolated in the worst array (R89). -/
def Lane.extrapWorst (l : Lane) (subs : List Nat) : Nat :=
  let g := l.activeObj
  let n := objNat g 0x7000 3
  let dt := objNat g 0x7000 2
  let t := l.img.dtNsTotal
  let fc := subs.map fun s => extrapolated t (time80ns (g (0xA000 + s) 0x3A)) (objNat g (0xA000 + s) 0x3B) 48 dt n
  let tf := (List.range 16).map fun a =>
    if objNat g (0x7600 + a) 1 = 0 then 0
    else extrapolated t (time80ns (g (0x7600 + a) 2)) (objNat g (0x7600 + a) 3) ((g (0x7600 + a) 4).length / 4) dt n
  (fc ++ tf).foldl max 0

/-- Records in hamper order (R98). -/
def hamperOrder (g : ObjReader) (subs : List Nat) : List Nat :=
  subs.mergeSort fun x y =>
    let p := subDims g x
    let q := subDims g y
    decide (p.1 < q.1) || (decide (p.1 = q.1) && (decide (p.2 < q.2) || (decide (p.2 = q.2) && decide (x ≤ y))))
/-- The dictionary as the active model has it. -/
def Lane.activeVals (l : Lane) : NMap Bytes := l.solver.held.foldl (fun v p => mset objDflt v p.1 p.2) l.dict.vals
/-- The warm-start set when its structure at network level is the model's (R124). -/
def Lane.warmNet (l : Lane) : Option WarmSet :=
  match l.solver.warm with
  | some w => if w.netSig = l.solver.netSig ∧ w.lay = netLay l.activeObj then some w else none
  | none => none
/-- Flags of a record (Table 03-9): PRED, DEFAULT, fallback, recomputed discretisation, cold network. -/
def Lane.recordFlags (l : Lane) (ops : NMap (Nat × Bool)) (redo : List Nat) (n : Nat) : Nat :=
  let fell := [2, 3, 4].any fun k => (mget (fun _ => (0, false)) ops (opKey k n)).2
  (l.stateFrom n 1).toNat + 2 * (l.stateFrom n 2).toNat + 4 * fell.toNat + 8 * (redo.contains n).toNat
    + 16 * (onCold l.activeObj n).toNat
/-- What a solve of this slot assembles (R91). -/
def Lane.assemble (l : Lane) (ops : NMap (Nat × Bool)) (redo : List Nat) : SolveIn :=
  let vals := l.activeVals
  let g : ObjReader := fun idx sub => mget objDflt vals (objKey idx sub)
  let o : NMap Nat := ops.map fun p => (p.1, p.2.1)
  let t := l.img.dtNsTotal
  { vals := vals, grid := t, ops := o, net := netProb g o t,
    subs := (hamperOrder g (subsEnabled g)).map fun n =>
      subProb g o t n ((List.range 4).map fun i => (l.stateSource g n i).1) (l.recordFlags ops redo n)
        (mget (fun _ => 0) l.solver.sigs n) }

/-- A solve begins (R121): the assembler's reading of the slot, the mode, the start and the round budget. -/
def Lane.beginSolve (l : Lane) : Lane :=
  let s := l.solver
  let g := l.activeObj
  let subs := subsEnabled g
  let m := subs.length
  let n := objNat g 0x7000 3
  let mode := effMode (l.dict.nat 0x6000 2) m
  let shift : Int := match s.warm with | some w => l.warmShift g w | none => n
  let sig (k : Nat) : BitVec 64 := mget (fun _ => 0) s.sigs k
  let cold := subs.filter fun k =>
    match s.warm with
    | none => true
    | some w => (w.sigs.find? fun p => p.1 == k).map (·.2) != some (sig k)
  let changed := s.warm.isSome && l.warmNet.isNone
  let coldNet := mode.1 && changed
  let warm := mode.1 && decide (shift < n)
  let refact := !mode.1 || coldNet ||
    (match s.warm with | none => true | some w => decide (l.dict.nat 0x6000 0xB ≤ w.age + 1))
  let redo := subs.filter fun k => !(s.disc.any fun p => p.1 == k && p.2 == discKey g k)
  let disc := subs.foldl (fun d k => mput d k (discKey g k)) s.disc
  let ksub := l.dict.nat 0x6000 7
  let jnet := l.dict.nat 0x6000 0xA
  let deadline := l.dict.nat 0x6000 5
  let ta := tAsm m redo.length (nodeCount g + segCount g)
  let tf := if refact then s.tFact * 1000 * tns else 0
  let tr := tRound m n l.psBytes l.word.solve.minTiles ksub jnet (if refact then 1 else 3) s.tFs
  let res := resident m n l.psBytes
  let ops := l.opPoints g l.activeVals subs l.warmNet
  let inp := l.assemble ops redo
  let start := inp.start (if warm then s.warm.map (·.st) else none) shift cold (changed || !warm) changed
  let run : SolveRun :=
    { num := (s.num + 1) % 65536, snap := l.slot, tGrid := l.img.dtNsTotal, warmMode := mode.1,
      budget := roundBudget deadline ta tf tr, cap := l.dict.nat 0x6000 (if mode.1 then 9 else 8), refact := refact,
      coldNet := coldNet, coldSub := if mode.1 && decide ((n : Int) ≤ shift) then m else cold.length,
      streamed := m - res, forced := mode.2, hampers := hamperSizes m,
      stop := l.slot + BitVec.ofNat 64 (deadline * 20 - 101), dead := l.slot + BitVec.ofNat 64 (deadline * 20),
      early := l.dict.nat 0x6000 6 == 0, epsP := l.dict.nat 0x6001 1, epsD := l.dict.nat 0x6001 2, inp := inp,
      verdict := none, pub := none }
  let fell := (ops.filter fun p => decide (p.1 < opKey 10 0) && p.2.2).length
  let stale := (subs.filter fun k => l.staleSub k).length
  let extrap := l.extrapWorst subs
  let l := { l with dict := subs.foldl (fun d k => d.put (0xA000 + k) 0x80 (leBytes 4 (l.recordFlags ops redo k))) l.dict }
  let l := l.slv fun s => { s with num := run.num, run := some run, disc := disc }
  let computes := !l.copy.factor
  let l := l.sown fun o => { o with
    nocomp := !computes, store := if computes then { heads := [], recs := [], resident := res } else o.store
    work := if computes then some inp.net else o.work, cur := start, newFac := none, missed := false
    phase := if o.catchup then 7 else if !computes then 0 else if m = 0 then (if refact then 2 else 3) else 1
    last := 0, done := computes && decide (m = 0) && decide (run.limit = 0), fact := false, built := 0, fetching := false
    fetched := false }
  l.reg fun r =>
    let r := fset (fset r f_ASM_SNAPLO_SNAPLO (l.slot.toNat % 2 ^ 32)) f_ASM_SNAPHI_SNAPHI (l.slot.toNat / 2 ^ 32)
    let r := fset (fset (fset r f_ASM_HAMP_HAMPERS run.hampers.length) f_ASM_HAMP_RESIDENT res) f_ASM_HAMP_STREAMED (m - res)
    let r := fsat (fset r f_ASM_CNT_STALESUB stale) f_ASM_CNT_OPFALL fell
    let r := fsat (fset r f_ASM_CNT_EXTRAP extrap) f_ASM_CNT_COPCLAMP inp.net.clamped
    fset r f_SOLV_STAT_BUDGET (min 255 run.budget)

/-- EVENT SOLVE of the last solve (Table 10-10). -/
def Lane.solveEvent (l : Lane) : Lane :=
  let e := l.solver.last
  (l.event 5 (leBytes 1 e.status ++ leBytes 1 e.round ++ leBytes 2 e.num)).cause 6
/-- The solve in progress ends without publication (R148). -/
def Lane.solveEnds (l : Lane) (status : Nat) : Lane :=
  match l.solver.run with
  | none => l
  | some r => ((l.slv fun s => s.endWithout r status).sown fun o => { o with phase := if o.catchup then 7 else 0 }).solveEvent

/-- A model can be used by a solve of this slot: it is active, or becomes so (R104). -/
def Lane.modelUsable (l : Lane) : Bool :=
  l.solver.active || (l.solver.mstate == 3 && decide (l.solver.commitAt.toNat + 40000 ≤ l.slot.toNat))
/-- The slot's number makes it a snapshot slot (R121). -/
def Lane.periodic (l : Lane) : Bool :=
  l.dict.flag 0x6000 1 && decide (l.slot.toNat % (l.dict.nat 0x6000 3 * 20000) = l.dict.nat 0x6000 4)
/-- Skipped snapshot slots and ignored commands. -/
def Lane.skip (l : Lane) (n : Nat) : Lane := (List.range n).foldl (fun l _ => l.reg fun m => fbump m f_SOLV_CNT_SKIPCNT) l

/-- CANCEL applied in this slot (R138). -/
def Lane.cancelRun (l : Lane) : Lane :=
  let l := if l.solver.cancel then l.solveEnds 9 else l
  l.slv fun s => { s with cancel := false }

/-- The snapshot decision of a slot, once, after step 1 of Table 01-6 (R121, R138). Each SOLVENOW that is ignored counts; all
that find the slot free make it one snapshot slot. A snapshot slot counts as skipped when a solve in progress alone stands in
its way. -/
def Lane.snapshotRun (l : Lane) : Lane :=
  if l.solver.asked then l
  else
    let l := l.cancelRun
    let now := l.solver.now
    let l := l.slv fun s => { s with asked := true, now := 0 }
    if now = 0 ∧ l.periodic = false then l
    else if l.word.arbFault then l.skip now
    else if l.solver.run.isSome then l.skip (now + (l.periodic && l.modelUsable).toNat)
    else if !l.dict.flag 0x6000 1 then l.skip now
    else if !l.modelUsable then
      (l.skip now).slv fun s => if l.periodic then { s with last := { s.last with status := 8 } } else s
    else
      let l := if l.solver.mstate = 3 ∧ l.solver.commitAt.toNat + 40000 ≤ l.slot.toNat then l.activate else l
      l.beginSolve

/-! ### Progress (R98, R114, R123, R131, R145, R146) -/

/-- The time from the snapshot in 0.1 ms (SOLV_TIMING). -/
def Lane.solveTiming (l : Lane) (r : SolveRun) : Lane :=
  let t := (l.slot - r.snap).toNat / 2
  l.reg fun m => fmax (fsat m f_SOLV_TIMING_LASTTIME t) f_SOLV_TIMING_MAXTIME t
/-- The lane is done by R123 at its last completed round. -/
def Lane.solveDone (l : Lane) (r : SolveRun) : Lane := (l.sown fun o => { o with done := true, phase := 4 }).solveTiming r
/-- Computing starts after the assembly and the factor: with no round to run the lane is done at once. -/
def Lane.startRounds (l : Lane) (r : SolveRun) : Lane :=
  let l := l.sown fun o => { o with phase := 3 }
  if r.limit = 0 then l.solveDone r else l

/-- A hamper's header (R99) and records go into the store. -/
def ProbStore.addHamper (p : ProbStore) (i : SolveIn) (sizes : List Nat) (h : Nat) : ProbStore :=
  let mine := (i.subs.drop (sizes.take h).sum).take (sizes.getD h 0)
  let head := leBytes 1 h ++ leBytes 1 mine.length ++ leBytes 2 (768 + 112 * i.net.n)
    ++ leBytes 2 ((mine.map (·.num)).headD 0) ++ leBytes 8 (mine.map fun b => b.sig.toNat).sum
  { p with heads := p.heads ++ [fit 64 head], recs := p.recs ++ mine.map SubProb.fresh }
/-- The network stage writes the coupling targets into every record (R114); a streamed record goes back whole (R140). -/
def ProbStore.retarget (p : ProbStore) (i : SolveIn) (s : RoundState) : ProbStore :=
  { p with recs := i.subs.map fun b => b.bytes [] ((i.net.zOfSub s.xi b.num).map vRound) }

/-- The next hamper's last record is written (R102); the last hamper ends the assembly. -/
def Lane.hamperDone (l : Lane) (me : LaneId) : Lane :=
  match l.solver.run with
  | none => l
  | some r =>
    if l.solv.phase ≠ 1 ∨ l.solv.catchup = true then l
    else
      let l := l.sown fun o => { o with built := o.built + 1, store := o.store.addHamper r.inp r.hampers o.built }
      if l.solv.built < r.hampers.length then l
      else
        let t := (Config.asmTime me r.snap).toNat
        let l := l.reg fun m => fmax (fset m f_ASM_TIME_LASTTIME t) f_ASM_TIME_MAXTIME t
        if r.refact && decide (r.limit ≠ 0) then l.sown fun o => { o with phase := 2 } else l.startRounds r
/-- The factorisation ends (R114, R118). -/
def Lane.factorDone (l : Lane) : Lane :=
  match l.solver.run with
  | none => l
  | some r =>
    if l.solv.phase = 2 then
      (l.sown fun o => { o with fact := true, newFac := some (r.factorise l.solver.order) }).startRounds r
    else l
/-- The factor that the linear solves of a lane use: this solve's, or the previous one (R119). -/
def Lane.factorInUse (l : Lane) (r : SolveRun) : Factor :=
  ((if r.refact then l.solv.newFac else l.solv.factor).orElse fun _ =>
    l.solver.warm.map (·.fac)).getD (r.factorise l.solver.order)
/-- A coupling round ends (R114, R117, R123). -/
def Lane.roundDone (l : Lane) : Lane :=
  match l.solver.run with
  | none => l
  | some r =>
    if l.solv.phase ≠ 3 ∨ r.limit ≤ l.solv.last then l
    else
      let j := l.solv.last + 1
      let st := r.inp.round (l.factorInUse r) r.refact l.solv.cur
      if st.bad then l.solveEnds 7
      else
        let l := l.sown fun o => { o with last := j, cur := st, old := o.cur, store := o.store.retarget r.inp st }
        if r.endsAt j st then l.solveDone r else l
/-- A tile retires (R145); below TILEFLOOR the lane reports (R146). -/
def Lane.tileRetire (l : Lane) (t : Nat) : Lane :=
  if 48 ≤ t ∨ l.solv.retired.getLsbD t = true then l
  else
    let l := (l.sown fun o => { o with retired := o.retired ||| BitVec.ofNat 48 (2 ^ t) }).reg fun m =>
      fflag m f_SOLV_STAT_TILERET
    if l.solv.tiles < l.dict.nat 0x6000 0xC then l.raiseUce 4 else l
/-- The stop slot (R131): a lane that still computes stops where it is. Under ARBFAULT no verdict follows, and the solve
ends (R403). -/
def Lane.stopSolve (l : Lane) : Lane :=
  match l.solver.run with
  | none => l
  | some r =>
    if r.stop ≠ l.slot then l
    else
      let computing := decide (1 ≤ l.solv.phase ∧ l.solv.phase ≤ 3) || (l.solv.phase == 7 && !l.solv.nocomp)
      let l := if computing then
          ((l.sown fun o => { o with phase := if o.phase = 7 then 7 else 5 }).reg fun m => fflag m f_SOLV_STAT_STOPPED).solveTiming r
        else l
      if l.word.arbFault then l.solveEnds 6 else l

/-! ### Verdict, fetch and publication (R132 to R136) -/

/-- The verdict slot (R133). -/
def Lane.verdict (l : Lane) : Lane :=
  let w := l.word.solve
  match l.solver.run with
  | none => l
  | some r =>
    if !w.verdict || r.verdict.isSome || decide (w.solve ≠ r.num % 256) then l
    else
      if w.round = 0 then (if r.limit = 0 then l else l.reg fun m => fbump m f_SOLV_CNT_DLCNT).solveEnds 6
      else
        let r' := { r with verdict := some (l.slot, w.round, w.source), pub := some (if r.early then l.slot + 80 else r.dead) }
        let l := l.slv fun s => { s with run := some r' }
        if l.solv.last = w.round then
          l.sown fun o => { o with phase := if o.phase = 5 then 5 else 4, fetching := false }
        else (l.sown fun o => { o with phase := 6, fetching := true, fetched := false }).reg fun m => fflag m f_SOLV_STAT_BEHIND
/-- Round k with its state has been fetched (R133). -/
def Lane.fetchDone (l : Lane) (k : Nat) (st : RoundState) : Lane :=
  if l.solv.fetching then
    l.sown fun o => { o with fetching := false, fetched := true, last := k, phase := 4, cur := st, old := o.cur }
  else l
/-- A lane from which round k of a solve can be fetched. -/
def Lane.hasRound (l : Lane) (num k : Nat) : Bool :=
  decide (l.solv.last = k) && !l.solv.fetching && (match l.solver.run with | some r => decide (r.num = num) | none => false)
/-- A fetch that is still under way at t1 of the publication slot comes too late (R135). -/
def Lane.fetchLate (l : Lane) : Lane :=
  match l.solver.run with
  | some r => l.sown fun o => { o with missed := o.missed || (o.fetching && decide (r.pub = some l.slot)) }
  | none => l

/-- The warm-start set that a publication leaves (R124, R127, R136). -/
def Lane.warmAfter (l : Lane) (r : SolveRun) : WarmSet :=
  let s := l.solver
  let old := s.warm
  { solve := r.num, tGrid := r.tGrid, netSig := s.netSig,
    sigs := r.inp.subs.foldl (fun m b => mput m b.num (mget (fun _ => 0) s.sigs b.num)) [],
    x0s := r.inp.subs.foldl (fun m b => mput m b.num b.x0) [], ops := r.inp.ops, lay := r.inp.net.lay, st := l.solv.cur,
    factor := if r.refact then r.num else (match old with | some w => w.factor | none => 0),
    fac := match r.refact, old with | false, some w => w.fac | _, _ => r.factorise s.order,
    age := if r.refact then 0 else (match old with | some w => w.age + 1 | none => 0) }
/-- Publication (R135, R136, R147): the published objects, the warm-start set and the factor. A lane that lacks the round
keeps its published set and reports. DLCNT counts here when round r ends the solve by the stop slot (DESIGN CHOICE, log 153:
before, a lane that fetches cannot tell). -/
def Lane.publishSolve (l : Lane) (r : SolveRun) (k : Nat) : Lane :=
  if l.solv.last ≠ k ∨ l.solv.fetching = true ∨ l.solv.missed = true then
    ((l.slv fun s => { s with run := none }).sown fun o => { o with phase := 0, fetching := false }).raiseUce 3
  else
    let s := l.solver
    let st := l.solv.cur
    let w := l.warmAfter r
    let status := r.status k st
    let e : SolveEnd :=
      { status := status, flags := r.flags st.nanSeen (r.refact && decide (w.fac.regs ≠ 0)) s.admFail, num := r.num, round := k,
        coldSub := r.coldSub, pubCold := r.coldSub, snap := r.snap, pubSlot := l.slot, result := some (r.inp.publish st) }
    let l := if status = 5 then l.reg fun m => fbump m f_SOLV_CNT_DLCNT else l
    let l := l.slv fun s => { s with run := none, last := e, warm := some w }
    let l := l.sown fun o =>
      let c := r.refact && !o.fact
      { o with phase := if c then 7 else 0, catchup := o.catchup || c
               factor := if r.refact && o.fact then o.newFac else o.factor, newFac := none }
    (if l.cycleStarts then l else l.seq fun q => { q with published := true }).solveEvent

/-- Step 4 of Table 01-6 in the publication slot, after the slot's snapshot decision. -/
def Lane.step4Run (l : Lane) : Lane :=
  let l := l.snapshotRun
  if l.step4 then l
  else
    let l := { l with step4 := true }
    match l.solver.run with
    | some r =>
      match r.verdict, r.pub with
      | some (_, k, _), some p => if p = l.slot then l.publishSolve r k else l
      | _, _ => l
    | none => l
/-- The background factor is complete (R136). -/
def Lane.catchupDone (l : Lane) : Lane :=
  if l.solv.catchup then
    let next := match l.solver.run with
      | none => 0
      | some r => if l.solv.nocomp then 0 else if r.stop.toNat ≤ l.slot.toNat then 5 else 1
    l.sown fun o => { o with catchup := false, factor := l.solver.warm.map (·.fac)
                             phase := if o.phase = 7 then next else o.phase }
  else l

/-! ### What the arbiter, registers and objects see -/

/-- The solve fields of a report (Table 04-4). -/
def Lane.solveReport (l : Lane) : SolveReport :=
  { solve := l.solver.num % 256, last := l.solv.last, done := l.solv.done, fact := l.solv.fact, tiles := l.solv.tiles }

/-- SOLV's read-only fields. -/
def Lane.solvView (l : Lane) (m : RegMap) : RegMap :=
  let e := l.solver.last
  let o := l.solv
  let m := fset (fset m f_SOLV_STAT_ROUND o.last) f_SOLV_STAT_HEALTHY (if l.life = .up then o.tiles else 0)
  let m := fbool (fset m f_SOLV_STAT_PHASE o.phase) f_SOLV_STAT_BUSY l.solver.run.isSome
  let m := fset (fset (fset m f_SOLV_PUB_STATUS e.status) f_SOLV_PUB_ROUND e.round) f_SOLV_PUB_SOLVENUM e.num
  let m := rset m f_SOLV_PFLAGS_COLDSUB.key (BitVec.ofNat 32 (e.flags + e.coldSub * 2 ^ f_SOLV_PFLAGS_COLDSUB.lo))
  let m := fset (fset m f_SOLV_PUBSLOTLO_PUBLO (e.pubSlot.toNat % 2 ^ 32)) f_SOLV_PUBSLOTHI_PUBHI (e.pubSlot.toNat / 2 ^ 32)
  let res (f : Published → Nat) : Nat := match e.result with | some p => narrow (f p) | none => 0
  let m := fset (fset m f_SOLV_RESP_RP (res (·.rp))) f_SOLV_RESD_RD (res (·.rd))
  let m := fset (fset m f_SOLV_TFACT_TFACT l.solver.tFact) f_SOLV_TFS_TFS l.solver.tFs
  rset (rset m f_SOLV_RETLO_RET.key (o.retired.truncate 32)) f_SOLV_RETHI_RET.key (BitVec.ofNat 32 (o.retired.toNat / 2 ^ 32))

/-- ASM's read-only fields. -/
def Lane.asmView (l : Lane) (m : RegMap) : RegMap :=
  let s := l.solver
  let m := fset (fbool (fbool m f_ASM_STAT_NOMODEL (!s.active)) f_ASM_STAT_ASSEMBLING (l.solv.phase == 1)) f_ASM_STAT_MSTATE
    s.mstate
  let m := fset (fset m f_ASM_MVER_MVER s.mver) f_ASM_REFROW_ROW s.refRow
  let m := fset (fset (fset m f_ASM_REFUSE_CODE s.refCode) f_ASM_REFUSE_SUB s.refSub) f_ASM_REFUSE_INDEX s.refIndex
  fset (fset m f_ASM_NSIGLO_NSIGLO (s.netSig.toNat % 2 ^ 32)) f_ASM_NSIGHI_NSIGHI (s.netSig.toNat / 2 ^ 32)

/-- The read-only objects of the model and of the published results (Tables 03-2 and 04-7). -/
def Lane.solveObj (l : Lane) (idx sub : Nat) : Option Bytes :=
  let s := l.solver
  let e := s.last
  -- n elements of a published list; what has not been published is zero
  let pub (f : Published → List Nat) (sz n : Nat) : Bytes :=
    let xs := match e.result with | some p => f p | none => []
    (List.range n).flatMap fun k => leBytes sz (vAt xs k)
  let traj (n : Nat) : Bytes := pub (fun p => mget (fun _ => []) p.traj (objKey idx sub)) 4 n
  if idx = 0x6008 then
    match sub with
    | 1 => some (leBytes 1 e.status)
    | 2 => some (leBytes 2 e.flags)
    | 3 => some (leBytes 2 e.num)
    | 4 => some (leBytes 1 e.round)
    | 5 => some (leBytes 8 e.snap.toNat)
    | 6 => some (leBytes 8 e.pubSlot.toNat)
    | 7 => some (pub (fun p => [p.rp]) 8 1)
    | 8 => some (pub (fun p => [p.rd]) 8 1)
    | 9 => some (leBytes 2 e.pubCold)
    | 0xA => some (pub (·.cost) 8 8)
    | 0xB => some (pub (·.act) 4 8)
    | _ => none
  else if 0x6100 ≤ idx ∧ idx ≤ 0x629F then some (traj 48)
  else if 0x6400 ≤ idx ∧ idx ≤ 0x640F then some (traj 144)
  else if idx = 0x7001 then
    match sub with
    | 1 => some (leBytes 1 s.mstate)
    | 2 => some (leBytes 4 s.mver)
    | 3 => some (leBytes 4 s.pendVer)
    | 4 => some (leBytes 1 s.refCode)
    | 5 => some (leBytes 2 s.refIndex)
    | 6 => some (leBytes 4 (if s.refRow = 0xFFFFFFFF then s.refSub else s.refRow))
    | 7 => some (leBytes 8 s.factorBytes)
    | _ => none
  else if idx = 0x7700 then
    some (s.order.flatMap (leBytes 4))
  else if idx = 0x7701 then some (leBytes 8 s.netSig.toNat)
  else if idx = 0x7702 then some ((List.range 4096).flatMap fun n => leBytes 8 (mget (fun _ => 0) s.sigs n).toNat)
  else none

end Sys2Proof.Machine
end

