-- ==== Sys2Proof/Machine/Keys.lean ====
section
/-! DEFINITION. Sessions' epochs and the key unit in a lane (chapters 10 and 11). -/
namespace Sys2Proof.Machine

/-! ### Sessions (R306 to R308) -/

/-- A session's state, and a change of one. -/
def Lane.sess (l : Lane) (n : Nat) : Session := l.dict.sessions.getD n session0
def Lane.modSess (l : Lane) (n : Nat) (f : Session → Session) : Lane :=
  { l with dict := { l.dict with sessions := lmod l.dict.sessions n f } }

/-- The data of a SESSION record (R333). -/
def sessionData (x : Session) : Bytes :=
  leBytes 1 x.st ++ leBytes 1 x.port ++ leBytes 2 x.epoch ++ leBytes 4 x.txseq.toNat ++ leBytes 4 x.rxseq.toNat
/-- A SESSION record of this slot: one per session, with its last state. -/
def Lane.sessNote (l : Lane) (n src : Nat) : Lane :=
  let mine (j : JRec) : Bool := j.slot == l.slot && j.code == 5 && j.idx == 0x1200 + n
  if l.dict.journal.any mine then
    let data := fit 32 (sessionData (l.sess n))
    { l with dict := { l.dict with journal := l.dict.journal.map fun j => if mine j then { j with data := data } else j } }
  else l.journal 5 src (0x1200 + n) 0x10 (sessionData (l.sess n))

/-- A session may be open: it is enabled, its keys are in force and its epochs are not spent. -/
def Lane.sessOpen (l : Lane) (n : Nat) : Bool :=
  l.dict.flag (0x1200 + n) 1 && !(l.sess n).keyClosed && !(l.sess n).spent
/-- The admission history of a frame source restarts (R50, R52). -/
def Lane.restartSource (l : Lane) (kind n : Nat) : Lane :=
  let k := 65536 * kind + n
  match l.img.adm.find? fun p => p.1 == k with
  | some p => { l with img := { l.img with adm := mset (fun _ => admNone) l.img.adm k { p.2 with fresh := true, restarted := true } } }
  | none => l

/-- A session's epoch takes a value: the session is UNBOUND or CLOSED, and everything of the old epoch is gone (R308). -/
def Lane.setEpoch (l : Lane) (n e src : Nat) : Lane :=
  let l := if 65535 < e then l.modSess n fun x => { x with spent := true } else l.modSess n fun x => { x with epoch := e }
  let opened := l.sessOpen n
  let l := l.modSess n fun x => { x with
    st := if opened then 1 else 0, port := 0xFE, txseq := 0, rxseq := 0, txCount := 0, rxCount := 0, staged := [], wx := none
    rs := none, retry := [], subs := [], defer := [] }
  let l := { l with nvm := { l.nvm with epochs := l.nvm.epochs.set n (l.sess n).epoch } }
  (l.restartSource 2 n).sessNote n src
/-- The epoch advances by one. -/
def Lane.advanceEpoch (l : Lane) (n src : Nat) : Lane :=
  if (l.sess n).spent then l.setEpoch n (l.sess n).epoch src else l.setEpoch n ((l.sess n).epoch + 1) src
/-- Sessions of a partner. -/
def Lane.partnerSessions (l : Lane) (p : Nat) : List Nat := (List.range 8).filter fun n => l.dict.nat (0x1200 + n) 3 == p

/-! ### The key register (R338, R340, R342) -/

/-- A small change of the key unit. -/
def Lane.ku (l : Lane) (f : KeyUnit → KeyUnit) : Lane := { l with key := f l.key }
/-- Every generation along a path is the one in force. -/
def KeyPath.current (p : KeyPath) (g : Gens) : Bool := p == g.path p.dom p.num
/-- The tamper policy, and whether it acts now (R352, R353). -/
def Lane.tamperPolicy (l : Lane) : Nat := l.dict.nat 0x1400 1
def Lane.tamperActs (l : Lane) : Bool := l.word.tamper && l.tamperPolicy != 0
/-- A job or frame ended or refused for tamper; a job that ended ORPHANED. -/
def Lane.tamperCount (l : Lane) : Lane := l.reg fun m => fflag (fbump m f_KEY_CNT_TAMPREF) f_KEY_STAT_TAMPABORT
def Lane.orphanCount (l : Lane) : Lane := l.reg fun m => fflag (fbump m f_KEY_CNT_ORPHCNT) f_KEY_STAT_ORPHAN
/-- The end of a host job with its status. -/
def Lane.hostEnds (l : Lane) (st : Nat) : Lane :=
  let l := (l.ku fun k => { k with job := none }).reg fun m => fset (fset m f_KEY_STAT_LASTSTAT st) f_KEY_RESULT_STATUS st
  if st = 1 then l.orphanCount else if st = 2 then l.tamperCount else l
/-- At step 1 of a generation change: an orphaned key leaves the register, and its job ends ORPHANED (R342). -/
def Lane.orphanCheck (l : Lane) : Lane :=
  match l.key.reg with
  | some p =>
    if p.current l.keyA.gens then l
    else
      let busy := l.key.job.isSome
      let l := l.ku fun k => { k with reg := none }
      if busy then l.hostEnds 1 else l
  | none => l

/-- A domain and leaf number of Table 11-1. -/
def leafOk (dom num : Nat) : Bool :=
  match dom with
  | 1 => decide (num < 65536)
  | 2 => decide (num < 4096)
  | 3 => decide (num < 3)
  | 4 => num == 1 || num == 2
  | _ => false

/-- The check value of a key (R345). -/
def kcv (key : Bytes) : Nat := beNat ((aes256 key (zeros 16)).take 3)
/-- A key is derived along a path: the register holds it. -/
def Lane.derive (l : Lane) (p : KeyPath) : Lane := l.ku fun k => { k with reg := some p }

/-- A command of KEY_CMD waits its turn at the key register (R338). -/
def Lane.askKey (l : Lane) (op len : Nat) : Lane := l.ku fun k => { k with job := some (op, len) }
/-- A host key command (KEY_CMD): 1 DERIVE, 2 CRYPT, 3 CLEAR, 4 KCV. -/
def Lane.hostKey (l : Lane) (op len : Nat) : Lane :=
  if l.tamperActs then l.hostEnds 2
  else if !l.key.ready then l.hostEnds 3
  else match op with
  | 1 =>
    let d := fget l.regs f_KEY_PATH_DOMAIN
    let n := fget l.regs f_KEY_PATH_NUMBER
    if leafOk d n then
      let p := l.keyA.gens.path d n
      (((l.derive p).ku fun k => { k with host := some p }).reg fun m => fset m f_KEY_GEN_GEN p.gLeaf).hostEnds 0
    else l.hostEnds 5
  | 2 =>
    match l.key.host with
    | none => l.hostEnds 5
    | some p =>
      if p.dom ≠ 4 ∨ p.num ≠ 2 ∨ len = 0 ∨ 64 < len then l.hostEnds 4
      else if !p.current l.keyA.gens then l.hostEnds 1
      else
        let data := ((List.range 16).flatMap fun k => leBytes 4 (fget l.regs (f_KEY_DATA_DATA.at (4 * k)))).take len
        let tag := cmac p.key data
        ((l.derive p).reg fun m => (List.range 4).foldl (fun m k =>
          fset m (f_KEY_MAC_MAC.at (4 * k)) (natAt tag (4 * k) 4)) m).hostEnds 0
  | 3 => (l.ku fun k => { k with reg := none }).hostEnds 0
  | 4 =>
    match l.key.host with
    | none => l.hostEnds 5
    | some p =>
      if p.current l.keyA.gens then ((l.derive p).reg fun m => fset m f_KEY_RESULT_KCV (kcv p.key)).hostEnds 0
      else l.hostEnds 1
  | _ => l.hostEnds 4

/-! ### Invalidation (R341 to R343, R350) -/

/-- A change of the agreed generations, due in MRAM by the end of the next slot. -/
def Lane.modGens (l : Lane) (f : Gens → Gens) : Lane :=
  { l with keyA := { l.keyA with gens := f l.keyA.gens, mramDue := some (l.slot + 1) } }
/-- The agreement keys of the generations in force. -/
def Lane.laneKeys (l : Lane) : List KeyPath := (List.range 3).map fun x => l.keyA.gens.path 3 x
/-- XLNK reloads its engines: the new keys serve from slot c + 2. -/
def Lane.reloadEngines (l : Lane) : Lane := l.ku fun k => { k with enginesNext := some (l.slot + 2, l.laneKeys) }
/-- A retag starts, or restarts under the newer generations (R350). -/
def Lane.startRetag (l : Lane) (dict logic : Bool) : Lane :=
  let old := l.nvm.retag
  let d := dict || (match old with | some r => r.dict | none => false)
  let g := logic || (match old with | some r => r.logic | none => false)
  { l with nvm := { l.nvm with retag := some { dict := d, logic := g, target := l.keyA.gens } } }
/-- Every session is closed and key-closed until its partner is enrolled again. -/
def Lane.keyCloseAll (l : Lane) (src : Nat) : Lane :=
  (List.range 8).foldl (fun l n => (l.modSess n fun x => { x with keyClosed := true }).advanceEpoch n src) l

/-- Invalidation of a node, already clamped (R341, Table 11-4). -/
def Lane.invalidate (l : Lane) (v src : Nat) : Lane :=
  let level := v / 2 ^ 24
  let dom := v / 65536 % 256
  let num := v % 65536
  match level with
  | 1 =>
    let l := l.modGens fun g => { g with dev := g.dev + 1 }
    (((l.orphanCheck.keyCloseAll src).reloadEngines).startRetag true true)
  | 2 =>
    match dom with
    | 1 => ((l.modGens fun g => { g with ses := g.ses + 1 }).orphanCheck).keyCloseAll src
    | 2 => (l.modGens fun g => { g with sst := g.sst + 1 }).orphanCheck
    | 3 => ((l.modGens fun g => { g with agr := g.agr + 1 }).orphanCheck).reloadEngines
    | 4 => ((l.modGens fun g => { g with sto := g.sto + 1 }).orphanCheck).startRetag true true
    | _ => l
  | 3 =>
    let l := (l.modGens fun g => { g with leaf := mset (fun _ => 0) g.leaf (65536 * dom + num) (g.leafGen dom num + 1) }
      ).orphanCheck
    match dom with
    | 1 => (l.partnerSessions num).foldl (fun l n =>
        if (l.sess n).spent then (l.modSess n fun x => { x with spent := false }).setEpoch n 0 src else l.advanceEpoch n src) l
    | 2 => l.restartSource 1 num
    | 3 => l.reloadEngines
    | 4 => l.startRetag (num == 1) (num == 2)
    | _ => l
  | _ => l

/-- The clamp of an INVALIDATE value: the value in force and the reason (R341). -/
def Gens.clampInvalidate (g : Gens) (v : Nat) : Nat × Nat :=
  let level := v / 2 ^ 24
  let dom := v / 65536 % 256
  let num := v % 65536
  let domOk := decide (1 ≤ dom) && decide (dom ≤ 4)
  let bad := match level with
    | 1 => decide (dom ≠ 0) || decide (num ≠ 0)
    | 2 => !domOk || decide (num ≠ 0)
    | 3 => !leafOk dom num
    | _ => true
  let cur := match level with | 1 => g.dev | 2 => g.dom dom | _ => g.leafGen dom num
  if v = 0 then (0, 0) else if bad then (0, 3) else if cur = 2 ^ 32 - 1 then (0, 1) else (v, 0)

/-- At the end of slot c + 1 the new generations are in MRAM; those of storage follow the retag (R341, R350). -/
def Lane.gensToMram (l : Lane) : Lane :=
  match l.keyA.mramDue with
  | some d =>
    if d.toNat ≤ l.slot.toNat then
      let g := l.keyA.gens
      let img (m : NMap Nat) (k : Nat) (v : Nat) : NMap Nat := mset (fun _ => 0) m k v
      let g' := if l.nvm.retag.isSome then
          { g with sto := l.nvm.gens.sto,
                   leaf := img (img g.leaf (65536 * 4 + 1) (l.nvm.gens.leafGen 4 1)) (65536 * 4 + 2) (l.nvm.gens.leafGen 4 2) }
        else g
      { l with nvm := { l.nvm with gens := g' }, keyA := { l.keyA with mramDue := none } }
    else l
  | none => l

/-- Agreement keys loaded for this slot come into use (R343). -/
def Lane.enginesTake (l : Lane) : Lane :=
  match l.key.enginesNext with
  | some (s, ks) => if s.toNat ≤ l.slot.toNat then l.ku fun k => { k with engines := ks, enginesNext := none } else l
  | none => l

/-! ### Enrolment (R344 to R347) -/

/-- A response body with a result other than OK: bytes 8 to 159 are zero. -/
def Lane.enrolFail (l : Lane) (r : Nat) (body : Bytes) : Bytes :=
  let dom := natAt body 0 1
  let num := natAt body 2 2
  leBytes 1 r ++ leBytes 1 dom ++ leBytes 2 num ++ leBytes 4 (l.keyA.gens.leafGen dom num) ++ zeros 152

/-- The body of an ENROL response, of a request that started in a slot (R345). -/
def Lane.enrolBody (l : Lane) (j : EnrolJob) (start : BitVec 64) : Bytes :=
  let dom := natAt j.body 0 1
  let num := natAt j.body 2 2
  let gen := leBytes 4 (l.keyA.gens.leafGen dom num)
  let fail (r : Nat) : Bytes := l.enrolFail r j.body
  if j.tamper then fail 4
  else if !leafOk dom num then fail 3
  else if dom = 3 ∨ (dom = 4 ∧ num = 1) then fail 2
  else match ecDecode (slice j.body 4 97) with
    | none => fail 1
    | some q =>
      if !onCurve q then fail 1
      else
        let ctx := leBytes 1 dom ++ leBytes 2 num ++ gen
        let o := kdf (deviceKey l.keyA.gens.dev) (ascii "LJ3-EPH") (beBytes 48 q.1 ++ ctx ++ leBytes 8 start.toNat) 4
        let d := 1 + beNat o % (n384 - 1)
        match ecMul d g384, ecMul d q with
        | some qd, some z =>
          let zb := beBytes 48 z.1
          let kw := kdf (zb.take 32) (ascii "LJ3-WRP") (zb.drop 32 ++ ctx) 2
          let leaf := l.leafKey dom num
          let head := leBytes 1 0 ++ leBytes 1 dom ++ leBytes 2 num ++ gen
          let w := gcmEncrypt kw (zeros 12) head leaf
          head ++ ecEncode qd ++ zeros 3 ++ w.1 ++ w.2 ++ leBytes 4 (kcv leaf)
        | _, _ => fail 1

/-- An ENROL begins in this slot when none is running and none has ended in it. -/
def Lane.enrolStart (l : Lane) : Lane :=
  match l.keyA.enrols with
  | j :: rest =>
    if j.start.isNone && l.keyA.enrolEnd != some l.slot then { l with keyA := { l.keyA with enrols := { j with start := some l.slot } :: rest } } else l
  | [] => l
/-- The running ENROL is in the last of its 200 slots. -/
def Lane.enrolDue (l : Lane) : Option (EnrolJob × BitVec 64) :=
  match l.keyA.enrols with
  | j :: _ =>
    match j.start with
    | some s => if s + 199 = l.slot then some (j, s) else none
    | none => none
  | [] => none
/-- A partner leaf enrolled with RESULT 0 lifts the key-closed marks of its partner (R347). -/
def Lane.enrolLift (l : Lane) (p src : Nat) : Lane :=
  (l.partnerSessions p).foldl (fun l n =>
    if (l.sess n).keyClosed then (l.modSess n fun x => { x with keyClosed := false }).advanceEpoch n src else l) l

/-! ### Tamper (R352, R353) -/

/-- The strobe of the first slot that carries the active state: the policy acts on the register, on ENROLs and on the
SESSION generation. -/
def Lane.tamperStrobe (l : Lane) (was : Bool) : Lane :=
  if !l.word.tamper || l.tamperPolicy == 0 then l
  else
    let l := { l with keyA := { l.keyA with enrols := l.keyA.enrols.map fun j =>
      { j with tamper := j.tamper || j.start.isSome } } }
    if was then l
    else
      let busy := l.key.job.isSome
      let l := l.ku fun k => { k with reg := none }
      if busy then l.hostEnds 2 else l
/-- The increment of INVALIDATE-SESSION at step 1 of the same slot; a generation at its maximum stays. -/
def Lane.tamperSession (l : Lane) : Lane :=
  if (l.keyA.gens.clampInvalidate 0x02010000).1 = 0 then l else l.invalidate 0x02010000 0xFF

/-! ### What registers and objects show -/

/-- KEY's read-only fields. -/
def Lane.keyView (l : Lane) (m : RegMap) : RegMap :=
  let m := fset (fbool m f_KEY_STAT_TAMPER l.word.tamper) f_KEY_STAT_TAMPOL l.tamperPolicy
  let m := fbool (fbool m f_KEY_STAT_READY l.key.ready) f_KEY_STAT_RETAG l.nvm.retag.isSome
  let run := match l.keyA.enrols with | j :: _ => j.start.isSome | [] => false
  fbool (fbool m f_KEY_STAT_ENROLBUSY run) f_KEY_STAT_LOADED l.key.reg.isSome

/-- The generation objects (Table 11-9). -/
def Lane.keyObj (l : Lane) (ready : Bool) (idx sub : Nat) : Option Bytes :=
  let g := l.keyA.gens
  let leaves (d a n : Nat) : Bytes := (List.range n).flatMap fun k => leBytes 4 (g.leafGen d (a + k))
  match idx, sub with
  | 0x1401, 1 => some (leBytes 4 g.dev)
  | 0x1401, 2 => some (leBytes 4 g.ses)
  | 0x1401, 3 => some (leBytes 4 g.sst)
  | 0x1401, 4 => some (leBytes 4 g.agr)
  | 0x1401, 5 => some (leBytes 4 g.sto)
  | 0x1401, 6 => some (leBytes 1 ((List.range 8).map fun n => if (l.sess n).keyClosed then 2 ^ n else 0).sum)
  | 0x1401, 7 => some [if ready then 1 else 0]
  | 0x1410, 1 => some (leaves 1 0 65536)
  | 0x1411, 1 => some (leaves 2 0 4096)
  | 0x1412, 1 => some (leaves 3 0 3)
  | 0x1413, 1 => some (leaves 4 1 2)
  | _, _ => none

end Sys2Proof.Machine
end

