-- ==== Sys2Proof/Machine/Objects.lean ====
section
/-! DEFINITION. Access rights, locks and what the dictionary's objects read as (R328 to R333). -/
namespace Sys2Proof.Machine

/-! ### Rights (R331, Table 10-12) -/

/-- The right of a role by area: 0 none, 1 read, 2 read and write, 3 staged-only write, 4 write until locked. -/
def areaRight (idx sub role : Nat) (struct : Bool) : Nat :=
  let pick (xs : List Nat) : Nat := xs.getD role 0
  let eng := if struct then 3 else 2
  match idx / 0x1000 with
  | 0 => 1
  | 1 =>
    match idx / 0x100 with
    | 0x10 => if idx = 0x1001 ∧ sub = 5 then pick [2, 1, 1, 1, 1, 1] else 1
    | 0x1F => if idx = 0x1F10 ∧ sub = 3 then pick [3, 1, 1, 1, 1, 1] else 1
    | 0x11 => pick [2, 1, 1, 1, 0, 1]
    | 0x13 => pick [2, 1, 1, 1, 0, 1]
    | 0x12 => pick [3, 1, 0, 0, 0, 1]
    | 0x16 => pick [3, 1, 0, 0, 0, 1]
    | 0x14 => if (idx = 0x1400 ∧ sub = 1) ∨ (idx = 0x1402 ∧ sub = 1) then pick [2] else pick [1]
    | 0x15 =>
      if (idx = 0x1500 ∧ sub = 2) ∨ (0x1510 ≤ idx ∧ idx ≤ 0x151F) then pick [4, 1, 0, 1, 0, 1]
      else if idx = 0x1500 ∧ sub = 4 then pick [2, 1, 0, 1, 0, 1]
      else pick [1, 1, 0, 1, 0, 1]
    | _ => 0
  | 2 => if idx = 0x2000 ∧ sub = 2 then pick [2, 1, 1, 0, 1, 1] else pick [4, 1, 1, 0, 1, 1]
  | 3 => if idx = 0x3000 ∧ sub = 2 then pick [2, 1, 1, 0, 0, 1] else pick [4, 1, 1, 0, 0, 1]
  | 4 =>
    let op := (idx ≤ 0x41FF && (sub == 1 || sub == 0xC)) || idx == 0x4300
    pick [2, if op then 2 else 1, 0, 0, 0, 1]
  | 5 =>
    let op := (idx == 0x5000 && sub == 3) || (decide (0x5100 ≤ idx ∧ idx ≤ 0x510F)) || decide (0x5200 ≤ idx ∧ idx ≤ 0x520F)
    pick [if idx = 0x5010 then 3 else 2, if op then 2 else 1, 0, 1, 0, 1]
  | 6 => pick [2, if idx = 0x6000 ∧ sub ≤ 5 then 2 else 1, 0, 1, 1, 1]
  | 7 =>
    let tariff := decide (0x7600 ≤ idx ∧ idx ≤ 0x760F)
    pick [eng, if struct || tariff then 1 else 2, 0, 1, if tariff then 2 else 1, 1]
  | 8 => pick [2, 1, 0, 0, 0, 1]
  | 0xA => pick [eng, if struct then 1 else 2, 1, 1, 0, 1]
  | _ => 0
/-- The right of a role on a field; a read-only field grants no write. -/
def ObjDesc.right (d : ObjDesc) (idx sub role : Nat) : Nat :=
  let r := areaRight idx sub role d.struct
  if d.ro then min 1 r else r

/-- A field is locked (R233, R238, R364). -/
def Lane.locked (l : Lane) (idx sub : Nat) : Bool :=
  if l.dict.flag 0x2000 2 && ((idx == 0x2000 && sub == 1) || decide (0x2010 ≤ idx ∧ idx ≤ 0x2037) || idx == 0x2070) then true
  else if l.dict.flag 0x3000 2 && ((idx == 0x3000 && sub == 1) || decide (0x3010 ≤ idx ∧ idx ≤ 0x302F) || idx == 0x3070) then true
  else l.word.island.locked && ((idx == 0x1500 && sub == 2) || decide (0x1510 ≤ idx ∧ idx ≤ 0x151F))

/-! ### Descriptors and the directory (R330) -/

/-- The kind byte of a descriptor. -/
def ObjDesc.kind (d : ObjDesc) : Nat :=
  let so := d.struct || d.lo == 0x5010 || (d.lo == 0x1F10 && d.s0 == 3) || decide (d.lo / 0x100 = 0x12) || decide (d.lo / 0x100 = 0x16)
  d.struct.toNat + 2 * d.action.toNat + 4 + 8 * d.held.toNat + 16 * (so && !d.ro).toNat
/-- The descriptor of a field (Table 10-11). -/
def ObjDesc.bytes (d : ObjDesc) (idx sub : Nat) : Bytes :=
  let b := match d.rng with
    | .any => (0, 256 ^ typeSize d.type - 1)
    | .int lo hi _ => (elemBits d.type lo, elemBits d.type hi)
    | .enum m => (0, m)
    | .intOr lo hi cs => (elemBits d.type lo, cs.foldl max (elemBits d.type hi))
    | .gate => (0, 256 ^ typeSize d.type - 1)
    | .flt lo hi => (lo, hi)
    | .finite => if elemType d.type = 0xB then (0xFFEFFFFFFFFFFFFF, 0x7FEFFFFFFFFFFFFF) else (0xFF7FFFFF, 0x7F7FFFFF)
    | .mag lo hi => (lo, hi)
  let acc := ((List.range 6).map fun r => d.right idx sub r * 16 ^ r).sum
  leBytes 1 d.type ++ leBytes 1 d.kind ++ leBytes 2 d.n ++ leBytes 4 acc ++ leBytes 8 (d.dflt.getD 0 0) ++ leBytes 8 b.1
    ++ leBytes 8 b.2
/-- Implemented indices with their highest subindex and kind flags. -/
def directory : List (Nat × Nat × Nat) :=
  (List.range 0xB000).filterMap fun i =>
    match dictTable.filter fun d => decide (d.lo ≤ i) && decide (i ≤ d.hi) with
    | [] => none
    | d :: ds => some (i, (d :: ds).foldl (fun m x => max m x.s1) 0, (d :: ds).foldl (fun m x => m ||| x.kind) 0)

/-! ### Computed objects -/

/-- The clamp report as bytes (Table 10-6). -/
def ClampEntry.bytes (e : ClampEntry) : Bytes :=
  leBytes 8 e.slot.toNat ++ leBytes 4 e.commit ++ leBytes 2 e.idx ++ leBytes 1 e.sub ++ leBytes 1 e.reason ++ leBytes 1 e.type
    ++ leBytes 1 e.src ++ zeros 2 ++ leBytes 4 e.elem ++ leBytes 8 e.req.toNat ++ leBytes 8 e.app.toNat
/-- A journal record with its number and CRC (R333). -/
def JRec.bytes (j : JRec) (n : Nat) : Bytes :=
  let b := leBytes 8 n ++ leBytes 8 j.slot.toNat ++ leBytes 2 j.code ++ leBytes 1 j.src ++ zeros 1 ++ leBytes 2 j.idx
    ++ leBytes 1 j.sub ++ zeros 1 ++ fit 32 j.data ++ leBytes 4 j.commit
  b ++ leBytes 4 (crc32 b).toNat
/-- A ring of fixed records: record q of `count` at place q mod `cap`; `recs` holds the newest, oldest first. -/
def ringBytes (cap count size : Nat) (recs : List Bytes) : Bytes :=
  (List.range cap).flatMap fun p =>
    -- the newest number at place p
    if count = 0 then zeros size
    else
      let q := count - 1 - (count - 1 + cap - p) % cap
      if (count - 1 + cap - p) % cap < count ∧ (count - 1 + cap - p) % cap < recs.length then
        recs.getD (recs.length - 1 - (count - 1 - q)) (zeros size)
      else zeros size

/-- Point fields of a substation (R332). -/
def Lane.pointObj (l : Lane) (n sub : Nat) : Option Bytes :=
  if 0x40 ≤ sub ∧ sub < 0x80 then
    let p := (sub - 0x40) / 4
    let x := l.dict.point n p
    some (match sub % 4 with
      | 0 => leBytes 4 (match x with | some v => v.1 | none => 0)
      | 1 => leBytes 1 ((mget (fun _ => (0, 0, [])) l.dict.reports n).2.2.getD p 0)
      | 2 => leBytes 4 (l.dict.pointAge l.slot n p)
      | _ => leBytes 10 (match x with | some v => v.2.2.1.toNat | none => 0))
  else
    let r := mget (fun _ => (0, 0, [])) l.dict.reports n
    match sub with
    | 0x81 => some (leBytes 1 r.1)
    | 0x82 => some (leBytes 4 (mget (fun _ => admNone) l.img.adm (65536 + n)).seq.toNat)
    | 0x83 => some (leBytes 1 r.2.1)
    | _ => none

/-- Identity, lanes, sessions, reports and other objects of the system areas. -/
def Lane.systemObj (l : Lane) (idx sub : Nat) : Option Bytes :=
  let isl := l.word.island
  let arb := l.word.arb
  if 0x0010 ≤ idx ∧ idx ≤ 0x009F then some (leBytes 1 (typeSize (idx - 0x10)))
  else if 0x1200 ≤ idx ∧ idx ≤ 0x1207 then
    let x := l.sess (idx - 0x1200)
    match sub with
    | 0x10 => some (leBytes 1 x.st)
    | 0x11 => some (leBytes 1 x.port)
    | 0x12 => some (leBytes 2 x.epoch)
    | 0x13 => some (leBytes 4 x.txseq.toNat ++ leBytes 4 x.rxseq.toNat)
    | _ => none
  else if 0x1530 ≤ idx ∧ idx ≤ 0x153F then
    let n := idx - 0x1530
    let x := isl.ch.getD n (0, 0, 0, 0)
    match sub with
    | 1 => some (leBytes 1 x.1)
    | 2 => some (leBytes 1 x.2.1)
    | 3 => some (leBytes 4 x.2.2.1)
    | _ => some (leBytes 4 x.2.2.2)
  else match idx, sub with
  | 0x0000, 1 => some (leBytes 4 directory.length)
  | 0x0000, 2 => some (directory.flatMap fun e => leBytes 2 e.1 ++ leBytes 1 e.2.1 ++ leBytes 1 e.2.2)
  | 0x1000, 1 => some (ascii "Stavhorn Microsystems")
  | 0x1000, 2 => some (ascii (if Config.grade then "LJ3-4096-XF" else "LJ3-4096-AF"))
  | 0x1000, 3 => some (leBytes 8 Config.serial.toNat)
  | 0x1000, 4 => some (leBytes 1 Config.step.toNat)
  | 0x1000, 5 => some (leBytes 1 Config.grade.toNat)
  | 0x1000, 6 => some (leBytes 2 0x0100)
  | 0x1001, 1 => some (leBytes 1 l.mask.bits)
  | 0x1001, 2 => some (leBytes 1 l.mask.count)
  | 0x1001, 3 => some [if arb.gate then 1 else 0]
  | 0x1001, 4 => some (leBytes 8 l.firstSlot.toNat)
  | 0x1001, 6 => some (leBytes 1 arb.cause)
  | 0x1001, 7 => some (leBytes 4 arb.hold)
  | 0x1101, 1 => some (arb.lanes.flatMap fun x => leBytes 1 x.1)
  | 0x1101, 2 => some (arb.lanes.flatMap fun x => leBytes 1 x.2.1)
  | 0x1101, 3 => some (arb.lanes.flatMap fun x => leBytes 1 x.2.2)
  | 0x1420, 1 => some (leBytes 1 (arb.log.filterMap id).length)
  | 0x1420, 2 => some (arb.log.flatMap fun e => match e with
      | none => zeros 8
      | some e => leBytes 4 e.secLo ++ leBytes 4 e.high)
  | 0x1500, 1 => some (leBytes 1 (if !isl.locked then 0 else if l.dict.nat 0x1500 2 ≠ isl.crc.toNat then 2 else 1))
  | 0x1500, 3 => some (leBytes 4 isl.crc.toNat)
  | 0x1500, 5 => some (leBytes 1 isl.confirm)
  | 0x1501, 1 => some (leBytes 4 isl.faults.toNat)
  | 0x1600, 4 => some [2]
  | 0x1600, 5 => some (l.dict.part.flatMap fun x => leBytes 1 x)
  | 0x1600, 6 => some [if ((List.range 3).any fun k => l.dict.nat 0x1600 (1 + k) ≠ l.dict.part.getD k 0) then 1 else 0]
  | 0x1F00, 1 => some (leBytes 4 l.dict.clampCount)
  | 0x1F00, 2 => some (ringBytes 4096 l.dict.clampCount 40 (l.dict.clamps.map ClampEntry.bytes))
  | 0x1F10, 1 => some (leBytes 8 l.dict.journalCount)
  | 0x1F10, 2 =>
    -- records count from 1, and record q stands at place q mod C (R333)
    let first := l.dict.journalCount - l.dict.journal.length
    some (ringBytes (l.dict.jMib * 16384) (l.dict.journalCount + 1) 64 (l.dict.journal.mapIdx fun i j => j.bytes (first + i + 1)))
  | 0x1F10, 4 => some (leBytes 4 l.dict.jMib)
  | _, _ => none

/-- Objects of metering, loops, logic, ports and substations. -/
def Lane.unitObj (l : Lane) (idx sub : Nat) : Option Bytes :=
  let q8 (x : Nat) : Bytes := leBytes 8 x
  -- the default MAC address of a port comes from the serial (R264)
  if 0x8000 ≤ idx ∧ idx ≤ 0x802F ∧ sub = 3 ∧ beNat (l.dict.get idx 3) = 0 then
    some (beBytes 6 (macDefault Config.serial.toNat (idx - 0x8000)).toNat) else
  if 0x2040 ≤ idx ∧ idx ≤ 0x204F then some (q8 (l.mtrQuantity (256 * sub + 16 * ((idx - 0x2040) % 4) + (idx - 0x2040) / 4)))
  else if 0x2068 ≤ idx ∧ idx ≤ 0x206B then
    let f := l.feeder (idx - 0x2068)
    some (if sub = 1 then (if f.shown = 0 then zeros 256 else mget (fun _ => zeros 256) f.ring (f.shown % 256)) else mtrRing f)
  else if 0x3080 ≤ idx ∧ idx ≤ 0x3087 then some (q8 (l.thmQuantity (256 * sub + (idx - 0x3080))))
  else if 0x3090 ≤ idx ∧ idx ≤ 0x309F then some (q8 (l.thmQuantity (256 * sub + (idx - 0x3090))))
  else if 0x30A0 ≤ idx ∧ idx ≤ 0x30A7 then
    let c := l.circ (idx - 0x30A0)
    some (if sub = 1 then (if c.shown = 0 then zeros 128 else mget (fun _ => zeros 128) c.ring (c.shown % 256)) else thmRing c)
  else if 0x4000 ≤ idx ∧ idx ≤ 0x41FF then
    let x := l.loop (idx - 0x4000)
    match sub with
    | 0x20 => some (leBytes 2 (loopStatus x))
    | 0x21 => some (q8 x.rawOut.toNat)
    | 0x22 => some (q8 x.out.toNat)
    | 0x23 => some (leBytes 4 x.nfcnt)
    | _ => none
  else if 0x4400 ≤ idx ∧ idx ≤ 0x44FF ∧ sub % 4 = 3 then
    let s := l.sec (16 * (idx - 0x4400) + sub / 4)
    some (q8 s.1.toNat ++ q8 s.2.toNat)
  else if 0x4F00 ≤ idx ∧ idx ≤ 0x4F0F then
    let f (x : Fld) : Nat := fget l.regs (x.at (0x20 * (idx - 0x4F00)))
    match sub with
    | 1 => some (leBytes 1 (f f_LENG_TRSRC_NODE))
    | 2 => some (leBytes 1 (f f_LENG_TRSRC_SEC))
    | 3 => some (leBytes 2 (f f_LENG_TRSRC_LOOP))
    | 4 => some (leBytes 1 (f f_LENG_TRTRIG_MODE))
    | 5 => some (leBytes 1 (f f_LENG_TRTRIG_LINK))
    | 6 => some (leBytes 1 (f f_LENG_TRTRIG_PREPCT))
    | 7 => some (leBytes 4 (f f_LENG_TRLEVLO_LEVLO) ++ leBytes 4 (f f_LENG_TRLEVHI_LEVHI))
    | 8 => some (leBytes 4 (f f_LENG_TRDEPTH_DEPTH))
    | 0xA => some (leBytes 1 (l.traceOf (idx - 0x4F00)).st)
    | 0xB => some (leBytes 1 (f f_LENG_TRSTAT_PRESHORT))
    | 0xC => some (leBytes 4 (l.traceOf (idx - 0x4F00)).trigIdx)
    | 0xD => some (leBytes 4 (l.traceOf (idx - 0x4F00)).wrptr)
    | _ => none
  else if idx = 0x5000 ∧ sub = 1 then some (leBytes 1 l.lseq.run)
  else if 0x5110 ≤ idx ∧ idx ≤ 0x511F then
    some [if getQ l.lseq.pub (0x2000 + 64 * (idx - 0x5110) + sub - 1) then 1 else 0]
  else if 0xA000 ≤ idx ∧ idx ≤ 0xAFFF ∧ 0x40 ≤ sub then l.pointObj (idx - 0xA000) sub
  else if idx = 0x8401 then
    some (if sub ≤ 4 then (List.range 3).flatMap fun x => leBytes 4 (l.dict.stats.getD (3 * (sub - 1) + x) 0)
      else leBytes 4 (l.dict.stats.getD (12 + sub - 5) 0))
  else none

/-- What a field reads as. -/
def Lane.objRead (l : Lane) (idx sub : Nat) : Bytes :=
  match (l.systemObj idx sub).orElse fun _ => (l.keyObj l.word.arb.keyReady idx sub).orElse fun _ =>
      (l.unitObj idx sub).orElse fun _ => l.solveObj idx sub with
  | some v => v
  | none => l.dict.get idx sub

end Sys2Proof.Machine
end

