-- ==== Sys2Proof/Machine/Commit.lean ====
section
/-! DEFINITION. Sets at the commit slot: checks, clamps and effects (R319 to R322, and the unit rules they run). -/
namespace Sys2Proof.Machine

/-! ### The order of a set -/

/-- A field's key. -/
def StagedField.key (f : StagedField) : Nat := objKey f.idx f.sub
/-- Insert a field in index and subindex order, replacing an earlier value of it. -/
def putField (f : StagedField) : List StagedField → List StagedField
  | [] => [f]
  | x :: xs => if f.key < x.key then f :: x :: xs else if f.key = x.key then f :: xs else x :: putField f xs

/-! ### Checks (R317, R319) -/

/-- A value matches a field's type (R329): a scalar of its length, a whole number of elements, BOOLs 0 or 1. -/
def valueFits (d : ObjDesc) (v : Bytes) : Bool :=
  let sz := typeSize d.type
  let bools := elemType d.type != 1 || v.all fun b => b == 0 || b == 1
  if sz = 0 then true
  else if d.type < 0x80 then v.length == sz && bools
  else v.length % sz == 0 && bools
/-- The status of a write to a field: 0 when it may proceed. `whole` when it is a WRITE of its own. -/
def Lane.writeStatus (l : Lane) (role : Nat) (whole : Bool) (f : StagedField) : Nat :=
  match objDesc? f.idx f.sub with
  | none => 1
  | some d =>
    let r := d.right f.idx f.sub role
    if r < 2 then 2
    else if r = 3 ∧ whole = true then 5
    else if !valueFits d f.val then 3
    else if r = 4 ∧ l.locked f.idx f.sub = true then 4
    else 0
/-- A set that invalidates the device key or the SESSION domain needs the mailbox (R341). -/
def mailboxOnly (f : StagedField) : Bool :=
  f.idx == 0x1402 && (decide (leNat f.val / 2 ^ 24 = 1) || decide (leNat f.val / 65536 = 0x0201))
/-- The first failing field of a set in order, with its status. -/
def Lane.setStatus (l : Lane) (role : Nat) (whole mailbox : Bool) (fs : List StagedField) : Option (Nat × StagedField) :=
  fs.findSome? fun f =>
    match l.writeStatus role whole f with
    | 0 => if mailboxOnly f && !mailbox then some (2, f) else none
    | st => some (st, f)

/-! ### Clamps (R321, R322) -/

/-- A set while it is applied: the lane with the fields so far, the dictionary before the set, commit number, source, and
entries. -/
structure SetRun where
  l : Lane
  old : Dict
  commit : Nat
  src : Nat
  es : List ClampEntry

/-- Write a value, and list a change of it. -/
def SetRun.put (s : SetRun) (idx sub : Nat) (v : Bytes) : SetRun :=
  { s with l := { s.l with dict := s.l.dict.put idx sub v } }
def SetRun.note (s : SetRun) (idx sub reason elem req app : Nat) : SetRun :=
  { s with es := s.es ++ [s.l.clampEntry s.commit idx sub reason s.src elem req app] }

/-- The clamp of element i; some fields have a rule of their own (R341, AFESHPORT of Table 09-2, Table 03-4). -/
def SetRun.clampOne (s : SetRun) (d : ObjDesc) (idx sub i dflt x : Nat) : Nat × Nat :=
  if 0xA000 ≤ idx ∧ idx ≤ 0xAFFF ∧ sub = 0x10 then clampElem d.type (templateRange i) dflt x
  else if idx = 0x1402 then s.l.keyA.gens.clampInvalidate x
  else if idx = 0x8040 ∧ (x = 319 ∨ x = 320) then (5870, 1)
  else clampElem d.type d.rng dflt x

/-- The values an address field of a port admits (Table 09-2): a unicast MAC address, a global or unique-local address, a
link-local router; all zero is unset. -/
def octetsOk (idx sub : Nat) (v : Bytes) : Bool :=
  if 0x8000 ≤ idx ∧ idx ≤ 0x802F ∧ v.any (fun b => b != 0) = true then
    let x := beNat v
    let top := x / 2 ^ 118
    match sub with
    | 3 => v.length == 6 && x / 2 ^ 40 % 2 == 0
    | 7 => v.length == 16 && top != 0x3FA && x / 2 ^ 120 != 0xFF && x != 1
    | 9 => v.length == 16 && top != 0x3FA && x / 2 ^ 120 != 0xFF && x != 1
    | 0xB => v.length == 16 && top == 0x3FA
    | _ => true
  else true

/-- The columns of the rows that a write of `len` bytes to a table touched, each checked by itself; an entry names the row. -/
def SetRun.columns (s : SetRun) (idx len : Nat) : SetRun :=
  let t := tableCols idx
  if t.1 = 0 then s
  else (List.range ((len + t.1 - 1) / t.1)).foldl (fun s i => t.2.foldl (fun s c =>
    let v := s.l.dict.get idx 1
    let o := t.1 * i + c.1
    let sz := typeSize c.2.1
    let x := natAt v o sz
    let r := clampElem c.2.1 c.2.2 0 x
    if r.2 = 0 ∨ v.length < o + sz then s
    else (s.put idx 1 (v.take o ++ leBytes sz r.1 ++ v.drop (o + sz))).note idx 1 r.2 i x r.1) s) s
/-- Step 1 for one field; an address outside its kind becomes unset, with reason RANGE. -/
def SetRun.range (s : SetRun) (f : StagedField) : SetRun :=
  match objDesc? f.idx f.sub with
  | none => s
  | some d =>
    let sz := typeSize d.type
    if sz = 0 then
      let v := f.val.take d.n
      let s := if d.n < f.val.length then s.note f.idx f.sub 6 0xFFFFFFFF f.val.length d.n else s
      if octetsOk f.idx f.sub v then s.put f.idx f.sub v
      else
        let w := objDflt (objKey f.idx f.sub)
        (s.put f.idx f.sub w).note f.idx f.sub 1 0xFFFFFFFF v.length w.length
    else if d.type < 0x80 then
      let x := leNat f.val
      let r := s.clampOne d f.idx f.sub 0 (d.dflt.getD 0 0) x
      let s := s.put f.idx f.sub (leBytes sz r.1)
      if r.2 = 0 then s else s.note f.idx f.sub r.2 0xFFFFFFFF x r.1
    else
      let k := f.val.length / sz
      let s := if d.n < k then s.note f.idx f.sub 6 0xFFFFFFFF k d.n else s
      let xs := (List.range (min k d.n)).map fun i =>
        let x := natAt f.val (sz * i) sz
        (x, s.clampOne d f.idx f.sub i (d.dflt.getD i (d.dflt.getLastD 0)) x)
      let s := (xs.mapIdx fun i x => (i, x)).foldl (fun s x =>
        if x.2.2.2 = 0 then s else s.note f.idx f.sub x.2.2.2 x.1 x.2.1 x.2.2.1) s
      let new := xs.flatMap fun x => leBytes sz x.2.1
      (s.put f.idx f.sub (new ++ (s.l.dict.get f.idx f.sub).drop new.length)).columns f.idx (new.length)

/-- Step 2: the missing members of an action object take zero (R321). -/
def SetRun.action (fs : List StagedField) (s : SetRun) (idx : Nat) : SetRun :=
  if fs.any fun f => f.idx == idx then
    [1, 2, 3, 4].foldl (fun s sub =>
      if fs.any fun f => f.idx == idx && f.sub == sub then s
      else (s.put idx sub (objDflt (objKey idx sub))).note idx sub 5 0xFFFFFFFF 0 0) s
  else s

/-- A loop selector names something under its kind (R504); `isIn` for the input. -/
def selectorOk (isIn : Bool) (kind sel : Nat) : Bool :=
  match kind with
  | 0 => true
  | 1 => if isIn then decide (sel < 512) else true
  | 2 => decide (sel < 32)
  | 3 => sel != 0 && mtrSelOk sel
  | 4 => sel != 0 && thmSelOk sel
  | 5 => decide (sel / 2 ^ 28 = 0) && decide (sel / 16 % 4096 = 0)
  | 6 => decide (sel < 0x10000) && inRanges sel [(0, 0x1F), (0x100, 0x6FF), (0x800, 0x8FF), (0x8000, 0x900F)]
  | 7 =>
    let n := sel / 256 % 65536
    let lim := match sel / 2 ^ 24 with | 0x61 => 64 | 0x62 => 32 | 0x63 => 256 | 0x64 => 64 | 0x65 => 4096 | _ => 0
    decide (n < lim) && decide (sel % 256 ≤ (if sel / 2 ^ 24 = 0x65 then 2 else 0))
  | _ => false

/-- FLOWSEL names an input or, under FRAME, a point (Table 08-2). -/
def flowSelOk (src sel : Nat) : Bool :=
  match src with
  | 3 => decide (sel < 16) && decide (sel % 2 = 0)
  | 4 => decide (sel / 2 ^ 28 = 0) && decide (sel / 16 % 4096 = 0)
  | _ => decide (sel < 16)

/-- The cross-field rules of an index: later field, earlier field, and the rule (R322, step 3). -/
def crossRules (idx : Nat) : List (Nat × Nat × (Dict → Bool)) :=
  if idx = 0x1100 then [(2, 1, fun d => decide (d.nat idx 1 ≤ d.nat idx 2))]
  else if 0x1310 ≤ idx ∧ idx ≤ 0x131B then [(5, 4, fun d => decide (d.nat idx 5 + 100 ≤ d.nat idx 4))]
  else if idx = 0x1330 then
    [(3, 2, fun d => decide ((if d.nat idx 2 = 0 then 2800 else 2500) ≤ d.nat idx 3) && decide (d.nat idx 3 ≤ 3300))]
  else if 0x1510 ≤ idx ∧ idx ≤ 0x151F then
    [(9, 5, fun d => fle fmt64 (fofRatio fmt64 1000 (d.nat idx 5)) (widen (d.nat idx 9)))]
  else if 0x3010 ≤ idx ∧ idx ≤ 0x3017 then
    [(6, 5, fun d => flowSelOk (d.nat idx 5) (d.nat idx 6)), (0x15, 0x14, fun d => flt fmt32 (d.nat idx 0x14) (d.nat idx 0x15))]
  else if 0x3100 ≤ idx ∧ idx ≤ 0x310F then
    [(3, 2, fun d => decide (d.nat idx 2 = 0 → d.nat idx 3 < 4)), (4, 2, fun d => decide (d.nat idx 2 = 1 → d.nat idx 4 < 4))]
  else if 0x4000 ≤ idx ∧ idx ≤ 0x41FF then
    [(3, 2, fun d => decide (d.nat idx 3 < rateD (d.nat idx 2))), (5, 4, fun d => decide (d.nat idx 4 + d.nat idx 5 ≤ 4096)),
     (7, 6, fun d => selectorOk true (d.nat idx 6) (d.nat idx 7)),
     (0xB, 0xA, fun d => selectorOk false (d.nat idx 0xA) (d.nat idx 0xB)),
     (0x13, 0x12, fun d => flt fmt32 (d.nat idx 0x12) (d.nat idx 0x13)),
     (0x15, 0x14, fun d => decide (d.nat idx 0x14 = 1 → d.nat idx 0x15 < 16))]
  else if idx = 0x6000 then [(4, 3, fun d => decide (d.nat idx 4 < d.nat idx 3 * 20000))]
  else []

/-- A field returns to its value before the set. -/
def SetRun.revert (s : SetRun) (idx sub reason : Nat) : SetRun :=
  let now := s.l.dict.get idx sub
  let was := s.old.get idx sub
  if now = was then s else (s.put idx sub was).note idx sub reason 0xFFFFFFFF (leNat now) (leNat was)
/-- Step 3 for one rule. -/
def SetRun.cross (s : SetRun) (idx : Nat) (r : Nat × Nat × (Dict → Bool)) : SetRun :=
  if r.2.2 s.l.dict then s
  else
    let s := s.revert idx r.1 4
    if r.2.2 s.l.dict then s else s.revert idx r.2.1 4

/-! ### Unit checks (R322, step 4) -/

/-- A loop's ENABLE or DEST clamped to 0. -/
def SetRun.zeroField (s : SetRun) (idx sub reason : Nat) : SetRun :=
  let x := s.l.dict.nat idx sub
  (s.put idx sub [0]).note idx sub reason 0xFFFFFFFF x 0

/-- Overlapping sections and shared outputs, in ascending loop number (R151). -/
def SetRun.loopRecords (s : SetRun) : SetRun :=
  s.l.dict.enabledLoops.foldl (fun s n =>
    let d := s.l.dict
    let c (k x : Nat) : Nat := d.nat (0x4000 + k) x
    let lower := d.enabledLoops.filter fun k => decide (k < n)
    let s := if lower.any fun k => decide (c k 4 < c n 4 + c n 5) && decide (c n 4 < c k 4 + c k 5) then
        s.zeroField (0x4000 + n) 1 0x10 else s
    if s.l.dict.flag (0x4000 + n) 1 && c n 0x14 != 0 && (lower.any fun k => c k 0x14 == c n 0x14 && c k 0x15 == c n 0x15) then
      s.zeroField (0x4000 + n) 0x14 0x11
    else s) s

/-- Sections due in a residue of the slot number. -/
def dueSections (d : Dict) (r : Nat) : Nat :=
  ((d.enabledLoops.filter fun n => decide (r % rateD (d.nat (0x4000 + n) 2) = d.nat (0x4000 + n) 3)).map fun n =>
    d.nat (0x4000 + n) 5).sum
/-- Disable the highest-numbered loops due in a residue until it fits. -/
def SetRun.fitResidue (r : Nat) : (fuel : Nat) → SetRun → SetRun
  | 0, s => s
  | k + 1, s =>
    if dueSections s.l.dict r ≤ 4094 then s
    else
      let d := s.l.dict
      match (d.enabledLoops.filter fun n => decide (r % rateD (d.nat (0x4000 + n) 2) = d.nat (0x4000 + n) 3)).getLast? with
      | some n => SetRun.fitResidue r k (s.zeroField (0x4000 + n) 1 0x12)
      | none => s
/-- The schedule check (R161); it can find nothing while all enabled loops together stay within the limit. -/
def SetRun.schedule (s : SetRun) : SetRun :=
  let d := s.l.dict
  if (d.enabledLoops.map fun n => d.nat (0x4000 + n) 5).sum ≤ 4094 then s
  else (List.range 20000).foldl (fun s r => s.fitResidue r 512) s

/-- Writes to an active bank keep the value held (R166). -/
def SetRun.activeBank (s : SetRun) (f : StagedField) : SetRun :=
  if 0x4400 ≤ f.idx ∧ f.idx ≤ 0x44FF ∧ f.sub % 4 < 2 then
    let d := s.l.dict
    let sec := 16 * (f.idx - 0x4400) + f.sub / 4
    match d.enabledLoops.find? fun n => decide (d.nat (0x4000 + n) 4 ≤ sec) && decide (sec < d.nat (0x4000 + n) 4 + d.nat (0x4000 + n) 5) with
    | some n =>
      if (s.l.loop n).bank.toNat = f.sub % 4 then
        let now := d.get f.idx f.sub
        let was := s.old.get f.idx f.sub
        let s := s.put f.idx f.sub was
        (List.range 5).foldl (fun s i =>
          if natAt now (4 * i) 4 = natAt was (4 * i) 4 then s
          else s.note f.idx f.sub 0x13 i (natAt now (4 * i) 4) (natAt was (4 * i) 4)) s
      else s
    | none => s
  else s

/-- A force entry outside its areas loses ENABLE (R198). -/
def SetRun.forceEntry (s : SetRun) (f : StagedField) : SetRun :=
  if 0x5200 ≤ f.idx ∧ f.idx ≤ 0x520F then
    let e := BitVec.ofNat 64 (s.l.dict.nat f.idx f.sub)
    let ok := (entArea e == 0 || entArea e == 1 || entArea e == 6) && areaAddrOk emptyImage (entArea e) (entAddr e)
      && decide (e.toNat / 2 ^ 33 % 128 = 0)
    if e.getLsbD 32 && !ok then
      let e' := e.toNat - 2 ^ 32
      (s.put f.idx f.sub (leBytes 8 e')).note f.idx f.sub 0x15 0xFFFFFFFF e.toNat e'
    else s
  else s

/-- A second tariff array of one unbound kind (R89). -/
def SetRun.tariff (fs : List StagedField) (s : SetRun) (f : StagedField) : SetRun :=
  if 0x7600 ≤ f.idx ∧ f.idx ≤ 0x760F ∧ f.sub = 1 then
    let k := s.l.dict.nat f.idx 1
    let other := (List.range 16).any fun a =>
      0x7600 + a != f.idx && s.l.dict.nat (0x7600 + a) 1 == k
        && (decide (0x7600 + a < f.idx) || !fs.any fun g => g.idx == 0x7600 + a && g.sub == 1)
    if 1 ≤ k ∧ k ≤ 5 ∧ other = true then s.zeroField f.idx 1 0x14 else s
  else s

/-- All of R322 for a set up to the admission check, which follows the effects, and the check of tariffs behind it. -/
def SetRun.clampSet (s : SetRun) (fs : List StagedField) : SetRun :=
  let s := fs.foldl (fun s f => s.range f) s
  let s := (s.action fs 0x2070).action fs 0x3070
  let idxs := (fs.map (·.idx)).foldl (fun acc i => if acc.contains i then acc else acc ++ [i]) []
  let s := idxs.foldl (fun s i => (crossRules i).foldl (fun s r => s.cross i r) s) s
  let loops := idxs.any fun i => decide (0x4000 ≤ i ∧ i ≤ 0x41FF)
  let s := if loops then s.loopRecords.schedule else s
  let s := fs.foldl (fun s f => s.activeBank f) s
  fs.foldl (fun s f => s.forceEntry f) s

/-! ### Effects -/

/-- The configuration block of the values in force (R362). -/
def Dict.islandBlock (d : Dict) : Bytes :=
  let mask := ((List.range 16).map fun n => if d.nat (0x1510 + n) 1 = 0 then 0 else 2 ^ n).sum
  leBytes 4 0x53414645 ++ leBytes 2 1 ++ leBytes 2 mask ++ zeros 8
    ++ (List.range 16).flatMap fun n =>
      [1, 2, 3, 4, 5].flatMap (fun k => fit 1 (d.get (0x1510 + n) k)) ++ zeros 3
        ++ [6, 7, 8, 9, 0xA, 0xB].flatMap fun k => fit 4 (d.get (0x1510 + n) k)

/-- TIMESET (R413): an RTC write at the next edge, and a step of an unlocked PTP clock, as a servo step does. -/
def Lane.timeset (l : Lane) (v : Nat) : Lane :=
  let l := { l with rtc := { l.rtc with acts := l.rtc.acts ++ [.timeset v] } }
  if !l.time.locked && l.ports.all (fun p => p.ptp.st != 3) then
    let c : Nat := v * 1000000000 / 65536
    let l := { l with time := l.time.stepBy ((c : Int) - l.time.clock) }
    (l.reg fun m => fbump (fflag m f_TIME_STAT_STEPPED) f_TIME_STEPS_STEPCNT).gatesStep 0
  else l

/-- A pulse output's accrual and owed count are zeroed (R256). -/
def Lane.vpoZero (l : Lane) (o : Nat) : Lane :=
  { l with thm := { l.thm with vpo := lmod l.thm.vpo o fun v => { v with owed := 0, accr := 0, backlog := false } } }

/-- ARM, STOP and FORCE bits together: ARM first. -/
def Lane.traceCmd (l : Lane) (c v : Nat) : Lane :=
  let l := if v.testBit 0 then l.traceArm c else l
  let l := if v.testBit 1 then l.traceStop c else l
  if v.testBit 2 then l.traceForce c else l
/-- A trace register of channel c written through its object (R172). -/
def Lane.traceObject (l : Lane) (c sub v : Nat) : Lane :=
  let o := 0x20 * c
  let w (f : Fld) : Lane := l.reg fun m => fset m (f.at o) v
  match sub with
  | 1 => w f_LENG_TRSRC_NODE
  | 2 => w f_LENG_TRSRC_SEC
  | 3 => w f_LENG_TRSRC_LOOP
  | 4 => w f_LENG_TRTRIG_MODE
  | 5 => w f_LENG_TRTRIG_LINK
  | 6 => w f_LENG_TRTRIG_PREPCT
  | 7 => l.reg fun m => fset (fset m (f_LENG_TRLEVLO_LEVLO.at o) (v % 2 ^ 32)) (f_LENG_TRLEVHI_LEVHI.at o) (v / 2 ^ 32)
  | 8 => w f_LENG_TRDEPTH_DEPTH
  | _ => l.traceCmd c v
/-- A port restarts when MODE or ENABLE changes (R261); a written gate list waits for its change time (R268). -/
def Lane.portObject (l : Lane) (me : LaneId) (old : Dict) (p : Nat) (subs : List Nat) : Lane :=
  if p / 16 ≠ me.num then l
  else
    let i := 0x8000 + p
    let k := p % 16
    let changed (s : Nat) : Bool := subs.contains s && l.dict.get i s != old.get i s
    let l := if changed 1 || changed 2 then l.portRestart me k else l
    let l := ([(3, 0), (7, 1), (9, 2)].filter fun (x : Nat × Nat) => subs.contains x.1).foldl (fun l x => l.addrWritten me k x.2) l
    let l := if subs.any fun s => s == 0x16 || s == 0x17 || s == 0x18 || s == 0x19 then
        let g := l.dict.gateList me k
        let t := g.startAfter (max (time80ns (l.dict.get i 0x19)) (nsOf l.time.clock))
        { l with ports := lmod l.ports k fun x => { x with pend := some (g, t) } }
      else l
    if changed 0xC || changed 0xD then l.bmca me 0 else l

/-- The effect of one field of a set, after all of it has been applied. -/
def Lane.fieldEffect (l : Lane) (me : LaneId) (old : Dict) (src : Nat) (idx sub : Nat) : Lane :=
  let v := l.dict.nat idx sub
  let changed := l.dict.get idx sub != old.get idx sub
  if 0x1200 ≤ idx ∧ idx ≤ 0x1207 then
    -- one advance for all that a set changes
    if ([1, 2, 3].find? fun k => l.dict.get idx k != old.get idx k) == some sub then l.advanceEpoch (idx - 0x1200) src else l
  else if 0x4000 ≤ idx ∧ idx ≤ 0x41FF then
    if changed && (sub == 4 || sub == 5) then l.loopReset (idx - 0x4000) else l
  else if 0x2010 ≤ idx ∧ idx ≤ 0x2013 then
    -- ENABLE = 1 begins acquisition at the metering instant of this slot (R215)
    if sub == 1 && v == 1 then l.modFeeder (idx - 0x2010) fun f => { f with mode := .off } else l
  else if 0x3100 ≤ idx ∧ idx ≤ 0x310F then
    if changed && decide (2 ≤ sub) && decide (sub ≤ 5) then l.vpoZero (idx - 0x3100) else l
  else if 0x4F00 ≤ idx ∧ idx ≤ 0x4F0F then l.traceObject (idx - 0x4F00) sub v
  else if 0x1310 ≤ idx ∧ idx ≤ 0x131B then
    if changed && idx < 0x1310 + 4 * me.num + 4 && 0x1310 + 4 * me.num ≤ idx && sub ≠ 2 then
      (if sub = 6 then l.holdPins me else l.wmkRestart me (idx - 0x1310 - 4 * me.num)) else l
  else if idx = 0x1300 then (if changed then l.bmca me 0 else l)
  else if 0xA000 ≤ idx ∧ idx ≤ 0xAFFF ∧ sub = 0x84 then l.restartSource 1 (idx - 0xA000)
  else match idx, sub with
  | 0x1320, 4 => l.timeset (time80ticks (l.dict.get idx sub))
  | 0x1321, 1 => { l with rtc := { l.rtc with acts := l.rtc.acts ++ [.wday v] } }
  | 0x1321, 2 => { l with rtc := { l.rtc with acts := l.rtc.acts ++ [.phase v] } }
  | 0x1402, 1 => l.invalidate v src
  | 0x1500, 2 => { l with cfgOut := some (l.dict.islandBlock, BitVec.ofNat 32 v) }
  | 0x2000, 2 => if changed then (l.calChange src idx).event 8 (leBytes 2 idx ++ leBytes 1 v) else l
  | 0x3000, 2 => if changed then (l.calChange src idx).event 8 (leBytes 2 idx ++ leBytes 1 v) else l
  | 0x2070, 1 => l.mtrPreset src v (l.dict.nat idx 2) (l.dict.nat idx 3) (l.dict.nat idx 4)
  | 0x3070, 1 => l.thmPreset src v (l.dict.nat idx 2) (l.dict.nat idx 3) (l.dict.nat idx 4)
  | 0x4300, 1 => l.swapLoop v
  | 0x4300, 2 => l.swapGroup v
  | 0x5000, 3 => l.requestRestart (v == 1)
  | 0x5010, 1 => l.seq fun q => { q with checking := some (l.dict.get idx sub, l.slot), checkDone := false }
  | _, _ => l

/-- A loop that a set leaves disabled loses its pending swap (Table 05-7). -/
def Lane.dropSwaps (l : Lane) (old : Dict) : Lane :=
  (old.enabledLoops.filter fun n => !l.dict.flag (0x4000 + n) 1 && (l.loop n).pend).foldl (fun l n =>
    l.setLoop n { l.loop n with pend := false }) l
/-- A command field is held nowhere once it has acted; the lane commands wait for the arbiter (R402), forces stand. -/
def transient (d : ObjDesc) : Bool := !d.ro && !d.held && d.lo != 0x5200 && d.lo != 0x1100
/-- The fields that act as members of an action object or once for a set. -/
def effectFields (fs : List StagedField) : List (Nat × Nat) :=
  let one (i : Nat) : List (Nat × Nat) := if fs.any fun f => f.idx == i then [(i, 1)] else []
  (fs.filter fun f => f.idx != 0x2070 && f.idx != 0x3070).map (fun f => (f.idx, f.sub)) ++ one 0x2070 ++ one 0x3070

/-- Apply a checked set (R319): clamps, effects, commit number, and what follows it. Answers the clamps made. -/
def Lane.applySet (l : Lane) (me : LaneId) (src : Nat) (fs : List StagedField) : Lane × Nat :=
  let old := l.dict
  let num := (fget l.regs f_XACT_COMMITNUM_NUM + 1) % 2 ^ 32
  let l := l.reg fun m => fflag (fset m f_XACT_COMMITNUM_NUM num) f_XACT_STAT_COMMITTED
  let s := SetRun.clampSet { l := l, old := old, commit := num, src := src, es := [] } fs
  let tar := fs.foldl (fun s f => s.tariff fs f) { s with es := [] }
  let l := tar.l
  let keys := fs.map StagedField.key
  let written := if src < 8 then keys.foldl (fun m k => mput m k l.slot) l.dict.written else l.dict.written
  let l := { l with dict := { l.dict with written := written } }
  let desc (k : Nat) : Option ObjDesc := objDesc? (k / 256) (k % 256)
  let held := keys.any fun k => (match desc k with | some d => d.held | none => false)
      && mget objDflt l.dict.vals k != mget objDflt old.vals k
  let l := if held then l.touchImage else l
  let l := (effectFields fs).foldl (fun l e => l.fieldEffect me old src e.1 e.2) l
  let l := if fs.any fun f => decide (0x4000 ≤ f.idx ∧ f.idx ≤ 0x41FF) then l.dropSwaps old else l
  let ports := (fs.filter fun f => decide (0x8000 ≤ f.idx ∧ f.idx ≤ 0x802F)).map (·.idx)
  let l := ports.eraseDups.foldl (fun l i =>
    l.portObject me old (i - 0x8000) ((fs.filter fun f => f.idx == i).map (·.sub))) l
  let clear := keys.filter fun k => match desc k with | some d => transient d | none => false
  let vals := clear.foldl (fun v k => mset objDflt v k (objDflt k)) l.dict.vals
  let l := { l with dict := { l.dict with vals := vals } }
  let struct := keys.any fun k => match desc k with | some d => d.struct && structWritten old l.dict k | none => false
  let l := if struct then l.modelLoad old keys
    else if l.solver.held.isEmpty then l else l.paramLoad keys
  let r := if fs.any fun f => f.idx == 0x6000 || f.idx == 0x6001 then l.admission num src else (l, [])
  -- entries stand in ascending index of what the checks guard
  let es := s.es ++ r.2 ++ tar.es
  let l := if es.isEmpty then r.1 else (r.1.addClamps es).reg fun m => fflag m f_XACT_STAT_CLAMPNEW
  (l, es.length)

end Sys2Proof.Machine
end

