-- ==== Sys2Proof/Machine/RegWrite.lean ====
section
/-! DEFINITION. Writes to a lane's registers: byte merging, reserved and read-only bits, command registers (R10, R11, R438,
R441) and the clearing of read-to-clear fields. -/
namespace Sys2Proof.Machine

/-- The bits of the enabled byte lanes. -/
def beMask (be : BitVec 4) : Word :=
  (List.range 4).foldl (fun m i => if be.getLsbD i then m ||| bitMask (8 * i + 7) (8 * i) else m) 0
/-- The bits of the fields that a predicate chooses. -/
def RegDesc.mask (d : RegDesc) (p : FieldDesc → Bool) : Word :=
  d.fields.foldl (fun m f => if p f then m ||| bitMask f.hi f.lo else m) 0
/-- The mask of a register's RW bits. -/
def rwMask (k : Nat) : Word :=
  match regDesc? k with | some d => d.mask fun f => f.acc == .rw | none => 0
/-- The mask of a register's RC bits. -/
def rcMask (k : Nat) : Word :=
  match regDesc? k with | some d => d.mask fun f => f.acc == .rc | none => 0
/-- A register has a whole-word field (R438). -/
def wholeWord (k : Nat) : Bool :=
  match regDesc? k with | some d => d.fields.any fun f => f.ww | none => false

/-- Enabled RW bits take the written value; every other bit keeps its value. -/
def regMerge (m : RegMap) (k : Nat) (w : Word) (be : BitVec 4) : RegMap :=
  let e := rwMask k &&& beMask be
  rset m k ((rget m k &&& ~~~e) ||| (w &&& e))
/-- A read clears the RC bits of its enabled byte lanes (R441). -/
def regClear (m : RegMap) (k : Nat) (be : BitVec 4) : RegMap := rset m k (rget m k &&& ~~~(rcMask k &&& beMask be))

/-- Key of the first register of a unit. -/
def unitBase (k : Nat) : Nat := k / 65536 * 65536

/-- Values a written trace register takes instead of ones outside its range (chapter 05). -/
def traceLimits (m : RegMap) (c : Nat) : RegMap :=
  let o := 0x20 * c
  let m := if 6 < fget m (f_LENG_TRTRIG_MODE.at o) then fset m (f_LENG_TRTRIG_MODE.at o) 0 else m
  let m := fset m (f_LENG_TRTRIG_PREPCT.at o) (min 100 (fget m (f_LENG_TRTRIG_PREPCT.at o)))
  fset m (f_LENG_TRDEPTH_DEPTH.at o) (max 64 (min 1048576 (fget m (f_LENG_TRDEPTH_DEPTH.at o))))

/-- Ask for RTC changes at the next oscillator edge. -/
def Lane.rtcAsk (l : Lane) (a : RtcAct) : Lane := { l with rtc := { l.rtc with acts := l.rtc.acts ++ [a] } }

/-- What a write to a command register does besides storing its RW fields. -/
def Lane.regCommand (l : Lane) (k : Nat) (w : Word) : Lane :=
  let n := w.toNat
  if k = f_LENG_BANKSEL_LOOP.key then
    if !w.getLsbD 31 then l
    else if w.getLsbD 30 then l.swapGroup (n / 65536 % 16) else l.swapLoop (n % 512)
  else if k = f_LENG_LOOPCMD_LOOP.key then (if w.getLsbD 31 then l.loopReset (n % 512) else l)
  else if f_LENG_TRSRC_LOOP.key ≤ k ∧ k < f_LENG_TRSRC_LOOP.key + 0x200 then
    let c := (k - f_LENG_TRSRC_LOOP.key) / 0x20
    let l := l.reg fun m => traceLimits m c
    if (k - f_LENG_TRSRC_LOOP.key) % 0x20 = 0x14 then l.traceCmd c (n % 8) else l
  else if k = f_LSEQ_CMD_COLD.key then (if w.getLsbD 1 then l.requestRestart (w.getLsbD 0) else l)
  else if k = f_SOLV_CMD_CANCEL.key then
    l.slv fun s => { s with cancel := s.cancel || w.getLsbD 1, now := s.now + (w.getLsbD 0 && !w.getLsbD 1).toNat }
  else if k = f_KEY_CMD_OP.key then l.askKey (n / 2 ^ 28) (n % 128)
  else if k = f_RTC_SNAP_SNAP.key then (if w.getLsbD 0 then l.rtcAsk .snap else l)
  else if k = f_RTC_SETCMD_SETTIME.key then
    (if n % 8 = 0 then l else l.rtcAsk (.set (w.getLsbD 0) (w.getLsbD 1) (w.getLsbD 2)))
  else if k = f_NVM_CMD_COMMIT.key then
    (if w.getLsbD 0 then { l with nvm := { l.nvm with dict := { l.nvm.dict with queued := true } } } else l)
  else l

/-- A write of a lane register: the RW fields take the enabled bytes, then the register's command acts. -/
def Lane.regWrite (l : Lane) (k : Nat) (w : Word) (be : BitVec 4) : Lane :=
  (l.reg fun m => regMerge m k w be).regCommand k (w &&& beMask be)

/-- The voted-view writes that apply at step 1, after the dictionary writes, in arrival order (R66). -/
def Lane.votedWrites (l : Lane) : Lane :=
  let due := l.vw.filter (·.due)
  due.foldl (fun l v => l.regWrite v.key v.data v.be) { l with vw := l.vw.filter fun v => !v.due }

end Sys2Proof.Machine
end

