-- ==== Sys2Proof/Machine/Session.lean ====
section
/-! DEFINITION. Afesh in a lane (chapter 10): receipt, authentication, execution of requests, responses, subscriptions and
events; and the receipt of substation frames (R278). -/
namespace Sys2Proof.Machine

/-! ### Messages (R302 to R305) -/

/-- The lane letter of a device message. -/
def laneLetter (x : LaneId) : Byte := BitVec.ofNat 8 (0x41 + x.num)
/-- The first 12 bytes, which are the associated data (R303). -/
def msgHead (n flags seq epoch len : Nat) : Bytes :=
  leBytes 1 1 ++ leBytes 1 n ++ leBytes 2 flags ++ leBytes 4 seq ++ leBytes 2 epoch ++ leBytes 2 len
/-- The nonce (R303). -/
def msgNonce (n dir epoch seq : Nat) : Bytes :=
  leBytes 1 n ++ leBytes 1 dir ++ leBytes 2 epoch ++ leBytes 4 seq ++ zeros 4
/-- Agreed district time as SENDTIME of the mailbox (R304). -/
def Image.sendTime (g : Image) : Bytes := leBytes 6 g.dtSec.toNat ++ leBytes 4 (g.dtNs.toNat * 2 ^ 32 / 1000000000)
/-- A device message of a session (Table 10-1). -/
def Lane.deviceMsg (l : Lane) (me : LaneId) (n seq port : Nat) (plain : Bool) (payload : Bytes) : Bytes :=
  let x := l.sess n
  let head := msgHead n (1 + 2 * plain.toNat) seq x.epoch (40 + payload.length)
  let mid := [laneLetter me, 0] ++ (if port = 0xFF then l.img.sendTime else zeros 10)
  if plain then head ++ mid ++ payload ++ zeros 16
  else
    let c := gcmEncrypt (l.leafKey 1 (l.dict.nat (0x1200 + n) 3)) (msgNonce n 1 x.epoch seq) head payload
    head ++ mid ++ c.1 ++ c.2

/-- Hand a message to the session's port: the mailbox takes every lane's copy, a network port its own lane's. -/
def Lane.sendVia (l : Lane) (me : LaneId) (n port : Nat) (addr : BitVec 128) (uport : Nat) (bytes : Bytes)
    (cls : Nat := 3) : Lane :=
  if port = 0xFF ∨ (port < 48 ∧ port / 16 = me.num) then
    { l with tx := l.tx ++ [{ sess := n, cls := cls, port := port, addr := addr, uport := uport, bytes := bytes }] }
  else l
/-- Where a session's replies go (R309). -/
def Lane.peer (l : Lane) (n : Nat) : BitVec 128 × Nat :=
  let a := l.dict.get (0x1200 + n) 5
  if a = [] then l.peers.getD n (0, 0) else (l.dict.addr (0x1200 + n) 5, l.dict.nat (0x1200 + n) 6)
/-- Send a payload on a BOUND session under its next sequence number; the tamper policy refuses the job (R353). -/
def Lane.sendPayload (l : Lane) (me : LaneId) (n : Nat) (plain : Bool) (payload : Bytes) : Lane :=
  let x := l.sess n
  if x.st ≠ 2 then l
  else
    let seq := x.txseq + 1
    let l := l.modSess n fun x => { x with txseq := seq, txCount := x.txCount + 1 }
    if l.tamperActs && !plain then l.tamperCount
    else
      let p := l.peer n
      l.sendVia me n x.port p.1 p.2 (l.deviceMsg me n seq.toNat x.port plain payload)
        (if natAt payload 0 1 = 8 then 4 else 3)

/-- A response, remembered for retries (R314, R315). -/
def Lane.respond (l : Lane) (me : LaneId) (n code st tid : Nat) (body : Bytes) (plain : Bool := false) : Lane :=
  let pay := leBytes 1 code ++ leBytes 1 st ++ leBytes 2 tid ++ body
  let l := l.modSess n fun x => { x with retry := ((code, tid, pay) :: x.retry).take 16 }
  l.sendPayload me n plain pay

/-- The payload of an EVENT (Table 10-3). -/
def eventPayload (code : Nat) (slot : BitVec 64) (data : Bytes) : Bytes :=
  leBytes 1 9 ++ zeros 3 ++ leBytes 2 code ++ leBytes 8 slot.toNat ++ fit 16 data
/-- The events of the slot go to the sessions whose EVMASK enables them (R326). -/
def Lane.sendEvents (l : Lane) (me : LaneId) : Lane :=
  let evs := l.evq
  evs.foldl (fun l e =>
    (List.range 8).foldl (fun l n =>
      if (e.2.2 = 0xFF ∨ e.2.2 = n) ∧ (l.dict.nat (0x1200 + n) 8).testBit e.1 then
        l.sendPayload me n false (eventPayload e.1 l.slot e.2.1)
      else l) l) { l with evq := [] }

/-! ### Receipt (R42, R43, R278, R312, R313) -/

/-- A datagram enters the receive queue of 1 MiB, or is dropped (R43). -/
def Lane.rxEnqueue (l : Lane) (f : RxFrame) : Lane :=
  let used := (l.agree.rxq.map fun x => x.bytes.length).sum
  if 1048576 < used + f.bytes.length then l.reg fun m => fbump m f_XLNK_FRAMES_DROPCNT
  else { l with agree := { l.agree with rxq := l.agree.rxq ++ [f] } }

/-- Count a failure of R312 in the session's register. -/
def Lane.rxErr (l : Lane) (n : Nat) (f : Fld) : Lane := l.reg fun m => fbump m (f.at (4 * n))
/-- Count one of the lane's own substation statistics (R283): 0 FORMAT, 1 KEYGEN, 2 TAGFAIL, 3 TAMPREF. -/
def Lane.subErr (l : Lane) (k : Nat) : Lane := { l with ownStats := lmod l.ownStats k fun c => satAdd 0xFFFFFFFF c 1 }
/-- An authenticated entry for the input set being filled. -/
def Lane.offerEntry (l : Lane) (e : FrameEntry) : Lane := { l with agree := { l.agree with offer := l.agree.offer ++ [e] } }

/-- The tag of a partner message under its own EPOCH, and its payload. -/
def Lane.openMsg (l : Lane) (bs : Bytes) : Option Bytes :=
  let n := natAt bs 1 1 % 8
  let k := bs.length
  gcmDecrypt (l.leafKey 1 (l.dict.nat (0x1200 + n) 3)) (msgNonce n 0 (natAt bs 8 2) (natAt bs 4 4)) (bs.take 12)
    (slice bs 24 (k - 40)) (bs.drop (k - 16))

/-- The NEWEPOCH notice (R313), at most once per second per session and port. -/
def Lane.notice (l : Lane) (me : LaneId) (n : Nat) (f : RxFrame) : Lane :=
  let k := 256 * n + f.port
  let recent := (l.notices.find? fun p => p.1 == k).any fun p => decide ((l.slot - p.2).toNat < 20000)
  if recent then l
  else
    let l := { l with notices := mput l.notices k l.slot }
    l.sendVia me n f.port f.addr f.uport (l.deviceMsg me n 0 f.port false (eventPayload 1 0 []))

/-- The checks of a partner message (R312). -/
def Lane.rxAfesh (l : Lane) (me : LaneId) (f : RxFrame) : Lane :=
  let bs := f.bytes
  let n := natAt bs 1 1 % 8
  let flags := natAt bs 2 2
  let plain := flags.testBit 1
  let fmt := decide (natAt bs 10 2 = bs.length) && decide (44 ≤ bs.length) && decide (bs.length ≤ 1400)
    && decide (natAt bs 0 1 = 1) && !flags.testBit 0 && decide (flags < 4) && decide (natAt bs 1 1 < 8) && decide (natAt bs 13 1 = 0)
  let pay := slice bs 24 (bs.length - 40)
  let plainOk := !plain || (f.port == 0xFF && natAt pay 0 1 == 0x0D)
  let x := l.sess n
  let good (body : Bytes) : Lane :=
    let l := { l with peers := l.peers.set n (f.addr, f.uport) }
    l.offerEntry { port := f.port, kind := 2, source := n, seq := BitVec.ofNat 32 (natAt bs 4 4), body := body }
  if !fmt then l.rxErr n f_XACT_RXERR_FORMAT
  else if x.st = 0 then l.rxErr n f_XACT_RXCLOSED_CLOSED
  else if natAt bs 8 2 ≠ x.epoch then
    let l := l.rxErr n f_XACT_RXERR_EPOCH
    if plainOk && (plain || (l.openMsg bs).isSome) && !l.tamperActs then l.notice me n f else l
  else if !plainOk then l.rxErr n f_XACT_RXERR_FORMAT
  else if plain then good pay
  else if l.tamperActs || !l.key.ready then l.tamperCount
  else
    let p := l.keyA.gens.path 1 (l.dict.nat (0x1200 + n) 3)
    match l.openMsg bs with
    | some body => (good body).ku fun k => { k with reg := some p, rx := some p }
    | none => (l.rxErr n f_XACT_RXERR_TAGFAIL).ku fun k => { k with reg := some p, rx := some p }

/-- The checks of a substation frame (R278). -/
def Lane.rxSubstation (l : Lane) (f : RxFrame) : Lane :=
  let bs := f.bytes
  let n := natAt bs 2 2 % 4096
  if bs.length ≠ 128 ∨ natAt bs 1 1 ≠ 1 ∨ natAt bs 0 1 ≠ 0x51 then l.subErr 0
  else if l.tamperActs || !l.key.ready then (l.subErr 3).tamperCount
  else if natAt bs 8 4 ≠ l.keyA.gens.leafGen 2 n then l.subErr 1
  else
    let p := l.keyA.gens.path 2 n
    let l := l.ku fun k => { k with reg := some p, rx := some p }
    if (cmac p.key (bs.take 120)).take 8 ≠ bs.drop 120 then l.subErr 2
    else l.offerEntry { port := f.port, kind := 1, source := n, seq := BitVec.ofNat 32 (natAt bs 4 4), body := bs }

/-- Bytes of the frame area in use. -/
def offerBytes (es : List FrameEntry) : Nat := (es.map fun e => 12 + e.body.length).sum
/-- Bytes of the frame area kept for the lane's own counts (R283): of the set of a slot that carries them and in which their
entry does not stand yet. -/
def Lane.statRoom (l : Lane) : Nat :=
  if (l.slot + 1).toNat % 20000 = 0 ∧ l.statSlot ≠ some (l.slot + 1) then 28 else 0
/-- The path that XACT receive selects for a frame, with the generations in force (R342). -/
def Lane.rxPath (l : Lane) (f : RxFrame) : KeyPath :=
  if f.substation then l.keyA.gens.path 2 (natAt f.bytes 2 2 % 4096)
  else l.keyA.gens.path 1 (l.dict.nat (0x1200 + natAt f.bytes 1 1 % 8) 3)
/-- A frame whose path was selected under generations that are no longer current ends ORPHANED (R342). -/
def Lane.rxOrphan (l : Lane) (f : RxFrame) : Lane := if f.substation then l.orphanCount.subErr 1 else l.orphanCount
/-- XACT completes the authentication of the frame at the head of the queue when its entry fits; otherwise it and every
later frame are held until the next strobe (R42). A frame is taken up once, and keeps the path selected then. -/
def Lane.authenticate (l : Lane) (me : LaneId) : Lane :=
  if l.agree.held then l
  else match l.agree.rxq with
  | [] => l
  | f :: rest =>
    let body := if f.substation then 128 else f.bytes.length - 40
    if 4696 < l.statRoom + offerBytes l.agree.offer + 12 + body then
      let l := if l.agree.taken then l else l.ku fun k => { k with rx := some (l.rxPath f) }
      { l with agree := { l.agree with held := true, taken := true } }.reg fun m =>
        fflag (fbump m f_XLNK_FRAMES_HOLDCNT) f_XLNK_STAT_FRAMEHOLD
    else
      let orphaned := l.agree.taken && !l.tamperActs && (l.key.rx.any fun p => !p.current l.keyA.gens)
      let l := { l with agree := { l.agree with rxq := rest, taken := false } }
      if orphaned then l.rxOrphan f
      else if f.substation then l.rxSubstation f else l.rxAfesh me f

/-! ### Staged sets (R317, R318) -/

/-- A WRITE_STAGED or SEGMENT_WRITE keeps the staged set alive (R318). -/
def Lane.stageTouch (l : Lane) (n : Nat) : Lane := l.modSess n fun x => { x with stagedAt := l.slot }
/-- Check and stage a field; answers the status. -/
def Lane.stage (l : Lane) (n type : Nat) (f : StagedField) : Lane × Nat :=
  let x := l.sess n
  match objDesc? f.idx f.sub with
  | none => (l, 1)
  | some d =>
    if d.right f.idx f.sub (l.dict.nat (0x1200 + n) 2) < 2 then (l, 2)
    else if type ≠ d.type ∨ valueFits d f.val = false then (l, 3)
    else
      let new := putField f x.staged
      if 65536 < new.length ∨ 16777216 < (new.map fun g => g.val.length).sum then (l, 6)
      else (l.modSess n fun x => { x with staged := new }, 0)

/-- A staged set expires (R318). -/
def Lane.stageExpires (l : Lane) (n : Nat) : Bool :=
  let x := l.sess n
  !x.staged.isEmpty && decide (l.dict.nat (0x1200 + n) 7 * 20000 ≤ (l.slot - x.stagedAt).toNat)
def Lane.stageExpire (l : Lane) (n : Nat) : Lane :=
  if l.stageExpires n then
    let k := (l.sess n).staged.length
    let l := l.modSess n fun x => { x with staged := [] }
    { l with evq := l.evq ++ [(2, leBytes 4 k, n)] }
  else l
/-- A transfer idle for 60 s is released (R327). -/
def Lane.readExpire (l : Lane) (n : Nat) : Lane :=
  l.modSess n fun x => match x.rs with
    | some r => if 1200000 ≤ (l.slot - r.slot).toNat then { x with rs := none } else x
    | none => x
def Lane.writeExpire (l : Lane) (n : Nat) : Lane :=
  l.modSess n fun x => match x.wx with
    | some w => if 1200000 ≤ (l.slot - w.slot).toNat then { x with wx := none } else x
    | none => x
/-- 2³¹ messages have passed in a direction within the epoch (R308). -/
def Lane.messageLimit (l : Lane) (n : Nat) : Lane :=
  if 2147483648 ≤ (l.sess n).txCount ∨ 2147483648 ≤ (l.sess n).rxCount then l.advanceEpoch n 0xFF else l

/-! ### Commit (R319, R320, R506) -/

/-- A WRITE or COMMIT in its commit slot. -/
def Lane.commitReq (l : Lane) (me : LaneId) (r : CommitReq) : Lane :=
  let x := l.sess r.sess
  if x.epoch ≠ r.epoch ∨ x.st = 0 then l
  else
    let role := l.dict.nat (0x1200 + r.sess) 2
    let fs := match r.field with | some f => [f] | none => x.staged
    let l := if r.field.isNone then l.modSess r.sess fun x => { x with staged := [] } else l
    let now := leBytes 4 (fget l.regs f_XACT_COMMITNUM_NUM)
    if fs.isEmpty then l.respond me r.sess r.code 0 r.tid (now ++ zeros 2 ++ zeros 4)
    else
      let mistyped (f : StagedField) : Bool := (objDesc? f.idx f.sub).any fun (d : ObjDesc) => d.type != r.type
      let bad := match r.field, l.setStatus role r.field.isSome (x.port == 0xFF) fs with
        | some f, some b => if b.1 = 4 ∧ mistyped f = true then some (3, f) else some b
        | some f, none => if mistyped f then some (3, f) else none
        | none, b => b
      match bad with
      | some b => (l.reg fun m => fflag m f_XACT_STAT_COMMITFAIL).respond me r.sess r.code b.1 r.tid
          (leBytes 2 b.2.idx ++ leBytes 1 b.2.sub)
      | none =>
        let a := l.applySet me r.sess fs
        let body := leBytes 4 (fget a.1.regs f_XACT_COMMITNUM_NUM) ++ leBytes 2 a.2
        a.1.respond me r.sess r.code 0 r.tid (if r.field.isNone then body ++ leBytes 4 fs.length else body)

/-! ### Execution of requests (R309, R314 to R316) -/

/-- Read access to a field: the status, and its descriptor. -/
def Lane.readCheck (l : Lane) (n idx sub : Nat) : Except Nat ObjDesc :=
  match objDesc? idx sub with
  | none => .error 1
  | some d => if d.right idx sub (l.dict.nat (0x1200 + n) 2) = 0 then .error 2 else .ok d

/-- READ. -/
def Lane.reqRead (l : Lane) (me : LaneId) (n opts tid : Nat) (b : Bytes) : Lane :=
  let idx := natAt b 0 2
  let sub := natAt b 2 1
  match l.readCheck n idx sub with
  | .error st => l.respond me n 1 st tid []
  | .ok d =>
    if opts.testBit 1 then l.respond me n 1 0 tid (d.bytes idx sub)
    else
      let v := l.objRead idx sub
      if 1320 < v.length then l.respond me n 1 0xA tid []
      else l.respond me n 1 0 tid (leBytes 1 d.type ++ zeros 1 ++ leBytes 2 v.length ++ v)
/-- The field of a WRITE or WRITE_STAGED body. -/
def bodyField (b : Bytes) : StagedField :=
  { idx := natAt b 0 2, sub := natAt b 2 1, val := (b.drop 6).take (natAt b 4 2) }
/-- A WRITE or COMMIT waits for its commit slot. -/
def Lane.reqCommit (l : Lane) (n code tid : Nat) (seq : BitVec 32) (b : Bytes) : Lane :=
  let r : CommitReq := { sess := n, epoch := (l.sess n).epoch, seq := seq, code := code, tid := tid,
                         field := if code = 2 then some (bodyField b) else none, type := natAt b 3 1 }
  { l with dict := { l.dict with reqs := l.dict.reqs ++ [r] } }
/-- WRITE_STAGED. -/
def Lane.reqStage (l : Lane) (me : LaneId) (n tid : Nat) (b : Bytes) : Lane :=
  let r := (l.stageTouch n).stage n (natAt b 3 1) (bodyField b)
  r.1.respond me n 3 r.2 tid (if r.2 = 0 then leBytes 4 (r.1.sess n).staged.length else [])
/-- ABORT. -/
def Lane.reqAbort (l : Lane) (me : LaneId) (n tid : Nat) : Lane :=
  let k := (l.sess n).staged.length
  (l.modSess n fun x => { x with staged := [] }).respond me n 5 0 tid (leBytes 4 k)
/-- SUBSCRIBE (R324). -/
def Lane.reqSubscribe (l : Lane) (me : LaneId) (n tid : Nat) (b : Bytes) : Lane :=
  let idx := natAt b 0 2
  let sub := natAt b 2 1
  let x := l.sess n
  let total := (l.dict.sessions.map fun y => y.subs.length).sum
  match l.readCheck n idx sub with
  | .error st => l.respond me n 6 st tid []
  | .ok _ =>
    if 1320 < (l.objRead idx sub).length then l.respond me n 6 0xA tid []
    else if 32 ≤ x.subs.length ∨ 128 ≤ total then l.respond me n 6 9 tid []
    else
      let oc := natAt b 3 1 == 1
      let ms := min 3600000 (max (if oc then 0 else 10) (natAt b 4 4))
      match (List.range 32).find? fun i => !x.subs.any fun y => y.id == i with
      | none => l.respond me n 6 9 tid []
      | some i =>
        let s : Subscription := { id := i, idx := idx, sub := sub, onChange := oc, period := 20 * ms,
                                  last := l.slot - BitVec.ofNat 64 (20 * ms), lastVal := [], sent := false }
        let ins (ys : List Subscription) : List Subscription :=
          (ys.filter fun y => decide (y.id < i)) ++ s :: ys.filter fun y => decide (i < y.id)
        (l.modSess n fun x => { x with subs := ins x.subs }).respond me n 6 0 tid (leBytes 1 i)
/-- UNSUBSCRIBE. -/
def Lane.reqUnsubscribe (l : Lane) (me : LaneId) (n tid : Nat) (b : Bytes) : Lane :=
  let i := natAt b 0 1
  let keep (s : Subscription) : Bool := !(i == 0xFF || s.id == i)
  let k := ((l.sess n).subs.filter fun s => !keep s).length
  (l.modSess n fun x => { x with subs := x.subs.filter keep }).respond me n 7 0 tid (leBytes 1 k)
/-- SEGMENT_READ (R327). -/
def Lane.reqSegRead (l : Lane) (me : LaneId) (n tid : Nat) (b : Bytes) : Lane :=
  let idx := natAt b 0 2
  let sub := natAt b 2 1
  let off := natAt b 4 4
  let len := natAt b 8 2
  let reply (l : Lane) (r : ReadSnap) (k : Nat) : Lane :=
    let l := l.modSess n fun x => { x with rs := some { r with slot := l.slot } }
    l.respond me n 0xA 0 tid (leBytes 4 r.data.length ++ leBytes 8 r.snapSlot.toNat ++ slice r.data off k)
  match l.readCheck n idx sub with
  | .error st => l.respond me n 0xA st tid []
  | .ok _ =>
    if 1320 < len then l.respond me n 0xA 7 tid []
    else if off = 0 then
      -- DESIGN CHOICE (log 167): of a longer object the snapshot is its first 16 MiB, and the total is that of the snapshot
      let v := (l.objRead idx sub).take 16777216
      reply l { idx := idx, sub := sub, data := v, snapSlot := l.slot, slot := l.slot } (min len v.length)
    else match (l.sess n).rs with
      | some r =>
        if r.idx = idx ∧ r.sub = sub ∧ off + len ≤ r.data.length then reply l r len else l.respond me n 0xA 7 tid []
      | none => l.respond me n 0xA 7 tid []
/-- SEGMENT_WRITE (R327). -/
def Lane.reqSegWrite (l : Lane) (me : LaneId) (n tid : Nat) (b : Bytes) : Lane :=
  let l := l.stageTouch n
  let idx := natAt b 0 2
  let sub := natAt b 2 1
  let type := natAt b 3 1
  let off := natAt b 4 4
  let total := natAt b 8 4
  let data := b.drop 12
  let drop (l : Lane) (st : Nat) : Lane := (l.modSess n fun x => { x with wx := none }).respond me n 0xB st tid []
  let take (l : Lane) (w : WriteXfer) : Lane :=
    let w := { w with data := w.data ++ data, slot := l.slot }
    if w.total < w.data.length then drop l 7
    else if w.data.length = w.total then
      let r := (l.modSess n fun x => { x with wx := none }).stage n w.type { idx := idx, sub := sub, val := w.data }
      r.1.respond me n 0xB r.2 tid (if r.2 = 0 then leBytes 4 w.total else [])
    else (l.modSess n fun x => { x with wx := some w }).respond me n 0xB 0 tid (leBytes 4 w.data.length)
  match objDesc? idx sub with
  | none => l.respond me n 0xB 1 tid []
  | some d =>
    let max' := min 16777216 (if typeSize d.type = 0 then d.n else if d.type < 0x80 then typeSize d.type else d.n * typeSize d.type)
    match (l.sess n).wx with
    | none =>
      if off ≠ 0 ∨ max' < total then l.respond me n 0xB 7 tid []
      else take l { idx := idx, sub := sub, type := type, total := total, data := [], slot := l.slot }
    | some w =>
      if off = 0 then l.respond me n 0xB 8 tid []
      else if w.idx = idx ∧ w.sub = sub ∧ off = w.data.length ∧ total = w.total then take l w
      else drop l 7
/-- ENROL (R344, R345): trusted on the mailbox in PLAIN form or in a session of role ENGINEER; one runs, eight wait. -/
def Lane.reqEnrol (l : Lane) (me : LaneId) (r : ExecReq) (plain : Bool) (tid : Nat) (b : Bytes) : Lane :=
  let trusted := plain || l.dict.nat (0x1200 + r.sess) 2 == 0
  if !trusted then l.respond me r.sess 0xD 0xC tid []
  else if 9 ≤ l.keyA.enrols.length then l.respond me r.sess 0xD 0 tid (l.enrolFail 5 b) plain
  else
    let j : EnrolJob := { sess := r.sess, mailbox := plain, tid := tid, body := b, start := none, tamper := false }
    { l with keyA := { l.keyA with enrols := l.keyA.enrols ++ [j] } }.enrolStart
/-- The running ENROL's response in its last slot (R345, R347); the next begins in the slot after. -/
def Lane.enrolComplete (l : Lane) (me : LaneId) : Lane :=
  match l.enrolDue with
  | none => l
  | some (j, s) =>
    let body := l.enrolBody j s
    let l := { l with keyA := { l.keyA with enrols := l.keyA.enrols.drop 1, enrolEnd := some l.slot } }
    let l := l.respond me j.sess 0xD 0 j.tid body j.mailbox
    if natAt body 0 1 = 0 ∧ natAt body 1 1 = 1 then l.enrolLift (natAt body 2 2) j.sess else l

/-- Binding (R309): the session after the request's arrival on a port, or none where it is discarded. -/
def Lane.bindReq (l : Lane) (r : ExecReq) (opts : Nat) : Lane × Bool :=
  let x := l.sess r.sess
  let allowed := (l.dict.nat (0x1200 + r.sess) 4).testBit (if r.port = 0xFF then 63 else r.port)
  let bind (l : Lane) : Lane := (l.modSess r.sess fun x => { x with st := 2, port := r.port }).sessNote r.sess r.sess
  if x.st = 1 then if allowed then (bind l, true) else (l.rxErr r.sess f_XACT_RXERR_WRONGPORT, false)
  else if x.port = r.port then (l, true)
  else if opts.testBit 0 && allowed then (bind l, true)
  else (l.rxErr r.sess f_XACT_RXERR_WRONGPORT, false)

/-- A request with this CODE and TID waits for its commit slot, or is an ENROL that has not ended. -/
def Lane.pendingTid (l : Lane) (n code tid : Nat) : Bool :=
  (l.dict.reqs.any fun q => q.sess == n && q.code == code && q.tid == tid && q.epoch == (l.sess n).epoch)
  || (code == 0xD && l.keyA.enrols.any fun j => j.sess == n && j.tid == tid)
/-- One admitted request (R316, R506). DEDUCED: a retry of a request whose response is still to come is not executed again,
and that response answers both. -/
def Lane.execReq (l : Lane) (me : LaneId) (r : ExecReq) : Lane :=
  let x := l.sess r.sess
  if x.st = 0 ∨ x.epoch ≠ r.epoch then l
  else
    let code := natAt r.body 0 1
    let opts := natAt r.body 1 1
    let tid := natAt r.body 2 2
    let b := r.body.drop 4
    let n := r.sess
    let (l, ok) := l.bindReq r opts
    if !ok then l
    else match (l.sess n).retry.find? fun y => y.1 == code && y.2.1 == tid with
    | some y => l.sendPayload me n (code == 0xD && r.port == 0xFF) y.2.2
    | none =>
      if l.pendingTid n code tid then l else
      match code with
      | 1 => l.reqRead me n opts tid b
      | 2 => l.reqCommit n 2 tid r.seq b
      | 3 => l.reqStage me n tid b
      | 4 => l.reqCommit n 4 tid r.seq b
      | 5 => l.reqAbort me n tid
      | 6 => l.reqSubscribe me n tid b
      | 7 => l.reqUnsubscribe me n tid b
      | 0xA => l.reqSegRead me n tid b
      | 0xB => l.reqSegWrite me n tid b
      | 0xC => l.respond me n 0xC 0 tid b
      | 0xD => l.reqEnrol me r (r.port == 0xFF) tid b
      | c => l.respond me n c 0xB tid []

/-- The next admitted request is of a code. -/
def Lane.nextCode (l : Lane) : Option Nat := l.dict.todo.head?.map fun r => natAt r.body 0 1
/-- Execute the next admitted request. -/
def Lane.execNext (l : Lane) (me : LaneId) : Lane :=
  match l.dict.todo with
  | [] => l
  | r :: rest => { l with dict := { l.dict with todo := rest } }.execReq me r
/-- Execute them all. -/
def Lane.execAll (l : Lane) (me : LaneId) : Lane := (List.range l.dict.todo.length).foldl (fun l _ => l.execNext me) l

/-! ### Subscriptions (R324, R325) -/

/-- A subscription is due in this slot. -/
def Lane.subDue (l : Lane) (s : Subscription) : Bool :=
  let gap := (l.slot - s.last).toNat
  if s.onChange then !s.sent || (decide (s.period ≤ gap) && l.objRead s.idx s.sub != s.lastVal)
  else decide (s.period ≤ gap)
/-- Take items up to the payload limit. -/
def takeItems : (room : Nat) → List PubItem → List PubItem × List PubItem
  | _, [] => ([], [])
  | room, i :: is =>
    if 12 + i.val.length ≤ room then
      let r := takeItems (room - (12 + i.val.length)) is
      (i :: r.1, r.2)
    else ([], i :: is)
/-- The PUBLISH of one session in this slot. -/
def Lane.publishSession (l : Lane) (me : LaneId) (n : Nat) : Lane :=
  let x := l.sess n
  if x.st ≠ 2 ∨ x.published = true then l
  else
    let due := x.subs.filter fun s => l.subDue s
    let items := due.map fun s =>
      ({ id := s.id, type := (match objDesc? s.idx s.sub with | some d => d.type | none => 0), slot := l.slot,
         val := l.objRead s.idx s.sub } : PubItem)
    let subs := x.subs.map fun s =>
      if l.subDue s then { s with last := l.slot, sent := true, lastVal := if s.onChange then l.objRead s.idx s.sub else [] } else s
    let r := takeItems 1355 (x.defer ++ items)
    let l := l.modSess n fun x => { x with subs := subs, defer := r.2, published := true }
    if r.1.isEmpty then l
    else l.sendPayload me n false (leBytes 1 8 ++ zeros 3 ++ leBytes 1 r.1.length ++ r.1.flatMap fun i =>
      leBytes 1 i.id ++ leBytes 1 i.type ++ leBytes 2 i.val.length ++ leBytes 8 i.slot.toNat ++ i.val)
/-- Every session's PUBLISH. -/
def Lane.publishSubs (l : Lane) (me : LaneId) : Lane := (List.range 8).foldl (fun l n => l.publishSession me n) l

/-! ### Admitted entries (R50, R279, R283) -/

/-- The points and status of an admitted report (R279, R332). -/
def Lane.takeReport (l : Lane) (n : Nat) (b : Bytes) : Lane :=
  let mask := natAt b 20 2
  let time := BitVec.ofNat 80 (natAt b 12 4 + natAt b 16 4 * 2 ^ 48)
  let pts := (List.range 16).foldl (fun m p =>
    if mask.testBit p && (natAt b (96 + p) 1).testBit 0 then
      mput m (pointKey n p) (natAt b (32 + 4 * p) 4, natAt b (96 + p) 1, time, l.slot)
    else m) l.dict.points
  let reports := mset (fun _ => (0, 0, [])) l.dict.reports n (natAt b 22 1, natAt b 23 1, (List.range 16).map fun p => natAt b (96 + p) 1)
  { l with dict := { l.dict with points := pts, reports := reports } }
/-- What an admitted entry does at once: a report's points, a request for execution, a lane's statistics. -/
def Lane.takeEntry (l : Lane) (e : FrameEntry) (byR52 : Bool) : Lane :=
  let bump (l : Lane) (k : Nat) : Lane := { l with dict := { l.dict with stats := lmod l.dict.stats k fun c => satAdd 0xFFFFFFFF c 1 } }
  match e.kind with
  | 1 =>
    let l := bump (l.takeReport (e.source % 4096) e.body) 13
    if byR52 then bump l 14 else l
  | 2 =>
    let n := e.source
    let x := l.sess n
    if x.st = 0 then l
    else
      let l := l.modSess n fun x => { x with rxseq := e.seq, rxCount := x.rxCount + 1 }
      let r : ExecReq := { sess := n, epoch := x.epoch, seq := e.seq, port := e.port, body := e.body }
      { l with dict := { l.dict with todo := l.dict.todo ++ [r] } }
  | 3 =>
    let st := (List.range 4).foldl (fun s k => s.set (3 * k + e.source % 3) (natAt e.body (4 * k) 4)) l.dict.stats
    { l with dict := { l.dict with stats := st } }
  | _ => l

/-! ### What registers show -/

/-- XACT's read-only fields. -/
def Lane.xactView (l : Lane) (m : RegMap) : RegMap :=
  let bits (p : Session → Bool) : Nat := (l.dict.sessions.mapIdx fun n x => if p x then 2 ^ n else 0).sum
  let m := fset (fset m f_XACT_STAT_BOUND (bits (·.st == 2))) f_XACT_STAT_ENABLED (bits (·.st != 0))
  let m := fset m f_XACT_CLAMPCNT_COUNT l.dict.clampCount
  (List.range 8).foldl (fun m n =>
    let x := l.sess n
    let o := 4 * n
    fset (fset (fset (fset m (f_XACT_SESS_PORT.at o) x.port) (f_XACT_SESS_EPOCH.at o) x.epoch) (f_XACT_SESS_ROLE.at o)
      (l.dict.nat (0x1200 + n) 2)) (f_XACT_SESS_STATE.at o) x.st) m

end Sys2Proof.Machine
end

