-- ==== Sys2Proof/Machine/RegRead.lean ====
section
/-! DEFINITION. What a lane answers to a read of a register or of a memory window, and what the read does (R36, R431, R434,
R439, R441, R445, R446). -/
namespace Sys2Proof.Machine

/-! ### Fields that show state -/

/-- LCTL as a lane view shows it. -/
def Lane.lctlView (l : Lane) (me : LaneId) (m : RegMap) : RegMap :=
  let m := fset (fset m f_LCTL_IDENT_STEP Config.step.toNat) f_LCTL_IDENT_GRADE (if Config.grade then 2 else 1)
  let m := fset m f_LCTL_IDENT_LANE me.num
  let m := fset (fset m f_LCTL_SLOTLO_SLOTLO (l.slot.toNat % 2 ^ 32)) f_LCTL_SLOTHI_SLOTHI (l.slot.toNat / 2 ^ 32)
  let m := fset m f_LCTL_CLKSTAT_RTCOSC (fget l.shadow f_LCTL_CLKSTAT_RTCOSC)
  fbool (fbool m f_LCTL_RJSTAT_NOFACTOR l.copy.factor) f_LCTL_RJSTAT_TRAILING l.copy.trailing
/-- The agreed process inputs. -/
def Lane.inputView (l : Lane) (m : RegMap) : RegMap :=
  let m := (List.range 32).foldl (fun m n =>
    let x := l.img.ain.getD n (0, false)
    fbool (fset m (f_AIN_AGREED_CODE.at (4 * n)) (ofInt 16 x.1).toNat) (f_AIN_AGREED_CLIP.at (4 * n)) x.2) m
  fset (fset m f_DIN_AGRLO_AGR (l.img.din.toNat % 2 ^ 32)) f_DIN_AGRHI_AGR (l.img.din.toNat / 2 ^ 32)
/-- The links of a lane that are agreed down: link 0 towards the next lane, link 1 towards the previous one. Links are
numbered A–B, B–C, C–A. -/
def Lane.downLinks (l : Lane) (me : LaneId) : Bool × Bool :=
  (l.agree.agreedDown.getD me.num false, l.agree.agreedDown.getD me.prev.num false)
/-- XLNK's fields of the slot. -/
def Lane.xlnkView (l : Lane) (me : LaneId) (m : RegMap) : RegMap :=
  let d := l.downLinks me
  let m := fset m f_XLNK_STAT_MEMBER l.mask.bits
  let m := fbool (fbool m f_XLNK_STAT_LINKDOWN0 d.1) f_XLNK_STAT_LINKDOWN1 d.2
  let relay := l.relayLink
  let m := fbool m f_XLNK_STAT_RELAYING (relay == some me.next)
  let m := fbool m f_XLNK_STAT_RELAYED (relay == some me || relay == some me.prev)
  fbool m f_XLNK_STAT_AGREED (l.mask.has me && (l.agree.stage == .imaged || l.agree.stage == .done))
/-- The registers of the unit of a key, with the fields that show state. -/
def Lane.unitView (l : Lane) (me : LaneId) (k : Nat) : RegMap :=
  match k / 65536 with
  | 0 => l.lctlView me l.regs
  | 1 => l.mtrView l.regs
  | 2 => l.thmView l.regs
  | 3 => l.inputView l.regs
  | 4 => l.lengView l.regs
  | 5 => l.lseqView l.regs
  | 6 => l.asmView l.regs
  | 7 => l.solvView l.regs
  | 8 => l.portView me l.regs
  | 9 => l.timeView me l.regs
  | 10 => l.xactView l.regs
  | 11 => l.keyView l.regs
  | 12 => l.nvmView l.regs
  | 15 => l.xlnkView me l.regs
  | _ => l.regs
/-- The registers that hold only shadows of the RTC domain. -/
def rtcShadow (k : Nat) : Bool :=
  k == f_RTC_STAT_RUN.key || k == f_RTC_WDAY_WDAY.key || k == f_RTC_SLEW_ERR.key || k == f_RTC_SETCNT_SETCNT.key
/-- The bits a write-only or command field reads as zero. -/
def readMask (k : Nat) : Word :=
  match regDesc? k with | some d => d.mask fun f => f.acc == .ro || f.acc == .rw || f.acc == .rc | none => 0
/-- What a register holds at a read, before pair latching; KEY_CMD reads as LASTSTAT. -/
def Lane.regNow (l : Lane) (me : LaneId) (k : Nat) : Word :=
  if k = f_KEY_CMD_OP.key then BitVec.ofNat 32 (fget (l.unitView me k) f_KEY_STAT_LASTSTAT)
  else (if rtcShadow k then rget l.shadow k else rget (l.unitView me k) k) &&& readMask k

/-! ### Register pairs (R439) -/

/-- First low halves of the 64-bit pairs, with the number of pairs and their strides. -/
def pairLows : List (Nat × Nat × Nat × Nat × Nat) :=
  [(f_LCTL_SLOTLO_SLOTLO.key, 1, 0, 1, 0), (f_DIN_RAWLO_RAW.key, 1, 0, 1, 0), (f_DIN_AGRLO_AGR.key, 1, 0, 1, 0),
   (f_ASM_SNAPLO_SNAPLO.key, 1, 0, 1, 0), (f_ASM_NSIGLO_NSIGLO.key, 1, 0, 1, 0), (f_SOLV_PUBSLOTLO_PUBLO.key, 1, 0, 1, 0),
   (f_LENG_TRLEVLO_LEVLO.key, 16, 0x20, 1, 0), (f_LSEQ_LTLO_LTLO.key, 1, 0, 1, 0),
   (f_MTR_ELO_ELO.key, 4, 0x120, 36, 8), (f_THM_ELO_ELO.key, 8, 0x20, 4, 8), (f_RTC_SNAPLO_SECLO.key, 1, 0, 1, 0)]
/-- A key is the low half of a pair; its high half follows it. -/
def pairLow (k : Nat) : Bool :=
  pairLows.any fun p => (List.range p.2.1).any fun i => (List.range p.2.2.2.1).any fun j =>
    k == p.1 + p.2.2.1 * i + p.2.2.2.2 * j
/-- A key is the high half of a pair. -/
def pairHigh (k : Nat) : Bool := decide (4 ≤ k) && pairLow (k - 4)
/-- What a read of the low half latches besides the high half: the wrap counter of the register read (R226, R246). -/
def Lane.wrapLatch (l : Lane) (k : Nat) : Lane :=
  if f_MTR_ELO_ELO.key ≤ k ∧ k < f_MTR_ELO_ELO.key + 0x480 then
    let o := k - f_MTR_ELO_ELO.key
    l.reg fun m => fset m f_MTR_WLATCH_WRAP ((l.feeder (o / 0x120)).regs.getD (o % 0x120 / 8) ereg0).wrap.toNat
  else if f_THM_ELO_ELO.key ≤ k ∧ k < f_THM_ELO_ELO.key + 0x100 then
    let o := k - f_THM_ELO_ELO.key
    l.reg fun m => fset m f_THM_WLATCH_WRAP ((l.circ (o / 0x20)).regs.getD (o % 0x20 / 8) ereg0).wrap.toNat
  else l

/-! ### Reads of registers -/

/-- Clearing of the RC bits in the enabled byte lanes, with the shadow and its source (R441, R446). -/
def Lane.readClears (l : Lane) (k : Nat) (be : BitVec 4) : Lane :=
  if rtcShadow k then
    let clr := rcMask k &&& beMask be
    { l with rtc := l.rtc.readClear l.shadow k clr, shadow := rset l.shadow k (rget l.shadow k &&& ~~~clr) }
  else l.reg fun m => regClear m k be
/-- A read of the low half of a pair latches the high half and the wrap counter (R439). -/
def Lane.pairLatch (l : Lane) (me : LaneId) (k : Nat) : Lane :=
  { l with latch := rset l.latch (k + 4) (l.regNow me (k + 4)) }.wrapLatch k
/-- A read of one register: the value, and what it latches, pops and clears. `fab` fabric clocks since the strobe. Only a
32-bit read of the low half of a pair latches. -/
def Lane.regRead (l : Lane) (me : LaneId) (k : Nat) (be : BitVec 4) (fab : Nat) : Lane × Word :=
  if k = f_TIME_EVHDR_EVOVF.key then
    let (l', w) := l.eventPop
    (l'.readClears k be, w)
  else
    let l := if k = f_TIME_CLKNS_NS.key then l.clockLatch fab else l
    let v := if pairHigh k then rget l.latch k else l.regNow me k
    let l := if pairLow k && be == 15 then l.pairLatch me k else l
    (l.readClears k be, v)
/-- A two-doubleword read: on a pair both halves are of one instant, else two reads at the lower address first (R439). -/
def Lane.regRead2 (l : Lane) (me : LaneId) (k1 k2 : Nat) (b1 b2 : BitVec 4) (fab : Nat) : Lane × List Word :=
  if pairLow k1 && k2 == k1 + 4 then
    let v := [l.regNow me k1, l.regNow me k2]
    (((l.pairLatch me k1).readClears k1 b1).readClears k2 b2, v)
  else
    let r1 := l.regRead me k1 b1 fab
    let r2 := r1.1.regRead me k2 b2 fab
    (r2.1, [r1.2, r2.2])

/-! ### Memory windows (R434, R436) -/

/-- A byte of the problem store (R97 to R101, R431): hamper headers, then the resident records in hamper order. What no
assembly has written, and the solver's area of a record once rounds run, are free. -/
def Lane.storeByte (l : Lane) (me : LaneId) (a : Nat) : Byte :=
  let p := l.solv.store
  let free : Byte := Config.storeByte me l.slot a
  if l.psBytes ≤ a then 0
  else if a < 3072 then (match p.heads[a / 64]? with | some h => h.getD (a % 64) 0 | none => free)
  else
    let size := (p.recs.headD []).length
    let i := (a - 3072) / size
    let o := (a - 3072) % size
    if size = 0 ∨ p.resident ≤ i then free
    else match p.recs[i]? with
      | none => free
      | some r => if 512 ≤ o ∧ o < 768 ∧ l.solv.last ≠ 0 then free else r.getD o 0
/-- A byte of a view's memory windows. -/
def Lane.windowByte (l : Lane) (me : LaneId) (o : Nat) : Byte :=
  if o < 0x140000 then (l.sectionBlock ((o - 0x100000) / 64)).getD (o % 64) 0
  else if o < 0x240000 then (l.traceRecord ((o - 0x140000) / 16)).getD (o % 16) 0
  else if o < 0x600000 then
    match l.lseq.image with | some im => im.raw.getD (o - 0x400000) 0 | none => 0
  else if o < 0x640000 then
    let f := (o - 0x600000) / 65536
    (mget (fun _ => zeros 256) (l.feeder f).ring (o % 65536 / 256)).getD (o % 256) 0
  else if o < 0x680000 then
    let c := (o - 0x640000) / 32768
    (mget (fun _ => zeros 128) (l.circ c).ring (o % 32768 / 128)).getD (o % 128) 0
  else l.storeByte me (fget l.regs f_LCTL_PSPAGE_PAGE * 2097152 + (o - 0x700000))
/-- A doubleword of a memory window. -/
def Lane.windowWord (l : Lane) (me : LaneId) (o : Nat) : Word :=
  BitVec.ofNat 32 (leNat ((List.range 4).map fun i => l.windowByte me (o + i)))

end Sys2Proof.Machine
end

