-- ==== Sys2Proof/Machine/Irq.lean ====
section
/-! DEFINITION. The arbiter's interrupt causes and MSI-X messages (R455). -/
namespace Sys2Proof.Machine

/-- MSI-X table and PBA at reset: every vector masked, nothing pending. -/
def msixDflt (k : Nat) : Byte := if k < 1024 ∧ k % 16 = 12 then 1 else 0
/-- A byte of the MSI-X table (from 0) or of the PBA (from 0x1000). -/
def Arb.msixByte (a : Arb) (k : Nat) : Byte := mget msixDflt a.msix k
/-- Write such a byte. -/
def Arb.msixPut (a : Arb) (k : Nat) (b : Byte) : Arb := { a with msix := mset msixDflt a.msix k b }
/-- Vector v is signalled: as a message, or as a pending bit while it is masked. -/
def Arb.signal (a : Arb) (v : Nat) : Arb :=
  if (a.msixByte (16 * v + 12)).getLsbD 0 then
    a.msixPut (0x1000 + v / 8) (a.msixByte (0x1000 + v / 8) ||| BitVec.ofNat 8 (2 ^ (v % 8)))
  else { a with msi := a.msi ++ [v] }
/-- Cause v of Table 15-7 occurs: its bit sets, and a change from 0 to 1 signals the vector when it is enabled. After a
comparator trip the arbiter's registers stay as they are (R457). -/
def Arb.irq (a : Arb) (v : Nat) : Arb :=
  if a.fault || a.inReset then a
  else
    let was := (fget a.regs f_ARB_IRQSTAT_CAUSE).testBit v
    let a := { a with regs := forBits a.regs f_ARB_IRQSTAT_CAUSE (2 ^ v) }
    if !was && (fget a.regs f_ARB_IRQEN_EN).testBit v then a.signal v else a
/-- Every cause of a mask. -/
def Arb.irqs (a : Arb) (mask : Nat) : Arb := (List.range 13).foldl (fun a v => if mask.testBit v then a.irq v else a) a
/-- Change the arbiter. -/
def State.onArb (s : State) (f : Arb → Arb) : State := { s with arb := f s.arb }

end Sys2Proof.Machine
end

