-- ==== Sys2Proof/Machine/Arbiter.lean ====
section
/-! DEFINITION. The arbiter's own operations: its judgement of the lanes, exclusion and the empty member mask
(R16, R384 to R388, R401). -/
namespace Sys2Proof.Machine

/-- The arbiter's record of a lane. -/
def Arb.judge (a : Arb) (x : LaneId) : LaneJudge := a.lanes.getD x.num judge0
/-- Change the record of a lane. -/
def Arb.modJudge (a : Arb) (x : LaneId) (f : LaneJudge → LaneJudge) : Arb := { a with lanes := lmod a.lanes x.num f }
/-- Change the arbiter's registers. -/
def Arb.reg (a : Arb) (f : RegMap → RegMap) : Arb := { a with regs := f a.regs }
/-- The field of lane x of a register the arbiter holds for each lane. -/
def laneFld (f : Fld) (x : LaneId) : Fld := f.at (4 * x.num)
/-- The arbiter's logic runs: out of reset, and its comparator has not tripped. -/
def Arb.runs (a : Arb) : Bool := !a.inReset && !a.fault
/-- The start gate is open (R464). -/
def Arb.gateOpen (a : Arb) : Bool := fget a.regs f_ARB_RSTCAUSE_GATEOPEN == 1
/-- A pulse output that has never run. -/
def vpoQ0 : VpoQ := { queue := [], high := false, width := 0, since := 0, ran := false }
/-- Every voted output at its hardware reset default (Table 01-2). -/
def Arb.outputsDefault (a : Arb) : Arb :=
  { a with vdo := 0, vao := List.replicate 16 0, vpo := List.replicate 16 vpoQ0 }
/-- No output slot is open. -/
def outSlot0 : OutSlot := { slot := 0, isOpen := false, frames := [], passed := [] }
/-- DISN in force: the output slots of the exclusion window. -/
def Arb.disn (a : Arb) : Nat := fget a.regs f_ARB_ROLLCFG_DISN
/-- The disagreeing output slots of a lane in the current window. -/
def Arb.inWindow (a : Arb) (x : LaneId) : List Nat := (a.judge x).window.filter fun t => decide (a.ticks < t + a.disn)
/-- Rejoin state a lane shows (Table 13-7). -/
def Lane.rj (l : Lane) : Nat := fget l.regs f_LCTL_RJSTAT_RJSTATE
/-- Enter a rejoin state. -/
def Lane.setRj (l : Lane) (n : Nat) : Lane := l.reg fun m => fset m f_LCTL_RJSTAT_RJSTATE n

/-- A lane leaves the member mask from the next strobe, with its cause (R385, R386). -/
def Arb.exclude (a : Arb) (x : LaneId) (cause : Nat) : Arb :=
  let a := { a with nextMask := a.nextMask.put x false }
  let a := a.modJudge x fun j => { j with window := [], badRun := 0, manual := j.manual || cause == 7 }
  a.reg fun m => fbump (fset m (laneFld f_ARB_LANESTAT_CAUSE x) cause) f_ARB_EXCNT_EXCLCNT

/-- The lanes' records after all of them have been reset. -/
def LaneJudge.afterReset (j : LaneJudge) : LaneJudge :=
  { j with rep := judge0.rep, polled := false, answered := false, missed := false, missedRun := 0, nextSeq := none, window := [],
           badRun := 0 }
/-- The arbiter with no lane taking part and no start in progress. -/
def Arb.noLanes (a : Arb) : Arb :=
  let a := a.outputsDefault
  { a with mask := LaneSet.empty, nextMask := LaneSet.empty, agreed := false, agreeNext := false, window := none,
           windowClosed := false, ready := LaneSet.empty, joining := false, dramDone := none,
           hold := { active := false, slot := 0, snap := false, endBad := LaneSet.empty }, stop := none, out := outSlot0, rolling := false,
           solve := { minTiles := 0, judged := none, next := none }, lanes := a.lanes.map LaneJudge.afterReset }
/-- A lane trips and is reset with its flask written, as at a fall of RESET_N (R252, R475). -/
def Lane.tripReset (l : Lane) (me : LaneId) : Lane := ((l.tripNow me 4).flaskDone).afterReset me laneReset
/-- A trip occurs in a lane that meters. -/
def State.anyMeters (s : State) : Bool := s.a.meters || s.b.meters || s.c.meters
/-- The member mask has become empty (R388). -/
def State.emptyMask (s : State) : State :=
  let trip := s.anyMeters
  let s := s.onLanes fun x l => l.tripReset x
  s.onArb fun a =>
    let a := a.noLanes.reg fun m =>
      let m := fset (fset m f_ARB_MEMBER_MEMBER 0) f_ARB_MEMBER_VOTEMODE 0
      let m := fset (fbool (fbool m f_ARB_RSTCAUSE_GATEOPEN false) f_ARB_RSTCAUSE_ALLEXCL true) f_ARB_RSTCAUSE_GATETIME 0
      let m := fbool (fbool m f_ARB_RSTCAUSE_LONGHOLD false) f_ARB_RSTCAUSE_ARBFAULT false
      fbool (fbool (fbool m f_ARB_RSTCAUSE_VDDARB false) f_ARB_RSTCAUSE_RESETN false) f_ARB_RSTCAUSE_POR false
    (if trip then a.irq 12 else a).irq 3
/-- Exclude lanes, each with its cause; an empty mask acts at once. -/
def State.excludeLanes (s : State) (xs : List (LaneId × Nat)) : State :=
  if xs.isEmpty then s
  else
    let s := s.onArb fun a => xs.foldl (fun a x => a.exclude x.1 x.2) a
    if s.arb.nextMask.count = 0 then s.emptyMask else s

/-- The health score of a lane (Table 13-3). -/
def Arb.score (a : Arb) (x : LaneId) : Nat :=
  let j := a.judge x
  let r := j.rep
  255 - ((if r.uce || r.clkFail then 128 else 0) + min 64 (8 * (r.cecc + r.tecc)) + (if r.oot ≠ 0 then 32 else 0)
    + min 64 (16 * (a.inWindow x).length) + min 32 (8 * r.absent) + (if 100 < r.temp then 32 else 0)
    + 16 * (r.links % 2 + r.links / 2 % 2) + (if j.missed then 64 else 0))

/-- A failed attempt to rejoin (R401): counted, and the joiner asks again only after BACKOFF. -/
def State.failJoin (s : State) (x : LaneId) (st : Nat) : State :=
  let s := s.onArb fun a => { a.reg (fun m => fset (fset (fbump m f_ARB_JOIN_FAILS) f_ARB_JOIN_PHASE 0) f_ARB_JOIN_PROGRESS 0) with
    joining := false, dramDone := none }
  s.onLane x fun l =>
    { l.setRj st with copy := { bulk := false, dram := false, passes := 0, factor := false, trailing := false }, backoff := true,
                      waitFrom := s.arb.ticks, handover := false,
                      agree := { l.agree with stage := .idle } }

end Sys2Proof.Machine
end

