-- ==== Sys2Proof/Machine/Substation.lean ====
section
/-! DEFINITION. What a lane sends to substations and hands to its ports (R63, R266, R280 to R283). -/
namespace Sys2Proof.Machine

/-- Time in ns as TAI seconds [31:0] and a fraction in 2⁻³² s. -/
def taiBytes (ns : Nat) : Bytes := leBytes 4 (ns / 1000000000) ++ leBytes 4 (ns % 1000000000 * 2 ^ 32 / 1000000000)
/-- The set-point frame of a substation from the published solution (Table 09-6, R281), without its tag. -/
def Lane.setPointBody (l : Lane) (p : Published) (n : Nat) : Bytes :=
  let u3 := p.subs.contains (n, true)
  let xs := mget (fun _ => []) p.traj (objKey (0x6400 + n / 256) (n % 256))
  let u (k j : Nat) : Bytes := if j = 2 ∧ u3 = false then zeros 4 else leBytes 4 (vAt xs (3 * k + j))
  [0x52, 1] ++ leBytes 2 n ++ leBytes 4 (l.slot.toNat / 20) ++ leBytes 4 (l.keyA.gens.leafGen 2 n) ++ taiBytes p.grid
    ++ leBytes 4 p.dt ++ leBytes 2 l.solver.last.num ++ leBytes 1 l.solver.last.status
    ++ leBytes 1 u3.toNat ++ zeros 4 ++ ((List.range 4).flatMap fun k => (List.range 3).flatMap fun j => u k j) ++ zeros 40
/-- The frame goes out on each own port that reaches the substation, or it is counted in NOROUTE (R282). -/
def Lane.setPointSend (l : Lane) (me : LaneId) (p : Published) (n : Nat) : Lane :=
  let e := l.dict.elem 0x8400 1 2 n
  let ports := if e < 1024 then l.dict.nat (0x8800 + e) 2 else 0
  let reached := (List.range 48).any fun p => ports.testBit p && l.mask.toList.any fun x => p / 16 == x.num
  if !reached then { l with dict := { l.dict with stats := lmod l.dict.stats 12 fun c => satAdd 0xFFFFFFFF c 1 } }
  else if l.tamperActs then l.tamperCount
  else
    let body := l.setPointBody p n
    let path := l.keyA.gens.path 2 n
    let frame := body ++ (cmac path.key body).take 8
    let l := l.ku fun k => { k with reg := some path }
    (List.range 16).foldl (fun l k =>
      if ports.testBit (16 * me.num + k) then
        l.sendUdp me k 2 (l.dict.addr (0x8800 + e) 1) (l.dict.nat (0x8800 + e) 3) 0 frame
      else l) l
/-- At publication every enabled substation gets its frame (R147, R281). -/
def Lane.setPoints (l : Lane) (me : LaneId) : Lane :=
  match l.solver.last.result with
  -- in ascending number
  | some p => (p.subs.map (·.1)).mergeSort.foldl (fun l n => l.setPointSend me p n) l
  | none => l

/-- Step 4 of Table 01-6: publication with its set-point frames. -/
def Lane.step4All (l : Lane) (me : LaneId) : Lane :=
  let was := l.step4
  let l := l.step4Run
  if !was && l.solver.last.result.isSome && decide (l.solver.last.pubSlot = l.slot) then l.setPoints me else l

/-- The entry with the lane's own counts, ahead of every other one of slot n (R283). -/
def Lane.statEntry (l : Lane) (me : LaneId) (n : BitVec 64) : Lane :=
  if n.toNat % 20000 ≠ 0 ∨ l.statSlot = some n then l
  else
    let e : FrameEntry :=
      { port := 0xFF, kind := 3, source := me.num, seq := BitVec.ofNat 32 (n.toNat / 20000),
        body := l.ownStats.flatMap (leBytes 4) }
    { l with statSlot := some n, agree := { l.agree with offer := e :: l.agree.offer } }

/-- The slot's queued messages pass to the lane's own ports; those of the mailbox wait for the arbiter (R63). -/
def Lane.flushTx (l : Lane) (me : LaneId) : Lane :=
  let out := l.tx.filter fun x => decide (x.port ≠ 0xFF)
  let l := { l with tx := l.tx.filter fun x => decide (x.port = 0xFF) }
  out.foldl (fun l x =>
    if x.port / 16 = me.num then l.sendUdp me (x.port % 16) x.cls x.addr x.uport 3 x.bytes else l) l

end Sys2Proof.Machine
end

