-- ==== Sys2Proof/Machine/Boundary.lean ====
section
/-! DEFINITION. The boundary actions of a lane at t1 in the order of Table 01-6, and the slot's work after them (R27, R30). -/
namespace Sys2Proof.Machine

/-- A pending leap second is due: agreed district time has reached LEAPAT (R410). -/
def Lane.leapDue (l : Lane) : Bool :=
  decide (l.dict.int 0x1320 2 ≠ 0) && decide (time80ns (l.dict.get 0x1320 3) ≤ l.img.dtNsTotal)
/-- The leap second: LEAP is added to UTCOFFSET and cleared. -/
def Lane.leapApply (l : Lane) : Lane :=
  if l.leapDue then
    let off := l.dict.int 0x1320 1 + l.dict.int 0x1320 2
    { l with dict := (l.dict.put 0x1320 1 (leBytes 2 (ofInt 16 off).toNat)).put 0x1320 2 [0] }
  else l

/-- Step 1 of Table 01-6, once in a slot: a tamper increment, a leap second, the requests whose commit slot this is, and
the voted-view writes. -/
def Lane.step1Run (l : Lane) (me : LaneId) : Lane :=
  if l.step1 then l
  else
    let l := { l with step1 := true }
    let l := if l.tamperNew then { l.tamperSession with tamperNew := false } else l
    let l := l.leapApply
    let rs := l.dict.reqs
    let l := rs.foldl (fun l r => l.commitReq me r) { l with dict := { l.dict with reqs := [] } }
    l.votedWrites

/-- Steps 1 to 6 of Table 01-6 as far as they have not run in this slot, with the snapshot decision of R121 before the
publication. Step 2, the delta of a rejoining lane, precedes the joiner's own boundary. -/
def Lane.boundary (l : Lane) (me : LaneId) : Lane :=
  (((l.step1Run me).step3Run.step4All me).step5Run).step6Run me
/-- The due loops of the slot, once, after the boundary. -/
def Lane.loopsRun (l : Lane) (me : LaneId) : Lane :=
  let l := l.boundary me
  if l.stepL then l else { l.loopsSlot me Lane.wordInput with stepL := true }
/-- The agreed image is ready and the slot's work is not finished. -/
def Lane.working (l : Lane) : Bool := l.agree.stage == .imaged

end Sys2Proof.Machine
end

