-- ==== Sys2Proof/Machine/RtcCmds.lean ====
section
/-! DEFINITION. The commands of the real-time clocks and the backup domain: oscillator edges, following district time, the
tamper monitor and the charger (chapters 11 and 14). -/
namespace Sys2Proof.Machine

/-! ### The backup domain's registers (Table 15-4) -/

/-- The words of a tamper log entry (ARB_TAMPLOGLO, ARB_TAMPLOGHI). -/
def Backup.logRegs (b : Backup) (m : RegMap) : RegMap :=
  (List.range 4).foldl (fun m e =>
    let x := b.log.getD e none
    let lo := match x with | some t => t.secLo | none => 0
    let hi := match x with | some t => t.high | none => 0
    rset (rset m (f_ARB_TAMPLOGLO_SECLO.key + 8 * e) (BitVec.ofNat 32 lo)) (f_ARB_TAMPLOGHI_SECHI.key + 8 * e) (BitVec.ofNat 32 hi)) m
/-- The charger drives VBAT: enabled, below its limit, and the arbiter's supplies are good (R419). -/
def Backup.charges (b : Backup) (power : Bool) : Bool := power && b.chEnable && !b.atLimit
/-- The shadows of the backup domain. -/
def Backup.view (b : Backup) (power : Bool) (m : RegMap) : RegMap :=
  let bits (p : TamperEntry → Bool) : Nat :=
    ((List.range 4).map fun e => match b.log.getD e none with | some t => if p t then 2 ^ e else 0 | none => 0).sum
  let m := fset (fset m f_ARB_TAMPSTAT_LOST b.lost) f_ARB_TAMPSTAT_UNACTED (bits fun t => !t.acted)
  let m := fset (fset m f_ARB_TAMPSTAT_VALID (bits fun _ => true)) f_ARB_TAMPSTAT_POLICY b.policy
  let m := b.logRegs (fbool (fbool m f_ARB_TAMPSTAT_EVENT b.event) f_ARB_TAMPSTAT_ACTIVE b.active)
  let m := fbool (fset m f_ARB_VBAT_MV b.mv) f_ARB_VBAT_CHARGING (b.charges power)
  let m := fbool (fbool m f_ARB_VBAT_ATLIMIT b.atLimit) f_ARB_VBAT_BATLOW (decide (b.mv ≠ 0) && decide (b.mv < 2000))
  fbool m f_ARB_VBAT_ENABLE b.chEnable

/-! ### Oscillator edges (R405, R414, R415) -/

/-- What a host SET takes from the staged registers. -/
def Lane.rtcStage (l : Lane) : RtcStage :=
  { sec := fget l.regs f_RTC_STGHI_SECHI * 2 ^ 32 + fget l.regs f_RTC_STGLO_SECLO
    frac := fget l.regs f_RTC_STGFR_FRAC * 2 ^ 17, wday := fget l.regs f_RTC_STGHI_WDAY
    phase := fget l.regs f_RTC_STGPH_PHASE }
/-- The snapshot registers latch the RTC (R414). -/
def rtcSnapRegs (r : Rtc) (m : RegMap) : RegMap :=
  let m := fset (fset m f_RTC_SNAPLO_SECLO (r.sec.toNat % 2 ^ 32)) f_RTC_SNAPHI_SECHI (r.sec.toNat / 2 ^ 32)
  fset (fset m f_RTC_SNAPHI_WDAY r.wday.toNat) f_RTC_SNAPFR_FRAC r.frac.toNat
/-- One edge of a lane's oscillator: the RTC, a snapshot asked for, the shadows, and the clock count of R185. `clocks` are
the fabric clocks of the last 65,536 periods, `elapsed` the 2⁻³² s units since t1 of a TIMESET, `mv` VBAT as last sampled. -/
def Lane.rtcEdge (l : Lane) (clocks elapsed mv : Nat) : Lane :=
  let r := l.rtc.edge l.rtcStage elapsed
  { l with rtc := r, shadow := r.view (decide (mv ≠ 0) && decide (mv < 2000)) l.shadow
           regs := if l.rtc.acts.contains .snap then rtcSnapRegs r l.regs else l.regs
           tbu := { l.tbu with rtcN := clocks } }
/-- The lowest-lettered lane whose oscillator runs. -/
def State.rtcLead (s : State) : Option LaneId := [LaneId.A, .B, .C].find? fun x => (s.lane x).rtc.run
/-- The shadows of the backup domain are refreshed. -/
def State.backupRefresh (s : State) : State :=
  if s.arb.runs then s.onArb fun a => { a with shadow := s.bak.view true a.shadow } else s
/-- The log without the entries that have been acted on. -/
def Backup.clearActed (b : Backup) : Backup :=
  { b with log := b.log.map fun e => match e with | some t => if t.acted then none else some t | none => none }
/-- The backup domain empties the acted-on entries, and the command that asked for it has completed (ARB_TAMPACK). -/
def State.tamperClear (s : State) : State :=
  ({ s with bak := s.bak.clearActed }.onArb fun a =>
    { a with cmds := a.cmds.filter fun c => c.1 != f_ARB_TAMPACK_CLEARLOG.key }).backupRefresh
/-- A clear of the tamper log that the host has asked for acts at an edge of the backup domain's clock. -/
def State.tamperAcks (s : State) : State :=
  if s.arb.cmds.any fun c => c.1 == f_ARB_TAMPACK_CLEARLOG.key then s.tamperClear else s
/-- An edge of a lane's oscillator; the edges of the lowest-lettered running one clock the backup domain and refresh its
shadows. -/
def State.oscEdge (s : State) (x : LaneId) (clocks elapsed mv : Nat) : State :=
  let s := s.onLane x fun l => l.rtcEdge clocks elapsed mv
  if s.rtcLead = some x then { s with bak := { s.bak with mv := mv } }.tamperAcks.backupRefresh else s
/-- LEAP_APPLY (R410): step 1 of a slot in which a leap second is due. -/
def execLeapApply (lane : LaneId) (s : State) : Host.Outcome State Fault Refusal :=
  laneWhen s lane (fun l => l.working && l.leapDue && !l.step1) fun l => l.step1Run lane
/-- The comparison with district time is due (R412). -/
def Lane.followDue (l : Lane) (me : LaneId) : Bool :=
  l.working && l.mask.has me && l.word.sync && decide (l.slot.toNat % 20000 = 0)
  && !l.rtc.acts.any fun a => match a with | .step _ => true | _ => false
/-- RTC_FOLLOW (R412): `sub` is what the comparison measures of the RTC beyond its count, in 2⁻³² s units. -/
def execRtcFollow (lane : LaneId) (sub : Int) (s : State) : Host.Outcome State Fault Refusal :=
  laneWhen s lane (fun l => l.followDue lane) fun l =>
    { l with rtc := l.rtc.follow ((l.rtc.ticks : Int) + sub - (l.img.dtNsTotal * 2 ^ 32 / 1000000000 : Nat)) }
/-- OSC_STOP (R406). -/
def execOscStop (lane : LaneId) (s : State) : Host.Outcome State Fault Refusal :=
  laneNext s lane fun l =>
    { l with rtc := l.rtc.stop, shadow := l.rtc.stop.view (fget l.shadow f_RTC_STAT_BATLOW == 1) l.shadow }

/-! ### The tamper monitor (R351, Table 11-7) -/

/-- The stamp of a tamper event: seconds and lane of the lowest-lettered running RTC; free when none runs. -/
def State.tamperStamp (s : State) : BitVec 48 × LaneId × Nat :=
  match s.rtcLead with
  | some x => ((s.lane x).rtc.sec, x, s.free)
  | none =>
    let v := (Config.free s.free).toNat
    (BitVec.ofNat 48 v, if v / 2 ^ 48 % 3 = 0 then .A else if v / 2 ^ 48 % 3 = 1 then .B else .C, s.free + 1)
/-- The log with an entry in its first free place; none when it is full. -/
def logPut (t : TamperEntry) : List (Option TamperEntry) → Option (List (Option TamperEntry))
  | [] => none
  | none :: r => some (some t :: r)
  | some x :: r => (logPut t r).map (some x :: ·)
/-- A tamper event: recorded and signalled, or counted in LOST at a full log. -/
def State.tamperEvent (s : State) : State :=
  let st := s.tamperStamp
  let b := { s.bak with event := true, active := true }
  match logPut { sec := st.1, lane := st.2.1, standby := !b.mains, acted := false } b.log with
  | some log => { s with bak := { b with log := log }, free := st.2.2 }.onArb fun a => a.irq 8
  | none => { s with bak := { b with lost := satAdd 15 b.lost 1 } }

/-- TAMPER_EVENT (R351): the filtered input becomes active. -/
def execTamperEvent (s : State) : Host.Outcome State Fault Refusal := .next (if s.bak.active then s else s.tamperEvent)
/-- TAMPER_INACTIVE (R351). -/
def execTamperInactive (s : State) : Host.Outcome State Fault Refusal := .next { s with bak := { s.bak with active := false } }
/-- TAMPER_LOG_CLEAR (ARB_TAMPACK). -/
def execTamperLogClear (s : State) : Host.Outcome State Fault Refusal :=
  .next (if s.arb.runs then s.tamperClear else s)

/-! ### The charger and the supply of the backup domain (R406, R417, R419) -/

/-- CHARGER_STOP (R419): VBAT has reached VLIMIT. -/
def execChargerStop (mv : Nat) (s : State) : Host.Outcome State Fault Refusal :=
  .next (if s.bak.charges s.arb.runs && decide (s.bak.chVlimit ≤ mv) then { s with bak := { s.bak with atLimit := true, mv := mv } } else s)
/-- CHARGER_RESTART (R419): VBAT has fallen 50 mV below VLIMIT. -/
def execChargerRestart (mv : Nat) (s : State) : Host.Outcome State Fault Refusal :=
  .next (if s.bak.atLimit && decide (mv + 50 ≤ s.bak.chVlimit) then { s with bak := { s.bak with atLimit := false, mv := mv } } else s)
/-- BACKUP_POWER_LOSS (R406, R417): VBAT and every main rail are absent; only MRAM keeps its contents. The safety island's
own supply has its own command. -/
def execBackupPowerLoss (s : State) : Host.Outcome State Fault Refusal :=
  let s := s.onLanes fun x l => { (l.afterReset x laneReset) with rtc := rtcReset, shadow := rtcReset.view false [] }
  .next { s with arb := { arbReset with perst := s.arb.perst }
                 bak := { backupReset with mains := false, holdFrom := s.bak.holdFrom.map fun _ => 0 } }

end Sys2Proof.Machine
end

