-- ==== Sys2Proof/Machine/Voting.lean ====
section
/-! DEFINITION. Output frames and voting (R58 to R61), the two-lane hold (R389, R390) and the monitoring of one lane (R391). -/
namespace Sys2Proof.Machine

/-! ### Output frames (Table 02-7) -/

/-- SLOT of a frame. -/
def frameSlot (f : BitVec 64) : Nat := f.toNat / 2 ^ 48
/-- KIND of a frame. -/
def frameKind (f : BitVec 64) : Nat := f.toNat / 2 ^ 42 % 16
/-- The output a frame is for: 64 × KIND + INDEX. -/
def frameKey (f : BitVec 64) : Nat := frameKind f * 64 + f.toNat / 2 ^ 36 % 64
/-- VALUE of a frame. -/
def frameValue (f : BitVec 64) : Word := BitVec.ofNat 32 f.toNat
/-- A frame is an END frame. -/
def isEnd (f : BitVec 64) : Bool := frameKind f == 15
/-- What an END frame says: count and CRC. -/
def endWord (f : BitVec 64) : Nat := f.toNat % 2 ^ 42

/-- Frames of a lane in the output slot, in arrival order, without END. -/
def OutSlot.sent (o : OutSlot) (x : LaneId) : List (BitVec 64) :=
  (o.frames.filter fun p => decide (p.1 = x) && !isEnd p.2).map (·.2)
/-- The END of a lane. -/
def OutSlot.endOf (o : OutSlot) (x : LaneId) : Option Nat :=
  (o.frames.find? fun p => decide (p.1 = x) && isEnd p.2).map fun p => endWord p.2
/-- The first value a lane sent for an output. -/
def OutSlot.value (o : OutSlot) (x : LaneId) (key : Nat) : Option Word :=
  ((o.sent x).find? fun f => frameKey f == key).map frameValue
/-- The value passed for an output in this slot. -/
def OutSlot.passedOf (o : OutSlot) (key : Nat) : Option Word := (o.passed.find? fun p => p.1 == key).map (·.2)
/-- The END frame that closes the frames received from a lane. -/
def OutSlot.endExpected (o : OutSlot) (x : LaneId) : Nat := endWord (endFrame (BitVec.ofNat 64 o.slot.toNat) x (o.sent x))

/-! ### The pulse queues (R61, R390) -/

/-- The head pulse rises. -/
def VpoQ.start (q : VpoQ) : VpoQ :=
  match q.queue with
  | [] => q
  | w :: r => { queue := r, high := true, width := w, since := 0, ran := true }
/-- A queued pulse may start: none is running, and w strobes have passed since the previous one fell. -/
def VpoQ.ready (q : VpoQ) : Bool :=
  !q.high && (match q.queue with | [] => false | w :: _ => !q.ran || decide (w ≤ q.since))
/-- The pulse that runs has lasted its width. -/
def VpoQ.ends (q : VpoQ) : Bool := q.high && decide (q.width ≤ q.since)
/-- The output falls. -/
def VpoQ.fall (q : VpoQ) : VpoQ := { q with high := false, since := 0 }
/-- Pulses of a passed frame join the queue of at most 4; at an idle output the first starts at once. -/
def VpoQ.append (q : VpoQ) (w n : Nat) : VpoQ :=
  let idle := !q.high && q.queue.isEmpty
  let q := { q with queue := (q.queue ++ List.replicate (min n 4) w).take 4 }
  if idle then q.start else q
/-- A slot strobe passes. -/
def VpoQ.tick (q : VpoQ) : VpoQ := { q with since := q.since + 1 }

/-! ### Passing values -/

/-- A passed value reaches its pin, the pulse queue or the stop-request word. -/
def Arb.drive (a : Arb) (key : Nat) (v : Word) : Arb :=
  let i := key % 64
  let n := v.toNat
  match key / 64 with
  | 1 => { a with vao := a.vao.set i (BitVec.ofNat 16 n) }
  | 2 =>
    let b : BitVec 64 := BitVec.ofNat 64 (2 ^ i)
    { a with vdo := if n % 2 = 1 then a.vdo ||| b else a.vdo &&& ~~~b }
  | 3 =>
    if 4 ≤ i then a
    else
      let mask : BitVec 64 := BitVec.ofNat 64 (n / 65536 * 2 ^ (16 * i))
      let vals : BitVec 64 := BitVec.ofNat 64 (n % 65536 * 2 ^ (16 * i))
      { a with vdo := (a.vdo &&& ~~~mask) ||| (vals &&& mask) }
  | 4 => { a with stop := some (BitVec.ofNat 16 n) }
  | 5 => { a with vpo := lmod a.vpo i fun q => q.append (n / 65536) (n % 65536) }
  | _ => a
/-- An output value passes: behind the start gate it reaches its output, unless the outputs are held (R464, R390). -/
def Arb.pass (a : Arb) (key : Nat) (v : Word) : Arb :=
  let a := { a with out := { a.out with passed := (key, v) :: a.out.passed.filter fun p => !(p.1 == key) } }
  if a.gateOpen && !a.hold.active then a.drive key v else a
/-- The first mismatch with two lanes: the outputs are held and both lanes are polled (R389). -/
def Arb.startHold (a : Arb) : Arb :=
  if a.hold.active then a
  else
    let a := { a with hold := { active := true, slot := a.out.slot, snap := true, endBad := LaneSet.empty } }
    a.mask.toList.foldl (fun a x => a.modJudge x fun j => { j with polled := true, answered := false }) a
/-- The decision on a new frame of a member for an output, given the first values the other members have sent. -/
def Arb.vote (a : Arb) (key : Nat) (v : Word) (others : List Word) : Arb :=
  match a.mask.count with
  | 1 => a.pass key v
  | 2 => match others with
    | [] => a
    | w :: _ => if (a.out.passedOf key).isSome then a else if w = v then a.pass key v else a.startHold
  | _ =>
    if (a.out.passedOf key).isSome then a
    else match others with
    | [] => a
    | [w] => if w = v then a.pass key v else a.reg fun m => fflag m f_ARB_OSTAT_THIRDWAIT
    | w :: u :: _ => if v = w ∨ v = u then a.pass key v else a
/-- A lane listens in the handover slot (R397). -/
def Arb.listener (a : Arb) (x : LaneId) : Bool := a.joining && decide (a.strobe.joinPhase = 4) && decide (a.strobe.joiner = x)
/-- A frame arrives from a lane (R59 to R61, R386). DESIGN CHOICE (log 139): a lane's second frame for an output in a slot is
not matched, unless the lane takes part alone. -/
def Arb.takeFrame (a : Arb) (x : LaneId) (f : BitVec 64) : Arb :=
  if !a.runs || !(a.mask.has x || a.listener x) then a
  else if !a.out.isOpen || decide (frameSlot f ≠ a.out.slot.toNat) then a.reg fun m => fflag m f_ARB_OSTAT_LATEFRAME
  else
    let again := (a.out.value x (frameKey f)).isSome
    let a := { a with out := { a.out with frames := a.out.frames ++ [(x, f)] } }
    if isEnd f || !a.mask.has x || (again && decide (a.mask.count ≠ 1)) then a
    else
      let others := (a.mask.toList.filter fun y => decide (y ≠ x)).filterMap fun y => a.out.value y (frameKey f)
      a.vote (frameKey f) (frameValue f) others

/-! ### The close of an output slot (R61) -/

/-- The END that at least two members sent, or the END of the only member. -/
def Arb.endMajority (a : Arb) : Option Nat :=
  let es := a.mask.toList.filterMap a.out.endOf
  if a.mask.count = 1 then es.head? else es.find? fun e => decide (2 ≤ es.count e)
/-- A member disagrees in the output slot. -/
def Arb.disagrees (a : Arb) (x : LaneId) : Bool :=
  match a.out.endOf x with
  | none => true
  | some e =>
    if a.mask.count = 1 then decide (e ≠ a.out.endExpected x)
    else decide (a.endMajority ≠ some e) || (a.out.sent x).any fun f =>
      match a.out.passedOf (frameKey f) with | some v => decide (frameValue f ≠ v) | none => false
/-- One disagreeing output slot of a lane is counted. -/
def Arb.noteDisagree (a : Arb) (x : LaneId) : Arb :=
  let a := a.modJudge x fun j => { j with window := a.ticks :: a.inWindow x }
  a.reg fun m => fbump m (laneFld f_ARB_ODISA_TOTAL x)
/-- The listener's frames are the values passed, and its END is the majority's (R397). -/
def Arb.listenerMatches (a : Arb) (x : LaneId) : Bool :=
  (match a.out.endOf x, a.endMajority with | some e, some m => decide (e = m) | _, _ => false)
  && (a.out.sent x).all fun f => decide (a.out.passedOf (frameKey f) = some (frameValue f))
/-- The listener enters the member mask at the next strobe; an entry counts unless a rejoin command permitted it
(R401, R402, R463). -/
def Arb.enter (a : Arb) (x : LaneId) : Arb :=
  let a := { a with nextMask := a.nextMask.put x true, joining := false, dramDone := none }
  let a := a.modJudge x fun j =>
    { j with entries := if j.permit then j.entries else a.ticks :: j.entries, permit := false, manual := false }
  a.reg fun m => fset (fset (fbump m f_ARB_EXCNT_ENTRYCNT) f_ARB_JOIN_PHASE 0) f_ARB_JOIN_PROGRESS 0
/-- The check of the handover slot at its close. -/
def State.handoverCheck (s : State) : State :=
  let x := s.arb.strobe.joiner
  if !s.arb.listener x then s
  else if s.arb.listenerMatches x && (s.lane x).handover then s.onArb fun a => a.enter x
  else (s.onArb fun a => a.reg fun m => fset m (laneFld f_ARB_LANESTAT_CAUSE x) 8).failJoin x 1
/-- The members that disagree in the output slot. -/
def Arb.bad (a : Arb) : List LaneId := a.mask.toList.filter a.disagrees
/-- Disagreeing slots are counted, and the held slot. -/
def Arb.noteBad (a : Arb) : Arb :=
  let b := a.bad.foldl Arb.noteDisagree a
  if a.hold.active then b.reg fun m => fbump m f_ARB_OSTAT_HELDCNT else b
/-- Two lanes whose END frames differ: the outputs are held; the held slot keeps the lanes whose END is missing or does not
close their frames (R389). -/
def Arb.holdAtClose (a : Arb) : Arb :=
  let a := if a.mask.count = 2 ∧ a.endMajority = none then a.startHold else a
  let ends := a.mask.toList.filter fun x => decide (a.out.endOf x ≠ some (a.out.endExpected x))
  if a.hold.active ∧ a.hold.slot = a.out.slot then
    { a with hold := { a.hold with endBad := ends.foldl (fun m x => m.put x true) LaneSet.empty } }
  else a
/-- Consecutive bad output slots of each member. -/
def Arb.countBad (a : Arb) (bad : List LaneId) : Arb :=
  a.mask.toList.foldl (fun a x => a.modJudge x fun j => { j with badRun := if bad.contains x then j.badRun + 1 else 0 }) a
/-- A lane alone that has been bad in two output slots (R391). -/
def Arb.badAlone (a : Arb) : List LaneId :=
  if a.mask.count = 1 then a.mask.toList.filter fun x => decide (2 ≤ (a.judge x).badRun) else []
/-- The output slot closes at t0 + 45 µs. -/
def State.closeSlot (s : State) : State :=
  let a := s.arb.noteBad.holdAtClose.countBad s.arb.bad
  let t := { s with arb := a }.handoverCheck.onArb fun a => { a with out := { a.out with isOpen := false } }
  t.excludeLanes (a.badAlone.map fun x => (x, 5))

/-! ### The start gate (R464) -/

/-- A stop frame, which every logic publication sends, has matched from two lanes in this output slot. -/
def Arb.logicPassed (a : Arb) : Bool :=
  match a.out.passedOf 256 with
  | none => false
  | some v => decide (2 ≤ (a.mask.toList.filter fun x => a.out.value x 256 == some v).length)
/-- The start gate can open in this slot. -/
def Arb.gateDue (a : Arb) : Bool :=
  a.runs && !a.gateOpen && a.agreed && a.out.isOpen && decide (a.firstSlot.toNat + 5000 ≤ a.slot.toNat) && a.logicPassed
/-- The start gate opens: the values passed in this slot reach their outputs. -/
def Arb.openGate (a : Arb) : Arb :=
  let a := a.reg fun m => fsat (fbool m f_ARB_RSTCAUSE_GATEOPEN true) f_ARB_RSTCAUSE_GATETIME (a.ticks / 200)
  let a := if a.hold.active then a else a.out.passed.reverse.foldl (fun a p => a.drive p.1 p.2) a
  a.irq 5

/-! ### Commands -/

/-- OUTPUT_FRAME (R59, R60, R386, R391). -/
def execOutputFrame (lane : LaneId) (frame : BitVec 64) (s : State) : Host.Outcome State Fault Refusal :=
  .next (s.onArb fun a => a.takeFrame lane frame)
/-- OUTPUT_SLOT_CLOSE (R61, R389, R391, R397). -/
def execOutputSlotClose (s : State) : Host.Outcome State Fault Refusal :=
  .next (if s.arb.runs && s.arb.out.isOpen then s.closeSlot else s)
/-- VPO_QUEUE_PULSE_START (R61, R390): the head pulse of a queue starts when it is due and the outputs are not held. -/
def execVpoQueuePulseStart (out : Nat) (s : State) : Host.Outcome State Fault Refusal :=
  .next (s.onArb fun a =>
    if a.runs && !a.hold.active then { a with vpo := lmod a.vpo out fun q => if q.ready then q.start else q } else a)
/-- VPO_QUEUE_PULSE_END (R61, R390): the output falls w strobes after it rose, in a hold as well. -/
def execVpoQueuePulseEnd (out : Nat) (s : State) : Host.Outcome State Fault Refusal :=
  .next (s.onArb fun a =>
    if a.runs then { a with vpo := lmod a.vpo out fun q => if q.ends then q.fall else q } else a)
/-- START_GATE_OPEN (R464). -/
def execStartGateOpen (s : State) : Host.Outcome State Fault Refusal :=
  .next (if s.arb.gateDue then s.onArb Arb.openGate else s)

end Sys2Proof.Machine
end

