-- ==== Sys2Proof/Machine/Strobe.lean ====
section
/-! DEFINITION. The slot strobe (R22, R40, R129, R351, R369, R393, R403), and the commands on lanes that act with it (R402). -/
namespace Sys2Proof.Machine

/-- Keys of the registers whose shadows each strobe refreshes (Table 15-4). -/
def strobeKeys : List Nat :=
  [0xF00100, 0xF00110, 0xF00114, 0xF00118, 0xF0011C, 0xF00300, 0xF00304, 0xF00308, 0xF0030C, 0xF00310, 0xF00314, 0xF00320]
/-- Entries of a lane that count in the last 24 h (R401). -/
def Arb.entriesNow (a : Arb) (x : LaneId) : Nat :=
  ((a.judge x).entries.filter fun t => decide (a.ticks < t + 1728000000)).length
/-- The fields that show the arbiter's state, and then the shadows of the strobe domain. -/
def Arb.refresh (a : Arb) : Arb :=
  let m := fset (fset a.regs f_ARB_MEMBER_MEMBER a.mask.bits) f_ARB_MEMBER_VOTEMODE a.mask.count
  let m := fbool m f_ARB_OSTAT_HOLDING a.hold.active
  let m := [LaneId.A, .B, .C].foldl (fun m x =>
    let j := a.judge x
    let m := fsat m (laneFld f_ARB_ODISA_WINDOW x) (a.inWindow x).length
    let m := fsat m (laneFld f_ARB_LANESTAT_ENTRIES x) (a.entriesNow x)
    let m := fbool (fbool m (laneFld f_ARB_LANESTAT_MANUAL x) j.manual) (laneFld f_ARB_LANESTAT_MISSED x) j.missed
    fset m (laneFld f_ARB_LANESTAT_STATE x) j.rep.state) m
  { a with regs := m, shadow := strobeKeys.foldl (fun s k => rset s k (rget m k)) a.shadow }

/-! ### Commands on lanes (R402) -/

/-- EXCLUDE: the named lane leaves as MANUAL, unless it does not take part or would leave the mask empty. -/
def State.manualExclude (s : State) (x : LaneId) : State :=
  if !s.arb.nextMask.has x || decide ((s.arb.nextMask.put x false).count = 0) then
    s.onArb fun a => a.reg fun m => fbool m f_ARB_EXCLUDE_REFUSED true
  else (s.onArb fun a => a.reg fun m => fbool m f_ARB_EXCLUDE_REFUSED false).excludeLanes [(x, 7)]
/-- REJOIN: a lane in HALTED goes to SELFTEST at the next strobe, with one entry that does not count. -/
def State.manualRejoin (s : State) (x : LaneId) : State :=
  if (s.lane x).rj = 6 then
    s.onArb fun a => (a.modJudge x fun j => { j with restart := true, permit := true, manual := false }).reg fun m =>
      fbool m f_ARB_REJOIN_REFUSED false
  else s.onArb fun a => a.reg fun m => fbool m f_ARB_REJOIN_REFUSED true
/-- A command of ARB_EXCLUDE or ARB_REJOIN acts; LANE 3 names no lane and is refused. -/
def State.laneCommand (s : State) (c : Nat × Word) : State :=
  if c.1 = f_ARB_EXCLUDE_GO.key then
    match LaneId.ofNum? (c.2.toNat % 4) with
    | some x => s.manualExclude x
    | none => s.onArb fun a => a.reg fun m => fbool m f_ARB_EXCLUDE_REFUSED true
  else if c.1 = f_ARB_REJOIN_GO.key then
    match LaneId.ofNum? (c.2.toNat % 4) with
    | some x => s.manualRejoin x
    | none => s.onArb fun a => a.reg fun m => fbool m f_ARB_REJOIN_REFUSED true
  else s
/-- The commands of one of the arbiter's stalling registers have acted. -/
def Arb.dropCmds (a : Arb) (k : Nat) : Arb := { a with cmds := a.cmds.filter fun c => c.1 != k }
/-- The lane commands that the host has written since the last strobe, in their order (R402). -/
def State.hostCommands (s : State) : State :=
  let s' := s.arb.cmds.foldl State.laneCommand s
  s'.onArb fun a => (a.dropCmds f_ARB_EXCLUDE_GO.key).dropCmds f_ARB_REJOIN_GO.key
/-- The lowest-lettered lane taking part. -/
def State.lead (s : State) : Option LaneId := s.arb.mask.toList.head?
/-- The lane commands of object 0x1100, written since the last strobe. -/
def State.dictCommands (s : State) : State :=
  match s.lead with
  | none => s
  | some x =>
    let ex := (s.lane x).dict.nat 0x1100 5
    let re := (s.lane x).dict.nat 0x1100 6
    let s := match LaneId.ofNum? ex with | some y => s.manualExclude y | none => s
    let s := match LaneId.ofNum? re with | some y => s.manualRejoin y | none => s
    if ex = 0xFF ∧ re = 0xFF then s
    else s.onLanes fun _ l => { l with dict := (l.dict.put 0x1100 5 [0xFF]).put 0x1100 6 [0xFF] }
/-- Rejoin commands act: the lane goes to SELFTEST. -/
def State.restarts (s : State) : State :=
  [LaneId.A, .B, .C].foldl (fun s x =>
    if (s.arb.judge x).restart then
      (s.onLane x fun l => if l.rj = 6 then l.setRj 1 else l).onArb fun a => a.modJudge x fun j => { j with restart := false }
    else s) s

/-! ### What the arbiter copies from the lanes taking part -/

/-- DISK, DISN, the charger settings and TAMPOL as the lanes hold them (R352, R419, Table 13-10). -/
def State.copySettings (s : State) : State :=
  match s.lead with
  | none => s
  | some x =>
    let d := (s.lane x).dict
    let s := s.onArb fun a => a.reg fun m => fset (fset m f_ARB_ROLLCFG_DISK (d.nat 0x1100 1)) f_ARB_ROLLCFG_DISN (d.nat 0x1100 2)
    { s with bak := { s.bak with policy := d.nat 0x1400 1, chEnable := d.flag 0x1330 1, chCell := d.nat 0x1330 2,
                                 chVlimit := d.nat 0x1330 3, chIlimit := d.nat 0x1330 4 } }
/-- Causes of Table 15-7 that agreed events raised in the lanes taking part. -/
def State.collectIrqs (s : State) : State :=
  let mask := s.arb.mask.toList.foldl (fun n x => n ||| (s.lane x).irq) 0
  (s.onArb fun a => a.irqs mask).onLanes fun _ l => { l with irq := 0 }

/-! ### A donor that leaves (R399) -/

/-- Joiner and donor of the rejoin in progress. -/
def Arb.joiner (a : Arb) : LaneId := (LaneId.ofNum? (fget a.regs f_ARB_JOIN_JOINER)).getD .A
def Arb.donor (a : Arb) : LaneId := (LaneId.ofNum? (fget a.regs f_ARB_JOIN_DONOR)).getD .A
/-- Phase of the rejoin in progress, 0 for none. -/
def Arb.phase (a : Arb) : Nat := if a.joining then fget a.regs f_ARB_JOIN_PHASE else 0
/-- The copy of a joiner before its first block. -/
def copy0 : CopyState := { bulk := false, dram := false, passes := 0, factor := false, trailing := false }
/-- The donor fails: the joiner discards what it has received; lane d becomes donor and the copy begins again. -/
def State.donorFails (s : State) (d : LaneId) : State :=
  let s := s.onLane s.arb.joiner fun l => { l.setRj 3 with copy := copy0, handover := false }
  s.onArb fun a =>
    let m := fbump a.regs f_ARB_JOIN_DONORCHG
    let m := fset (fset (fset m f_ARB_JOIN_DONOR d.num) f_ARB_JOIN_PHASE 1) f_ARB_JOIN_PROGRESS 0
    { a with regs := m, dramDone := none }
/-- The next donor when the donor of the rejoin in progress leaves the member mask. -/
def Arb.donorLost (a : Arb) : Option LaneId :=
  if a.joining && !a.nextMask.has a.donor then a.nextMask.toList.head? else none

/-- The donor is replaced when it has left and another lane takes part. -/
def State.replaceDonor (s : State) : State :=
  match s.arb.donorLost with
  | some d => s.donorFails d
  | none => s

/-! ### The strobe -/

/-- The solve word of the strobe (R129). -/
def Arb.solveWord (a : Arb) : SolveWord :=
  match a.solve.next with
  | some (n, r, x) => { minTiles := a.solve.minTiles, verdict := true, solve := n, round := r, source := x }
  | none => { minTiles := a.solve.minTiles, verdict := false, solve := a.strobe.solve.solve, round := 0, source := .A }
/-- What the strobe tells the lanes of the arbiter's own registers. -/
def State.arbCopy (s : State) : ArbCopy :=
  let a := s.arb
  { lanes := [LaneId.A, .B, .C].map fun x =>
      ((a.judge x).rep.state, fget a.regs (laneFld f_ARB_LANESTAT_CAUSE x), min 255 (a.entriesNow x))
    log := s.bak.log, keyReady := a.mask.toList.all fun x => (s.lane x).key.ready
    cause := (rget a.regs f_ARB_RSTCAUSE_POR.key).toNat % 256, hold := fget a.regs f_ARB_RSTHOLD_HOLDSEC, gate := a.gateOpen }
/-- The strobe word. -/
def State.strobeWord (s : State) (first : Bool) : StrobeWord :=
  let a := s.arb
  { mask := a.mask, arbFault := false, tamper := s.bak.active,
    joiner := a.joiner, donor := a.donor, joinPhase := a.phase
    first := first, sync := decide (2 ≤ (a.mask.toList.filter fun x => (s.lane x).time.locked).length)
    solve := a.solveWord, island := a.islWord, arb := s.arbCopy }
/-- Tamper entries are acted on by a strobe that carries the active state to running lanes. -/
def Backup.acted (b : Backup) : Backup := { b with log := b.log.map fun e => e.map fun x => { x with acted := true } }
/-- The arbiter in its fault state: the strobe repeats the mask and the solve word of the trip (R403). -/
def State.faultStrobe (s : State) : State :=
  s.onArb fun a =>
    { a with ticks := a.ticks + 1, slot := if a.agreed then a.slot + 1 else a.slot,
             strobe := { a.strobe with arbFault := true, tamper := s.bak.active, first := false, joinPhase := 0, island := a.islWord } }
/-- The mask of a new slot, its output slot, the pulse outputs and the end of a hold whose decision has been taken. -/
def Arb.nextSlot (a : Arb) : Arb :=
  let new := if a.agreeNext then a.ready else a.nextMask
  let changed := decide (new ≠ a.mask)
  let slot := if a.agreed then a.slot + 1 else a.slot
  let a := { a with
    ticks := a.ticks + 1, slot := slot, mask := new, nextMask := new, vpo := a.vpo.map VpoQ.tick,
    out := { slot := BitVec.ofNat 16 slot.toNat, isOpen := a.agreed && decide (0 < new.count), frames := [], passed := [] },
    hold := if a.hold.active && !a.hold.snap then { a.hold with active := false } else a.hold }
  if changed then a.irq 3 else a
/-- The arbiter sends the word w; tamper entries are acted on by a strobe that carries the active state to running lanes. -/
def State.sendStrobe (s : State) (w : StrobeWord) : State :=
  let s := s.onArb fun a => { a with strobe := w, agreeNext := false, solve := { a.solve with next := none } }
  let s := if w.tamper && s.arb.agreed && decide (0 < w.mask.count) then { s with bak := s.bak.acted } else s
  s.onArb Arb.refresh
/-- What the arbiter does before the mask of the new slot: the lanes' commands, settings and causes, and a lost donor. -/
def State.beforeStrobe (s : State) : State := s.hostCommands.dictCommands.restarts.copySettings.collectIrqs.replaceDonor
/-- The new slot, with its word: first says that first agreement is at this strobe. -/
def State.newSlot (s : State) (first : Bool) : State :=
  let s := s.onArb Arb.nextSlot
  s.sendStrobe (s.strobeWord first)
/-- The arbiter issues a slot strobe. -/
def State.issueStrobe (s : State) : State :=
  if s.arb.fault then s.faultStrobe
  else
    let s := s.beforeStrobe
    s.newSlot s.arb.agreeNext

/-! ### Commands -/

/-- EXCLUDE_COMMAND (R402). -/
def execExcludeCommand (lane : LaneId) (s : State) : Host.Outcome State Fault Refusal :=
  .next (if s.arb.runs then (s.manualExclude lane).onArb fun a => a.dropCmds f_ARB_EXCLUDE_GO.key else s)
/-- REJOIN_COMMAND (R402). -/
def execRejoinCommand (lane : LaneId) (s : State) : Host.Outcome State Fault Refusal :=
  .next (if s.arb.runs then (s.manualRejoin lane).onArb fun a => a.dropCmds f_ARB_REJOIN_GO.key else s)
/-- DONOR_FAIL (R399): the donor has left the member mask and another lane takes part. -/
def execDonorFail (s : State) : Host.Outcome State Fault Refusal :=
  .next (if s.arb.runs then s.replaceDonor else s)

end Sys2Proof.Machine
end

