-- ==== Sys2Proof/Machine/HostPort.lean ====
section
/-! DEFINITION. The host port: decoding of BAR0 and BAR2, bus errors, byte enables, the voted and the lane views, the
arbiter and safety windows, MSI-X, and stalled accesses (R36, R64 to R67, R427 to R450, R455, R457). -/
namespace Sys2Proof.Machine

/-! ### Decoding (R430 to R434, R451) -/

/-- What one doubleword of a request addresses. View 0 is the voted view, 1 to 3 are the views of lanes A to C. -/
inductive Place where
  | laneReg (view key : Nat)
  | laneMem (view off : Nat)
  | arbReg (key : Nat)
  | msix (k : Nat)
  | safe (key : Nat)
  | h2d (o : Nat)
  | d2h (o : Nat)
  | mbx (key : Nat)
  | noReg
  | unassigned
deriving DecidableEq, Repr

/-- A key of the register table. -/
def isReg (k : Nat) : Bool := (regDesc? k).isSome
/-- The memory windows of a view (Table 15-2): first and last offset. -/
def memWindows : List (Nat × Nat) :=
  [(0x100000, 0x13FFFF), (0x140000, 0x23FFFF), (0x400000, 0x5FFFFF), (0x600000, 0x63FFFF), (0x640000, 0x67FFFF),
   (0x700000, 0x8FFFFF)]
/-- The memory window that holds an offset. -/
def memWindow (off : Nat) : Option (Nat × Nat) := memWindows.find? fun w => decide (w.1 ≤ off) && decide (off ≤ w.2)
/-- Key of an offset in the unit windows: KEY and RTC decode strictly, the others alias (R432, R433). -/
def unitKey (off : Nat) : Nat :=
  if off / 65536 = 11 ∨ off / 65536 = 14 then off else off / 65536 * 65536 + off % 4096
/-- Place of an offset of the arbiter window, with the MSI-X table and PBA. -/
def arbPlace (off : Nat) : Place :=
  if 0xF10000 ≤ off ∧ off < 0xF10400 then .msix (off - 0xF10000)
  else if 0xF11000 ≤ off ∧ off < 0xF11008 then .msix (0x1000 + (off - 0xF11000))
  else if isReg off then .arbReg off else .noReg
/-- Place of a doubleword of BAR0. -/
def bar0Place (a : Nat) : Place :=
  let view := a / 0x1000000
  let off := a % 0x1000000
  if 3 < view then .unassigned
  else if off < 0x100000 then (if isReg (unitKey off) then .laneReg view (unitKey off) else .noReg)
  else if (memWindow off).isSome then .laneMem view off
  else if view = 0 ∧ 0xF80000 ≤ off then (if isReg off then .safe off else .noReg)
  else if view = 0 ∧ 0xF00000 ≤ off then arbPlace off
  else .unassigned
/-- Place of a doubleword of BAR2. -/
def bar2Place (a : Nat) : Place :=
  if a < 0x4000 then .h2d a else if a < 0xC000 then .d2h (a - 0x4000)
  else if isReg (0x1000000 + a) then .mbx (0x1000000 + a) else .unassigned

/-- A request the endpoint can receive: whole doublewords inside its BAR, with data for a write. -/
def reqFits (r : HostReq) (write : Bool) : Bool :=
  decide (r.addr % 4 = 0) && decide (0 < r.dws) && decide (r.dws ≤ 1024)
  && decide (r.addr + 4 * r.dws ≤ if r.bar2 then 0x10000 else 0x4000000) && (!write || decide (r.data.length = r.dws))
/-- Place of doubleword i. -/
def reqPlace (r : HostReq) (i : Nat) : Place :=
  if r.bar2 then bar2Place (r.addr + 4 * i) else bar0Place (r.addr + 4 * i)
/-- Byte enables of doubleword i. -/
def reqBe (r : HostReq) (i : Nat) : BitVec 4 :=
  if i = 0 then r.fbe else if i + 1 = r.dws then r.lbe else 15
/-- The places of a request with their byte enables. -/
def reqPlaces (r : HostReq) : List (Place × BitVec 4) := (List.range r.dws).map fun i => (reqPlace r i, reqBe r i)

/-! ### Bus errors (R434 to R440, R453, R457, Table 15-3) -/

/-- The enabled bytes form one run, and a long request has none missing inside (R440). -/
def reqRunOk (r : HostReq) : Bool :=
  if r.dws = 1 then [1, 2, 3, 4, 6, 7, 8, 12, 14, 15].contains r.fbe.toNat
  else [8, 12, 14, 15].contains r.fbe.toNat && [1, 3, 7, 15].contains r.lbe.toNat
/-- The request is no longer than its place allows (R436, R437). -/
def reqLengthOk (r : HostReq) : Bool :=
  match reqPlace r 0 with
  | .laneMem _ o =>
    (memWindow o).any fun w => decide (r.dws ≤ 64) && decide (o + 4 * r.dws ≤ w.2 + 1)
  | .h2d _ | .d2h _ => decide (r.dws ≤ 64) && decide (r.addr + 4 * r.dws ≤ 0xC000)
  | .mbx _ => decide (r.dws = 1)
  | _ => decide (r.dws ≤ 2)
/-- The slot of a byte of the host-to-device ring is in use (R453). -/
def Arb.slotBusy (a : Arb) (o : Nat) : Bool :=
  let c := fget a.regs f_ARB_MBXH2DC_CONS
  (List.range ((fget a.regs f_ARB_MBXH2DP_PROD + 256 - c) % 256)).any fun i => (c + i) % 8 == o / 2048
/-- A write that its place refuses as read-only. -/
def Place.readOnly (p : Place) : Bool :=
  match p with
  | .laneMem _ _ | .d2h _ => true
  | .safe k => k != f_SAFE_HOSTREQ_REQ.key
  | _ => false
/-- An MSI-X access that is neither a doubleword nor an aligned pair of them. -/
def reqMsixBad (r : HostReq) : Bool :=
  ((reqPlaces r).any fun p => match p.1 with | .msix _ => true | _ => false)
  && !(if r.dws = 1 then r.fbe == 15 else decide (r.addr % 8 = 0) && r.fbe == 15 && r.lbe == 15)
/-- A register with a whole-word field takes no narrower write. -/
def Place.narrow (p : Place) (be : BitVec 4) : Bool :=
  match p with
  | .laneReg _ k | .arbReg k | .safe k | .mbx k => wholeWord k && be != 15
  | _ => false
/-- The cause of a bus error, where the request is one (Table 15-3). -/
def Arb.busError (a : Arb) (r : HostReq) (write : Bool) : Option Nat :=
  let ps := (reqPlaces r)
  if write && a.fault then some 7
  else if ps.any (fun p => p.1 == .unassigned) then some 2
  else if !(reqLengthOk r) then some 6
  else if !(reqRunOk r) then some 4
  else if write && ps.any (fun p => match p.1 with | .laneMem _ _ => true | _ => false) then some 5
  else if ps.any (fun p => p.1 == .noReg) then some 1
  else if write && ps.any (fun p => p.1.readOnly) then some 5
  else if (reqMsixBad r) then some 9
  else if write && ps.any (fun p => p.1.narrow p.2) then some 3
  else if write && ps.any (fun p => match p.1 with | .h2d o => a.slotBusy o | _ => false) then some 8
  else none
/-- The request touches the MSI-X table or the PBA. -/
def reqSpace (r : HostReq) : Nat :=
  if r.bar2 then 1 else match reqPlace r 0 with | .msix _ => 2 | _ => 0
/-- A bus error is counted, and captured when RERR and WERR are both clear; a write raises cause 0 (R435). After a
comparator trip the window stays as it was (R457). -/
def Arb.countError (a : Arb) (r : HostReq) (write : Bool) (cause : Nat) : Arb :=
  if a.fault then a
  else
    let m := a.regs
    let m :=
      if fget m f_ARB_HERR_RERR = 0 ∧ fget m f_ARB_HERR_WERR = 0 then
        let m := fset (fset m f_ARB_HERRADDR_SPACE (reqSpace r)) f_ARB_HERRADDR_ADDR r.addr
        let m := fset (fbool (fset m f_ARB_HERRINFO_CAUSE cause) f_ARB_HERRINFO_WRITE write) f_ARB_HERRINFO_LEN r.dws
        fset (fset m f_ARB_HERRINFO_LASTBE (if r.dws = 1 then 0 else r.lbe.toNat)) f_ARB_HERRINFO_FIRSTBE r.fbe.toNat
      else m
    if write then { a with regs := fflag (fbump m f_ARB_HERR_WERRCNT) f_ARB_HERR_WERR }.irq 0
    else { a with regs := fflag (fbump m f_ARB_HERR_RERRCNT) f_ARB_HERR_RERR }

/-! ### The default completion (R444) -/

/-- The lane answers host accesses to these places: in reset or without FABLOCK it does not, in SELFTEST LCTL alone does. -/
def Lane.answers (l : Lane) (ps : List (Place × BitVec 4)) : Bool :=
  l.life != .held && fget l.regs f_LCTL_CLKSTAT_FABLOCK == 1
  && (l.rj != 1 || ps.all fun p => match p.1 with | .laneReg _ k => decide (k < 65536) | _ => false)
/-- An access served by the default completion is counted. -/
def Arb.countDefault (a : Arb) : Arb :=
  if a.fault then a else { a with regs := fflag (fbump a.regs f_ARB_HERR_RSTCNT) f_ARB_HERR_LANERST }
/-- 0xFF in every enabled byte. -/
def defaultData (ps : List (Place × BitVec 4)) : List Word := ps.map fun p => beMask p.2
/-- The enabled bytes of read data. -/
def maskData (ps : List (Place × BitVec 4)) (vs : List Word) : List Word := (ps.zip vs).map fun x => x.2 &&& beMask x.1.2

/-! ### Reads of a lane -/

/-- One doubleword of a lane. -/
def Lane.readPlace (l : Lane) (me : LaneId) (p : Place) (be : BitVec 4) (fab : Nat) : Lane × Word :=
  match p with
  | .laneReg _ k => l.regRead me k be fab
  | .laneMem _ o => (l, l.windowWord me o)
  | _ => (l, 0)
/-- Doublewords of a lane in ascending order. -/
def Lane.readPlaces (l : Lane) (me : LaneId) (fab : Nat) : List (Place × BitVec 4) → Lane × List Word
  | [] => (l, [])
  | p :: ps =>
    let r := l.readPlace me p.1 p.2 fab
    let t := r.1.readPlaces me fab ps
    (t.1, r.2 :: t.2)
/-- A read request at a lane. -/
def Lane.hostRead (l : Lane) (me : LaneId) (fab : Nat) (ps : List (Place × BitVec 4)) : Lane × List Word :=
  match ps with
  | [(.laneReg _ k1, b1), (.laneReg _ k2, b2)] => l.regRead2 me k1 k2 b1 b2 fab
  | _ => l.readPlaces me fab ps

/-- A lane-view read (R444). -/
def State.laneRead (s : State) (x : LaneId) (fab : Nat) (ps : List (Place × BitVec 4)) : State × List Word :=
  if (s.lane x).answers ps then
    let r := (s.lane x).hostRead x fab ps
    (s.setLane x r.1, maskData ps r.2)
  else (s.onArb Arb.countDefault, defaultData ps)

/-! ### The voted view (R36, R64, R65, R442, R457) -/

/-- LANE of LCTL_IDENT reads 0b11 through the voted view. -/
def identMerge (ps : List (Place × BitVec 4)) (vs : List Word) : List Word :=
  (ps.zip vs).map fun x => if x.1.1 = .laneReg 0 0 then (x.2 ||| 3) &&& beMask x.1.2 else x.2
/-- The value of one lane in a voted read; none where the lane does not answer. -/
def State.voteRead (s : State) (x : LaneId) (fab : Nat) (ps : List (Place × BitVec 4)) : State × Option (List Word) :=
  if (s.lane x).answers ps then
    let r := (s.lane x).hostRead x fab ps
    (s.setLane x r.1, some (identMerge ps (maskData ps r.2)))
  else (s, none)
/-- The values of several lanes. -/
def State.voteReads (s : State) (fab : Nat) (ps : List (Place × BitVec 4)) :
    List LaneId → State × List (LaneId × Option (List Word))
  | [] => (s, [])
  | x :: xs =>
    let r := s.voteRead x fab ps
    let t := r.1.voteReads fab ps xs
    (t.1, (x, r.2) :: t.2)
/-- The voted value (R64): with three lanes one that two return, else that of the lowest-lettered lane that answered. -/
def voteValue (n : Nat) (vs : List (LaneId × Option (List Word))) : Option (List Word) :=
  let got := vs.filterMap (·.2)
  match (if n = 3 then got.find? fun v => decide (2 ≤ got.count v) else none) with
  | some v => some v
  | none => got.head?
/-- Lanes that returned another value or none set MISMATCH and MISLANE; the first such read is captured. -/
def Arb.mismatch (a : Arb) (addr : Nat) (bad : List LaneId) : Arb :=
  if bad.isEmpty then a
  else
    let m := if fget a.regs f_ARB_VSTAT_MISMATCH = 0 then fset a.regs f_ARB_VMISADDR_ADDR addr else a.regs
    let m := fbump (fflag m f_ARB_VSTAT_MISMATCH) f_ARB_VSTAT_MISCNT
    { a with regs := bad.foldl (fun m x => forBits m f_ARB_VSTAT_MISLANE (2 ^ x.num)) m }
/-- A voted-view read of a lane unit or a memory window. -/
def State.votedRead (s : State) (addr fab : Nat) (ps : List (Place × BitVec 4)) : State × List Word :=
  let xs := if s.arb.fault then s.arb.mask.toList.take 1 else s.arb.mask.toList
  let r := s.voteReads fab ps xs
  match voteValue xs.length r.2 with
  | none => (r.1.onArb Arb.countDefault, defaultData ps)
  | some v => (r.1.onArb fun a => a.mismatch addr ((r.2.filter fun p => p.2 != some v).map (·.1)), v)

/-! ### The arbiter and the safety window (R445, R446, R457) -/

/-- The mask of a register's SH bits. -/
def shMask (k : Nat) : Word := match regDesc? k with | some d => d.mask fun f => f.sh | none => 0
/-- Voted-view writes wait in a lane taking part (R443). -/
def State.wpend (s : State) : Bool := s.arb.mask.toList.any fun x => !(s.lane x).vw.isEmpty
/-- Registers of the arbiter with the fields that show state. -/
def State.arbView (s : State) : RegMap :=
  let a := s.arb
  let d := (fget a.regs f_ARB_MBXD2HP_PROD + 256 - fget a.regs f_ARB_MBXD2HC_CONS) % 256
  let m := fbool a.regs f_ARB_HERR_WPEND s.wpend
  let m := fset (fbool m f_ARB_MBXSTAT_D2HFULL (decide (16 ≤ d))) f_ARB_MBXSTAT_HELD a.mbx.held.length
  fbool m f_ARB_MBXSTAT_ACTIVE (decide (0 < a.mask.count))
/-- A register of the arbiter or mailbox as a read shows it. -/
def State.arbWord (s : State) (k : Nat) : Word :=
  ((rget s.arb.shadow k &&& shMask k) ||| (rget s.arbView k &&& ~~~(shMask k))) &&& readMask k
/-- What a read sends to the source of a shadowed register: counters lose the value returned, flags the bits returned. -/
def sourceClear (flags : Bool) (k : Nat) (ret : Word) (m : RegMap) : RegMap :=
  match regDesc? k with
  | none => m
  | some d =>
    d.fields.foldl (fun m f =>
      if f.acc = .rc ∧ f.sh = true then
        let fld : Fld := ⟨k, f.hi, f.lo⟩
        let v := ret.toNat / 2 ^ f.lo % 2 ^ (f.hi + 1 - f.lo)
        if flags then fset m fld ((fget m fld) &&& (2 ^ (f.hi + 1 - f.lo) - 1 - v)) else fset m fld (fget m fld - v)
      else m) m
/-- ARB_TAMPSTAT's clears reach the backup domain. -/
def Backup.readClear (b : Backup) (ret : Word) : Backup :=
  { b with lost := b.lost - ret.toNat / 2 ^ 28, event := b.event && !ret.getLsbD 1 }
/-- A read of an arbiter register clears the RC bits of its enabled byte lanes. -/
def State.arbClears (s : State) (k : Nat) (be : BitVec 4) : State :=
  if s.arb.fault then s
  else
    let clr := rcMask k &&& beMask be
    let ret := rget s.arb.shadow k &&& clr &&& shMask k
    let s := s.onArb fun a =>
      { a with shadow := rset a.shadow k (rget a.shadow k &&& ~~~ret)
               regs := sourceClear false k ret (rset a.regs k (rget a.regs k &&& ~~~(clr &&& ~~~(shMask k)))) }
    if k = f_ARB_TAMPSTAT_LOST.key then { s with bak := s.bak.readClear ret } else s
/-- A read of a safety island register. -/
def State.safeRead (s : State) (k : Nat) (be : BitVec 4) : State × Word :=
  if k = f_SAFE_HOSTREQ_REQ.key then (s, rget s.arb.regs k)
  else
    let w := rget s.isl.shadow k
    let ret := w &&& rcMask k &&& beMask be
    let flags := k == f_SAFE_STAT_CFGVIOL.key || k == f_SAFE_FAULT_FAULTNEW.key
    if s.arb.fault then (s, w)
    else ({ s with isl := { s.isl with shadow := rset s.isl.shadow k (w &&& ~~~ret)
                                       regs := sourceClear flags k ret s.isl.regs } }, w)
/-- A doubleword of four bytes. -/
def wordOf (f : Nat → Byte) : Word := BitVec.ofNat 32 (leNat ((List.range 4).map f))
/-- One doubleword outside the lanes. -/
def State.readPlace (s : State) (p : Place) (be : BitVec 4) : State × Word :=
  match p with
  | .arbReg k | .mbx k => (s.arbClears k be, s.arbWord k)
  | .msix k => (s, wordOf fun i => s.arb.msixByte (k + i))
  | .safe k => s.safeRead k be
  | .h2d o => (s, wordOf fun i => bget s.arb.mbx.h2d (o + i))
  | .d2h o => (s, wordOf fun i => bget s.arb.mbx.d2h (o + i))
  | _ => (s, 0)
/-- Doublewords outside the lanes in ascending order. -/
def State.readPlaces (s : State) : List (Place × BitVec 4) → State × List Word
  | [] => (s, [])
  | p :: ps =>
    let r := s.readPlace p.1 p.2
    let t := r.1.readPlaces ps
    (t.1, r.2 :: t.2)

/-- A read request that is no bus error. -/
def State.readReq (s : State) (r : HostReq) (fab : Nat) : State × List Word :=
  let ps := (reqPlaces r)
  match reqPlace r 0 with
  | .laneReg 0 _ | .laneMem 0 _ => s.votedRead r.addr fab ps
  | .laneReg v _ | .laneMem v _ =>
    (match LaneId.ofNum? (v - 1) with | some x => s.laneRead x fab ps | none => (s, defaultData ps))
  | _ =>
    let t := s.readPlaces ps
    (t.1, maskData ps t.2)

/-! ### Writes -/

/-- The registers whose command a lane carries out in its own RTC domain. -/
def rtcCommand (k : Nat) : Bool := k == f_RTC_SNAP_SNAP.key || k == f_RTC_SETCMD_SETTIME.key
/-- The lane registers whose writes stall, and those of the arbiter: the ST registers of Table 15-5. -/
def stalls (k : Nat) : Bool := rtcCommand k || k == f_KEY_CMD_OP.key || k == f_NVM_CMD_COMMIT.key
def arbStalls (k : Nat) : Bool := k == f_ARB_EXCLUDE_GO.key || k == f_ARB_REJOIN_GO.key || k == f_ARB_TAMPACK_CLEARLOG.key
/-- A write at a lane: at once through its own view, at step 1 of the next slot through the voted view (R66, R67). -/
def Lane.hostWrite (l : Lane) (voted : Bool) (ws : List ((Place × BitVec 4) × Word)) : Lane :=
  ws.foldl (fun l w =>
    match w.1.1 with
    | .laneReg _ k =>
      if voted && !rtcCommand k then { l with vw := l.vw ++ [{ key := k, data := w.2, be := w.1.2, due := false }] }
      else l.regWrite k w.2 w.1.2
    | _ => l) l
/-- A cause that was not enabled before and is now, and whose bit is set, signals. -/
def Arb.signalNew (old : Nat) (a : Arb) (v : Nat) : Arb :=
  if (fget a.regs f_ARB_IRQEN_EN).testBit v && !old.testBit v && (fget a.regs f_ARB_IRQSTAT_CAUSE).testBit v then a.signal v
  else a
/-- Newly enabled causes whose bits are set signal once (R455). -/
def Arb.enableIrqs (a : Arb) (w : Word) (be : BitVec 4) : Arb :=
  (List.range 13).foldl (Arb.signalNew (fget a.regs f_ARB_IRQEN_EN)) { a with regs := regMerge a.regs f_ARB_IRQEN_EN.key w be }
/-- The four bytes of a doubleword of the MSI-X table. -/
def Arb.msixStore (a : Arb) (k : Nat) (w : Word) : Arb :=
  [0, 1, 2, 3].foldl (fun a i => a.msixPut (k + i) (BitVec.ofNat 8 (w.toNat / 256 ^ i))) a
/-- A doubleword of the MSI-X table or PBA: the PBA is read-only; an unmasked vector that waits is sent. -/
def Arb.msixWrite (a : Arb) (k : Nat) (w : Word) : Arb :=
  if 1024 ≤ k then a
  else
    let w := if k % 16 = 0 then w &&& 0xFFFFFFFC else if k % 16 = 12 then w &&& 1 else w
    let a := a.msixStore k w
    let v := k / 16
    if k % 16 = 12 && !w.getLsbD 0 && (a.msixByte (0x1000 + v / 8)).getLsbD (v % 8) then
      let a := a.msixPut (0x1000 + v / 8) (a.msixByte (0x1000 + v / 8) &&& ~~~(BitVec.ofNat 8 (2 ^ (v % 8))))
      { a with msi := a.msi ++ [v] }
    else a
/-- A write starts the command of its register: GO of a lane command, CLEARLOG. -/
def arbGo (k : Nat) (w : Word) : Bool := if k = f_ARB_TAMPACK_CLEARLOG.key then w.getLsbD 0 else w.getLsbD 31
/-- A write of an arbiter register; a command that stalls waits for its domain (R402, R447). -/
def State.arbWrite (s : State) (k : Nat) (w : Word) (be : BitVec 4) : State :=
  if k = f_ARB_IRQEN_EN.key then s.onArb fun a => a.enableIrqs w be
  else if arbStalls k then (if arbGo k w then s.onArb fun a => { a with cmds := a.cmds ++ [(k, w)] } else s)
  else s.onArb fun a => a.reg fun m => regMerge m k w be

end Sys2Proof.Machine
end

