-- ==== Sys2Proof/Machine/Mailbox.lean ====
section
/-! DEFINITION. The dictionary mailbox of BAR2 (R310, R311, R451 to R454). -/
namespace Sys2Proof.Machine

/-- The two lowest bytes of a slot give the length of its message (R451). -/
def slotLength (m : NMap Byte) (base : Nat) : Nat := leNat (bgetN m base 2)

/-! ### Host to device (R452, R453) -/

/-- The arbiter takes the slot at CONS: a message of a legal length is handed to every lane taking part. -/
def State.takeSlot (s : State) : State :=
  let a := s.arb
  let c := fget a.regs f_ARB_MBXH2DC_CONS
  let base := c % 8 * 2048
  let n := slotLength a.mbx.h2d base
  let s :=
    if n < 44 ∨ 1400 < n then s.onArb fun a => a.reg fun m => fflag m f_ARB_MBXSTAT_LENERR
    else
      let f : RxFrame := { port := 0xFF, addr := 0, uport := 0, substation := false, bytes := bgetN a.mbx.h2d (base + 4) n }
      s.onSet a.mask fun _ l => l.rxEnqueue f
  s.onArb fun a => (a.reg fun m => fset m f_ARB_MBXH2DC_CONS (c + 1)).irq 2
/-- Every slot from CONS to PROD − 1 in order, while a lane takes part. -/
def State.takeSlots (s : State) : State :=
  if s.arb.runs && decide (0 < s.arb.mask.count) then
    (List.range ((fget s.arb.regs f_ARB_MBXH2DP_PROD + 256 - fget s.arb.regs f_ARB_MBXH2DC_CONS) % 256)).foldl
      (fun s _ => s.takeSlot) s
  else s
/-- A write of ARB_MBXH2DP: at most 8 ahead of CONS and not behind it, or ignored with IDXERR. -/
def State.writeH2dProd (s : State) (w : Word) (be : BitVec 4) : State :=
  let p := w.toNat % 256
  if !be.getLsbD 0 then s
  else
    let d (x : Nat) : Nat := (x + 256 - fget s.arb.regs f_ARB_MBXH2DC_CONS) % 256
    if 8 < d p then s.onArb fun a => a.reg fun m => fflag m f_ARB_MBXSTAT_IDXERR
    else (s.onArb fun a => a.reg fun m => fset m f_ARB_MBXH2DP_PROD p).takeSlots

/-! ### Device to host (R310, R311, R454) -/

/-- A message goes into slot PROD mod 16, or is held behind a full ring, or is dropped. -/
def Arb.placeMessage (a : Arb) (b : Bytes) : Arb :=
  let p := fget a.regs f_ARB_MBXD2HP_PROD
  if 16 ≤ (p + 256 - fget a.regs f_ARB_MBXD2HC_CONS) % 256 then
    if a.mbx.held.length < 16 then { a with mbx := { a.mbx with held := a.mbx.held ++ [b] } }
    else a.reg fun m => fbump m f_ARB_MBXSTAT_D2HDROP
  else
    let slot := leBytes 2 b.length ++ zeros 2 ++ b
    let a := { a with mbx := { a.mbx with d2h := bsetN a.mbx.d2h (p % 16 * 2048) (fit 2048 slot) } }
    (a.reg fun m => fset m f_ARB_MBXD2HP_PROD (p + 1)).irq 1
/-- Held messages in order. -/
def Arb.placeHeld (a : Arb) : Arb :=
  a.mbx.held.foldl Arb.placeMessage { a with mbx := { a.mbx with held := [] } }
/-- A write of ARB_MBXD2HC: a value from CONS to PROD, or ignored with IDXERR. -/
def Arb.writeD2hCons (a : Arb) (w : Word) (be : BitVec 4) : Arb :=
  let v := w.toNat % 256
  let c := fget a.regs f_ARB_MBXD2HC_CONS
  if !be.getLsbD 0 then a
  else if (fget a.regs f_ARB_MBXD2HP_PROD + 256 - c) % 256 < (v + 256 - c) % 256 then
    a.reg fun m => fflag m f_ARB_MBXSTAT_IDXERR
  else (a.reg fun m => fset m f_ARB_MBXD2HC_CONS v).placeHeld

/-- SESSION, SEQUENCE and EPOCH of a message. -/
def messageId (b : Bytes) : Bytes := slice b 1 1 ++ slice b 4 6
/-- A message with LANE masked. -/
def laneMasked (b : Bytes) : Bytes := b.set 12 0
/-- A message is done with: the copies that have come, and the late ones to discard. -/
def Mailbox.close (m : Mailbox) (ident : Bytes) (lanes : List LaneId) : Mailbox :=
  { m with copies := m.copies.filter fun c => !(messageId c.bytes == ident), closed := m.closed ++ [(ident, lanes)] }
/-- Messages of which every lane taking part has sent its copy need no memory. -/
def Mailbox.prune (m : Mailbox) (mask : LaneSet) : Mailbox :=
  { m with closed := m.closed.filter fun e => mask.toList.any fun x => !e.2.contains x }
/-- A lane's copy of a message that is closed and has not had that lane's copy yet. -/
def Mailbox.late (m : Mailbox) (x : LaneId) (ident : Bytes) : Bool :=
  m.closed.any fun e => e.1 == ident && !e.2.contains x
/-- The arbiter receives a copy: it places the first copy that one of a second lane matches (R310). -/
def Arb.mailboxCopy (a : Arb) (x : LaneId) (b : Bytes) : Arb :=
  let ident := messageId b
  if a.mask.count = 1 then a.placeMessage b
  else if a.mbx.late x ident then
    let closed := a.mbx.closed.map fun e => if e.1 == ident then (e.1, e.2 ++ [x]) else e
    { a with mbx := { a.mbx with closed := closed }.prune a.mask }
  else
    match a.mbx.copies.find? fun c => decide (c.lane ≠ x) && laneMasked c.bytes == laneMasked b with
    | none => { a with mbx := { a.mbx with copies := a.mbx.copies ++ [{ lane := x, bytes := b }] } }
    | some first =>
      let lanes := x :: (a.mbx.copies.filter fun c => messageId c.bytes == ident).map (·.lane)
      ({ a with mbx := (a.mbx.close ident lanes).prune a.mask }).placeMessage first.bytes
/-- The oldest message without a match 1 ms after its first copy: every copy is discarded and counted (R311). -/
def Arb.copyTimeout (a : Arb) : Arb :=
  match a.mbx.copies with
  | [] => a
  | c :: _ =>
    let ident := messageId c.bytes
    let lanes := (a.mbx.copies.filter fun x => messageId x.bytes == ident).map (·.lane)
    let sole := a.mbx.copies.find? fun x => messageId x.bytes == ident && a.mask.has x.lane
    let b := { a with mbx := (a.mbx.close ident lanes).prune a.mask }
    if a.mask.count = 1 then (match sole with | some x => b.placeMessage x.bytes | none => b)
    else if a.mask.count = 0 then b
    else (b.reg fun m => fbump m f_ARB_MBXSTAT_D2HMISM).irq 0

end Sys2Proof.Machine
end

