-- ==== Sys2Proof/Machine/HostAccess.lean ====
section
/-! DEFINITION. A host access from its arrival to its completion, with stalled accesses and those that wait behind them
(R435, R438, R444, R447, R448). -/
namespace Sys2Proof.Machine

/-! ### Writes -/

/-- One doubleword outside the lanes. -/
def State.writePlace (s : State) (p : Place) (be : BitVec 4) (w : Word) : State :=
  match p with
  | .arbReg k => s.arbWrite k w be
  | .msix k => s.onArb fun a => a.msixWrite k w
  | .safe k => s.onArb fun a => a.reg fun m => regMerge m k w be
  | .h2d o => s.onArb fun a =>
      { a with mbx := { a.mbx with h2d := (List.range 4).foldl (fun m i =>
          if be.getLsbD i then bset m (o + i) (BitVec.ofNat 8 (w.toNat / 256 ^ i)) else m) a.mbx.h2d } }
  | .mbx k =>
    if k = f_ARB_MBXH2DP_PROD.key then s.writeH2dProd w be
    else if k = f_ARB_MBXD2HC_CONS.key then s.onArb fun a => a.writeD2hCons w be
    else s
  | _ => s
/-- The lanes a lane-unit write is for that answer. -/
def State.writeLanes (s : State) (view : Nat) (ps : List (Place × BitVec 4)) : List LaneId :=
  let xs := if view = 0 then s.arb.mask.toList else (LaneId.ofNum? (view - 1)).toList
  xs.filter fun x => (s.lane x).answers ps
/-- Keys of the lane registers of a request. -/
def reqKeys (r : HostReq) : List Nat := (reqPlaces r).filterMap fun p => match p.1 with | .laneReg _ k => some k | _ => none
/-- A write of lane registers; one to a stalling register leaves the access open (R447). -/
def State.writeUnits (s : State) (r : HostReq) (view : Nat) : State :=
  let ps := reqPlaces r
  let xs := s.writeLanes view ps
  if xs.isEmpty then s.onArb Arb.countDefault
  else
    let s := xs.foldl (fun s x => s.onLane x fun l => l.hostWrite (view == 0) (ps.zip r.data)) s
    if (reqKeys r).any stalls then
      s.onArb fun a => { a with stall := some { req := r, lanes := xs, total := xs.length, member := xs.any a.mask.has } }
    else s
/-- Keys of the arbiter's stalling registers of a request. -/
def reqCmdKeys (r : HostReq) : List Nat :=
  (reqPlaces r).filterMap fun p => match p.1 with | .arbReg k => if arbStalls k then some k else none | _ => none
/-- The commands of a request that have not acted yet. -/
def Arb.waits (a : Arb) (r : HostReq) : Bool := a.cmds.any fun c => (reqCmdKeys r).contains c.1
/-- A write outside the lanes; one that starts a stalling command leaves the access open (R447). -/
def State.writeOuter (s : State) (r : HostReq) : State :=
  let s := ((reqPlaces r).zip r.data).foldl (fun s w => s.writePlace w.1.1 w.1.2 w.2) s
  if s.arb.waits r then s.onArb fun a => { a with stall := some { req := r, lanes := [], total := 0, member := false } } else s
/-- A write request that is no bus error. -/
def State.writeReq (s : State) (r : HostReq) : State :=
  match reqPlace r 0 with
  | .laneReg v _ => s.writeUnits r v
  | _ => s.writeOuter r

/-! ### Stalled accesses (R447, R448) -/

/-- The class 1 commit that was asked for has been reserved, or queued behind the one that runs (R469, Table 15-5). -/
def Lane.commitReserved (l : Lane) : Bool :=
  match l.nvm.dict.busy with
  | none => !l.nvm.dict.queued
  | some _ => l.nvm.dict.queued || l.nvm.retag.isNone
/-- A lane has completed a stalled write: its RTC commands have acted, its host key job has ended, its commit has been
reserved, and its voted-view writes have been applied. -/
def Lane.stallDone (l : Lane) (keys : List Nat) : Bool :=
  (!keys.contains f_RTC_SNAP_SNAP.key || !l.rtc.acts.contains .snap)
  && (!keys.contains f_RTC_SETCMD_SETTIME.key || !l.rtc.acts.any fun a => match a with | .set _ _ _ => true | _ => false)
  && (!keys.contains f_KEY_CMD_OP.key || l.key.job.isNone)
  && (!keys.contains f_NVM_CMD_COMMIT.key || l.commitReserved)
  && !l.vw.any fun v => keys.contains v.key && stalls v.key
/-- The stalled access goes on with the lanes that have not completed it; a lane view's lane that leaves the member mask
or enters reset ends it by the default completion. -/
def State.settleStall (s : State) : State :=
  match s.arb.stall with
  | none => s
  | some st =>
    let ps := reqPlaces st.req
    let keys := reqKeys st.req
    let voted := match reqPlace st.req 0 with | .laneReg 0 _ => true | _ => false
    let gone (x : LaneId) : Bool := !(s.lane x).answers ps || (st.member && !s.arb.mask.has x)
    let left := st.lanes.filter fun x => !gone x && !(s.lane x).stallDone keys
    if !left.isEmpty || s.arb.waits st.req then s.onArb fun a => { a with stall := some { st with lanes := left } }
    else
      let s := s.onArb fun a => { a with stall := none }
      if !voted && st.lanes.any gone then s.onArb Arb.countDefault else s
/-- A stalled access reaches 92 µs: each lane still stalled counts as not answering. -/
def State.stallLimit (s : State) : State :=
  match s.arb.stall with
  | none => s
  | some st =>
    let voted := match reqPlace st.req 0 with | .laneReg 0 _ => true | _ => false
    s.onArb fun a =>
      let a := { a with stall := none }
      if a.fault then a
      else
        let a := (a.reg fun m =>
          let m := fflag m f_ARB_HERR_STALLTO
          if voted then st.lanes.foldl (fun m x => forBits m f_ARB_VSTAT_MISLANE (2 ^ x.num)) m else m).irq 0
        if st.total ≠ 0 ∧ st.lanes.length = st.total then a.countDefault else a

/-! ### The access -/

/-- A request that the arbiter serves now: a bus error, a read with its completion, or a write. -/
def State.serve (s : State) (r : HostReq) (write : Bool) (fab : Nat) : State :=
  match s.arb.busError r write with
  | some c =>
    let s := s.onArb fun a => a.countError r write c
    if write then s else s.onArb fun a => { a with last := .abort }
  | none =>
    if write then (s.writeReq r).settleStall
    else
      let t := s.readReq r fab
      t.1.onArb fun a => { a with last := .success t.2 }
/-- A request behind a stalled access waits; any other is served. -/
def State.serveOrWait (s : State) (q : HostReq × Bool × Nat) : State :=
  if s.arb.stall.isSome then s.onArb fun a => { a with delayed := a.delayed ++ [q] } else s.serve q.1 q.2.1 q.2.2
/-- Requests that waited are served in arrival order as soon as the stalled access has completed. -/
def State.serveDelayed (s : State) : State :=
  if s.arb.stall.isSome then s
  else s.arb.delayed.foldl State.serveOrWait (s.onArb fun a => { a with delayed := [] })
/-- The stalled access, where it has completed, and what waited behind it. -/
def State.hostSettle (s : State) : State := s.settleStall.serveDelayed
/-- A host request arrives. Nothing arrives while the endpoint is held in reset; in D3hot it is an Unsupported Request. -/
def State.hostAccess (s : State) (r : HostReq) (write : Bool) (fab : Nat) : State :=
  if s.arb.inReset || s.arb.perst || !reqFits r write then s
  else if s.arb.d3hot then (if write then s else s.onArb fun a => { a with last := .unsupported })
  else s.hostSettle.serveOrWait (r, write, fab)

/-! ### Endpoint reset (R456, R494) -/

/-- The mailbox indices, slots and held messages return to reset. -/
def Arb.mailboxReset (a : Arb) : Arb :=
  { a with mbx := { a.mbx with h2d := [], d2h := [], held := [] }
           regs := [0x100C000, 0x100C004, 0x100C008, 0x100C00C].foldl (fun m k => rset m k 0) a.regs }
/-- The endpoint's own state: MSI-X table and PBA, the access in progress, the power state. -/
def Arb.endpointReset (a : Arb) : Arb :=
  { a.mailboxReset with msix := [], stall := none, delayed := [], d3hot := false }
/-- What a function-level reset returns besides (R456). -/
def Arb.functionReset (a : Arb) : Arb :=
  { a.endpointReset with
    regs := [0xF00500, 0xF00504, 0xF00508, 0xF00510, 0xF00514, 0xF80100].foldl (fun m k => rset m k 0) a.endpointReset.regs }

end Sys2Proof.Machine
end

