-- ==== Sys2Proof/Machine/Slot.lean ====
section
/-! DEFINITION. A lane's slot: the strobe, the agreed image and the slot's work (R24 to R31, R40 to R56), with the commands of
agreement. -/
namespace Sys2Proof.Machine

/-! ### The strobe (R24, R184, R284) -/

/-- LCTL measures the strobe period; `dev` in 2.5 ns units (R24). -/
def Lane.monitorStrobe (l : Lane) (dev : Int) : Lane :=
  let out := decide (80 < dev.natAbs)
  let m := fset (fbool l.regs f_LCTL_CLKSTAT_STROBEOK true) f_LCTL_STROBE_LASTDEV (ofInt 8 (clampI (-128) 127 dev)).toNat
  let m := if out then fbump (fflag m f_LCTL_STROBE_OOT) f_LCTL_STROBE_OOTCNT else m
  { l with regs := m, rep := if out then { l.rep with oot := satAdd 255 l.rep.oot 1 } else l.rep }
/-- The lane's own clocks pass `n` fabric clocks, and κ moves one step. -/
def Lane.clocksPass (l : Lane) (n : Nat) : Lane :=
  let r := (l.tbu.advance n).steer l.time
  { l with time := { l.time with clock := l.time.at n }, tbu := r.1
           regs := if r.2 then fflag l.regs f_LSEQ_TBCORR_LIMIT else l.regs }

/-! ### Changes of the member mask (R310, R386, R397) -/

/-- A lane that leaves the mask stops all computing and begins its self-test. -/
def Lane.leaveMask (l : Lane) : Lane :=
  let q := { l.lseq with exec := { l.lseq.exec with running := false } }
  { l.setRj 1 with
    lseq := q, leng := { l.leng with active := false }, agree := { l.agree with stage := .idle }
    solv := { l.solv with phase := 0, nocomp := true, fetching := false, catchup := false }
    rep := { l.rep with selfOk := false }
    copy := { bulk := false, dram := false, passes := 0, factor := false, trailing := false }, backoff := false }
/-- A lane that enters the mask: its transmit gate lifts with empty queues (R270). -/
def Lane.enterMask (l : Lane) : Lane :=
  { l.setRj 0 with ports := l.ports.map fun p => { p with queues := List.replicate 8 [] }, handover := false, tx := [] }
/-- Sessions bound to a port of a lane that has left become UNBOUND (R310). -/
def Lane.unbindPorts (l : Lane) (x : LaneId) : Lane :=
  (List.range 8).foldl (fun l n =>
    let s := l.sess n
    if s.st = 2 ∧ s.port ≠ 0xFF ∧ s.port / 16 = x.num then (l.modSess n fun s => { s with st := 1, port := 0xFE }).sessNote n 0xFF
    else l) l
/-- The records and the event of a changed mask in a lane taking part (R386, R397). -/
def Lane.noteMask (l : Lane) (old : LaneSet) : Lane :=
  let new := l.mask
  if old = new then l
  else
    let l := [LaneId.A, .B, .C].foldl (fun l x =>
      if old.has x && !new.has x then
        (l.journal 7 0xFF 0 0 (leBytes 1 x.num ++ leBytes 1 (l.word.arb.lanes.getD x.num (0, 0, 0)).2.1)).unbindPorts x
      else if !old.has x && new.has x then l.journal 8 0xFF 0 0 (leBytes 1 x.num)
      else l) l
    l.event 7 (leBytes 1 new.bits ++ leBytes 1 new.count)

/-! ### Links (R55, R56) -/

/-- A link at the end of a slot; before the lane has its slot number there is no slot to count (`live`). -/
def LinkView.slotEnd (v : LinkView) (live : Bool) : LinkView :=
  { v with got := false, err := false, silent := if v.got || !live then 0 else v.silent + 1,
           clean := if v.got && !v.err then v.clean + 1 else 0, errs := (v.errs.map (· + 1)).filter fun n => decide (n < 1000) }
/-- A link is to be marked down: 2 slots without a frame, or 8 CRC errors within 1000 slots. -/
def LinkView.fails (v : LinkView) : Bool := !v.down && (decide (2 ≤ v.silent) || decide (8 ≤ v.errs.length))
/-- A link is to be marked up again. -/
def LinkView.heals (v : LinkView) : Bool := v.down && decide (1000 ≤ v.clean)
/-- Mark a link. -/
def LinkView.mark (v : LinkView) : LinkView :=
  if v.fails then { v with down := true, clean := 0 } else if v.heals then { v with down := false, silent := 0, errs := [] } else v
/-- The link states a lane offers: bit 0 link 0 down, bit 1 link 1 down. -/
def Agree.links (a : Agree) : Nat := a.link0.down.toNat + 2 * a.link1.down.toNat

/-! ### Sampling (R37, R39, R41, R208) -/

/-- A sample with overload: beyond 3 % above full scale the code is forced to the end of its range and CLIP is set. -/
def clampSample (w : Nat) (x : Int) : Int × Bool :=
  let top : Int := 2 ^ (w - 1) - 1
  if 103 * 2 ^ (w - 1) < 100 * x.natAbs then (if x < 0 then -top else top, true) else (clampI (-top - 1) top x, false)
/-- The lane's own registers of the samples. -/
def Lane.takeSamples (l : Lane) (mtr ain : List (Int × Bool)) (x : SlotSample) : Lane :=
  let put (m : RegMap) (xs : List (Int × Bool)) (w : Nat) (code clip ovld : Fld) : RegMap :=
    let m := (xs.zipIdx).foldl (fun m p =>
      fbool (fset m (code.at (4 * p.2)) (ofInt w p.1.1).toNat) (clip.at (4 * p.2)) p.1.2) m
    forBits m ovld ((xs.zipIdx).map fun p => if p.1.2 then 2 ^ p.2 else 0).sum
  let m := put l.regs mtr 24 f_MTR_RAW_CODE f_MTR_RAW_CLIP f_MTR_OVLD_OVLD
  let m := put m ain 16 f_AIN_RAW_CODE f_AIN_RAW_CLIP f_AIN_OVLD_OVLD
  let m := fset (fset m f_DIN_RAWLO_RAW (x.din.toNat % 2 ^ 32)) f_DIN_RAWHI_RAW (x.din.toNat / 2 ^ 32)
  { l with regs := m, plevel := x.plevel }
/-- The input set of the slot. -/
def Lane.inputSet (l : Lane) (mtr ain : List (Int × Bool)) (x : SlotSample) : InputSet :=
  let t := clockParts l.time.clock
  { links := l.agree.links, slot := l.slot, tb := BitVec.ofNat 64 l.tbu.us, ptpSec := BitVec.ofNat 48 t.1
    ptpNs := BitVec.ofNat 32 t.2.1, mtr := mtr, ain := ain, din := x.din
    rtd := (List.range 16).map fun n => (l.rtdOwn.getD n ⟨none, none⟩).entry l.slot
    pulse := (List.range 16).map l.pulseEntry, frames := l.agree.offer }
/-- The input set closes, and the lane's round-1 message is ready (R41, R45). -/
def Lane.openExchange (l : Lane) (me : LaneId) (x : SlotSample) : Lane :=
  let mtr := (List.range 24).map fun n => clampSample 24 (x.mtr.getD n 0)
  let ain := (List.range 32).map fun n => clampSample 16 (x.ain.getD n 0)
  let l := (l.takeSamples mtr ain x).statEntry me l.slot
  let msg := signRound1 (l.agreementKey me) me (l.inputSet mtr ain x)
  { l with agree := { l.agree with own := msg, direct := [], echoed := [], sets := [], offer := [], held := false, round1Closed := false, relay := [],
                                   agreedDown := l.agree.downNext, stage := .exchange } }

/-! ### The strobe in a lane (R25, R26, R40) -/

/-- The slot begins in a lane taking part. -/
def Lane.memberStrobe (l : Lane) (me : LaneId) (x : SlotSample) : Lane :=
  let l := if l.word.first then l else { l with slot := l.slot + 1 }
  let l := { l with leng := { l.leng with active := l.leng.active || decide (l.firstSlot.toNat < l.slot.toNat) } }
  let vw := l.vw.map fun (v : VWrite) => { v with due := true }
  let l := { l.enginesTake with vw := vw, sent := [] }
  let l := if l.execLate then l.execTimeout else l
  let l := l.stopSolve
  (if l.loadLateDue then l.loadLate else l).openExchange me x
/-- A lane receives the strobe with count `ticks` and its word. -/
def Lane.strobe (l : Lane) (me : LaneId) (w : StrobeWord) (ticks : Nat) (x : SlotSample) : Lane :=
  let l := l.monitorStrobe x.dev
  let l := if w.first && w.mask.has me && l.inRun then l else l.clocksPass (20000 + x.dev).toNat
  let old := l.mask
  let was := l.word
  let part := old.has me
  let a := { l.agree with link0 := (l.agree.link0.slotEnd (l.inRun && !w.first)).mark
                          link1 := (l.agree.link1.slotEnd (l.inRun && !w.first)).mark }
  let l := { l with ticks := ticks, word := w, mask := w.mask, agree := { a with stage := .idle } }
  let l : Lane := if part && !w.mask.has me then l.leaveMask else l
  let l := if !part && w.mask.has me then l.enterMask else l
  let l := if w.joinPhase = 1 ∧ w.joiner = me ∧ l.rj = 2 then l.setRj 3 else l
  let l := (l.tamperStrobe was.tamper).gateTx me
  if !w.mask.has me || !l.inRun then l
  else
    let l := if w.tamper && !was.tamper && l.tamperPolicy == 2 then { l with tamperNew := true } else l
    let l := if w.arbFault && !was.arbFault then l.vpoHalt else l
    let l := if w.first then l else l.noteMask old
    l.memberStrobe me x
/-- The strobe that follows the last one this lane received has been issued. At first agreement the lanes taking part are
given their slot number before it. -/
def State.strobeDue (s : State) (me : LaneId) : Bool :=
  (s.lane me).life != .held && !s.arb.inReset && decide (s.arb.ticks = (s.lane me).ticks + 1)
  && (!(s.arb.strobe.first && s.arb.strobe.mask.has me) || (s.lane me).inRun)

/-! ### The agreed image (R48 to R56, R502) -/

/-- The agreed values of the slot from the sets present (Table 02-3). -/
def Image.select (g : Image) (slot : BitVec 64) (sets : List InputSet) : Image :=
  if sets.isEmpty then
    { g with frames := [], age := ageNext false g.age, rtdAge := g.rtdAge.map (ageNext false), rtd := g.rtd.map fun r => (r.1, false) }
  else
    let rtd := (List.range 16).map fun n => selectRtd (rtdDue slot) (g.rtd.getD n (0, false)).1 (sets.map fun i => i.rtd.getD n (0, 0))
    let pick (prev : List (Int × Bool)) (f : InputSet → List (Int × Bool)) : List (Int × Bool) :=
      prev.mapIdx fun n p => selectSample p (sets.map fun i => (f i).getD n (0, false))
    let ptp := (selectPtp (sets.map ptpKey)).getD 0
    { g with
      mtr := pick g.mtr (·.mtr), ain := pick g.ain (·.ain), din := selectDin g.din (sets.map (·.din)), rtd := rtd
      tb := BitVec.ofNat 64 ((selectMid (sets.map fun i => (i.tb.toNat : Int))).getD 0).toNat
      dtSec := BitVec.ofNat 48 (ptp.toNat / 2 ^ 32), dtNs := BitVec.ofNat 32 ptp.toNat, frames := [], age := 0
      rtdAge := g.rtdAge.mapIdx fun n a => ageNext (rtd.getD n (0, false)).2 a }
/-- The agreed pulse entries: counts by differences, periods and levels as values (R48, R239). -/
def Lane.selectPulses (l : Lane) (sets : List InputSet) : List (BitVec 32) :=
  l.img.pulse.mapIdx fun n p =>
    let xs := sets.map fun i => i.pulse.getD n 0
    match l.dict.pulseMode n with
    | 2 => match selectMid (xs.map fun x => (x.toNat : Int)) with | some v => BitVec.ofNat 32 v.toNat | none => p
    | _ => selectCount p xs
/-- Links reported down by either end, from the link states in the sets (R56): A–B, B–C, C–A. -/
def linksDown (sets : List (LaneId × InputSet)) : List Bool :=
  [LaneId.A, .B, .C].map fun x =>
    sets.any fun p => (decide (p.1 = x) && p.2.links.testBit 0) || (decide (p.1 = x.next) && p.2.links.testBit 1)
/-- Admission of the slot's frame entries in order (R50, R52), and what each admitted entry does. -/
def Lane.admitAll (l : Lane) (es : List FrameEntry) : Lane :=
  es.foldl (fun l e =>
    let r := l.img.admitOne e
    if r.2.1 then { l with img := r.1 }.takeEntry e r.2.2 else l.reg fun m => fbump m f_XLNK_DUPS_DUPCNT) l
/-- The agreed image is ready at t1, `lat` 2.5 ns units after the strobe; the slot's work begins anew. -/
def Lane.takeImage (l : Lane) (lat : Nat) : Lane :=
  let sets := l.agree.sets.map (·.2)
  let pulses := l.selectPulses sets
  let l := { l with img := { l.img.select l.slot sets with pulse := pulses }
                    agree := { l.agree with downNext := linksDown l.agree.sets, stage := .imaged } }
  let l := l.admitAll (sortEntries (sets.flatMap (·.frames)))
  let clip := ((List.range 32).map fun n => if (l.img.ain.getD n (0, false)).2 then 2 ^ n else 0).sum
  let l := l.reg fun m => forBits (fmax (fsat m f_XLNK_LAT_LASTLAT lat) f_XLNK_LAT_MAXLAT lat) f_AIN_CLIPSEEN_CLIP clip
  let l := { l.enrolStart.meterBegin.modelIdle.verdict.fetchLate with
    step1 := false, step3 := false, step4 := false, step5 := false, step6 := false, stepL := false }
  let l := l.slv fun v => { v with asked := false }
  let ss := l.dict.sessions.map fun (x : Session) => { x with published := false }
  let l := { l with dict := { l.dict with sessions := ss } }
  if l.word.sync then l else { l with rtc := { l.rtc with delta := 0, slewLeft := 0 } }

/-! ### The work of the slot (Table 01-5) -/

/-- Staged sets, transfers and epochs of the sessions that end by time or count in this slot. -/
def Lane.sessionsEnd (l : Lane) : Lane :=
  (List.range 8).foldl (fun l n =>
    let l := if l.stageExpires n then l.stageExpire n else l
    ((l.readExpire n).writeExpire n).messageLimit n) l
/-- The host job that waits comes to its turn, after every job of a higher priority (Table 11-2). -/
def Lane.keyTurn (l : Lane) : Lane := match l.key.job with | some j => l.hostKey j.1 j.2 | none => l
/-- Everything from t1 to the end of the slot that has not run yet. -/
def Lane.slotWork (l : Lane) (me : LaneId) : Lane :=
  let l := ((l.loopsRun me).execAll me).finishLogic.meterSlot me
  let l := if l.totalsDue me then l.totalsStart else l
  let l := (l.commitsStart.enrolComplete me).sessionsEnd.keyTurn
  let l := ((l.publishSubs me).sendEvents me).gensToMram
  let l := { l with sent := if l.trip.isSome then [] else l.sent ++ [endFrame l.slot me l.sent] }
  let l := (l.flushTx me).statEntry me (l.slot + 1)
  { l with agree := { l.agree with stage := .done } }

/-! ### Commands -/

/-- STROBE_LOST (R25): the lane starts no further slot and sends no output frame. -/
def execStrobeLost (lane : LaneId) (s : State) : Host.Outcome State Fault Refusal :=
  laneWhen s lane (fun l => l.life != .held) fun l =>
    { l with regs := fbool (fflag l.regs f_LCTL_STROBE_STROBELOST) f_LCTL_CLKSTAT_STROBEOK false
             agree := { l.agree with stage := .idle } }
/-- STROBE_RESUMED (R25): the lane takes up the strobe without the slots it missed. -/
def execStrobeResumed (lane : LaneId) (x : SlotSample) (s : State) : Host.Outcome State Fault Refusal :=
  .next (if fget (s.lane lane).regs f_LCTL_CLKSTAT_STROBEOK = 0 ∧ (s.lane lane).life ≠ .held ∧ s.arb.inReset = false
        ∧ (s.lane lane).ticks < s.arb.ticks then
      s.onLane lane fun l => l.strobe lane s.arb.strobe s.arb.ticks x
    else s)
/-- ROUND1_RECEIVE (R44). -/
def execRound1Receive (lane : LaneId) (link1 crcOk : Bool) (msg : Bytes) (s : State) :
    Host.Outcome State Fault Refusal :=
  laneWhen s lane (fun l => l.life != .held) fun l => l.round1Receive lane link1 crcOk msg
/-- ECHO_RECEIVE (R44, R46). -/
def execEchoReceive (lane : LaneId) (link1 crcOk : Bool) (sender : LaneId) (msgs : List Bytes) (s : State) :
    Host.Outcome State Fault Refusal :=
  laneWhen s lane (fun l => l.life != .held) fun l => l.echoReceive lane link1 crcOk sender msgs
/-- ROUND2_CLOSE (R46). -/
def execRound2Close (lane : LaneId) (s : State) : Host.Outcome State Fault Refusal :=
  laneNext s lane fun l => l.round2Close lane
/-- XLNK_LINK_DOWN (R55): the lane marks a link down when it has failed. -/
def execXlnkLinkDown (lane : LaneId) (link1 : Bool) (s : State) : Host.Outcome State Fault Refusal :=
  laneNext s lane fun l => { l with agree := l.agree.modLink link1 fun v => if v.fails then v.mark else v }
/-- XLNK_LINK_UP (R55): the lane marks a link up again after 1000 slots without error. -/
def execXlnkLinkUp (lane : LaneId) (link1 : Bool) (s : State) : Host.Outcome State Fault Refusal :=
  laneNext s lane fun l => { l with agree := l.agree.modLink link1 fun v => if v.heals then v.mark else v }
/-- CLOCK_MONITOR_FAIL (R38): lock bits fall while the lane runs; the set bits of `locks` fall, from FABLOCK to LINKLOCK in
bits 1 to 6 and XTALOK in bit 0. -/
def execClockMonitorFail (lane : LaneId) (locks : BitVec 7) (s : State) : Host.Outcome State Fault Refusal :=
  laneWhen s lane (fun l => l.life != .held && locks != 0) fun l =>
    { l with regs := rset l.regs f_LCTL_CLKSTAT_XTALOK.key
               (rget l.regs f_LCTL_CLKSTAT_XTALOK.key &&& ~~~(BitVec.ofNat 32 (locks.toNat * 2)))
             rep := { l.rep with clkFail := true } }
/-- ARBITER_COMPARATOR_TRIP (R16, R403, R457): every voted output at its default, cause 4, and the arbiter's state stays. -/
def execArbiterComparatorTrip (s : State) : Host.Outcome State Fault Refusal :=
  .next (if s.arb.runs then
      { s with arb := { (s.arb.irq 4).outputsDefault with fault := true, out := { s.arb.out with isOpen := false }
                                                          joining := false, rolling := false }
               bak := { s.bak with wasFault := true } }
    else s)

end Sys2Proof.Machine
end

