-- ==== Sys2Proof/Machine/EdgeCmds.lean ====
section
/-! DEFINITION. The commands of the clocks that a host access can wait for: the slot strobe, a lane's slot and the edges of
the RTC oscillators (R22, R27, R405 to R415, R447). -/
namespace Sys2Proof.Machine

/-- SLOT_STROBE (R22, R40): mailbox slots that waited for a lane taking part are taken (R453). -/
def execSlotStrobe (s : State) : Host.Outcome State Fault Refusal :=
  .next (if s.arb.inReset then s else s.issueStrobe.takeSlots.hostSettle)
/-- LANE_SLOT (R27): the strobe, the close of round 1, the agreed image once the sets are decided, and the slot's work. -/
def execLaneSlot (lane : LaneId) (phase : SlotPhase) (s : State) : Host.Outcome State Fault Refusal :=
  match phase with
  | .strobe x =>
    .next (if s.strobeDue lane then s.onLane lane fun l => l.strobe lane s.arb.strobe s.arb.ticks x else s)
  | .round1 => laneNext s lane Lane.round1Close
  | .image lat => laneWhen s lane (fun l => l.agree.stage == .closed) fun l => l.takeImage lat
  | .work => .next (if (s.lane lane).working then (s.onLane lane fun l => l.slotWork lane).hostSettle else s)

/-- An edge at which a condition of the lane holds. -/
def edgeWhen (s : State) (x : LaneId) (p : Lane → Bool) (clocks elapsed mv : Nat) : Host.Outcome State Fault Refusal :=
  .next (if p (s.lane x) then (s.oscEdge x clocks elapsed mv).hostSettle else s)
/-- An edge that carries out a host command; a lane in reset or in SELFTEST takes none (R444). -/
def edgeHost (s : State) (x : LaneId) (a : RtcAct) (clocks elapsed mv : Nat) : Host.Outcome State Fault Refusal :=
  .next (if (s.lane x).life ≠ .held ∧ (s.lane x).rj ≠ 1 then
      ((s.onLane x fun l => l.rtcAsk a).oscEdge x clocks elapsed mv).hostSettle
    else s)

/-- OSCILLATOR_EDGE (R405). -/
def execOscillatorEdge (lane : LaneId) (clocks elapsed mv : Nat) (s : State) : Host.Outcome State Fault Refusal :=
  edgeWhen s lane (fun _ => true) clocks elapsed mv
/-- WEEKDAY_STEP (R407): an edge whose carry moves the weekday counter. -/
def execWeekdayStep (lane : LaneId) (clocks elapsed mv : Nat) (s : State) : Host.Outcome State Fault Refusal :=
  edgeWhen s lane (fun l => l.rtc.weekdaySteps) clocks elapsed mv
/-- SLEW_END (R412): the last edge of a slew. -/
def execSlewEnd (lane : LaneId) (clocks elapsed mv : Nat) (s : State) : Host.Outcome State Fault Refusal :=
  edgeWhen s lane (fun l => l.rtc.slewLeft == 1) clocks elapsed mv
/-- RTC_WRITE_APPLY (R411 to R413): an edge at which scheduled changes apply. -/
def execRtcWriteApply (lane : LaneId) (clocks elapsed mv : Nat) (s : State) : Host.Outcome State Fault Refusal :=
  edgeWhen s lane (fun l => !l.rtc.acts.isEmpty) clocks elapsed mv
/-- RTC_SNAP (R414). -/
def execRtcSnap (lane : LaneId) (clocks elapsed mv : Nat) (s : State) : Host.Outcome State Fault Refusal :=
  edgeHost s lane .snap clocks elapsed mv
/-- RTC_SETTIME (R415). -/
def execRtcSettime (lane : LaneId) (clocks elapsed mv : Nat) (s : State) : Host.Outcome State Fault Refusal :=
  edgeHost s lane (.set true false false) clocks elapsed mv
/-- RTC_SETWDAY (R415). -/
def execRtcSetwday (lane : LaneId) (clocks elapsed mv : Nat) (s : State) : Host.Outcome State Fault Refusal :=
  edgeHost s lane (.set false true false) clocks elapsed mv
/-- RTC_SETPH (R409, R415). -/
def execRtcSetph (lane : LaneId) (clocks elapsed mv : Nat) (s : State) : Host.Outcome State Fault Refusal :=
  edgeHost s lane (.set false false true) clocks elapsed mv
end Sys2Proof.Machine
end

