-- ==== Sys2Proof/Machine/RollCall.lean ====
section
/-! DEFINITION. Roll calls, exclusion by their criteria, the verdict of a solve and the grant of a rejoin (R132, R381 to R393). -/
namespace Sys2Proof.Machine

/-! ### Reports (Table 13-1) -/

/-- The lock bits of a lane: XTALOK to LINKLOCK, and RTCOSC. -/
def Lane.lockBits (l : Lane) : Nat :=
  (rget l.regs f_LCTL_CLKSTAT_XTALOK.key).toNat / 2 % 128 + 128 * fget l.shadow f_LCTL_CLKSTAT_RTCOSC
/-- The lane asks to rejoin: it waits, and no back-off runs (R392, R401). -/
def Lane.rejoinReq (l : Lane) : Bool := l.rj == 2 && !l.backoff
/-- The report of a lane with its hottest sensor at `temp` °C. -/
def Lane.report (l : Lane) (temp : Int) : Report :=
  let r := l.rep
  { state := l.rj, rejoinReq := l.rejoinReq, uce := decide (r.uce ≠ 0), clkFail := r.clkFail, selfOk := r.selfOk, uceCause := r.uce
    rseq := r.rseq, solve := l.solveReport, noComp := l.solv.nocomp, cecc := r.cecc, tecc := r.tecc, oot := r.oot
    lastDev := fget l.regs f_LCTL_STROBE_LASTDEV, absent := r.absent, locks := l.lockBits, temp := clampI (-128) 127 temp
    links := l.agree.links, slot := BitVec.ofNat 32 l.slot.toNat }
/-- The next report describes the interval from this one on (R382). -/
def Lane.reported (l : Lane) : Lane :=
  { l with rep := { l.rep with rseq := (l.rep.rseq + 1) % 65536, uce := 0, clkFail := false, cecc := 0, tecc := 0, oot := 0, absent := 0 } }
/-- A lane that has tripped sends no report from the slot after its freeze slot (R425). -/
def Lane.reportsNow (l : Lane) : Bool := l.life != .held && l.trip.isNone
/-- A report arrives: in force when its CRC is good and it follows the one before, else missed (R383). -/
def Arb.takeReport (a : Arb) (x : LaneId) (r : Report) (crcOk : Bool) : Arb :=
  let j := a.judge x
  let good := crcOk && (match j.nextSeq with | none => true | some n => decide (r.rseq = n))
  let moved := good && decide (r.state ≠ j.rep.state)
  let a := a.modJudge x fun j =>
    { j with rep := if good then r else j.rep, polled := false, answered := good, missed := !good,
             nextSeq := some ((r.rseq + 1) % 65536) }
  if moved then a.irq 10 else a

/-! ### Criteria (Table 13-4, R387) -/

/-- A link between two members is agreed down: A–B, B–C, C–A by their first lane. -/
def Arb.linkDown (a : Arb) (x : LaneId) : Bool := a.mask.has x && a.mask.has x.next && a.downLinks.getD x.num false
/-- The member with the highest health score; ties go to the lower letter. -/
def Arb.healthiest (a : Arb) : Option LaneId :=
  a.mask.toList.foldl (fun (b : Option LaneId) x =>
    match b with | none => some x | some y => if a.score y < a.score x then some x else some y) none
/-- The lanes that are isolated (R387). -/
def Arb.isolated (a : Arb) : List LaneId :=
  let down := [LaneId.A, .B, .C].filter a.linkDown
  let others := match a.healthiest with | some h => a.mask.toList.filter fun x => decide (x ≠ h) | none => []
  match a.mask.count with
  | 3 => if down.length = 3 then others else if down.length = 2 then a.mask.toList.filter fun x => a.linkDown x && a.linkDown x.prev else []
  | 2 => if down.isEmpty then [] else others
  | _ => []
/-- The criterion with the lowest code that a member meets; 0 for none. -/
def Arb.criterion (a : Arb) (x : LaneId) : Nat :=
  let j := a.judge x
  if j.rep.uce then 1
  else if j.rep.clkFail || decide (5 ≤ j.rep.oot) then 2
  else if 2 ≤ j.missedRun then 3
  else if a.isolated.contains x then 4
  else if fget a.regs f_ARB_ROLLCFG_DISK ≤ (a.inWindow x).length then 5
  else 0

/-! ### The verdict of a solve (R129, R132) -/

/-- The round that Table 04-5 chooses among the last rounds of the lanes that count. -/
def chosenRound (lasts : List Nat) : Nat :=
  match lasts with
  | [] => 0
  | [a] => a
  | [a, b] => min a b
  | a :: b :: c :: _ => (mid3 a b c).toNat
/-- The verdict for the solve in progress, if a trigger has occurred. -/
def State.verdictRound (s : State) (num : Nat) (stop : BitVec 64) : Option Nat :=
  let reps := (s.arb.mask.toList.map fun x => (s.arb.judge x).rep).filter fun r => !r.noComp && decide (r.solve.solve = num % 256)
  let done := (reps.filter fun r => r.solve.done).map fun r => r.solve.last
  let agreed := if reps.length = 1 then done.head? else done.find? fun r => decide (2 ≤ done.count r)
  match agreed with
  | some r => some r
  | none => if stop.toNat ≤ s.arb.slot.toNat then some (chosenRound (reps.map fun r => r.solve.last)) else none
/-- The lowest-lettered lane whose reported round is the chosen one. -/
def Arb.sourceOf (a : Arb) (num r : Nat) : LaneId :=
  (a.mask.toList.find? fun x =>
    decide ((a.judge x).rep.solve.last = r) && decide ((a.judge x).rep.solve.solve = num % 256)).getD .A
/-- The roll call's part in a solve: MINTILES, and the verdict for the next strobe. -/
def State.judgeSolve (s : State) : State :=
  let tiles := s.arb.mask.toList.map fun x => (s.arb.judge x).rep.solve.tiles
  let s := s.onArb fun a => { a with solve := { a.solve with minTiles := tiles.foldl min 48 } }
  match s.arb.mask.toList.findSome? fun x => (s.lane x).solver.run with
  | none => s
  | some r =>
    if s.arb.solve.judged = some r.num then s
    else match s.verdictRound r.num r.stop with
    | none => s
    | some k => s.onArb fun a => { a with solve := { a.solve with judged := some r.num, next := some (r.num % 256, k, a.sourceOf r.num k) } }

/-! ### The grant of a rejoin (R393) -/

/-- The lowest-lettered waiting lane that asks. -/
def Arb.waiting (a : Arb) : Option LaneId :=
  [LaneId.A, .B, .C].find? fun x =>
    let j := a.judge x
    !a.nextMask.has x && !a.mask.has x && j.answered && decide (j.rep.state = 2) && j.rep.rejoinReq
/-- A rejoin is granted when none runs: joiner, donor and phase 1 go into the strobe words. -/
def Arb.grant (a : Arb) : Arb :=
  match a.joining, a.waiting, a.nextMask.toList with
  | false, some x, d :: _ =>
    { a with joining := true, dramDone := none
             regs := fset (fset (fset (fset a.regs f_ARB_JOIN_JOINER x.num) f_ARB_JOIN_DONOR d.num) f_ARB_JOIN_PHASE 1)
               f_ARB_JOIN_PROGRESS 0 }
  | _, _, _ => a

/-! ### The island's configuration (R365, R473) -/

/-- What a lane does with an island that is UNCONFIG or LOCKED, at first agreement and at R473. -/
def Lane.islandAct (l : Lane) : Lane :=
  if l.word.island.locked then l
  else if l.dict.flag 0x1500 4 then
    ({ l with dict := l.dict.put 0x1500 4 [0] }.journalFree Config.unlockCode.toNat 0xFF).touchImage
  else if l.dict.nat 0x1500 2 ≠ 0 then { l with cfgOut := some (l.dict.islandBlock, BitVec.ofNat 32 (l.dict.nat 0x1500 2)) }
  else l
/-- The island has lost its lock since it was last seen LOCKED, while lanes take part. -/
def State.islandLost (s : State) : State :=
  if s.arb.islSeen && !s.arb.islWord.locked then
    (s.onSet s.arb.mask fun _ l => l.islandAct).onArb fun a => { a with islSeen := false }
  else s

/-! ### The roll call (R381, R385) -/

/-- A roll call falls into this slot. -/
def Arb.rollDue (a : Arb) : Bool :=
  a.runs && a.agreed && decide (a.slot.toNat % 20 = fget a.regs f_ARB_ROLLCFG_ROLLPHASE)
/-- The links agreed down in this slot, as the lowest-lettered member has them (R56). -/
def State.downNow (s : State) : List Bool :=
  match s.arb.mask.toList with
  | x :: _ => (s.lane x).agree.agreedDown
  | [] => [false, false, false]
/-- Poll every lane that is not held in reset; the links that are agreed down in this slot count at its verdicts (R387). -/
def State.poll (s : State) : State :=
  s.onArb fun a => { ([LaneId.A, .B, .C].foldl (fun a x =>
    a.modJudge x fun j => { j with polled := (s.lane x).life != .held, answered := false }) a) with rolling := true, downLinks := s.downNow }
/-- A poll ends: a lane that has not answered has missed its report. -/
def Arb.endPoll (a : Arb) (x : LaneId) : Arb :=
  a.modJudge x fun j =>
    let miss := !j.answered && (j.polled || a.mask.has x)
    { j with polled := false, missed := miss, missedRun := if miss then j.missedRun + 1 else 0 }
/-- The score of a lane is shown. -/
def Arb.takeScore (a : Arb) (x : LaneId) : Arb := a.reg fun m => fset m (laneFld f_ARB_LANESTAT_SCORE x) (a.score x)
/-- The polls of a roll call end, and the scores are shown. -/
def Arb.endPolls (a : Arb) : Arb :=
  [LaneId.A, .B, .C].foldl Arb.takeScore ([LaneId.A, .B, .C].foldl Arb.endPoll { a with rolling := false })
/-- The members that meet a criterion, each with its cause. -/
def Arb.guilty (a : Arb) : List (LaneId × Nat) :=
  (a.mask.toList.filter a.nextMask.has).filterMap fun x => if a.criterion x = 0 then none else some (x, a.criterion x)
/-- The verdicts of a roll call: scores, exclusions, the solve and a rejoin; they act at the next strobe. -/
def State.rollVerdict (s : State) : State :=
  let s := s.onArb Arb.endPolls
  let t := s.judgeSolve.excludeLanes s.arb.guilty
  if t.arb.nextMask.count = 0 then t else (t.onArb Arb.grant).islandLost

/-! ### The decision of a two-lane hold (R389) -/

/-- The lane that one item of evidence singles out of two. -/
def singled (p : LaneId → Bool) : List LaneId → Option LaneId
  | [x, y] => if p x && !p y then some x else if p y && !p x then some y else none
  | _ => none
/-- The decision can be taken: the held slot has closed, and both snap reports are in or late. -/
def Arb.snapDue (a : Arb) : Bool :=
  a.runs && a.hold.active && a.hold.snap && (decide (a.out.slot ≠ a.hold.slot) || !a.out.isOpen)
  && a.mask.toList.all fun x => !(a.judge x).polled
/-- The first evidence that singles out a lane, with its number. -/
def Arb.evidence (a : Arb) : Option (LaneId × Nat) :=
  let xs := a.mask.toList
  let bad (x : LaneId) : Bool := (a.judge x).missed || (a.judge x).rep.uce || (a.judge x).rep.clkFail
  let low (x : LaneId) : Bool := xs.any fun y => decide (a.score x + 32 ≤ a.score y)
  ((singled a.hold.endBad.has xs).map fun x => (x, 1)).orElse fun _ =>
    ((singled bad xs).map fun x => (x, 2)).orElse fun _ => (singled low xs).map fun x => (x, 3)
/-- The decision. -/
def State.snapDecide (s : State) : State :=
  let a := s.arb
  let s := s.onArb fun a => { a with hold := { a.hold with snap := false } }
  if a.mask.count ≠ 2 ∨ a.nextMask.count ≠ 2 then s
  else match a.evidence with
  | some (x, e) =>
    (s.onArb fun a => a.reg fun m => fset (fbump m f_ARB_HOLD_DECIDED) f_ARB_HOLD_EVIDENCE e).excludeLanes [(x, 6)]
  | none =>
    (s.onArb fun a => a.reg fun m => fset (fbump m f_ARB_HOLD_UNDECIDED) f_ARB_HOLD_EVIDENCE 0).excludeLanes
      (a.mask.toList.map fun x => (x, 6))

/-! ### Before first agreement (R461) -/

/-- A lane is reported ready: its self-test passed and no UCE stands. -/
def Arb.readyRep (a : Arb) (x : LaneId) : Bool :=
  ((a.judge x).answered || (a.judge x).polled) && (a.judge x).rep.selfOk && !(a.judge x).rep.uce && decide ((a.judge x).rep.state = 2)
/-- The lanes reported ready. -/
def Arb.readySet (a : Arb) : LaneSet := ⟨a.readyRep .A, a.readyRep .B, a.readyRep .C⟩
/-- The start window opens at the first roll call at which two lanes are ready. -/
def Arb.openWindow (a : Arb) : Arb :=
  if a.window.isNone && decide (2 ≤ a.readySet.count) then { a with window := some a.ticks } else a

/-! ### Commands -/

/-- ROLL_CALL (R381): the poll at t0 + 30 µs, and its verdicts when `verdict` is set. -/
def execRollCall (verdict : Bool) (s : State) : Host.Outcome State Fault Refusal :=
  .next (if !s.arb.rollDue || s.arb.rolling != verdict then s else if verdict then s.rollVerdict else s.poll)
/-- ROLL_CALL_REPORT (R382, R383): a polled lane answers with its hottest sensor at `temp`; `crcOk` as received. -/
def execRollCallReport (lane : LaneId) (temp : Int) (crcOk : Bool) (s : State) : Host.Outcome State Fault Refusal :=
  .next (if s.arb.runs && (s.arb.judge lane).polled && (s.lane lane).reportsNow then
      let r := (s.lane lane).report temp
      let s := (s.onLane lane Lane.reported).onArb fun a => a.takeReport lane r crcOk
      if s.arb.agreed || s.arb.agreeNext then s else s.onArb Arb.openWindow
    else s)
/-- REPORT_TIMEOUT (R383): no report within 10 µs of the poll. -/
def execReportTimeout (lane : LaneId) (s : State) : Host.Outcome State Fault Refusal :=
  .next (if s.arb.runs && (s.arb.judge lane).polled then
      s.onArb fun a => a.modJudge lane fun j => { j with polled := false, answered := false, missed := true }
    else s)
/-- SNAP_ROLL_CALL_DECISION (R389). -/
def execSnapRollCallDecision (s : State) : Host.Outcome State Fault Refusal :=
  .next (if s.arb.snapDue then s.snapDecide else s)

end Sys2Proof.Machine
end

