-- ==== Sys2Proof/Machine/PowerCmds.lean ====
section
/-! DEFINITION. The commands of supplies, trips and resets (R252, R423 to R426, R472 to R476), of commits and retags in MRAM
(R350, R468, R469) and of ECC errors (R382). -/
namespace Sys2Proof.Machine

/-! ### Trips (R252, R423, R424) -/

/-- A lane trips: one that meters writes its flask, any other only stops. -/
def Lane.trips (l : Lane) (me : LaneId) (cause : Nat) : Lane :=
  if l.trip.isSome then l
  else if l.meters then l.tripNow me cause
  else { l with trip := some { slot := l.slot, written := true } }
/-- A lane that runs trips, with cause 12 of Table 15-7. -/
def State.tripLane (s : State) (x : LaneId) (cause : Nat) : State :=
  if (s.lane x).life ≠ .held ∧ (s.lane x).trip = none then (s.onLane x fun l => l.trips x cause).onArb fun a => a.irq 12 else s
/-- The joiner is no longer copying. -/
def Arb.dropJoiner (a : Arb) (x : LaneId) : Arb :=
  if a.joining && decide (a.joiner = x) then
    { a with joining := false, dramDone := none, regs := fset (fset a.regs f_ARB_JOIN_PHASE 0) f_ARB_JOIN_PROGRESS 0 }
  else a
/-- One lane resets; a rejoin of it ends. -/
def State.resetLane (s : State) (x : LaneId) (f : Lane → Lane) : State :=
  (s.onLane x fun l => (f l).afterReset x laneReset).onArb fun a => a.dropJoiner x

/-- POWER_FAIL_N_FALL (R252). -/
def execPowerFailNFall (lane : LaneId) (s : State) : Host.Outcome State Fault Refusal := .next (s.tripLane lane 1)
/-- INPUT_MONITOR_TRIP (R423). -/
def execInputMonitorTrip (lane : LaneId) (s : State) : Host.Outcome State Fault Refusal := .next (s.tripLane lane 2)
/-- LANE_SELF_RESET (R425): a tripped lane whose supplies have held good for 10 ms. -/
def execLaneSelfReset (lane : LaneId) (s : State) : Host.Outcome State Fault Refusal :=
  .next (if (s.lane lane).trip.isSome then s.resetLane lane id else s)
/-- LANE_RAIL_RESET (R423): a rail is below its reset threshold; a flask still being written is incomplete. -/
def execLaneRailReset (lane : LaneId) (s : State) : Host.Outcome State Fault Refusal :=
  .next (if (s.lane lane).life = .held then s
    else ((s.tripLane lane 2).resetLane lane id))

/-! ### The arbiter's supply and RESET_N (R426, R475, R476) -/

/-- The arbiter and the endpoint held in reset; PERST_N is a pin of its own. -/
def Arb.held (a : Arb) : Arb := { arbReset with perst := a.perst }
/-- ARB_SUPPLY_RESET (R426): `mains` tells whether a main supply of the backup domain is left. -/
def execArbSupplyReset (mains : Bool) (s : State) : Host.Outcome State Fault Refusal :=
  let s := { s with arb := s.arb.held, bak := { s.bak with wasVddArb := true } }
  .next (if mains then s
    else { s with bak := { s.bak with wasPor := true, mains := false } }.onLanes fun _ l =>
      { l with rtc := { l.rtc with standby := true } })
/-- RESET_N_FALL (R475, R476): metering lanes write their flasks, every lane enters reset, and the hold record opens. -/
def execResetNFall (s : State) : Host.Outcome State Fault Refusal :=
  .next (if s.bak.holdFrom.isSome then s
    else
      let at0 := match s.rtcLead with | some x => (s.lane x).rtc.ticks | none => (Config.free s.free).toNat
      let free := match s.rtcLead with | some _ => s.free | none => s.free + 1
      let trip := s.anyMeters
      let s := (s.onLanes fun x l => l.tripReset x).onArb fun a => if trip then a.irq 12 else a
      { s with bak := { s.bak with holdFrom := some at0, wasReset := true }, free := free })
/-- ARBITER_RESET_ENTRY (R475): 0.5 ms after the fall of RESET_N. -/
def execArbiterResetEntry (s : State) : Host.Outcome State Fault Refusal :=
  .next (if s.bak.holdFrom.isSome then { s with arb := s.arb.held } else s)
/-- Whole seconds from the fall to now; free when no oscillator runs. -/
def State.holdSeconds (s : State) (at0 : Nat) : Nat :=
  match s.rtcLead with
  | some x => min 0xFFFFFFFF (((s.lane x).rtc.ticks - at0) / 2 ^ 32)
  | none => (Config.free s.free).toNat % 2 ^ 32
/-- RESET_N_RISE (R476): the hold record is closed. -/
def execResetNRise (s : State) : Host.Outcome State Fault Refusal :=
  .next (match s.bak.holdFrom with
    | none => s
    | some at0 =>
      let free := match s.rtcLead with | some _ => s.free | none => s.free + 1
      { s with arb := s.arb.held, bak := { s.bak with holdFrom := none, holdSec := s.holdSeconds at0 }, free := free })

/-! ### Commits and retags (R350, R468, R469) -/

/-- NVM_COMMIT_COMMAND (R469): a class 1 commit starts in this slot, or is queued behind the one in progress. -/
def execNvmCommitCommand (lane : LaneId) (s : State) : Host.Outcome State Fault Refusal :=
  laneWhen s lane (fun l => l.mask.has lane && l.inRun && l.trip.isNone) fun l => (l.regCommand f_NVM_CMD_COMMIT.key 1).commitsStart
/-- NVM_COMMIT_DONE (R468): a commit of class `cls` ends after `ms`; one queued behind it starts. -/
def execNvmCommitDone (lane : LaneId) (cls ms : Nat) (s : State) : Host.Outcome State Fault Refusal :=
  laneNext s lane fun l => if (l.nvm.cls cls).busy.isSome then (l.commitDone cls ms).commitsStart else l
/-- RETAG_DONE (R350). -/
def execRetagDone (lane : LaneId) (s : State) : Host.Outcome State Fault Refusal :=
  laneNext s lane fun l => l.retagDone l.tamperActs

/-! ### ECC errors (R382, DRC) -/

/-- A counter of the next report. -/
def Lane.eccCount (l : Lane) (site : EccSite) : Lane :=
  match site with
  | .tile => { l with rep := { l.rep with tecc := satAdd 0xFFFF l.rep.tecc 1 } }
  | _ => { l with rep := { l.rep with cecc := satAdd 0xFFFF l.rep.cecc 1 } }
/-- An error in DRAM as DRC shows it, at an address in 64-byte units. -/
def Lane.drcError (l : Lane) (corr : Bool) (addr : Nat) : Lane :=
  l.reg fun m =>
    let m := fset m f_DRC_ECCADDR_ADDR addr
    if corr then fbump (fflag m f_DRC_STAT_CE) f_DRC_ECC_CECNT else fbump (fflag m f_DRC_STAT_UCE) f_DRC_ECC_UCECNT
/-- ECC_ERROR (R382): corrected errors are counted, an uncorrectable one is a UCE with cause 0x01; in a tile's memory it
retires the tile, which has its own command (R145). -/
def execEccError (lane : LaneId) (corr : Bool) (site : EccSite) (addr : Nat) (s : State) : Host.Outcome State Fault Refusal :=
  laneWhen s lane (fun l => l.life != .held) fun l =>
    let l := if site = .dram then l.drcError corr addr else l
    if corr then l.eccCount site else if site = .tile then l else l.raiseUce 1

end Sys2Proof.Machine
end

