-- ==== Sys2Proof/Machine/Rejoin.lean ====
section
/-! DEFINITION. Self-test, the copy of a rejoining lane, and the handover (R392 to R402). -/
namespace Sys2Proof.Machine

/-! ### Self-test (R392, R401, R402) -/

/-- Every PLL of a lane is locked and its crystal runs. -/
def Lane.locksUp (l : Lane) : Lane :=
  l.reg fun m => rset m f_LCTL_CLKSTAT_XTALOK.key (rget m f_LCTL_CLKSTAT_XTALOK.key ||| 0xFE)
/-- The end of a self-test in a lane: `item` is the first failing item, 0 for none. Less than 1 GiB of DRAM fails (R19). -/
def Lane.selfTest (l : Lane) (me : LaneId) (item : Nat) (halt : Bool) (now : Nat) : Lane :=
  let small := decide ((Config.dramSize me).toNat < 4)
  if item ≠ 0 ∨ small = true then
    let l := l.reg fun m => fset m f_LCTL_RJSTAT_TESTITEM (if item ≠ 0 then item else Config.dramItem.toNat)
    { (l.raiseUce 8).setRj 6 with rep := { (l.raiseUce 8).rep with selfOk := false } }
  else
    let l := (l.reg fun m => fset m f_LCTL_RJSTAT_TESTITEM 0).locksUp
    -- every tile that passes is healthy again (R145)
    let l := { l with solv := { l.solv with retired := 0 } }
    { l.setRj (if halt then 6 else 2) with rep := { l.rep with selfOk := true, clkFail := false }, waitFrom := now }
/-- A lane that passes is halted: excluded by command, or at its rejoin limit without a permitted entry. -/
def State.haltsAt (s : State) (x : LaneId) : Bool :=
  let j := s.arb.judge x
  let max := match s.lead with | some y => (s.lane y).dict.nat 0x1100 3 | none => 255
  j.manual || (!j.permit && decide (max ≠ 255) && decide (max ≤ s.arb.entriesNow x))

/-! ### The rucksack (R394, Table 13-8) -/

/-- A register that describes the lane itself among those of the units whose registers are agreed. -/
def ownKey (k : Nat) : Bool :=
  k == f_MTR_OVLD_OVLD.key || (decide (f_MTR_RAW_CODE.key ≤ k) && decide (k < f_MTR_RAW_CODE.key + 96))
  || (decide (f_THM_RAW_CODE.key ≤ k) && decide (k < f_THM_RAW_CODE.key + 64))
  || (decide (f_THM_PULSERAW_VALUE.key ≤ k) && decide (k < f_THM_PULSERAW_VALUE.key + 64))
  || k == f_LSEQ_TBCORR_KAPPA.key
  || (decide (f_XACT_RXERR_TAGFAIL.key ≤ k) && decide (k < f_XACT_RXERR_TAGFAIL.key + 32))
  || (decide (f_XACT_RXCLOSED_CLOSED.key ≤ k) && decide (k < f_XACT_RXCLOSED_CLOSED.key + 32))
/-- A register that every lane taking part holds alike. -/
def agreedKey (k : Nat) : Bool := [1, 2, 4, 5, 6, 7, 10].contains (k / 65536) && !ownKey k
/-- The agreed registers of another lane, with the lane's own ones. -/
def takeRegs (own donor : RegMap) : RegMap :=
  (donor.filter fun p => agreedKey p.1).foldl (fun m p => rset m p.1 p.2) (own.filter fun p => !agreedKey p.1)
/-- The rucksack of the donor is applied at step 2 of the handover slot; measurements, receive queues, clocks, RTC and MRAM
stay the joiner's own, and the solve in progress is not computed (R137, R398). -/
def Lane.takeRucksack (l d : Lane) : Lane :=
  let traces := d.leng.traces.map fun (t : TraceChan) => { t with ring := [] }
  -- a lane that enters after the verdict fetches the round and takes part from publication onwards (R137)
  let fetch := match d.solver.run with | some r => r.verdict.isSome | none => false
  Lane.latchTotals { l with
    regs := takeRegs l.regs d.regs, slot := d.slot, inRun := true, firstSlot := d.firstSlot, img := d.img
    dict := { d.dict with journal := [] }, keyA := d.keyA
    key := { l.key with ready := true, engines := d.key.engines, enginesNext := d.key.enginesNext }
    leng := { d.leng with traces := traces }, lseq := d.lseq, feeders := d.feeders, thm := d.thm, solver := d.solver
    solv := { solvOwnReset with retired := l.solv.retired, nocomp := d.solver.run.isSome, phase := if fetch then 6 else 0
                                fetching := fetch }
    vw := [], step1 := false, step3 := false, step4 := false, step5 := false, step6 := false, stepL := false
    tx := [], evq := [], sent := [], tamperNew := false, irq := 0
    nvm := { l.nvm with gens := d.keyA.gens }
    tbu := l.tbu.setUs d.img.tb.toNat
    time := { l.time.load (d.img.dtNsTotal * clkNs) with y := d.time.yi, yi := d.time.yi }
    ports := l.ports.map fun p => { p with ptp := ptpPort0 }
    copy := { l.copy with factor := d.solver.warm.isSome, trailing := true }
    agree := { l.agree with stage := .imaged, downNext := d.agree.downNext, agreedDown := d.agree.agreedDown } }

/-! ### Phases of the copy (R395, R396) -/

/-- The conditions of the handover slot in the donor (R396). -/
def Lane.handoverReady (d : Lane) : Bool :=
  d.agree.stage == .imaged && !d.step1 && d.cycleStarts && d.dict.reqs.isEmpty && (d.vw.filter (·.due)).isEmpty && !d.tamperNew
  && !d.leapDue
/-- The DRAM part ended within the last 20,000 slots. -/
def Arb.handoverOpen (a : Arb) : Bool :=
  match a.dramDone with | some t => decide (a.ticks ≤ t + 20000) | none => false
/-- A copy moves on to its next phase. -/
def State.joinPhase (s : State) (p : Nat) (f : Lane → Lane) : State :=
  (s.onLane s.arb.joiner f).onArb fun a => a.reg fun m => fset m f_ARB_JOIN_PHASE p
/-- The handover slot: the listener applies the final delta, or has heard no lane and fails (R397, R502). -/
def State.handover (s : State) (heard : Bool) : State :=
  let x := s.arb.joiner
  if heard then
    let d := s.lane s.arb.donor
    let s := s.joinPhase 4 fun l => { (((l.takeRucksack d).setRj 5).loadGates x).holdPins x with handover := true }
    s.onArb fun a => { a with strobe := { a.strobe with joinPhase := 4 } }
  else (s.onArb fun a => a.reg fun m => fset m (laneFld f_ARB_LANESTAT_CAUSE x) 8).failJoin x 1

/-! ### Commands -/

/-- SELFTEST_DONE (R392): the self-test of an excluded lane ends; `item` is the first failing item, 0 for none. -/
def execSelftestDone (lane : LaneId) (item : Nat) (s : State) : Host.Outcome State Fault Refusal :=
  laneWhen s lane (fun l => l.life == .up && l.rj == 1) fun l => l.selfTest lane item (s.haltsAt lane) s.arb.ticks
/-- BULK_COPY_DONE (R395). -/
def execBulkCopyDone (s : State) : Host.Outcome State Fault Refusal :=
  .next (if s.arb.runs && s.arb.phase == 1 && (s.lane s.arb.joiner).rj == 3 then
      (s.joinPhase 2 fun l => { l with copy := { l.copy with bulk := true } }).onArb fun a =>
        a.reg fun m => fset m f_ARB_JOIN_PROGRESS 100
    else s)
/-- DRAM_PART_DONE (R395). -/
def execDramPartDone (s : State) : Host.Outcome State Fault Refusal :=
  .next (if s.arb.runs && s.arb.phase == 2 && (s.lane s.arb.joiner).rj == 3 then
      (s.joinPhase 3 fun l => { l.setRj 4 with copy := { l.copy with dram := true } }).onArb fun a =>
        { a with dramDone := some a.ticks }
    else s)
/-- DELTA_PASS (R395): a pass of the blocks marked since the previous one, `marked` bytes. -/
def execDeltaPass (marked : Nat) (s : State) : Host.Outcome State Fault Refusal :=
  .next (if s.arb.runs && s.arb.phase == 3 && (s.lane s.arb.joiner).rj == 4 && decide (marked ≤ 50331648) then
      s.onLane s.arb.joiner fun l => { l with copy := { l.copy with passes := l.copy.passes + 1 } }
    else s)
/-- HANDOVER_SLOT (R396, R397): `delta` bytes are marked since the last pass; `heard` when a set reached the listener. -/
def execHandoverSlot (delta : Nat) (heard : Bool) (s : State) : Host.Outcome State Fault Refusal :=
  .next (if s.arb.runs && s.arb.phase == 3 && (s.lane s.arb.joiner).rj == 4 && decide (1 ≤ (s.lane s.arb.joiner).copy.passes)
        && decide (delta ≤ 98304) && s.arb.handoverOpen && (s.lane s.arb.donor).handoverReady then
      s.handover heard
    else s)
/-- HANDOVER_TIMEOUT (R396): no slot met the conditions within 20,000 slots of the end of the DRAM part. -/
def execHandoverTimeout (s : State) : Host.Outcome State Fault Refusal :=
  .next (if s.arb.runs && s.arb.phase == 3 && !s.arb.handoverOpen then s.failJoin s.arb.joiner 2 else s)
/-- DONOR_PATH_TIMEOUT (R399): no block has arrived from the donor for 100 µs. -/
def execDonorPathTimeout (s : State) : Host.Outcome State Fault Refusal :=
  .next (if s.arb.runs && decide (1 ≤ s.arb.phase) && decide (s.arb.phase ≤ 3) then
      match (s.arb.nextMask.toList.filter fun x => decide (x ≠ s.arb.donor)).head? with
      | some d => s.donorFails d
      | none =>
        let x := s.arb.joiner
        let s := s.onArb fun a => { a.reg (fun m => fset (fset (fbump m f_ARB_JOIN_DONORCHG) f_ARB_JOIN_PHASE 0) f_ARB_JOIN_PROGRESS 0)
          with joining := false, dramDone := none }
        s.onLane x fun l => { l.setRj 2 with copy := copy0, backoff := true, waitFrom := s.arb.ticks }
    else s)
/-- BACKOFF_EXPIRE (R399, R401): the lane asks to rejoin again. -/
def execBackoffExpire (lane : LaneId) (s : State) : Host.Outcome State Fault Refusal :=
  let wait := match s.lead with | some y => (s.lane y).dict.nat 0x1100 4 | none => 60
  laneWhen s lane (fun l => l.backoff && l.rj == 2 && decide (l.waitFrom + wait * 20000 ≤ s.arb.ticks)) fun l =>
    { l with backoff := false }
/-- FACTOR_FETCH_DONE (R398): the previous factor has been fetched from the donor. -/
def execFactorFetchDone (lane : LaneId) (s : State) : Host.Outcome State Fault Refusal :=
  laneWhen s lane (fun l => l.copy.factor && s.arb.mask.has lane) fun l =>
    { l with copy := { l.copy with factor := false }, solv := { l.solv with factor := l.solver.warm.map (·.fac) } }
/-- JOURNAL_COPY_DONE (R398): the journal and the trace rings are the donor's. -/
def execJournalCopyDone (lane : LaneId) (s : State) : Host.Outcome State Fault Refusal :=
  .next (if (s.lane lane).copy.trailing && s.arb.mask.has lane then
      match s.arb.mask.toList.find? fun x => decide (x ≠ lane) && !(s.lane x).copy.trailing with
      | none => s.onLane lane fun l => { l with copy := { l.copy with trailing := false } }
      | some d =>
        let dl := s.lane d
        s.onLane lane fun l =>
          let traces := l.leng.traces.mapIdx fun i t => { t with ring := (dl.leng.traces.getD i t).ring }
          { l with copy := { l.copy with trailing := false }, dict := { l.dict with journal := dl.dict.journal }
                   leng := { l.leng with traces := traces } }
    else s)

end Sys2Proof.Machine
end

