-- ==== Sys2Proof/Machine/Startup.lean ====
section
/-! DEFINITION. Release and start-up of lanes and arbiter, up to the settlement of the images (R337, R458 to R461). -/
namespace Sys2Proof.Machine

/-! ### The arbiter's release (R458, R476, R477) -/

/-- The start registers at the arbiter's release. -/
def Backup.startRegs (b : Backup) (m : RegMap) : RegMap :=
  let m := fset (fset m f_ARB_RSTCAUSE_HOLDS b.holds) f_ARB_RSTHOLD_HOLDSEC b.holdSec
  let m := fbool (fbool m f_ARB_RSTCAUSE_ARBFAULT b.wasFault) f_ARB_RSTCAUSE_VDDARB b.wasVddArb
  fbool (fbool m f_ARB_RSTCAUSE_RESETN b.wasReset) f_ARB_RSTCAUSE_POR b.wasPor
/-- The arbiter leaves reset; every lane is reset and starts anew. -/
def State.releaseArbiter (s : State) : State :=
  let b := s.bak
  let holds := if b.wasReset then min 15 (b.holds + 1) else b.holds
  let b := { b with holds := holds }
  let s := s.onLanes fun x l =>
    let l := l.afterReset x laneReset
    if b.wasReset then { l with nvm := { l.nvm with holdSec := b.holdSec } } else l
  { s with arb := { s.arb.held with inReset := false, regs := b.startRegs [], shadow := b.view true [] }
           bak := { b with wasReset := false, wasPor := false, wasVddArb := false, wasFault := false, mains := true } }
/-- ARBITER_RELEASE (R458, R476). -/
def execArbiterRelease (s : State) : Host.Outcome State Fault Refusal :=
  .next (if s.arb.inReset && s.bak.holdFrom.isNone then s.releaseArbiter else s)

/-! ### A lane's release (R458 to R460, R348) -/

/-- The stored image of a class passes the check of step 3; a class without one has nothing to fail. -/
def Lane.imageOk (l : Lane) (cls : Nat) : Bool :=
  let c := l.nvm.cls cls
  match c.active with
  | none => true
  | some r => imageTag l.keyA.gens cls (c.image r) == r.tag && (decide (cls ≠ 2) || decide ((l.checkImage (c.image r) false).1.1 = 0))
/-- The active dictionary image is loaded; without one every object has its default. -/
def Lane.loadStored (l : Lane) : Lane :=
  match l.nvm.dict.active with
  | some r => l.loadDict (l.nvm.dict.image r)
  | none => l.loadDefaults
/-- Step 2: fuses, generations, PLLs, the DRAM channel; KEY is ready. -/
def Lane.fusesLoaded (l : Lane) (me : LaneId) (ticks : Nat) : Lane :=
  let l := { l.locksUp with life := .up, ticks := ticks, keyA := { gens := l.nvm.gens, enrols := [], mramDue := none, enrolEnd := none } }
  let l := l.ku fun k => { k with ready := true, engines := l.laneKeys }
  l.reg fun m =>
    let m := fset (fset m f_DRC_STAT_SIZE (Config.dramSize me).toNat) f_DRC_STAT_RANKS (Config.dramRanks me).toNat
    fbool (fbool m f_DRC_STAT_TRAINED true) f_DRC_STAT_INIT true
/-- Steps 2 to 4 of Table 16-1: a failed image check, or the self-test with its first failing item. -/
def Lane.startUp (l : Lane) (me : LaneId) (item : Nat) (halt : Bool) (ticks : Nat) : Lane :=
  let l := (l.fusesLoaded me ticks).loadStored
  if l.imageOk 1 && l.imageOk 2 then l.selfTest me item halt ticks else (l.raiseUce 7).setRj 6
/-- A lane can be released: the arbiter issues strobes, RESET_N is high, and the lane is in reset. -/
def State.canRelease (s : State) (x : LaneId) : Bool :=
  (s.lane x).life != .up && !s.arb.inReset && s.bak.holdFrom.isNone && !s.bak.wasReset
/-- LANE_RELEASE (R458 to R460): step 3 waits while tamper is active under a policy that withholds KEY. -/
def execLaneRelease (lane : LaneId) (item : Nat) (s : State) : Host.Outcome State Fault Refusal :=
  .next (if !s.canRelease lane then s
    else s.onLane lane fun l =>
      if s.bak.active && s.bak.policy != 0 then ({ l.locksUp with life := .loading, ticks := s.arb.ticks }).setRj 1
      else l.startUp lane item (s.haltsAt lane) s.arb.ticks)

/-! ### Roll calls before first agreement (R337, R461) -/

/-- The larger value of every generation. -/
def leafMax (m n : NMap Nat) : NMap Nat :=
  n.foldl (fun m p => mset (fun _ => 0) m p.1 (max p.2 (mget (fun _ => 0) m p.1))) m
def Gens.max (a b : Gens) : Gens :=
  { dev := Nat.max a.dev b.dev, ses := Nat.max a.ses b.ses, sst := Nat.max a.sst b.sst, agr := Nat.max a.agr b.agr
    sto := Nat.max a.sto b.sto, leaf := leafMax a.leaf b.leaf }
/-- The generations that a start roll call settles are taken from `t`: device, AGREEMENT domain and lane leaves. -/
def Gens.takeStart (g t : Gens) : Gens :=
  { g with dev := t.dev, agr := t.agr
           leaf := (List.range 3).foldl (fun m x => mset (fun _ => 0) m (65536 * 3 + x) (t.leafGen 3 x)) g.leaf }
/-- The generations held by the lanes that are not in reset. -/
def State.startGens (s : State) : Gens :=
  [LaneId.A, .B, .C].foldl (fun g x => if (s.lane x).life = .held then g else g.max (s.lane x).nvm.gens) gens0
/-- Each lane takes the settled generations, stores them and loads its agreement keys. -/
def Lane.takeStartGens (l : Lane) (t : Gens) : Lane :=
  if l.life = .held then l
  else
    let l := { l with nvm := { l.nvm with gens := l.nvm.gens.takeStart t }, keyA := { l.keyA with gens := l.keyA.gens.takeStart t } }
    if l.life = .up then l.ku fun k => { k with engines := l.laneKeys } else l
/-- No roll call of the start is due: the arbiter runs none, or first agreement has been decided. -/
def Arb.starting (a : Arb) : Bool := a.runs && !a.agreed && !a.agreeNext
/-- STARTUP_ROLL_CALL (R337, R461): every 1 ms. -/
def execStartupRollCall (s : State) : Host.Outcome State Fault Refusal :=
  .next (if s.arb.starting && decide (s.arb.ticks % 20 = 0) then
      let s := (s.onArb fun a => [LaneId.A, .B, .C].foldl Arb.endPoll a).poll
      let g := s.startGens
      (s.onLanes fun _ l => l.takeStartGens g).onArb fun a => { a with rolling := false }
    else s)
/-- The start window is to close: after 0.5 s, or with a third lane ready. -/
def Arb.windowEnds (a : Arb) : Bool :=
  match a.window with
  | some t => !a.windowClosed && (decide (a.readySet.count = 3) || decide (t + 10000 ≤ a.ticks))
  | none => false
/-- START_WINDOW_CLOSE (R461, R463): lanes that were not ready in time enter later without counting. -/
def execStartWindowClose (s : State) : Host.Outcome State Fault Refusal :=
  .next (if s.arb.starting && s.arb.windowEnds then
      s.onArb fun a =>
        if a.readySet.count = 0 then { a with window := none }
        else
          let late := [LaneId.A, .B, .C].filter fun x => !a.readySet.has x
          { late.foldl (fun a x => a.modJudge x fun j => { j with permit := true }) a with windowClosed := true, ready := a.readySet }
    else s)

/-! ### Settlement of the images (R461) -/

/-- The valid records of a class, and those whose image verifies under generations. -/
def ImageClass.records (c : ImageClass) : List CommitRec := [c.rec0, c.rec1].filterMap id
def ImageClass.good (c : ImageClass) (cls : Nat) (g : Gens) : List CommitRec :=
  c.records.filter fun r => imageTag g cls (c.image r) == r.tag
/-- Two records stand for the same image. -/
def sameImage (a b : CommitRec) : Bool := a.cseq == b.cseq && a.tag == b.tag
/-- The record with the highest CSEQ, the first of equals. -/
def bestRec (rs : List CommitRec) : Option CommitRec :=
  rs.foldl (fun b r => match b with
    | none => some r
    | some q => if q.cseq.toNat < r.cseq.toNat then some r else some q) none
/-- The settled image among what the lanes hold, lowest letter first. -/
def settledRec (held : List (List CommitRec)) : Option CommitRec :=
  let all := held.flatten
  let shared := all.filter fun r => decide (2 ≤ (held.filter fun h => h.any (sameImage r)).length)
  if held.length ≤ 1 then bestRec all else (bestRec shared).orElse fun _ => bestRec all
/-- A lane's stored images of a class, verified. -/
def Lane.goodImages (l : Lane) (cls : Nat) : List CommitRec := (l.nvm.cls cls).good cls l.keyA.gens
/-- The lane holds a record newer than the settled one, or would after fetching it. -/
def Lane.holdsNewer (l : Lane) (cls : Nat) (r : CommitRec) : Bool :=
  let c := l.nvm.cls cls
  c.records.any (fun q => decide (r.cseq.toNat < q.cseq.toNat))
  || (!(l.goodImages cls).any (sameImage r) && (match c.active with | some q => decide (r.cseq.toNat ≤ q.cseq.toNat) | none => false))
/-- The settled image is fetched into the inactive bank, with the settled CSEQ. -/
def Lane.fetchImage (l : Lane) (cls : Nat) (r : CommitRec) (img : Bytes) : Lane :=
  if (l.goodImages cls).any (sameImage r) then l
  else
    let c := (l.nvm.cls cls).store cls r.cseq r.imageId l.keyA.gens r.slot img
    { l with nvm := l.nvm.setCls cls c }.reg fun m => fflag m f_NVM_STAT_FETCHED
/-- A further record for the settled image, with CSEQ n. -/
def Lane.renumber (l : Lane) (cls : Nat) (r : CommitRec) (img : Bytes) (n : BitVec 32) (newer : Bool) : Lane :=
  let c := l.nvm.cls cls
  let l := match c.records.find? fun q => q.cseq == r.cseq && c.image q == img with
    | none => l
    | some q =>
      let q := { q with cseq := n }
      { l with nvm := l.nvm.setCls cls (match c.activeSlot with
          | some (false, _) => { c with rec1 := some q }
          | _ => { c with rec0 := some q }) }
  if newer then l.reg fun m => fflag m f_NVM_STAT_ROLLBACK else l
/-- What a class settles to among the lanes of a set: the record, its image, and the CSEQ of a new record if one is due. -/
structure Settled where
  crec : CommitRec
  img : Bytes
  next : Option (BitVec 32)
def State.settled (s : State) (xs : List LaneId) (cls : Nat) : Option Settled :=
  match settledRec (xs.map fun x => (s.lane x).goodImages cls) with
  | none => none
  | some r =>
    let holder := (xs.find? fun x => ((s.lane x).goodImages cls).any (sameImage r)).getD .A
    let own := (((s.lane holder).goodImages cls).find? (sameImage r)).getD r
    let top := ((xs.flatMap fun x => ((s.lane x).nvm.cls cls).records).map fun q => q.cseq.toNat).foldl Nat.max r.cseq.toNat
    some { crec := r, img := ((s.lane holder).nvm.cls cls).image own
           next := if xs.any fun x => (s.lane x).holdsNewer cls r then some (BitVec.ofNat 32 (top + 1)) else none }
/-- A lane settles a class. -/
def Lane.settleClass (l : Lane) (cls : Nat) (z : Option Settled) : Lane :=
  match z with
  | none => l
  | some z =>
    let newer := l.holdsNewer cls z.crec
    let l := l.fetchImage cls z.crec z.img
    match z.next with | some n => l.renumber cls z.crec z.img n newer | none => l
/-- A lane settles both classes, and loads the settled images. -/
def Lane.settle (l : Lane) (me : LaneId) (d g : Option Settled) : Lane :=
  let l := (l.settleClass 1 d).settleClass 2 g
  let l := match d with | some z => l.loadDict z.img | none => l.loadDefaults
  ((l.loadGates me).holdPins me).seq fun q => { q with image := g.map fun z => decImage z.img }
/-- The lanes that were ready and still are. -/
def State.stillReady (s : State) : LaneSet :=
  let ok (x : LaneId) : Bool := s.arb.ready.has x && (s.lane x).life == .up && (s.lane x).rj == 2 && (s.lane x).trip.isNone
  ⟨ok .A, ok .B, ok .C⟩
/-- SETTLEMENT_DONE (R461): first agreement follows at the next strobe. -/
def execSettlementDone (s : State) : Host.Outcome State Fault Refusal :=
  let m := s.stillReady
  .next (if s.arb.starting && s.arb.windowClosed && decide (0 < m.count) then
      let d := s.settled m.toList 1
      let g := s.settled m.toList 2
      (s.onSet m fun x l => l.settle x d g).onArb fun a => { a with ready := m, agreeNext := true }
    else s)

end Sys2Proof.Machine
end

