-- ==== Sys2Proof/Machine/FirstAgreement.lean ====
section
/-! DEFINITION. First agreement (R20, R26, R109, R203, R253, R285, R308, R333, R337, R365, R411, R461, R477). -/
namespace Sys2Proof.Machine

/-- What the lanes agree at first agreement. -/
structure StartAgreed where
  /-- Agreed RTC value in 2⁻³² s, whether it is valid, and the lanes with a valid RTC. -/
  rtc : Nat
  valid : Bool
  lanes : Nat
  gens : Gens
  epochs : List Nat
  base : Option TotalsRec
  plan : Option MergePlan
  /-- A valid flask does not apply. -/
  skipped : Bool
  /-- The settled retain record, and the highest sequence number held. -/
  retain : Option RetainRec
  retainSeq : BitVec 32
  /-- Half the usable DRAM capacity in MiB. -/
  half : Nat
  cause : Nat
  hold : Nat
  island : IslandWord
  tamper : Bool
deriving DecidableEq, Repr

/-- The initial slot number. -/
def StartAgreed.slot (g : StartAgreed) : BitVec 64 := BitVec.ofNat 64 (g.rtc * 20000 / 2 ^ 32)
/-- The initial time base in µs. -/
def StartAgreed.us (g : StartAgreed) : Nat := g.rtc * 1000000 / 2 ^ 32

/-! ### What is agreed -/

/-- The agreed RTC value (R411): mid of three, earlier of two, the one, or none. -/
def agreeRtc (xs : List Int) : Option Nat :=
  match xs with
  | [] => none
  | [a] => some a.toNat
  | [a, b] => some (min a b).toNat
  | a :: b :: c :: _ => some (mid3 a b c).toNat
/-- The settled retain record among those of the settled image (R203, R461), lowest letter first. -/
def agreeRetain (lanes : List (List RetainRec)) : Option RetainRec :=
  let best (xs : List RetainRec) : Option RetainRec :=
    xs.foldl (fun b x => match b with
      | none => some x
      | some y => some (if y.seq.toNat < x.seq.toNat then x else y)) none
  let all := lanes.flatten
  let shared := all.filter fun x => decide (2 ≤ (lanes.filter fun l => l.contains x).length)
  if lanes.length ≤ 1 then best all else (best shared).orElse fun _ => best all
/-- The valid totals records and retain records of a lane. -/
def Lane.totalsHeld (l : Lane) : List TotalsRec := [l.nvm.totA, l.nvm.totB].filter (·.valid)
def Lane.retainHeld (l : Lane) : List RetainRec := [l.nvm.retA, l.nvm.retB].filter (·.valid)
/-- Retain records of the settled image. -/
def Lane.retainOfImage (l : Lane) : List RetainRec :=
  match l.lseq.image with | some im => l.retainHeld.filter fun r => r.imageId == im.id | none => []
/-- The last hold was a long one (R477). -/
def State.longHold (s : State) (x : LaneId) : Bool :=
  fget s.arb.regs f_ARB_RSTCAUSE_RESETN == 1 && decide ((s.lane x).dict.nat 0x1001 5 ≤ fget s.arb.regs f_ARB_RSTHOLD_HOLDSEC)
/-- What the lanes of a set agree; `xs` in letter order, not empty. -/
def State.startAgreed (s : State) (xs : List LaneId) : StartAgreed :=
  let ls := xs.map s.lane
  let ok := xs.filter fun x => !(s.lane x).rtc.noTime
  let v := agreeRtc (ok.map fun x => ((s.lane x).rtc.ticks : Int))
  let base := agreeBase (ls.map Lane.totalsHeld)
  let flasks := ls.map fun l => l.nvm.flask
  let long := match xs.head? with | some x => s.longHold x | none => false
  { rtc := v.getD 0, valid := v.isSome, lanes := (ok.map fun x => 2 ^ x.num).sum
    gens := ls.foldl (fun g l => g.max l.keyA.gens) gens0
    epochs := (List.range 8).map fun n => (ls.map fun l => l.nvm.epochs.getD n 0).foldl Nat.max 0 + 1
    base := base, plan := mergePlan base flasks, skipped := flasks.any fun f => f.valid && !flaskApplies base f
    retain := agreeRetain (ls.map Lane.retainOfImage)
    retainSeq := BitVec.ofNat 32 (((ls.flatMap Lane.retainHeld).map fun r => r.seq.toNat).foldl Nat.max 0)
    half := (xs.map fun x => (Config.dramSize x).toNat).foldl Nat.min 32 * 128
    cause := (rget s.arb.regs f_ARB_RSTCAUSE_POR.key).toNat % 32 + 32 * long.toNat
    hold := fget s.arb.regs f_ARB_RSTHOLD_HOLDSEC, island := s.arb.strobe.island
    tamper := s.bak.log.any fun e => match e with | some t => !t.acted | none => false }

/-! ### What each lane does with it -/

/-- Slot number, time base, PTP clock, agreed image and RTC alignment (R26, R184, R285, R411). -/
def Lane.startClocks (l : Lane) (g : StartAgreed) : Lane :=
  let a := g.slot
  let ns := g.rtc * 1000000000 / 2 ^ 32
  let img := { image0 with tb := BitVec.ofNat 64 g.us, dtSec := BitVec.ofNat 48 (ns / 1000000000), dtNs := BitVec.ofNat 32 (ns % 1000000000) }
  let act := if g.valid then RtcAct.align ((l.rtc.ticks : Int) - g.rtc) else RtcAct.zero
  let t := { l.time.load (g.rtc * 1000000000 / 65536) with y := 0, yi := 0 }
  let d := (l.dict.put 0x1320 5 (leBytes 1 g.lanes)).put 0x1320 6 [if g.valid then 0 else 1]
  Lane.gatesStep { l.rtcAsk act with slot := a, firstSlot := a, inRun := true, img := img, time := t, ports := l.ports.map fun p => { p with ptp := ptpPort0 }, tbu := l.tbu.setUs g.us, dict := d } 0
/-- The remaining generations; a lane whose storage generations are raised checks its images again (R337, R348). -/
def Lane.startKeys (l : Lane) (g : StartAgreed) : Lane :=
  let raised := decide (l.keyA.gens.sto ≠ g.gens.sto) || decide (l.keyA.gens.leafGen 4 1 ≠ g.gens.leafGen 4 1)
    || decide (l.keyA.gens.leafGen 4 2 ≠ g.gens.leafGen 4 2)
  let l := { l with keyA := { l.keyA with gens := g.gens }, nvm := { l.nvm with gens := g.gens } }
  let l := l.ku fun k => { k with engines := l.laneKeys }
  let bad (c : Nat) : Bool := (l.nvm.cls c).verified c g.gens == some false
  if raised && (bad 1 || bad 2) then l.raiseUce 7 else l
/-- The partition of the SRAM pool and the journal size in force, with the clamp entries of reductions (R20, R333). -/
def Lane.startSizes (l : Lane) (g : StartAgreed) : Lane :=
  let p := l.dict.nat 0x1600 1
  let t := l.dict.nat 0x1600 2
  let n := l.dict.nat 0x1600 3
  let p' := if 32 < p + t + n + 2 then 30 - t - n else p
  let j := l.dict.nat 0x1F10 3
  let j' := min j g.half
  let e1 := if p' = p then [] else [l.clampEntry 0 0x1600 1 0x18 0xFF 0xFFFFFFFF p p']
  let e2 := if j' = j then [] else [l.clampEntry 0 0x1F10 3 0x18 0xFF 0xFFFFFFFF j j']
  { l with dict := { l.dict with part := [p', t, n, 2], jMib := j' } }.addClampsEvent (e1 ++ e2)
/-- The START record (R333, R477). -/
def Lane.startJournal (l : Lane) (g : StartAgreed) : Lane :=
  l.journal 1 0xFF 0 0 (leBytes 8 l.slot.toNat ++ leBytes 1 g.cause ++ leBytes 4 g.hold ++ leBytes 4 l.nvm.dict.cseq.toNat
    ++ leBytes 4 l.nvm.logic.cseq.toNat)
/-- Every session takes a new epoch (R308). -/
def Lane.startEpochs (l : Lane) (g : StartAgreed) : Lane :=
  (List.range 8).foldl (fun l n => l.setEpoch n (g.epochs.getD n 1) 0xFF) l
/-- The bank of MRAM that holds the base, and the bank that the next record goes to. -/
def Nvm.takeBase (n : Nvm) (base : Option TotalsRec) : Nvm :=
  match base with
  | none => n
  | some b =>
    if n.totA = b then { n with totNextB := true }
    else if n.totB = b then { n with totNextB := false }
    else if newestTotals n.totA n.totB = some n.totA then { n with totB := b, totNextB := false }
    else { n with totA := b, totNextB := true }
/-- The totals base and the flasks (R253). -/
def Lane.startTotals (l : Lane) (g : StartAgreed) : Lane :=
  let x := loadBase l.feeders l.thm g.base
  let t := match g.plan with | some p => x.2.takePulses p.pulses | none => x.2
  let l := { l with feeders := x.1, thm := { t with merge := g.plan, metered := l.slot - 1 }, nvm := l.nvm.takeBase g.base }
  l.latchTotals.reg fun m =>
    let m := if g.base.isNone then fflag m f_THM_TOTSTAT_NOTOTALS else m
    if g.skipped then fflag m f_THM_TOTSTAT_FLASKSKIP else m
/-- The logic sequencer starts WARM or COLD with the first cycle in slot a + 1 (R200, R203, R204, R462). -/
def Lane.startLogic (l : Lane) (g : StartAgreed) : Lane :=
  let l := l.seq fun q => { q with tl := g.us, cycle := l.slot + 1 - BitVec.ofNat 64 l.logicLen, retainSeq := g.retainSeq }
  let l := l.seq fun q => { q with lastRetain := l.retainPeriod }
  match l.lseq.image with
  | none => l
  | some _ =>
    -- outputs start from the defaults of Table 06-10, held ones from 0
    let l := l.seq fun q => { coldClear q with run := 1, pub := ⟨[], []⟩ }
    match g.retain, decide (l.dict.nat 0x5000 4 = 1) with
    | some r, true =>
      ((l.warmLoad r).seq fun q => { q with retainSeq := g.retainSeq, nextFirst := 8 }).reg fun m => fset m f_LSEQ_STAT_STARTMODE 2
    | _, _ => (l.seq fun q => { q with nextFirst := 4 }).reg fun m => fset m f_LSEQ_STAT_STARTMODE 1
/-- The stored dictionary holds a model. -/
def Dict.holdsModel (d : Dict) : Bool :=
  d.vals.any fun p => modelObj (p.1 / 256) && (match objDesc? (p.1 / 256) (p.1 % 256) with | some x => x.struct | none => false)
/-- The stored model begins its load, and the admission check runs on the settings (R109, R142). -/
def Lane.startSolver (l : Lane) : Lane :=
  let l := if l.dict.holdsModel then
      (l.slv fun s => { s with mstate := 1, commitAt := l.slot, held := [], pendVer := s.mver + 1 }).modelEvent
    else l
  let r := l.admission 0 0xFF
  r.1.addClampsEvent r.2
/-- First agreement in a lane (R461). -/
def Lane.firstAgree (l : Lane) (g : StartAgreed) : Lane :=
  let l := (((l.startClocks g).startKeys g).startSizes g).startJournal g
  let l := (((l.startEpochs g).startTotals g).startLogic g).startSolver
  let w := { l.word with island := g.island }
  let l := { { l with word := w }.islandAct with word := l.word }
  if g.tamper && l.tamperPolicy == 2 then { l with tamperNew := true } else l

/-! ### The command -/

/-- The arbiter at first agreement: slot number, roll-call phase and the first output slot. -/
def Arb.firstAgree (a : Arb) (g : StartAgreed) : Arb :=
  let m := fset a.regs f_ARB_ROLLCFG_ROLLPHASE (g.slot.toNat % 20)
  let m := fbool m f_ARB_RSTCAUSE_LONGHOLD (decide (32 ≤ g.cause))
  let o : OutSlot := { slot := BitVec.ofNat 16 g.slot.toNat, isOpen := true, frames := [], passed := [] }
  let w := { a.strobe with arb := { a.strobe.arb with cause := g.cause } }
  { a with regs := m, slot := g.slot, firstSlot := g.slot, agreed := true, out := o, strobe := w, islSeen := a.islWord.locked
           windowClosed := true
           lanes := a.lanes.map fun j => { j with polled := false, missed := false, missedRun := 0 } }
/-- The lanes that take part in first agreement: those of the mask that still run. -/
def State.firstLanes (s : State) : LaneSet :=
  let ok (x : LaneId) : Bool := s.arb.mask.has x && (s.lane x).life == .up && !(s.lane x).inRun
  ⟨ok .A, ok .B, ok .C⟩
/-- FIRST_AGREEMENT (R26, R461): in the slot of the strobe that the settlement has announced. -/
def execFirstAgreement (s : State) : Host.Outcome State Fault Refusal :=
  let m := s.firstLanes
  .next (if s.arb.runs && s.arb.strobe.first && !s.arb.agreed && decide (0 < m.count) then
      let g := s.startAgreed m.toList
      let s := (s.onSet m fun _ l => l.firstAgree g).onArb fun a => a.firstAgree g
      { s with bak := s.bak.acted }
    else s)

end Sys2Proof.Machine
end

