-- ==== Sys2Proof/Machine/HostCmds.lean ====
section
/-! DEFINITION. The commands of the host port (chapter 15), of SAFE_HOSTREQ (R380) and of the mailbox's device side (R310,
R311). A request whose place is not the one its row names does not occur as that row. -/
namespace Sys2Proof.Machine

/-- A request occurs as a row when its first place is one of the row's. -/
def hostRow (ok : Place → Bool) (r : HostReq) (write : Bool) (fab : Nat) (s : State) : Host.Outcome State Fault Refusal :=
  .next (if ok (reqPlace r 0) then s.hostAccess r write fab else s)
/-- A register with RC fields. -/
def Place.clears (p : Place) : Bool :=
  match p with
  | .laneReg _ k | .arbReg k | .safe k | .mbx k => rcMask k != 0
  | _ => false

/-- REGISTER_READ (R435). -/
def execRegisterRead (req : HostReq) (fab : Nat) (s : State) : Host.Outcome State Fault Refusal :=
  hostRow (fun _ => true) req false fab s
/-- REGISTER_WRITE (R438). -/
def execRegisterWrite (req : HostReq) (s : State) : Host.Outcome State Fault Refusal := hostRow (fun _ => true) req true 0 s
/-- VOTED_READ (R64). -/
def execVotedRead (req : HostReq) (fab : Nat) (s : State) : Host.Outcome State Fault Refusal :=
  hostRow (fun p => match p with | .laneReg v _ | .laneMem v _ => v == 0 | _ => false) req false fab s
/-- VOTED_WRITE (R66). -/
def execVotedWrite (req : HostReq) (s : State) : Host.Outcome State Fault Refusal :=
  hostRow (fun p => match p with | .laneReg v _ => v == 0 | _ => false) req true 0 s
/-- LANE_VIEW_WRITE (R67). -/
def execLaneViewWrite (req : HostReq) (s : State) : Host.Outcome State Fault Refusal :=
  hostRow (fun p => match p with | .laneReg v _ => v != 0 | _ => false) req true 0 s
/-- PAIR_LOW_READ (R439). -/
def execPairLowRead (req : HostReq) (fab : Nat) (s : State) : Host.Outcome State Fault Refusal :=
  hostRow (fun p => match p with | .laneReg _ k => pairLow k | _ => false) req false fab s
/-- RC_READ (R441). -/
def execRcRead (req : HostReq) (fab : Nat) (s : State) : Host.Outcome State Fault Refusal := hostRow Place.clears req false fab s
/-- HOSTREQ_WRITE (R380). -/
def execHostreqWrite (req : HostReq) (s : State) : Host.Outcome State Fault Refusal :=
  hostRow (fun p => p == .safe f_SAFE_HOSTREQ_REQ.key) req true 0 s
/-- IRQ_ENABLE_WRITE (R455). -/
def execIrqEnableWrite (req : HostReq) (s : State) : Host.Outcome State Fault Refusal :=
  hostRow (fun p => p == .arbReg f_ARB_IRQEN_EN.key) req true 0 s
/-- MBX_H2D_PRODUCER_WRITE (R452). -/
def execMbxH2dProducerWrite (req : HostReq) (s : State) : Host.Outcome State Fault Refusal :=
  hostRow (fun p => p == .mbx f_ARB_MBXH2DP_PROD.key) req true 0 s
/-- MBX_D2H_CONSUMER_WRITE (R454). -/
def execMbxD2hConsumerWrite (req : HostReq) (s : State) : Host.Outcome State Fault Refusal :=
  hostRow (fun p => p == .mbx f_ARB_MBXD2HC_CONS.key) req true 0 s
/-- STALL_TIMEOUT (R448). -/
def execStallTimeout (s : State) : Host.Outcome State Fault Refusal := .next s.settleStall.stallLimit.serveDelayed

/-- A read at the register of a unit window, as the lane itself serves it. -/
def laneReadRow (lane : LaneId) (k fab : Nat) (s : State) : Host.Outcome State Fault Refusal :=
  laneWhen s lane (fun l => l.answers [(.laneReg 1 k, 15)]) fun l => (l.regRead lane k 15 fab).1
/-- WAYMARK_EVENT_POP (R300). -/
def execWaymarkEventPop (lane : LaneId) (s : State) : Host.Outcome State Fault Refusal :=
  laneReadRow lane f_TIME_EVHDR_EVOVF.key 0 s
/-- TIME_CLOCK_READ (R284). -/
def execTimeClockRead (lane : LaneId) (fab : Nat) (s : State) : Host.Outcome State Fault Refusal :=
  laneReadRow lane f_TIME_CLKNS_NS.key fab s

/-- MAILBOX_D2H_COPY (R310): the lane's oldest mailbox message reaches the arbiter. -/
def execMailboxD2hCopy (lane : LaneId) (s : State) : Host.Outcome State Fault Refusal :=
  .next (match (s.lane lane).tx.find? fun t => t.port == 0xFF with
    | some t =>
      if s.arb.runs && s.arb.mask.has lane then
        (s.onLane lane fun l => { l with tx := l.tx.eraseP fun t => t.port == 0xFF }).onArb fun a => a.mailboxCopy lane t.bytes
      else s
    | none => s)
/-- MAILBOX_D2H_TIMEOUT (R311). -/
def execMailboxD2hTimeout (s : State) : Host.Outcome State Fault Refusal :=
  .next (if s.arb.runs then s.onArb Arb.copyTimeout else s)

/-- FUNCTION_LEVEL_RESET (R456). -/
def execFunctionLevelReset (s : State) : Host.Outcome State Fault Refusal :=
  .next (if s.arb.inReset || s.arb.perst then s else s.onArb Arb.functionReset)
/-- PERST_RELEASE (R494). -/
def execPerstRelease (s : State) : Host.Outcome State Fault Refusal := .next (s.onArb fun a => { a with perst := false })
/-- PERST_N_FALL (R494). -/
def execPerstNFall (s : State) : Host.Outcome State Fault Refusal :=
  .next (s.onArb fun a => { a.endpointReset with perst := true })
/-- POWER_STATE_WRITE (R427). -/
def execPowerStateWrite (d3 : Bool) (s : State) : Host.Outcome State Fault Refusal :=
  .next (if s.arb.inReset || s.arb.perst then s else s.onArb fun a => { a with d3hot := d3 })

end Sys2Proof.Machine
end

