-- ==== Sys2Proof/Machine/Island.lean ====
section
/-! DEFINITION. The safety island (chapter 12): configuration, the evaluation cycle, channel states, diagnostics and
restart. -/
namespace Sys2Proof.Machine

/-! ### Configuration (R361 to R364) -/

/-- One channel's entry of the configuration block (R362). -/
structure ChanCfg where
  mode : Nat
  tpsrc : Nat
  filter : Nat
  sources : Nat
  window : Nat
  amin : Nat
  margin : Nat
  tmax : Nat
  vstand : Nat
  vmax : Nat
  decmax : Nat
deriving DecidableEq, Repr

/-- Channel n's entry in a block. -/
def islCfg (block : Bytes) (n : Nat) : ChanCfg :=
  let o := 16 + 32 * n
  { mode := natAt block o 1, tpsrc := natAt block (o + 1) 1, filter := natAt block (o + 2) 1
    sources := natAt block (o + 3) 1, window := natAt block (o + 4) 1
    amin := natAt block (o + 8) 4, margin := natAt block (o + 12) 4, tmax := natAt block (o + 16) 4
    vstand := natAt block (o + 20) 4, vmax := natAt block (o + 24) 4, decmax := natAt block (o + 28) 4 }

/-- CONFIRM at the island (R363, R364): adopt the block when its CRC matches, refuse it otherwise, ignore it while LOCKED. -/
def Island.confirmBlock (i : Island) (block : Bytes) (confirm : Word) : Island :=
  if i.locked then { i with confirm := 3, regs := fflag i.regs f_SAFE_STAT_CFGVIOL }
  else
    let c := crc32 block
    if c = confirm then
      { i with
        locked := true, block := block, crc := c, confirm := 1
        ch := i.ch.mapIdx fun n x =>
          if (islCfg block n).mode ≠ 0 ∧ x.st = 0 then { x with st := 3, settling := true } else x }
    else { i with confirm := 2, regs := fflag i.regs f_SAFE_STAT_CRCREJECT }

/-! ### Diagnostics of one channel (Table 12-6) -/

/-- v falls below a binary32 threshold in Hz; `w` the window in ms. -/
def speedBelow (edges w thr : Nat) : Bool :=
  decide ((edges * 1000 * 2 ^ 149 : Int) < w * f32Scaled thr)
/-- v above a binary32 threshold. -/
def speedAbove (edges w thr : Nat) : Bool :=
  decide (w * f32Scaled thr < (edges * 1000 * 2 ^ 149 : Int))
/-- v exceeds v_lim(t) = v0 − AMIN · t + MARGIN, t in evaluation cycles of 250 µs (R368). -/
def aboveEnvelope (c : ChanCfg) (v v0 t : Nat) : Bool :=
  let lhs : Int := v * 4000000 * 2 ^ 149
  let rhs : Int := v0 * 4000000 * 2 ^ 149 - f32Scaled c.amin * t * c.window + f32Scaled c.margin * c.window * 4000
  decide (rhs < lhs)
/-- v fell between two cycles by more than DECMAX × 250 µs + 1/W (FROZEN). -/
def fellTooFast (c : ChanCfg) (v vPrev : Nat) : Bool :=
  let lhs : Int := ((vPrev : Int) - v) * 4000000 * 2 ^ 149
  let rhs : Int := f32Scaled c.decmax * c.window + 4000000 * 2 ^ 149
  decide (rhs < lhs)

/-- The first failing channel diagnostic of a cycle, by lowest cause code; 0 when none fails. -/
def islDiag (c : ChanCfg) (x : IslChannel) (s : ChannelSample) : Nat :=
  if speedAbove s.edges c.window c.vmax then 2
  else if fellTooFast c s.edges x.v then 3
  else if x.hsFail then 4
  else if x.lsFail then 5
  else if !x.settling && (s.hsb != x.gate || s.lsb != x.gate) then 6
  else if 2 ≤ x.missed then 7
  else 0

/-- A request source is active (R357). -/
def islRequest (i : Island) (n : Nat) (c : ChanCfg) (s : ChannelSample) : Bool :=
  decide (c.filter * 8000 ≤ s.low)
  || (c.sources.testBit 0 && i.word.getLsbD n)
  || (c.sources.testBit 1 && i.hostReq.getLsbD n)
  || (c.sources.testBit 2 && i.lost)

/-- One channel through one evaluation cycle (R366, steps 2 to 4; Table 12-4). `restart`: the cycle samples the rising
edge of a valid pulse. -/
def islChannelStep (i : Island) (restart : Bool) (n : Nat) (x : IslChannel) (s : ChannelSample) : IslChannel :=
  let c := islCfg i.block n
  if x.st = 0 then { x with v := s.edges, req := i.locked && islRequest i n c s }
  else
    let d := islDiag c x s
    let req := islRequest i n c s
    let y := { x with v := s.edges, vPrev := x.v, req := req, hsFail := false, lsFail := false, settling := false }
    let held := decide (x.st = 4) && decide (x.cause = 8)
    let st1 : Nat × Nat × Nat × Nat :=          -- state, cause, v0, t
      if held then (4, 8, x.v0, x.t)
      else if i.faults ≠ 0 then (4, 8, x.v0, x.t)
      else if d ≠ 0 then (4, if x.st = 4 then x.cause else d, x.v0, x.t)
      else if x.st = 1 ∧ req then
        if c.mode = 2 ∨ speedBelow s.edges c.window c.vstand then (3, x.cause, x.v0, x.t)
        else (2, x.cause, s.edges, 0)
      else if x.st = 2 then
        if speedBelow s.edges c.window c.vstand then (3, x.cause, x.v0, x.t)
        else if aboveEnvelope c s.edges x.v0 x.t then (4, 1, x.v0, x.t)
        else if c.tmax * 4 ≤ x.t then (3, x.cause, x.v0, x.t)
        else (2, x.cause, x.v0, x.t + 1)
      else (x.st, x.cause, x.v0, x.t)
    let able := (st1.1 == 3 || st1.1 == 4) && !(st1.1 == 4 && st1.2.1 == 8) && !req && !s.hsb && !s.lsb
      && x.seen && decide (x.missed = 0) && decide (d = 0) && decide (i.faults = 0)
    let stEnd := if able && restart then 1 else st1.1
    let gate := decide (stEnd = 1 ∨ stEnd = 2)
    { y with st := stEnd, cause := st1.2.1, v0 := st1.2.2.1, t := st1.2.2.2, restartable := able,
             gate := gate, settling := gate != x.gate }

/-- Counts that one channel's transition makes: FAULTNEW, CAUSE, TESTFAIL and STOPS. -/
def islCount (n : Nat) (x y : IslChannel) (r : RegMap) : RegMap :=
  let r := if y.st = 4 ∧ x.st ≠ 4 then
      fset (forBits r f_SAFE_FAULT_FAULTNEW (2 ^ n)) (f_SAFE_CHDIAG_CAUSE.at (4 * n)) y.cause
    else r
  if x.st = 1 ∧ (y.st = 2 ∨ y.st = 3) then fbump r (f_SAFE_CHDIAG_STOPS.at (4 * n)) else r

/-- Bits of a predicate over the sixteen channels. -/
def chanBits (ch : List IslChannel) (p : IslChannel → Bool) : Nat :=
  (ch.mapIdx fun n x => if p x then 2 ^ n else 0).sum

/-- The window contents at the end of an evaluation cycle: the counts and flags, with the fields that show state. -/
def Island.view (i : Island) : RegMap :=
  let r := i.regs
  let r := fbool r f_SAFE_STAT_LOSS i.lost
  let r := fbool r f_SAFE_STAT_ARMED i.armed
  let r := fbool r f_SAFE_STAT_RESETSTUCK i.stuck
  let r := fbool r f_SAFE_STAT_SFAULT i.sfault
  let r := fbool r f_SAFE_STAT_ISLFAULT (i.faults ≠ 0)
  let r := fset r f_SAFE_STAT_LOCKSTATE i.locked.toNat
  let st := i.ch.mapIdx fun n x => x.st * 16 ^ (n % 8)
  let r := rset r f_SAFE_CHSTATE_CH0.key (BitVec.ofNat 32 (st.take 8).sum)
  let r := rset r (f_SAFE_CHSTATE_CH0.key + 4) (BitVec.ofNat 32 (st.drop 8).sum)
  let r := fset r f_SAFE_RESTART_REQACT (chanBits i.ch (·.req))
  let r := fset r f_SAFE_RESTART_RESTARTABLE (chanBits i.ch (·.restartable))
  let r := fset r f_SAFE_FAULT_FAULT (chanBits i.ch (·.st == 4))
  let r := rset r f_SAFE_ISLFAULT_CLOCK.key (BitVec.ofNat 32 (i.faults.toNat + 65536 * i.first))
  let r := rset r f_SAFE_CRC_CRC.key (if i.locked then i.crc else 0)
  (List.range 16).foldl (fun r n =>
    let w := (islCfg i.block n).window
    let v := (i.ch.getD n islChannelReset).v
    fsat r (f_SAFE_SPEED_SPEED.at (4 * n)) (if w = 0 then 0 else v * 100000 / w)) r

/-- An island diagnostic fails (R372): the cause is latched and every channel enters FAULT, cause ISLAND. Bit numbers
as SAFE_ISLFAULT: 0 CLOCK, 1 RAM, 2 CFGCRC, 3 SUPPLY, 4 CYCLE. -/
def Island.islandFault (i : Island) (bit : Nat) : Island :=
  let ch := i.ch.map fun x =>
    { x with st := 4, cause := 8, gate := false, settling := true, restartable := false }
  let regs := (List.range 16).foldl (fun r n =>
    let x := i.ch.getD n islChannelReset
    if x.st = 4 ∧ x.cause = 8 then r
    else
      let r := fset r (f_SAFE_CHDIAG_CAUSE.at (4 * n)) 8
      if x.st = 4 then r else forBits r f_SAFE_FAULT_FAULTNEW (2 ^ n)) i.regs
  { i with faults := i.faults ||| BitVec.ofNat 5 (2 ^ bit), first := if i.first = 0 then bit + 1 else i.first,
           ch := ch, regs := regs, sfault := true }

/-- The voted word is lost when no valid one has arrived for 1 ms, four evaluation cycles (R360). -/
def Island.loseWord (i : Island) : Island :=
  if i.newWord.isNone && decide (3 ≤ i.sinceWord) then { i with lost := true } else i

/-- One evaluation cycle (R366): the newest valid word and SAFE_HOSTREQ are taken, diagnostics, requests and envelopes,
restarts, gates, and the shadows are refreshed at its end (Table 15-4). -/
def Island.evaluate (i : Island) (host : BitVec 16) (samples : List ChannelSample) (restart : Bool) : Island :=
  let i := match i.newWord with
    | some w => { i with word := w, newWord := none, lost := false, sinceWord := 0, hostReq := host }
    | none => { i.loseWord with sinceWord := satAdd 4 i.sinceWord 1, hostReq := host }
  let i := if i.locked && crc32 i.block != i.crc then i.islandFault 2 else i
  let ch := i.ch.mapIdx fun n x => islChannelStep i restart n x (samples.getD n ⟨0, 0, false, false⟩)
  let regs := (List.range 16).foldl (fun r n =>
    islCount n (i.ch.getD n islChannelReset) (ch.getD n islChannelReset) r) i.regs
  let i := { i with ch := ch, regs := regs }
  let i := { i with sfault := i.ch.any (·.st == 4) || i.faults != 0 }
  { i with shadow := i.view }

/-- Edge counts over a window of `w` ms as a binary32 speed in Hz. -/
def speedHz (w edges : Nat) : Nat := if w = 0 then 0 else fofRatio fmt32 (edges * 1000 : Nat) w
/-- The status word the arbiter takes at each evaluation (R369). -/
def Island.statusWord (i : Island) : IslandWord :=
  { stopping := BitVec.ofNat 16 (chanBits i.ch (·.st == 2))
    stopped := BitVec.ofNat 16 (chanBits i.ch fun x => x.st == 3 || x.st == 4)
    fault := BitVec.ofNat 16 (chanBits i.ch (·.st == 4))
    restartable := BitVec.ofNat 16 (chanBits i.ch (·.restartable))
    locked := i.locked, islFault := i.faults ≠ 0, crc := if i.locked then i.crc else 0, confirm := i.confirm
    ch := i.ch.mapIdx fun n c =>
      (c.st, c.cause, speedHz (islCfg i.block n).window c.v, speedHz (islCfg i.block n).window c.v0)
    faults := rget i.shadow f_SAFE_ISLFAULT_CYCLE.key }

/-- A stop-request word arrives (R359): a word with a good CRC and a new sequence number is valid. -/
def Island.takeWord (i : Island) (seq : Nat) (w : BitVec 16) (crcOk : Bool) : Island :=
  if crcOk && seq != i.wordSeq then { i with newWord := some w, wordSeq := seq, sinceWord := 0 } else i

/-- Off-pulse test of one switch (R372, HSTEST and LSTEST), in RUN and STOPPING; high side and low side alternate. -/
def Island.switchTest (i : Island) (n : Nat) (fell rose : Bool) : Island :=
  let x := i.ch.getD n islChannelReset
  if x.st = 1 ∨ x.st = 2 then
    let bad := !(fell && rose)
    let ch := lmod i.ch n fun x =>
      { x with hsFail := x.hsFail || (bad && x.testHigh), lsFail := x.lsFail || (bad && !x.testHigh),
               testHigh := !x.testHigh, settling := true }
    { i with ch := ch, regs := if bad then fbump i.regs (f_SAFE_CHDIAG_TESTFAIL.at (4 * n)) else i.regs }
  else i

/-- A low pulse of a test source ended (R372, TESTPULSE): `high` the channels whose SSREQn read high, `seen` those on
which the pulse appeared within 100 µs. -/
def Island.testPulse (i : Island) (src : Nat) (high seen : BitVec 16) : Island :=
  let hit (n : Nat) : Bool := decide ((islCfg i.block n).mode ≠ 0) && decide ((islCfg i.block n).tpsrc = src)
  let ch := i.ch.mapIdx fun n x =>
    if hit n then
      if seen.getLsbD n then { x with missed := 0, seen := true }
      else if high.getLsbD n then { x with missed := x.missed + 1, seen := false }
      else { x with seen := false }
    else x
  let regs := (List.range 16).foldl (fun r n =>
    if hit n && high.getLsbD n && !seen.getLsbD n then fbump r (f_SAFE_CHDIAG_TESTFAIL.at (4 * n)) else r) i.regs
  { i with ch := ch, regs := regs }

/-- A filtered rising edge of SRESET_N after a low of `us` µs (R373 to R375): the counts, and whether it is a valid
pulse. The input must be high for 1 s again before it is armed. -/
def Island.resetRise (i : Island) (us : Nat) : Island × Bool :=
  let valid := i.armed && !i.stuck && decide (50000 ≤ us) && decide (us ≤ 3000000)
  let regs := if us < 50000 then fbump i.regs f_SAFE_RSTCNT_SHORTCNT
    else if valid then fbump i.regs f_SAFE_RSTCNT_VALIDCNT else i.regs
  ({ i with armed := false, regs := regs }, valid)

/-- A low of SRESET_N reaches 3 s (R375). -/
def Island.resetStuck (i : Island) : Island :=
  { i with stuck := true, armed := false, regs := fbump i.regs f_SAFE_RSTCNT_STUCKCNT }

/-- SRESET_N has stayed high for 1 s (R373, R375). -/
def Island.resetArm (i : Island) : Island := { i with armed := true, stuck := false }

end Sys2Proof.Machine
end

