-- ==== Sys2Proof/Machine/IslandCmds.lean ====
section
/-! DEFINITION. The commands of the safety island (R359 to R378). -/
namespace Sys2Proof.Machine

/-- The host stop requests, which the arbiter holds (R380). -/
def Arb.hostReq (a : Arb) : BitVec 16 := BitVec.ofNat 16 (fget a.regs f_SAFE_HOSTREQ_REQ)
/-- A channel enters FAULT, or an island fault arises. -/
def Island.faultsNew (i j : Island) : Bool :=
  (decide (i.faults = 0) && decide (j.faults ≠ 0))
  || (List.range 16).any fun n => (i.ch.getD n islChannelReset).st != 4 && (j.ch.getD n islChannelReset).st == 4
/-- The island changes; a new fault is cause 9 of Table 15-7. -/
def State.onIsl (s : State) (f : Island → Island) : State :=
  let j := f s.isl
  let t := { s with isl := j }
  if s.isl.faultsNew j then t.onArb fun a => a.irq 9 else t
/-- The arbiter takes the island's status word of an evaluation (R369). -/
def Arb.takeIsland (a : Arb) (w : IslandWord) : Arb :=
  if a.inReset then a else { a with islWord := w, islSeen := a.islSeen || w.locked }
/-- One evaluation cycle; `restart` when it samples the rising edge of a valid pulse. -/
def State.evaluate (s : State) (f : Island → Island) (samples : List ChannelSample) (restart : Bool) : State :=
  let s := s.onIsl fun i => (f i).evaluate s.arb.hostReq samples restart
  s.onArb fun a => a.takeIsland s.isl.statusWord

/-- EVALUATION_CYCLE (R366). -/
def execEvaluationCycle (samples : List ChannelSample) (s : State) : Host.Outcome State Fault Refusal :=
  .next (s.evaluate id samples false)
/-- The arbiter sends the island the voted word in this slot: one has passed, the gate is open, lanes take part and no trip
has occurred (R359, R360). -/
def Arb.sendsWord (a : Arb) : Option (BitVec 16) :=
  if a.runs && a.gateOpen && decide (0 < a.mask.count) then a.stop else none
/-- STOP_WORD (R359): the word of this slot reaches the island, with a good CRC or a bad one. -/
def execStopWord (crcOk : Bool) (s : State) : Host.Outcome State Fault Refusal :=
  .next (match s.arb.sendsWord with
    | some w => s.onIsl fun i => i.takeWord s.arb.ticks w crcOk
    | none => s)
/-- STOP_WORD_LOSS (R360): a millisecond without a valid word. -/
def execStopWordLoss (s : State) : Host.Outcome State Fault Refusal := .next (s.onIsl Island.loseWord)

/-- The island answers a configuration block: LOCKSTATE, as event LOCK (R363, Table 10-10). -/
def State.lockEvent (s : State) : State :=
  s.onSet s.arb.mask fun _ l => { l.event 8 (leBytes 2 0x1500 ++ leBytes 1 s.isl.locked.toNat) with cfgOut := none }
/-- The block and CONFIRM that the lanes taking part send; it reaches the island once. -/
def State.configOut (s : State) : Option (Bytes × Word) := s.arb.mask.toList.findSome? fun x => (s.lane x).cfgOut
/-- CONFIG_CONFIRM (R363, R364). -/
def execConfigConfirm (s : State) : Host.Outcome State Fault Refusal :=
  .next (match s.configOut with
    | some c => (s.onIsl fun i => i.confirmBlock c.1 c.2).lockEvent
    | none => s)

/-- SWITCH_TEST (R372): the off-pulse test of a channel, its readback fell and rose in time. -/
def execSwitchTest (ch : Nat) (fell rose : Bool) (s : State) : Host.Outcome State Fault Refusal :=
  .next (s.onIsl fun i => i.switchTest ch fell rose)
/-- TEST_PULSE (R372): a low pulse of STP0 or STP1 has ended. -/
def execTestPulse (src : Nat) (high seen : BitVec 16) (s : State) : Host.Outcome State Fault Refusal :=
  .next (s.onIsl fun i => i.testPulse src high seen)
/-- CLOCK_CHECK (R372): the deviation of the oscillator in ppm; above 2 % is an island fault. -/
def execClockCheck (ppm : Int) (s : State) : Host.Outcome State Fault Refusal :=
  .next (s.onIsl fun i => if 20000 < ppm.natAbs then i.islandFault 0 else i)
/-- RAM_MARCH (R372). -/
def execRamMarch (ok : Bool) (s : State) : Host.Outcome State Fault Refusal :=
  .next (s.onIsl fun i => if ok then i else i.islandFault 1)
/-- VDD_SAFE_FAULT (R372): VDD_SAFE in mV over 10 µs. -/
def execVddSafeFault (mv : Nat) (s : State) : Host.Outcome State Fault Refusal :=
  .next (s.onIsl fun i => if mv < 1620 ∨ 1980 < mv then i.islandFault 3 else i)
/-- CYCLE_WATCHDOG (R372): time since the last evaluation cycle. -/
def execCycleWatchdog (us : Nat) (s : State) : Host.Outcome State Fault Refusal :=
  .next (s.onIsl fun i => if 300 ≤ us then i.islandFault 4 else i)
/-- SRESET_RISE (R373 to R375): the low lasted `us`; the cycle that samples the edge restarts on a valid pulse. -/
def execSresetRise (us : Nat) (samples : List ChannelSample) (s : State) : Host.Outcome State Fault Refusal :=
  let r := s.isl.resetRise us
  .next (s.evaluate (fun _ => r.1) samples r.2)
/-- SRESET_STUCK (R375). -/
def execSresetStuck (s : State) : Host.Outcome State Fault Refusal := .next (s.onIsl Island.resetStuck)
/-- SRESET_ARM (R373). -/
def execSresetArm (s : State) : Host.Outcome State Fault Refusal := .next (s.onIsl Island.resetArm)
/-- ISLAND_POWER_ON (R377, R378). -/
def execIslandPowerOn (s : State) : Host.Outcome State Fault Refusal := .next { s with isl := islandReset }

end Sys2Proof.Machine
end

