-- ==== Sys2Proof/Machine/KeyCmds.lean ====
section
/-! DEFINITION. The host jobs of the key unit (R338, R340). -/
namespace Sys2Proof.Machine

/-- A host job comes to its turn; while another one waits it does not. -/
def keyJob (s : State) (lane : LaneId) (op len : Nat) : Host.Outcome State Fault Refusal :=
  laneWhen s lane (fun l => l.key.job.all fun j => j.1 == op) fun l => l.hostKey op len

/-- DERIVE along the path of KEY_PATH. -/
def execKeyDerive (lane : LaneId) (s : State) : Host.Outcome State Fault Refusal := keyJob s lane 1 0

/-- CRYPT: a CMAC over LEN bytes of KEY_DATA. -/
def execKeyCrypt (lane : LaneId) (len : Nat) (s : State) : Host.Outcome State Fault Refusal := keyJob s lane 2 len

/-- CLEAR of the key register. -/
def execKeyClear (lane : LaneId) (s : State) : Host.Outcome State Fault Refusal := keyJob s lane 3 0

/-- KCV: the key check value of the derived key. -/
def execKeyKcv (lane : LaneId) (s : State) : Host.Outcome State Fault Refusal := keyJob s lane 4 0

end Sys2Proof.Machine
end

