-- ==== Sys2Proof/Machine/LogicCmds.lean ====
section
/-! DEFINITION. The commands of the loop engine and of the logic sequencer (chapters 05 and 06). -/
namespace Sys2Proof.Machine

/-- A swap request for one loop sets SWAPPEND (R167). -/
def execBankSwapLoop (lane : LaneId) (loop : Nat) (s : State) : Host.Outcome State Fault Refusal :=
  laneNext s lane fun l => l.swapLoop loop

/-- A swap request for every enabled loop of a group sets SWAPPEND (R167). -/
def execBankSwapGroup (lane : LaneId) (group : Nat) (s : State) : Host.Outcome State Fault Refusal :=
  laneNext s lane fun l => l.swapGroup group

/-- A pending swap toggles BANK at step 5 of the loop's next due slot (R167), between t1 and the loops. -/
def execBankSwapApply (lane : LaneId) (loop : Nat) (s : State) : Host.Outcome State Fault Refusal :=
  laneWhen s lane (fun l => l.agree.stage == .imaged) fun l => l.swapApply loop

/-- RESET in LENG_LOOPCMD zeroes a loop's section states (R164). -/
def execLoopReset (lane : LaneId) (loop : Nat) (s : State) : Host.Outcome State Fault Refusal :=
  laneNext s lane fun l => l.loopReset loop

/-- ARM empties a trace ring and enters ARMED (R172). -/
def execTraceArm (lane : LaneId) (ch : Nat) (s : State) : Host.Outcome State Fault Refusal :=
  laneNext s lane fun l => l.traceArm ch

/-- STOP puts a trace channel into IDLE and keeps its contents (R172). -/
def execTraceStop (lane : LaneId) (ch : Nat) (s : State) : Host.Outcome State Fault Refusal :=
  laneNext s lane fun l => l.traceStop ch

/-- FORCE triggers an armed channel at its next sample (R172). -/
def execTraceForce (lane : LaneId) (ch : Nat) (s : State) : Host.Outcome State Fault Refusal :=
  laneNext s lane fun l => l.traceForce ch

/-- A logic cycle begins: the previous output image is published, inputs are captured and forced, and execution starts (R174), at step 6 of Table 01-6, after the earlier steps. -/
def execLogicCycleStart (lane : LaneId) (s : State) : Host.Outcome State Fault Refusal :=
  laneWhen s lane (fun l => l.agree.stage == .imaged) fun l => l.boundary lane

/-- ACC := operand (R180), where it is the next instruction of the program. -/
def execSeqLd (lane : LaneId) (area addr : Nat) (s : State) : Host.Outcome State Fault Refusal :=
  laneNext s lane fun l => l.instrCmd 0x01 area addr

/-- ACC := not operand (R180), where it is the next instruction of the program. -/
def execSeqLdn (lane : LaneId) (area addr : Nat) (s : State) : Host.Outcome State Fault Refusal :=
  laneNext s lane fun l => l.instrCmd 0x02 area addr

/-- ACC := ACC and operand (R180), where it is the next instruction of the program. -/
def execSeqAnd (lane : LaneId) (area addr : Nat) (s : State) : Host.Outcome State Fault Refusal :=
  laneNext s lane fun l => l.instrCmd 0x03 area addr

/-- ACC := ACC and not operand (R180), where it is the next instruction of the program. -/
def execSeqAndn (lane : LaneId) (area addr : Nat) (s : State) : Host.Outcome State Fault Refusal :=
  laneNext s lane fun l => l.instrCmd 0x04 area addr

/-- ACC := ACC or operand (R180), where it is the next instruction of the program. -/
def execSeqOr (lane : LaneId) (area addr : Nat) (s : State) : Host.Outcome State Fault Refusal :=
  laneNext s lane fun l => l.instrCmd 0x05 area addr

/-- ACC := ACC or not operand (R180), where it is the next instruction of the program. -/
def execSeqOrn (lane : LaneId) (area addr : Nat) (s : State) : Host.Outcome State Fault Refusal :=
  laneNext s lane fun l => l.instrCmd 0x06 area addr

/-- ACC := ACC xor operand (R180), where it is the next instruction of the program. -/
def execSeqXor (lane : LaneId) (area addr : Nat) (s : State) : Host.Outcome State Fault Refusal :=
  laneNext s lane fun l => l.instrCmd 0x07 area addr

/-- Operand := ACC (R180), where it is the next instruction of the program. -/
def execSeqSt (lane : LaneId) (area addr : Nat) (s : State) : Host.Outcome State Fault Refusal :=
  laneNext s lane fun l => l.instrCmd 0x08 area addr

/-- Operand := not ACC (R180), where it is the next instruction of the program. -/
def execSeqStn (lane : LaneId) (area addr : Nat) (s : State) : Host.Outcome State Fault Refusal :=
  laneNext s lane fun l => l.instrCmd 0x09 area addr

/-- If ACC, operand := 1 (R180), where it is the next instruction of the program. -/
def execSeqSet (lane : LaneId) (area addr : Nat) (s : State) : Host.Outcome State Fault Refusal :=
  laneNext s lane fun l => l.instrCmd 0x0A area addr

/-- If ACC, operand := 0 (R180), where it is the next instruction of the program. -/
def execSeqRst (lane : LaneId) (area addr : Nat) (s : State) : Host.Outcome State Fault Refusal :=
  laneNext s lane fun l => l.instrCmd 0x0B area addr

/-- Push (ACC, AND) and set ACC := 1 (R182), where it is the next instruction of the program. -/
def execSeqAndParen (lane : LaneId) (s : State) : Host.Outcome State Fault Refusal :=
  laneNext s lane fun l => l.instrCmd 0x10 0 0

/-- Push (ACC, OR) and set ACC := 0 (R182), where it is the next instruction of the program. -/
def execSeqOrParen (lane : LaneId) (s : State) : Host.Outcome State Fault Refusal :=
  laneNext s lane fun l => l.instrCmd 0x11 0 0

/-- Pop (a, f) and set ACC := a f ACC (R182), where it is the next instruction of the program. -/
def execSeqCloseParen (lane : LaneId) (s : State) : Host.Outcome State Fault Refusal :=
  laneNext s lane fun l => l.instrCmd 0x12 0 0

/-- Evaluate an on-delay timer on ACC and load its Q (R187), where it is the next instruction of the program. -/
def execSeqTon (lane : LaneId) (n : Nat) (s : State) : Host.Outcome State Fault Refusal :=
  laneNext s lane fun l => l.instrCmd 0x20 3 n

/-- Evaluate an off-delay timer on ACC and load its Q (R187), where it is the next instruction of the program. -/
def execSeqTof (lane : LaneId) (n : Nat) (s : State) : Host.Outcome State Fault Refusal :=
  laneNext s lane fun l => l.instrCmd 0x21 3 n

/-- Evaluate a pulse timer on ACC and load its Q (R187), where it is the next instruction of the program. -/
def execSeqTp (lane : LaneId) (n : Nat) (s : State) : Host.Outcome State Fault Refusal :=
  laneNext s lane fun l => l.instrCmd 0x22 3 n

/-- Count up on a rising edge of ACC and load QU (R188), where it is the next instruction of the program. -/
def execSeqCu (lane : LaneId) (n : Nat) (s : State) : Host.Outcome State Fault Refusal :=
  laneNext s lane fun l => l.instrCmd 0x28 4 n

/-- Count down on a rising edge of ACC and load QD (R188), where it is the next instruction of the program. -/
def execSeqCd (lane : LaneId) (n : Nat) (s : State) : Host.Outcome State Fault Refusal :=
  laneNext s lane fun l => l.instrCmd 0x29 4 n

/-- Reset the counter while ACC is 1 (R188), where it is the next instruction of the program. -/
def execSeqCr (lane : LaneId) (n : Nat) (s : State) : Host.Outcome State Fault Refusal :=
  laneNext s lane fun l => l.instrCmd 0x2A 4 n

/-- Rising-edge detection on ACC (R190), where it is the next instruction of the program. -/
def execSeqRise (lane : LaneId) (n : Nat) (s : State) : Host.Outcome State Fault Refusal :=
  laneNext s lane fun l => l.instrCmd 0x30 5 n

/-- Falling-edge detection on ACC (R190), where it is the next instruction of the program. -/
def execSeqFall (lane : LaneId) (n : Nat) (s : State) : Host.Outcome State Fault Refusal :=
  laneNext s lane fun l => l.instrCmd 0x31 5 n

/-- WACC := word operand (R180), where it is the next instruction of the program. -/
def execSeqLw (lane : LaneId) (area addr : Nat) (s : State) : Host.Outcome State Fault Refusal :=
  laneNext s lane fun l => l.instrCmd 0x38 area addr

/-- Word operand := WACC (R180), where it is the next instruction of the program. -/
def execSeqSw (lane : LaneId) (area addr : Nat) (s : State) : Host.Outcome State Fault Refusal :=
  laneNext s lane fun l => l.instrCmd 0x39 area addr

/-- WACC := WACC − operand, saturated (R180), where it is the next instruction of the program. -/
def execSeqSubw (lane : LaneId) (area addr : Nat) (s : State) : Host.Outcome State Fault Refusal :=
  laneNext s lane fun l => l.instrCmd 0x3A area addr

/-- WACC := |WACC|, saturated (R180), where it is the next instruction of the program. -/
def execSeqAbsw (lane : LaneId) (s : State) : Host.Outcome State Fault Refusal :=
  laneNext s lane fun l => l.instrCmd 0x3B 0 0

/-- ACC := (WACC = operand) (R180), where it is the next instruction of the program. -/
def execSeqCeq (lane : LaneId) (area addr : Nat) (s : State) : Host.Outcome State Fault Refusal :=
  laneNext s lane fun l => l.instrCmd 0x40 area addr

/-- ACC := (WACC ≠ operand) (R180), where it is the next instruction of the program. -/
def execSeqCne (lane : LaneId) (area addr : Nat) (s : State) : Host.Outcome State Fault Refusal :=
  laneNext s lane fun l => l.instrCmd 0x41 area addr

/-- ACC := (WACC < operand) (R180), where it is the next instruction of the program. -/
def execSeqClt (lane : LaneId) (area addr : Nat) (s : State) : Host.Outcome State Fault Refusal :=
  laneNext s lane fun l => l.instrCmd 0x42 area addr

/-- ACC := (WACC > operand) (R180), where it is the next instruction of the program. -/
def execSeqCgt (lane : LaneId) (area addr : Nat) (s : State) : Host.Outcome State Fault Refusal :=
  laneNext s lane fun l => l.instrCmd 0x43 area addr

/-- ACC := (WACC ≤ operand) (R180), where it is the next instruction of the program. -/
def execSeqCle (lane : LaneId) (area addr : Nat) (s : State) : Host.Outcome State Fault Refusal :=
  laneNext s lane fun l => l.instrCmd 0x44 area addr

/-- ACC := (WACC ≥ operand) (R180), where it is the next instruction of the program. -/
def execSeqCge (lane : LaneId) (area addr : Nat) (s : State) : Host.Outcome State Fault Refusal :=
  laneNext s lane fun l => l.instrCmd 0x45 area addr

/-- Continue at the forward target (R181), where it is the next instruction of the program. -/
def execSeqJmp (lane : LaneId) (target : Nat) (s : State) : Host.Outcome State Fault Refusal :=
  laneNext s lane fun l => l.instrCmd 0x50 0 target

/-- If ACC, continue at the forward target (R181), where it is the next instruction of the program. -/
def execSeqJmpc (lane : LaneId) (target : Nat) (s : State) : Host.Outcome State Fault Refusal :=
  laneNext s lane fun l => l.instrCmd 0x51 0 target

/-- End execution of the cycle (R183), where it is the next instruction of the program. -/
def execSeqEnd (lane : LaneId) (s : State) : Host.Outcome State Fault Refusal :=
  laneNext s lane fun l => l.instrCmd 0xFF 0 0

/-- The cycle cost would exceed the budget, so the sequencer stops before the next instruction (R195). -/
def execWatchdogStop (lane : LaneId) (s : State) : Host.Outcome State Fault Refusal :=
  laneNext s lane fun l => l.watchdogStop

/-- Execution has not ended by the strobe of slot c + L; the lane publishes nothing and reports an uncorrectable error (R176). -/
def execLogicExecTimeout (lane : LaneId) (s : State) : Host.Outcome State Fault Refusal :=
  laneNext s lane fun l => l.execTimeout

/-- A RESUME restart begins a new cycle, keeping state and shifting timer starts (R197). -/
def execRestartResume (lane : LaneId) (s : State) : Host.Outcome State Fault Refusal :=
  laneWhen s lane (fun l => l.agree.stage == .imaged && l.lseq.restart == some false) fun l =>
    l.boundary lane

/-- A COLD restart begins a new cycle with flags, counters, edges, outputs and timers cleared (R197). -/
def execRestartCold (lane : LaneId) (s : State) : Host.Outcome State Fault Refusal :=
  laneWhen s lane (fun l => l.agree.stage == .imaged && l.lseq.restart == some true) fun l =>
    l.boundary lane

/-- The load check of a committed logic image ends, making it pending or refusing it (R192). -/
def execLogicImageCheckDone (lane : LaneId) (s : State) : Host.Outcome State Fault Refusal :=
  laneNext s lane fun l => l.imageChecked

/-- A pending image swaps in at the first cycle start at or after commit slot + 100, carrying state across (R193). -/
def execLogicImageSwap (lane : LaneId) (s : State) : Host.Outcome State Fault Refusal :=
  laneWhen s lane (fun l => l.agree.stage == .imaged) fun l => l.step3Run

/-- A lane whose image check has not ended by the swap slot reports an uncorrectable error (R193). -/
def execLogicCheckLate (lane : LaneId) (s : State) : Host.Outcome State Fault Refusal :=
  laneWhen s lane (fun l => l.agree.stage == .imaged && l.checkLate) fun l => l.raiseUce 6

/-- Each RETAINPER of logic time a retain record is written to MRAM (R203). -/
def execRetainWrite (lane : LaneId) (s : State) : Host.Outcome State Fault Refusal :=
  laneWhen s lane Lane.retainDue fun l => l.retainWrite

end Sys2Proof.Machine
end

