-- ==== Sys2Proof/Machine/MeterCmds.lean ====
section
/-! DEFINITION. The commands of metering, totals and pulse outputs (chapters 07 and 08). A command that is one part of the
metering instant performs that instant as far as it reaches, and occurs only where its own effect does. -/
namespace Sys2Proof.Machine

/-- A part of the metering instant: the slot's work up to it is done with `f`, and kept where `p` sees the effect. -/
def Lane.meterPart (l : Lane) (me : LaneId) (f : Lane → Lane) (p : Lane → Lane → Bool) : Lane :=
  if l.working && l.meters then
    let l' := f (l.loopsRun me)
    if p l l' then l' else l
  else l

/-- No crossing within ZCTIMEOUT (R213). -/
def execZcTimeout (lane : LaneId) (feeder : Nat) (s : State) : Host.Outcome State Fault Refusal :=
  laneNext s lane fun l => l.meterPart lane (fun l => l.feederCloses feeder) fun a b =>
    decide ((a.feeder feeder).mode ≠ .nozc) && (decide ((b.feeder feeder).mode = .nozc)
      || decide (rget a.regs f_MTR_ZCTO_TO0.key ≠ rget b.regs f_MTR_ZCTO_TO0.key))

/-- A nominal window closes in NOZC mode (R213). -/
def execNominalWindowClose (lane : LaneId) (feeder : Nat) (s : State) : Host.Outcome State Fault Refusal :=
  laneNext s lane fun l => l.meterPart lane (fun l => l.feederCloses feeder) fun a b =>
    decide ((a.feeder feeder).mode = .nozc) && decide ((b.feeder feeder).mode = .nozc)
      && decide ((a.feeder feeder).tOpen ≠ (b.feeder feeder).tOpen)

/-- A feeder that has reached LATCHN latches (R227). -/
def execMtrLatch (lane : LaneId) (feeder : Nat) (s : State) : Host.Outcome State Fault Refusal :=
  laneNext s lane fun l => l.meterPart lane (fun l => l.feederLatch feeder) fun a b =>
    decide ((a.feeder feeder).seq ≠ (b.feeder feeder).seq)

/-- The 100 ms window of an RTD channel ends (R235, R236). -/
def execRtdConversion (lane : LaneId) (ch : Nat) (x : RtdSense) (s : State) : Host.Outcome State Fault Refusal :=
  laneNext s lane fun l => l.rtdConvert lane ch x

/-- An edge on pulse input n, with the times the input was low and high around it in ns, the time since the last edge in periods of
10.24 MHz and the level of the second input of a pair (R239, R240). -/
def execFlowEdge (lane : LaneId) (n lowNs highNs since : Nat) (level : Bool) (s : State) : Host.Outcome State Fault Refusal :=
  laneNext s lane fun l => l.flowEdge n lowNs highNs since level

/-- No edge on a frequency input within FREQTO (R239). -/
def execFreqTimeout (lane : LaneId) (n : Nat) (s : State) : Host.Outcome State Fault Refusal :=
  laneNext s lane fun l => l.freqTimeout n

/-- A circuit latches at a LATCHN boundary of the agreed time base (R248). -/
def execThmLatch (lane : LaneId) (c : Nat) (s : State) : Host.Outcome State Fault Refusal :=
  laneNext s lane fun l => l.meterPart lane (fun l => l.meterSlot lane) fun a b => decide ((a.circ c).seq ≠ (b.circ c).seq)

/-- A totals record write starts (R251). -/
def execTotalsWrite (lane : LaneId) (s : State) : Host.Outcome State Fault Refusal :=
  laneWhen s lane (fun l => l.totalsDue lane) Lane.totalsStart

/-- A totals record write is complete with its CRC (R251, R254). -/
def execTotalsWriteDone (lane : LaneId) (s : State) : Host.Outcome State Fault Refusal :=
  laneNext s lane Lane.totalsDone

/-- An owed pulse of an output starts (R258). -/
def execVpoPulseStart (lane : LaneId) (out : Nat) (s : State) : Host.Outcome State Fault Refusal :=
  laneNext s lane fun l => l.meterPart lane (fun l => l.meterSlot lane) fun a b =>
    decide ((a.thm.vpo.getD out vpoOut0).active ≠ (b.thm.vpo.getD out vpoOut0).active)
      && (b.thm.vpo.getD out vpoOut0).active.isSome

/-- The width of a pulse ends (R259). -/
def execVpoPulseWidthEnd (lane : LaneId) (out : Nat) (s : State) : Host.Outcome State Fault Refusal :=
  laneNext s lane fun l => l.meterPart lane (fun l => l.meterSlot lane) fun a b =>
    decide ((a.thm.vpo.getD out vpoOut0).lastEnd ≠ (b.thm.vpo.getD out vpoOut0).lastEnd)

/-- The agreed flask is merged at the metering instant of slot a + 1 (R254). -/
def execFlaskMerge (lane : LaneId) (s : State) : Host.Outcome State Fault Refusal :=
  laneNext s lane fun l => l.meterPart lane (fun l => l.meterSlot lane) fun a b => a.thm.merge.isSome && b.thm.merge.isNone

/-- The flask write after a trip is complete with its CRC (R252). -/
def execFlaskWriteDone (lane : LaneId) (s : State) : Host.Outcome State Fault Refusal :=
  laneNext s lane Lane.flaskDone

/-- The merged totals record is complete (R254). -/
def execMergedRecordDone (lane : LaneId) (s : State) : Host.Outcome State Fault Refusal :=
  laneWhen s lane Lane.mergedBusy Lane.totalsDone

end Sys2Proof.Machine
end

