-- ==== Sys2Proof/Machine/PortCmds.lean ====
section
/-! DEFINITION. The commands of the field ports, the PTP instance and the waymark pins (chapter 09). The operand `fab` is
the instant in fabric clocks since the strobe; times of messages are in ns and corrections in 2⁻¹⁶ ns. -/
namespace Sys2Proof.Machine

/-- A port receives a frame: the filters of R264, R265 and R272, then neighbour discovery, TIME or the receive queue of
XACT (R43, R276). -/
def Lane.rxFrame (l : Lane) (me : LaneId) (p fab : Nat) (fcsOk : Bool) (f : Bytes) : Lane :=
  let c := l.portCfg me p
  if 16 ≤ p ∨ (l.port p).up = false ∨ c.enable = false then l
  else match rxFilter (l.port p) c fcsOk f with
    | .error .line => l.portCount p f_PORT_RXDROP_LINEERR
    | .error .filtered => l.portCount p f_PORT_RXDROP_FILTERED
    | .error .ip => l.portCount p f_PORT_RXDROP_IPDROP
    | .error .pause => l
    | .ok (.afesh src sport body) =>
      (l.portCount p f_PORT_RXCNT_RX).rxEnqueue
        { port := 16 * me.num + p, addr := src, uport := sport, bytes := body
          substation := natAt body 0 1 == 0x51 || natAt body 0 1 == 0x52 }
    | .ok .other =>
      let l := l.portCount p f_PORT_RXCNT_RX
      let tagged := beAt f 12 2 == 0x8100
      let ty := beAt f (if tagged then 16 else 12) 2
      let b := f.drop (if tagged then 18 else 14)
      if ty = 0x88F7 then l.rxPtp me p fab b
      else
        let body := (b.drop 40).take (beAt b 4 2)
        match beAt b 6 1 with
        | 17 => l.rxPtp me p fab (body.drop 8)
        | 58 => l.rxIcmp me p (beAt b 7 1) (BitVec.ofNat 128 (beAt b 8 16)) (BitVec.ofNat 128 (beAt b 24 16)) body
        | _ => l.rxIcmp me p (beAt b 7 1) (BitVec.ofNat 128 (beAt b 8 16)) (BitVec.ofNat 128 (beAt b 24 16))
            (body.drop (8 + 8 * beAt body 1 1))

/-- A message that a port of the lane has accepted: counted, then its effect; nothing while the link is down. -/
def Lane.rxMessage (l : Lane) (me : LaneId) (p : Nat) (f : Lane → Lane) : Lane :=
  if 16 ≤ p ∨ (l.port p).up = false ∨ (l.portCfg me p).enable = false then l else f (l.portCount p f_PORT_RXCNT_RX)

/-- A port receives an Ethernet frame, given without its FCS (R264, R265, R272, R276). -/
def execEthFrameReceive (lane : LaneId) (port fab : Nat) (fcsOk : Bool) (frame : Bytes) (s : State) :
    Host.Outcome State Fault Refusal :=
  laneNext s lane fun l => l.rxFrame lane port fab fcsOk frame

/-- A frame starts transmission (R266, R269, R270, R286, R292). -/
def execTxFrameStart (lane : LaneId) (port fab : Nat) (s : State) : Host.Outcome State Fault Refusal :=
  laneNext s lane fun l => l.txStart lane port fab

/-- A gate-list interval expires (R267). -/
def execGateEntryEnd (lane : LaneId) (port fab : Nat) (s : State) : Host.Outcome State Fault Refusal :=
  laneNext s lane fun l => l.gateEntry port fab

/-- A written gate list becomes operational (R268). -/
def execGateListChange (lane : LaneId) (port fab : Nat) (s : State) : Host.Outcome State Fault Refusal :=
  laneNext s lane fun l => l.gateChange port fab

/-- A port's link comes up in a resolved mode (R262, R263, R271, R275). -/
def execPortLinkUp (lane : LaneId) (port mode : Nat) (s : State) : Host.Outcome State Fault Refusal :=
  laneNext s lane fun l => l.portUp lane port mode

/-- A port's link goes down (R261). -/
def execPortLinkDown (lane : LaneId) (port fab : Nat) (s : State) : Host.Outcome State Fault Refusal :=
  laneNext s lane fun l => l.portDown lane port fab

/-- Duplicate address detection of address k (0 link-local, 1 ADDR0, 2 ADDR1) ends (R271). -/
def execDadComplete (lane : LaneId) (port k : Nat) (conflict : Bool) (s : State) : Host.Outcome State Fault Refusal :=
  laneNext s lane fun l => l.dadDone port k conflict

/-- A Neighbor Solicitation (R273). -/
def execNeighborSolicitation (lane : LaneId) (port : Nat) (src target : BitVec 128) (mac : BitVec 48) (s : State) :
    Host.Outcome State Fault Refusal :=
  laneNext s lane fun l => l.rxMessage lane port fun l => l.rxSolicit lane port src target mac

/-- A Neighbor Advertisement (R273). -/
def execNeighborAdvertisement (lane : LaneId) (port : Nat) (target : BitVec 128) (mac : BitVec 48) (s : State) :
    Host.Outcome State Fault Refusal :=
  laneNext s lane fun l => l.rxMessage lane port fun l => l.rxAdvert lane port target mac

/-- A neighbour entry becomes stale 30 s after confirmation (R273). -/
def execNeighborEntryStale (lane : LaneId) (port : Nat) (addr : BitVec 128) (s : State) : Host.Outcome State Fault Refusal :=
  laneNext s lane fun l => l.ndStale port addr

/-- A Router Advertisement is counted and ignored (R273). -/
def execRouterAdvertisement (lane : LaneId) (port : Nat) (s : State) : Host.Outcome State Fault Refusal :=
  laneNext s lane fun l => l.rxMessage lane port id

/-- A Redirect is counted and ignored (R273). -/
def execRedirect (lane : LaneId) (port : Nat) (s : State) : Host.Outcome State Fault Refusal :=
  laneNext s lane fun l => l.rxMessage lane port id

/-- An Echo Request with its identifier and sequence number in `head` (R274). -/
def execEchoRequest (lane : LaneId) (port : Nat) (src dst : BitVec 128) (head : BitVec 32) (data : Bytes) (s : State) :
    Host.Outcome State Fault Refusal :=
  laneNext s lane fun l => l.rxMessage lane port fun l => l.rxEcho lane port src dst head data

/-- An MLD query (R275). -/
def execMldQuery (lane : LaneId) (port : Nat) (s : State) : Host.Outcome State Fault Refusal :=
  laneNext s lane fun l => l.rxMessage lane port fun l => l.rxMldQuery lane port

/-- The lane places its drop counts ahead of the entries for the next slot, where that slot is due for them (R283). -/
def execLaneStatistics (lane : LaneId) (s : State) : Host.Outcome State Fault Refusal :=
  laneNext s lane fun l => l.statEntry lane (l.slot + 1)

/-- A Sync (R293 to R295). -/
def execSyncReceive (lane : LaneId) (port fab : Nat) (ident : BitVec 64) (twoStep : Bool) (seq : Nat) (t1 corr : Int)
    (s : State) : Host.Outcome State Fault Refusal :=
  laneNext s lane fun l => l.rxMessage lane port fun l => l.rxSync lane port fab ident twoStep seq t1 corr

/-- A Follow_Up (R293). -/
def execFollowUpReceive (lane : LaneId) (port fab : Nat) (ident : BitVec 64) (seq : Nat) (t1 corr : Int) (s : State) :
    Host.Outcome State Fault Refusal :=
  laneNext s lane fun l => l.rxMessage lane port fun l => l.rxFollowUp lane port fab ident seq t1 corr

/-- A Delay_Req (R290). -/
def execDelayReqReceive (lane : LaneId) (port fab : Nat) (ident : BitVec 64) (srcPort seq : Nat) (corr : Int) (s : State) :
    Host.Outcome State Fault Refusal :=
  laneNext s lane fun l => l.rxMessage lane port fun l => l.rxDelayReq lane port fab ident srcPort seq corr

/-- A Delay_Resp to this port (R293). -/
def execDelayRespReceive (lane : LaneId) (port : Nat) (ident : BitVec 64) (seq : Nat) (t4 corr : Int) (s : State) :
    Host.Outcome State Fault Refusal :=
  laneNext s lane fun l => l.rxMessage lane port fun l => l.rxDelayResp lane port ident seq t4 corr

/-- A Pdelay_Req (R290). -/
def execPdelayReqReceive (lane : LaneId) (port fab : Nat) (ident : BitVec 64) (srcPort seq : Nat) (corr : Int) (s : State) :
    Host.Outcome State Fault Refusal :=
  laneNext s lane fun l => l.rxMessage lane port fun l => l.rxPdelayReq lane port fab ident srcPort seq corr

/-- A one-step Pdelay_Resp (R288, R293). -/
def execPdelayRespReceive (lane : LaneId) (port fab seq : Nat) (corr : Int) (s : State) : Host.Outcome State Fault Refusal :=
  laneNext s lane fun l => l.rxMessage lane port fun l => l.rxPdelayResp lane port fab seq corr

/-- An Announce (R288, R293, R296). -/
def execAnnounceReceive (lane : LaneId) (port fab : Nat) (a : Announce) (s : State) : Host.Outcome State Fault Refusal :=
  laneNext s lane fun l => l.rxMessage lane port fun l => l.rxAnnounce lane port fab a

/-- A master port queues a one-step Sync (R290). -/
def execSyncTransmit (lane : LaneId) (port : Nat) (s : State) : Host.Outcome State Fault Refusal :=
  laneNext s lane fun l => l.txSync lane port

/-- A master port queues an Announce (R288). -/
def execAnnounceTransmit (lane : LaneId) (port : Nat) (s : State) : Host.Outcome State Fault Refusal :=
  laneNext s lane fun l => l.txAnnounce lane port

/-- A slave port queues a Delay_Req, whose t3 is kept as it departs (R290). -/
def execDelayReqTransmit (lane : LaneId) (port : Nat) (s : State) : Host.Outcome State Fault Refusal :=
  laneNext s lane fun l => l.txDelayReq lane port

/-- A port queues a Pdelay_Req, whose t1 is kept as it departs (R290). -/
def execPdelayReqTransmit (lane : LaneId) (port : Nat) (s : State) : Host.Outcome State Fault Refusal :=
  laneNext s lane fun l => l.txPdelayReq lane port

/-- No Sync for 4 intervals (R296, R297). -/
def execSyncTimeout (lane : LaneId) (port fab : Nat) (s : State) : Host.Outcome State Fault Refusal :=
  laneNext s lane fun l => l.syncLost lane port fab

/-- The announce receipt timeout (R296, R297). -/
def execAnnounceReceiptTimeout (lane : LaneId) (port fab : Nat) (s : State) : Host.Outcome State Fault Refusal :=
  laneNext s lane fun l => l.announceLost lane port fab

/-- A periodic waymark output rises (R298, R299). -/
def execWaymarkOutputRise (lane : LaneId) (pin fab : Nat) (s : State) : Host.Outcome State Fault Refusal :=
  laneNext s lane fun l => l.wmkRise lane pin fab

/-- A waymark output falls (R298, R299). -/
def execWaymarkOutputFall (lane : LaneId) (pin fab : Nat) (s : State) : Host.Outcome State Fault Refusal :=
  laneNext s lane fun l => l.wmkFall pin fab

/-- An edge on a waymark input (R300). -/
def execWaymarkEvent (lane : LaneId) (pin fab : Nat) (falling : Bool) (s : State) : Host.Outcome State Fault Refusal :=
  laneNext s lane fun l => l.wmkEvent lane pin fab falling

end Sys2Proof.Machine
end

