-- ==== Sys2Proof/Machine/SolveCmds.lean ====
section
/-! DEFINITION. The commands of the dictionary's commit slot, the assembler and the solver (chapters 03, 04 and 10). -/
namespace Sys2Proof.Machine

/-- The requests and voted writes whose commit slot this is are applied at step 1 of Table 01-6 (R30, R66, R319). -/
def execCommitApply (lane : LaneId) (s : State) : Host.Outcome State Fault Refusal :=
  laneWhen s lane Lane.working fun l => l.step1Run lane

/-- The check of a pending model ends (R103, R108). -/
def execModelCheckDone (lane : LaneId) (s : State) : Host.Outcome State Fault Refusal :=
  laneNext s lane Lane.checkDone

/-- Ordering, symbolic factorisation and signatures are complete (R106). -/
def execModelOrderDone (lane : LaneId) (s : State) : Host.Outcome State Fault Refusal :=
  laneNext s lane Lane.orderDone

/-- A load that is not at READY by slot c + 40,000 (R105). -/
def execModelLoadLate (lane : LaneId) (s : State) : Host.Outcome State Fault Refusal :=
  laneWhen s lane Lane.loadLateDue Lane.loadLate

/-- The snapshot decision of the slot, after step 1 (R121, R138). -/
def execSnapshotSlot (lane : LaneId) (s : State) : Host.Outcome State Fault Refusal :=
  laneWhen s lane Lane.working fun l => (l.step1Run lane).snapshotRun

/-- The next hamper is complete (R102). -/
def execHamperComplete (lane : LaneId) (s : State) : Host.Outcome State Fault Refusal :=
  laneNext s lane fun l => l.hamperDone lane

/-- The factorisation of K is complete (R118). -/
def execFactorisationDone (lane : LaneId) (s : State) : Host.Outcome State Fault Refusal :=
  laneNext s lane Lane.factorDone

/-- A coupling round is complete (R114, R117, R123). -/
def execCouplingRoundDone (lane : LaneId) (s : State) : Host.Outcome State Fault Refusal :=
  laneNext s lane Lane.roundDone

/-- Tile `tile` retires (R145, R146). -/
def execTileRetire (lane : LaneId) (tile : Nat) (s : State) : Host.Outcome State Fault Refusal :=
  laneNext s lane fun l => l.tileRetire tile

/-- The stop slot of the solve in progress (R131). -/
def execStopSlot (lane : LaneId) (s : State) : Host.Outcome State Fault Refusal :=
  laneNext s lane Lane.stopSolve

/-- Round r from its SOURCE, or from another lane taking part that holds it (R133). -/
def State.fetchRound (s : State) (lane : LaneId) : State :=
  match (s.lane lane).solver.run with
  | none => s
  | some r =>
    match r.verdict with
    | none => s
    | some (_, k, src) =>
      match [src, .A, .B, .C].find? fun x => decide (x ≠ lane) && s.arb.mask.has x && (s.lane x).hasRound r.num k with
      | none => s
      | some x => s.onLane lane fun l => l.fetchDone k (s.lane x).solv.cur
/-- The fetch of the published round is complete (R133). -/
def execRoundFetchDone (lane : LaneId) (s : State) : Host.Outcome State Fault Refusal :=
  .next (s.fetchRound lane)

/-- Publication at step 4 of slot P, after the steps before it (R135, R147, R280). -/
def execPublication (lane : LaneId) (s : State) : Host.Outcome State Fault Refusal :=
  laneWhen s lane Lane.working fun l => (l.step1Run lane).step3Run.step4All lane

/-- The background factor is complete (R136). -/
def execFactorCatchupDone (lane : LaneId) (s : State) : Host.Outcome State Fault Refusal :=
  laneNext s lane Lane.catchupDone

/-- CANCEL of SOLV_CMD applies (R138). -/
def execSolveCancel (lane : LaneId) (s : State) : Host.Outcome State Fault Refusal :=
  laneNext s lane fun l => (l.slv fun x => { x with cancel := true }).cancelRun

/-- SOLVENOW of SOLV_CMD applies: the slot's snapshot decision is taken with it, or the next one's (R138). -/
def execSolveNow (lane : LaneId) (s : State) : Host.Outcome State Fault Refusal :=
  laneNext s lane fun l =>
    let l := l.slv fun x => { x with now := x.now + 1 }
    if l.working then (l.step1Run lane).snapshotRun else l

end Sys2Proof.Machine
end

