-- ==== Sys2Proof/Machine/XactCmds.lean ====
section
/-! DEFINITION. The commands of Afesh in a lane: authentication, the transactions, expiries and subscriptions (chapter 10). -/
namespace Sys2Proof.Machine

/-- XACT completes the authentication of the frame at the head of the receive queue (R29, R42). -/
def execXactAuthenticate (lane : LaneId) (s : State) : Host.Outcome State Fault Refusal :=
  laneNext s lane fun l => l.authenticate lane

/-- XACT checks the Afesh message at the head of the receive queue (R302, R312, R313). -/
def execAfeshMessage (lane : LaneId) (s : State) : Host.Outcome State Fault Refusal :=
  laneWhen s lane (fun l => match l.agree.rxq with | f :: _ => !f.substation | [] => false) fun l => l.authenticate lane

/-- XACT checks the substation frame at the head of the receive queue (R278). -/
def execSubstationReport (lane : LaneId) (s : State) : Host.Outcome State Fault Refusal :=
  laneWhen s lane (fun l => match l.agree.rxq with | f :: _ => f.substation | [] => false) fun l => l.authenticate lane

/-- Execute the next admitted request where it carries a code, after the boundary actions of the slot (R316). -/
def Lane.execCode (l : Lane) (me : LaneId) (code : Nat) : Lane :=
  if l.working && l.nextCode == some code then (l.loopsRun me).execNext me else l

/-- READ (R316, R328 to R331). -/
def execTxRead (lane : LaneId) (s : State) : Host.Outcome State Fault Refusal := laneNext s lane fun l => l.execCode lane 1
/-- WRITE: a set of one field, for step 1 of the next slot (R316, R317). -/
def execTxWrite (lane : LaneId) (s : State) : Host.Outcome State Fault Refusal := laneNext s lane fun l => l.execCode lane 2
/-- WRITE_STAGED: a checked field joins the session's staged set (R317). -/
def execTxWriteStaged (lane : LaneId) (s : State) : Host.Outcome State Fault Refusal := laneNext s lane fun l => l.execCode lane 3
/-- COMMIT of the staged set, for step 1 of the next slot (R319). -/
def execTxCommit (lane : LaneId) (s : State) : Host.Outcome State Fault Refusal := laneNext s lane fun l => l.execCode lane 4
/-- ABORT of the staged set (R318). -/
def execTxAbort (lane : LaneId) (s : State) : Host.Outcome State Fault Refusal := laneNext s lane fun l => l.execCode lane 5
/-- SUBSCRIBE (R324). -/
def execTxSubscribe (lane : LaneId) (s : State) : Host.Outcome State Fault Refusal := laneNext s lane fun l => l.execCode lane 6
/-- UNSUBSCRIBE (R324). -/
def execTxUnsubscribe (lane : LaneId) (s : State) : Host.Outcome State Fault Refusal := laneNext s lane fun l => l.execCode lane 7
/-- SEGMENT_READ (R327). -/
def execTxSegmentRead (lane : LaneId) (s : State) : Host.Outcome State Fault Refusal := laneNext s lane fun l => l.execCode lane 0xA
/-- SEGMENT_WRITE (R327). -/
def execTxSegmentWrite (lane : LaneId) (s : State) : Host.Outcome State Fault Refusal := laneNext s lane fun l => l.execCode lane 0xB
/-- ECHO (R315). -/
def execTxEcho (lane : LaneId) (s : State) : Host.Outcome State Fault Refusal := laneNext s lane fun l => l.execCode lane 0xC
/-- ENROL: a job of 200 slots is queued (R345). -/
def execTxEnrol (lane : LaneId) (s : State) : Host.Outcome State Fault Refusal := laneNext s lane fun l => l.execCode lane 0xD

/-- The running enrolment is complete 200 slots after its start (R345, R347). -/
def execEnrolComplete (lane : LaneId) (s : State) : Host.Outcome State Fault Refusal :=
  laneNext s lane fun l => l.enrolComplete lane

/-- A staged set idle beyond STAGEIDLE is discarded (R318). -/
def execStagedSetExpire (lane : LaneId) (sess : Nat) (s : State) : Host.Outcome State Fault Refusal :=
  laneNext s lane fun l => l.stageExpire sess

/-- A read snapshot is released after 60 s (R327). -/
def execSegmentReadExpire (lane : LaneId) (sess : Nat) (s : State) : Host.Outcome State Fault Refusal :=
  laneNext s lane fun l => l.readExpire sess

/-- A write transfer idle for 60 s is discarded (R327). -/
def execSegmentWriteExpire (lane : LaneId) (sess : Nat) (s : State) : Host.Outcome State Fault Refusal :=
  laneNext s lane fun l => l.writeExpire sess

/-- 2³¹ messages within an epoch advance it (R308). -/
def execEpochMessageLimit (lane : LaneId) (sess : Nat) (s : State) : Host.Outcome State Fault Refusal :=
  laneNext s lane fun l => l.messageLimit sess

/-- The due subscriptions of a session are published (R324, R325), once in a slot. -/
def execSubscriptionDue (lane : LaneId) (sess : Nat) (s : State) : Host.Outcome State Fault Refusal :=
  laneWhen s lane (fun l => l.working) fun l => (l.loopsRun lane).publishSession lane sess

end Sys2Proof.Machine
end

