-- ==== Sys2Proof/Machine/Dispatch.lean ====
section
/-! DEFINITION. The dispatcher: one arm per command. -/
namespace Sys2Proof.Machine

def exec (i : Instr) (s : State) : Host.Outcome State Fault Refusal :=
  match i with
  | .slotStrobe => Sys2Proof.Machine.execSlotStrobe s
  | .laneSlot lane phase => Sys2Proof.Machine.execLaneSlot lane phase s
  | .strobeLost lane => Sys2Proof.Machine.execStrobeLost lane s
  | .strobeResumed lane x => Sys2Proof.Machine.execStrobeResumed lane x s
  | .arbiterComparatorTrip => Sys2Proof.Machine.execArbiterComparatorTrip s
  | .clockMonitorFail lane locks => Sys2Proof.Machine.execClockMonitorFail lane locks s
  | .round1Receive lane link1 crcOk msg => Sys2Proof.Machine.execRound1Receive lane link1 crcOk msg s
  | .echoReceive lane link1 crcOk sender msgs => Sys2Proof.Machine.execEchoReceive lane link1 crcOk sender msgs s
  | .round2Close lane => Sys2Proof.Machine.execRound2Close lane s
  | .xactAuthenticate lane => Sys2Proof.Machine.execXactAuthenticate lane s
  | .xlnkLinkDown lane link1 => Sys2Proof.Machine.execXlnkLinkDown lane link1 s
  | .xlnkLinkUp lane link1 => Sys2Proof.Machine.execXlnkLinkUp lane link1 s
  | .outputFrame lane frame => Sys2Proof.Machine.execOutputFrame lane frame s
  | .outputSlotClose => Sys2Proof.Machine.execOutputSlotClose s
  | .vpoQueuePulseStart out => Sys2Proof.Machine.execVpoQueuePulseStart out s
  | .vpoQueuePulseEnd out => Sys2Proof.Machine.execVpoQueuePulseEnd out s
  | .votedRead req fab => Sys2Proof.Machine.execVotedRead req fab s
  | .votedWrite req => Sys2Proof.Machine.execVotedWrite req s
  | .laneViewWrite req => Sys2Proof.Machine.execLaneViewWrite req s
  | .commitApply lane => Sys2Proof.Machine.execCommitApply lane s
  | .modelCheckDone lane => Sys2Proof.Machine.execModelCheckDone lane s
  | .modelOrderDone lane => Sys2Proof.Machine.execModelOrderDone lane s
  | .modelLoadLate lane => Sys2Proof.Machine.execModelLoadLate lane s
  | .snapshotSlot lane => Sys2Proof.Machine.execSnapshotSlot lane s
  | .hamperComplete lane => Sys2Proof.Machine.execHamperComplete lane s
  | .factorisationDone lane => Sys2Proof.Machine.execFactorisationDone lane s
  | .couplingRoundDone lane => Sys2Proof.Machine.execCouplingRoundDone lane s
  | .tileRetire lane tile => Sys2Proof.Machine.execTileRetire lane tile s
  | .stopSlot lane => Sys2Proof.Machine.execStopSlot lane s
  | .roundFetchDone lane => Sys2Proof.Machine.execRoundFetchDone lane s
  | .publication lane => Sys2Proof.Machine.execPublication lane s
  | .factorCatchupDone lane => Sys2Proof.Machine.execFactorCatchupDone lane s
  | .solveCancel lane => Sys2Proof.Machine.execSolveCancel lane s
  | .solveNow lane => Sys2Proof.Machine.execSolveNow lane s
  | .bankSwapLoop lane loop => Sys2Proof.Machine.execBankSwapLoop lane loop s
  | .bankSwapGroup lane group => Sys2Proof.Machine.execBankSwapGroup lane group s
  | .bankSwapApply lane loop => Sys2Proof.Machine.execBankSwapApply lane loop s
  | .loopReset lane loop => Sys2Proof.Machine.execLoopReset lane loop s
  | .traceArm lane ch => Sys2Proof.Machine.execTraceArm lane ch s
  | .traceStop lane ch => Sys2Proof.Machine.execTraceStop lane ch s
  | .traceForce lane ch => Sys2Proof.Machine.execTraceForce lane ch s
  | .logicCycleStart lane => Sys2Proof.Machine.execLogicCycleStart lane s
  | .seqLd lane area addr => Sys2Proof.Machine.execSeqLd lane area addr s
  | .seqLdn lane area addr => Sys2Proof.Machine.execSeqLdn lane area addr s
  | .seqAnd lane area addr => Sys2Proof.Machine.execSeqAnd lane area addr s
  | .seqAndn lane area addr => Sys2Proof.Machine.execSeqAndn lane area addr s
  | .seqOr lane area addr => Sys2Proof.Machine.execSeqOr lane area addr s
  | .seqOrn lane area addr => Sys2Proof.Machine.execSeqOrn lane area addr s
  | .seqXor lane area addr => Sys2Proof.Machine.execSeqXor lane area addr s
  | .seqSt lane area addr => Sys2Proof.Machine.execSeqSt lane area addr s
  | .seqStn lane area addr => Sys2Proof.Machine.execSeqStn lane area addr s
  | .seqSet lane area addr => Sys2Proof.Machine.execSeqSet lane area addr s
  | .seqRst lane area addr => Sys2Proof.Machine.execSeqRst lane area addr s
  | .seqAndParen lane => Sys2Proof.Machine.execSeqAndParen lane s
  | .seqOrParen lane => Sys2Proof.Machine.execSeqOrParen lane s
  | .seqCloseParen lane => Sys2Proof.Machine.execSeqCloseParen lane s
  | .seqTon lane n => Sys2Proof.Machine.execSeqTon lane n s
  | .seqTof lane n => Sys2Proof.Machine.execSeqTof lane n s
  | .seqTp lane n => Sys2Proof.Machine.execSeqTp lane n s
  | .seqCu lane n => Sys2Proof.Machine.execSeqCu lane n s
  | .seqCd lane n => Sys2Proof.Machine.execSeqCd lane n s
  | .seqCr lane n => Sys2Proof.Machine.execSeqCr lane n s
  | .seqRise lane n => Sys2Proof.Machine.execSeqRise lane n s
  | .seqFall lane n => Sys2Proof.Machine.execSeqFall lane n s
  | .seqLw lane area addr => Sys2Proof.Machine.execSeqLw lane area addr s
  | .seqSw lane area addr => Sys2Proof.Machine.execSeqSw lane area addr s
  | .seqSubw lane area addr => Sys2Proof.Machine.execSeqSubw lane area addr s
  | .seqAbsw lane => Sys2Proof.Machine.execSeqAbsw lane s
  | .seqCeq lane area addr => Sys2Proof.Machine.execSeqCeq lane area addr s
  | .seqCne lane area addr => Sys2Proof.Machine.execSeqCne lane area addr s
  | .seqClt lane area addr => Sys2Proof.Machine.execSeqClt lane area addr s
  | .seqCgt lane area addr => Sys2Proof.Machine.execSeqCgt lane area addr s
  | .seqCle lane area addr => Sys2Proof.Machine.execSeqCle lane area addr s
  | .seqCge lane area addr => Sys2Proof.Machine.execSeqCge lane area addr s
  | .seqJmp lane target => Sys2Proof.Machine.execSeqJmp lane target s
  | .seqJmpc lane target => Sys2Proof.Machine.execSeqJmpc lane target s
  | .seqEnd lane => Sys2Proof.Machine.execSeqEnd lane s
  | .watchdogStop lane => Sys2Proof.Machine.execWatchdogStop lane s
  | .logicExecTimeout lane => Sys2Proof.Machine.execLogicExecTimeout lane s
  | .restartResume lane => Sys2Proof.Machine.execRestartResume lane s
  | .restartCold lane => Sys2Proof.Machine.execRestartCold lane s
  | .logicImageCheckDone lane => Sys2Proof.Machine.execLogicImageCheckDone lane s
  | .logicImageSwap lane => Sys2Proof.Machine.execLogicImageSwap lane s
  | .logicCheckLate lane => Sys2Proof.Machine.execLogicCheckLate lane s
  | .retainWrite lane => Sys2Proof.Machine.execRetainWrite lane s
  | .zcTimeout lane feeder => Sys2Proof.Machine.execZcTimeout lane feeder s
  | .nominalWindowClose lane feeder => Sys2Proof.Machine.execNominalWindowClose lane feeder s
  | .mtrLatch lane feeder => Sys2Proof.Machine.execMtrLatch lane feeder s
  | .rtdConversion lane ch x => Sys2Proof.Machine.execRtdConversion lane ch x s
  | .flowEdge lane n lowNs highNs since level => Sys2Proof.Machine.execFlowEdge lane n lowNs highNs since level s
  | .freqTimeout lane n => Sys2Proof.Machine.execFreqTimeout lane n s
  | .thmLatch lane c => Sys2Proof.Machine.execThmLatch lane c s
  | .totalsWrite lane => Sys2Proof.Machine.execTotalsWrite lane s
  | .totalsWriteDone lane => Sys2Proof.Machine.execTotalsWriteDone lane s
  | .vpoPulseStart lane out => Sys2Proof.Machine.execVpoPulseStart lane out s
  | .vpoPulseWidthEnd lane out => Sys2Proof.Machine.execVpoPulseWidthEnd lane out s
  | .powerFailNFall lane => Sys2Proof.Machine.execPowerFailNFall lane s
  | .inputMonitorTrip lane => Sys2Proof.Machine.execInputMonitorTrip lane s
  | .flaskWriteDone lane => Sys2Proof.Machine.execFlaskWriteDone lane s
  | .flaskMerge lane => Sys2Proof.Machine.execFlaskMerge lane s
  | .mergedRecordDone lane => Sys2Proof.Machine.execMergedRecordDone lane s
  | .ethFrameReceive lane port fab fcsOk frame => Sys2Proof.Machine.execEthFrameReceive lane port fab fcsOk frame s
  | .txFrameStart lane port fab => Sys2Proof.Machine.execTxFrameStart lane port fab s
  | .gateEntryEnd lane port fab => Sys2Proof.Machine.execGateEntryEnd lane port fab s
  | .gateListChange lane port fab => Sys2Proof.Machine.execGateListChange lane port fab s
  | .portLinkUp lane port mode => Sys2Proof.Machine.execPortLinkUp lane port mode s
  | .portLinkDown lane port fab => Sys2Proof.Machine.execPortLinkDown lane port fab s
  | .dadComplete lane port k conflict => Sys2Proof.Machine.execDadComplete lane port k conflict s
  | .neighborSolicitation lane port src target mac => Sys2Proof.Machine.execNeighborSolicitation lane port src target mac s
  | .neighborAdvertisement lane port target mac => Sys2Proof.Machine.execNeighborAdvertisement lane port target mac s
  | .neighborEntryStale lane port addr => Sys2Proof.Machine.execNeighborEntryStale lane port addr s
  | .routerAdvertisement lane port => Sys2Proof.Machine.execRouterAdvertisement lane port s
  | .redirect lane port => Sys2Proof.Machine.execRedirect lane port s
  | .echoRequest lane port src dst head data => Sys2Proof.Machine.execEchoRequest lane port src dst head data s
  | .mldQuery lane port => Sys2Proof.Machine.execMldQuery lane port s
  | .substationReport lane => Sys2Proof.Machine.execSubstationReport lane s
  | .laneStatistics lane => Sys2Proof.Machine.execLaneStatistics lane s
  | .syncReceive lane port fab ident twoStep seq t1 corr => Sys2Proof.Machine.execSyncReceive lane port fab ident twoStep seq t1 corr s
  | .followUpReceive lane port fab ident seq t1 corr => Sys2Proof.Machine.execFollowUpReceive lane port fab ident seq t1 corr s
  | .delayReqReceive lane port fab ident srcPort seq corr => Sys2Proof.Machine.execDelayReqReceive lane port fab ident srcPort seq corr s
  | .delayRespReceive lane port ident seq t4 corr => Sys2Proof.Machine.execDelayRespReceive lane port ident seq t4 corr s
  | .pdelayReqReceive lane port fab ident srcPort seq corr => Sys2Proof.Machine.execPdelayReqReceive lane port fab ident srcPort seq corr s
  | .pdelayRespReceive lane port fab seq corr => Sys2Proof.Machine.execPdelayRespReceive lane port fab seq corr s
  | .announceReceive lane port fab a => Sys2Proof.Machine.execAnnounceReceive lane port fab a s
  | .syncTransmit lane port => Sys2Proof.Machine.execSyncTransmit lane port s
  | .announceTransmit lane port => Sys2Proof.Machine.execAnnounceTransmit lane port s
  | .delayReqTransmit lane port => Sys2Proof.Machine.execDelayReqTransmit lane port s
  | .pdelayReqTransmit lane port => Sys2Proof.Machine.execPdelayReqTransmit lane port s
  | .syncTimeout lane port fab => Sys2Proof.Machine.execSyncTimeout lane port fab s
  | .announceReceiptTimeout lane port fab => Sys2Proof.Machine.execAnnounceReceiptTimeout lane port fab s
  | .waymarkOutputRise lane pin fab => Sys2Proof.Machine.execWaymarkOutputRise lane pin fab s
  | .waymarkOutputFall lane pin fab => Sys2Proof.Machine.execWaymarkOutputFall lane pin fab s
  | .waymarkEvent lane pin fab falling => Sys2Proof.Machine.execWaymarkEvent lane pin fab falling s
  | .waymarkEventPop lane => Sys2Proof.Machine.execWaymarkEventPop lane s
  | .timeClockRead lane fab => Sys2Proof.Machine.execTimeClockRead lane fab s
  | .afeshMessage lane => Sys2Proof.Machine.execAfeshMessage lane s
  | .txRead lane => Sys2Proof.Machine.execTxRead lane s
  | .txWrite lane => Sys2Proof.Machine.execTxWrite lane s
  | .txWriteStaged lane => Sys2Proof.Machine.execTxWriteStaged lane s
  | .txCommit lane => Sys2Proof.Machine.execTxCommit lane s
  | .txAbort lane => Sys2Proof.Machine.execTxAbort lane s
  | .txSubscribe lane => Sys2Proof.Machine.execTxSubscribe lane s
  | .txUnsubscribe lane => Sys2Proof.Machine.execTxUnsubscribe lane s
  | .txSegmentRead lane => Sys2Proof.Machine.execTxSegmentRead lane s
  | .txSegmentWrite lane => Sys2Proof.Machine.execTxSegmentWrite lane s
  | .txEcho lane => Sys2Proof.Machine.execTxEcho lane s
  | .txEnrol lane => Sys2Proof.Machine.execTxEnrol lane s
  | .enrolComplete lane => Sys2Proof.Machine.execEnrolComplete lane s
  | .stagedSetExpire lane sess => Sys2Proof.Machine.execStagedSetExpire lane sess s
  | .segmentReadExpire lane sess => Sys2Proof.Machine.execSegmentReadExpire lane sess s
  | .segmentWriteExpire lane sess => Sys2Proof.Machine.execSegmentWriteExpire lane sess s
  | .epochMessageLimit lane sess => Sys2Proof.Machine.execEpochMessageLimit lane sess s
  | .subscriptionDue lane sess => Sys2Proof.Machine.execSubscriptionDue lane sess s
  | .mailboxD2hCopy lane => Sys2Proof.Machine.execMailboxD2hCopy lane s
  | .mailboxD2hTimeout => Sys2Proof.Machine.execMailboxD2hTimeout s
  | .keyDerive lane => Sys2Proof.Machine.execKeyDerive lane s
  | .keyCrypt lane len => Sys2Proof.Machine.execKeyCrypt lane len s
  | .keyClear lane => Sys2Proof.Machine.execKeyClear lane s
  | .keyKcv lane => Sys2Proof.Machine.execKeyKcv lane s
  | .retagDone lane => Sys2Proof.Machine.execRetagDone lane s
  | .tamperEvent => Sys2Proof.Machine.execTamperEvent s
  | .tamperInactive => Sys2Proof.Machine.execTamperInactive s
  | .tamperLogClear => Sys2Proof.Machine.execTamperLogClear s
  | .evaluationCycle samples => Sys2Proof.Machine.execEvaluationCycle samples s
  | .stopWord crcOk => Sys2Proof.Machine.execStopWord crcOk s
  | .stopWordLoss => Sys2Proof.Machine.execStopWordLoss s
  | .configConfirm => Sys2Proof.Machine.execConfigConfirm s
  | .switchTest ch fell rose => Sys2Proof.Machine.execSwitchTest ch fell rose s
  | .testPulse src high seen => Sys2Proof.Machine.execTestPulse src high seen s
  | .clockCheck ppm => Sys2Proof.Machine.execClockCheck ppm s
  | .ramMarch ok => Sys2Proof.Machine.execRamMarch ok s
  | .vddSafeFault mv => Sys2Proof.Machine.execVddSafeFault mv s
  | .cycleWatchdog us => Sys2Proof.Machine.execCycleWatchdog us s
  | .sresetRise us samples => Sys2Proof.Machine.execSresetRise us samples s
  | .sresetStuck => Sys2Proof.Machine.execSresetStuck s
  | .sresetArm => Sys2Proof.Machine.execSresetArm s
  | .islandPowerOn => Sys2Proof.Machine.execIslandPowerOn s
  | .hostreqWrite req => Sys2Proof.Machine.execHostreqWrite req s
  | .rollCall verdict => Sys2Proof.Machine.execRollCall verdict s
  | .rollCallReport lane temp crcOk => Sys2Proof.Machine.execRollCallReport lane temp crcOk s
  | .reportTimeout lane => Sys2Proof.Machine.execReportTimeout lane s
  | .snapRollCallDecision => Sys2Proof.Machine.execSnapRollCallDecision s
  | .selftestDone lane item => Sys2Proof.Machine.execSelftestDone lane item s
  | .bulkCopyDone => Sys2Proof.Machine.execBulkCopyDone s
  | .dramPartDone => Sys2Proof.Machine.execDramPartDone s
  | .deltaPass marked => Sys2Proof.Machine.execDeltaPass marked s
  | .handoverSlot delta heard => Sys2Proof.Machine.execHandoverSlot delta heard s
  | .handoverTimeout => Sys2Proof.Machine.execHandoverTimeout s
  | .donorFail => Sys2Proof.Machine.execDonorFail s
  | .donorPathTimeout => Sys2Proof.Machine.execDonorPathTimeout s
  | .backoffExpire lane => Sys2Proof.Machine.execBackoffExpire lane s
  | .factorFetchDone lane => Sys2Proof.Machine.execFactorFetchDone lane s
  | .journalCopyDone lane => Sys2Proof.Machine.execJournalCopyDone lane s
  | .excludeCommand lane => Sys2Proof.Machine.execExcludeCommand lane s
  | .rejoinCommand lane => Sys2Proof.Machine.execRejoinCommand lane s
  | .oscStop lane => Sys2Proof.Machine.execOscStop lane s
  | .backupPowerLoss => Sys2Proof.Machine.execBackupPowerLoss s
  | .weekdayStep lane clocks elapsed mv => Sys2Proof.Machine.execWeekdayStep lane clocks elapsed mv s
  | .leapApply lane => Sys2Proof.Machine.execLeapApply lane s
  | .rtcFollow lane sub => Sys2Proof.Machine.execRtcFollow lane sub s
  | .slewEnd lane clocks elapsed mv => Sys2Proof.Machine.execSlewEnd lane clocks elapsed mv s
  | .rtcWriteApply lane clocks elapsed mv => Sys2Proof.Machine.execRtcWriteApply lane clocks elapsed mv s
  | .rtcSnap lane clocks elapsed mv => Sys2Proof.Machine.execRtcSnap lane clocks elapsed mv s
  | .rtcSettime lane clocks elapsed mv => Sys2Proof.Machine.execRtcSettime lane clocks elapsed mv s
  | .rtcSetwday lane clocks elapsed mv => Sys2Proof.Machine.execRtcSetwday lane clocks elapsed mv s
  | .rtcSetph lane clocks elapsed mv => Sys2Proof.Machine.execRtcSetph lane clocks elapsed mv s
  | .chargerStop mv => Sys2Proof.Machine.execChargerStop mv s
  | .chargerRestart mv => Sys2Proof.Machine.execChargerRestart mv s
  | .laneSelfReset lane => Sys2Proof.Machine.execLaneSelfReset lane s
  | .arbSupplyReset mains => Sys2Proof.Machine.execArbSupplyReset mains s
  | .arbiterRelease => Sys2Proof.Machine.execArbiterRelease s
  | .laneRelease lane item => Sys2Proof.Machine.execLaneRelease lane item s
  | .startupRollCall => Sys2Proof.Machine.execStartupRollCall s
  | .startWindowClose => Sys2Proof.Machine.execStartWindowClose s
  | .settlementDone => Sys2Proof.Machine.execSettlementDone s
  | .firstAgreement => Sys2Proof.Machine.execFirstAgreement s
  | .startGateOpen => Sys2Proof.Machine.execStartGateOpen s
  | .nvmCommitCommand lane => Sys2Proof.Machine.execNvmCommitCommand lane s
  | .nvmCommitDone lane cls ms => Sys2Proof.Machine.execNvmCommitDone lane cls ms s
  | .resetNFall => Sys2Proof.Machine.execResetNFall s
  | .arbiterResetEntry => Sys2Proof.Machine.execArbiterResetEntry s
  | .resetNRise => Sys2Proof.Machine.execResetNRise s
  | .registerWrite req => Sys2Proof.Machine.execRegisterWrite req s
  | .pairLowRead req fab => Sys2Proof.Machine.execPairLowRead req fab s
  | .rcRead req fab => Sys2Proof.Machine.execRcRead req fab s
  | .stallTimeout => Sys2Proof.Machine.execStallTimeout s
  | .mbxH2dProducerWrite req => Sys2Proof.Machine.execMbxH2dProducerWrite req s
  | .mbxD2hConsumerWrite req => Sys2Proof.Machine.execMbxD2hConsumerWrite req s
  | .irqEnableWrite req => Sys2Proof.Machine.execIrqEnableWrite req s
  | .functionLevelReset => Sys2Proof.Machine.execFunctionLevelReset s
  | .perstRelease => Sys2Proof.Machine.execPerstRelease s
  | .oscillatorEdge lane clocks elapsed mv => Sys2Proof.Machine.execOscillatorEdge lane clocks elapsed mv s
  | .registerRead req fab => Sys2Proof.Machine.execRegisterRead req fab s
  | .laneRailReset lane => Sys2Proof.Machine.execLaneRailReset lane s
  | .perstNFall => Sys2Proof.Machine.execPerstNFall s
  | .eccError lane corr site addr => Sys2Proof.Machine.execEccError lane corr site addr s
  | .powerStateWrite d3 => Sys2Proof.Machine.execPowerStateWrite d3 s

end Sys2Proof.Machine
end

