-- ==== Sys2Proof/Safety.lean ====
section
/-! DEFINITION. What the statements about this device speak of besides its own operations: which commands act in one lane
alone, the guard of the voted outputs, and the forms that memories and queues keep. -/
namespace Sys2Proof.Machine

/-- The lane whose own state is all that a command changes; none for a command that acts on the arbiter, the island, the
backup domain or several lanes. -/
def laneEvent : Instr → Option LaneId
  | .strobeLost x | .strobeResumed x _ | .clockMonitorFail x _ | .round1Receive x _ _ _ | .echoReceive x _ _ _ _
  | .round2Close x | .xactAuthenticate x | .xlnkLinkDown x _ | .xlnkLinkUp x _ | .commitApply x | .modelCheckDone x
  | .modelOrderDone x | .modelLoadLate x | .snapshotSlot x | .hamperComplete x | .factorisationDone x
  | .couplingRoundDone x | .tileRetire x _ | .stopSlot x | .roundFetchDone x | .publication x | .factorCatchupDone x
  | .solveCancel x | .solveNow x | .bankSwapLoop x _ | .bankSwapGroup x _ | .bankSwapApply x _ | .loopReset x _
  | .traceArm x _ | .traceStop x _ | .traceForce x _ | .logicCycleStart x | .seqLd x _ _ | .seqLdn x _ _
  | .seqAnd x _ _ | .seqAndn x _ _ | .seqOr x _ _ | .seqOrn x _ _ | .seqXor x _ _ | .seqSt x _ _ | .seqStn x _ _
  | .seqSet x _ _ | .seqRst x _ _ | .seqAndParen x | .seqOrParen x | .seqCloseParen x | .seqTon x _ | .seqTof x _
  | .seqTp x _ | .seqCu x _ | .seqCd x _ | .seqCr x _ | .seqRise x _ | .seqFall x _ | .seqLw x _ _ | .seqSw x _ _
  | .seqSubw x _ _ | .seqAbsw x | .seqCeq x _ _ | .seqCne x _ _ | .seqClt x _ _ | .seqCgt x _ _ | .seqCle x _ _
  | .seqCge x _ _ | .seqJmp x _ | .seqJmpc x _ | .seqEnd x | .watchdogStop x | .logicExecTimeout x | .restartResume x
  | .restartCold x | .logicImageCheckDone x | .logicImageSwap x | .logicCheckLate x | .retainWrite x | .zcTimeout x _
  | .nominalWindowClose x _ | .mtrLatch x _ | .rtdConversion x _ _ | .flowEdge x _ _ _ _ _ | .freqTimeout x _
  | .thmLatch x _ | .totalsWrite x | .totalsWriteDone x | .vpoPulseStart x _ | .vpoPulseWidthEnd x _
  | .flaskWriteDone x | .flaskMerge x | .mergedRecordDone x | .ethFrameReceive x _ _ _ _ | .txFrameStart x _ _
  | .gateEntryEnd x _ _ | .gateListChange x _ _ | .portLinkUp x _ _ | .portLinkDown x _ _ | .dadComplete x _ _ _
  | .neighborSolicitation x _ _ _ _ | .neighborAdvertisement x _ _ _ | .neighborEntryStale x _ _
  | .routerAdvertisement x _ | .redirect x _ | .echoRequest x _ _ _ _ _ | .mldQuery x _ | .substationReport x
  | .laneStatistics x | .syncReceive x _ _ _ _ _ _ _ | .followUpReceive x _ _ _ _ _ _ | .delayReqReceive x _ _ _ _ _ _
  | .delayRespReceive x _ _ _ _ _ | .pdelayReqReceive x _ _ _ _ _ _ | .pdelayRespReceive x _ _ _ _
  | .announceReceive x _ _ _ | .syncTransmit x _ | .announceTransmit x _ | .delayReqTransmit x _
  | .pdelayReqTransmit x _ | .syncTimeout x _ _ | .announceReceiptTimeout x _ _ | .waymarkOutputRise x _ _
  | .waymarkOutputFall x _ _ | .waymarkEvent x _ _ _ | .waymarkEventPop x | .timeClockRead x _ | .afeshMessage x
  | .txRead x | .txWrite x | .txWriteStaged x | .txCommit x | .txAbort x | .txSubscribe x | .txUnsubscribe x
  | .txSegmentRead x | .txSegmentWrite x | .txEcho x | .txEnrol x | .enrolComplete x | .stagedSetExpire x _
  | .segmentReadExpire x _ | .segmentWriteExpire x _ | .epochMessageLimit x _ | .subscriptionDue x _ | .keyDerive x
  | .keyCrypt x _ | .keyClear x | .keyKcv x | .retagDone x | .selftestDone x _ | .backoffExpire x | .factorFetchDone x
  | .journalCopyDone x | .oscStop x | .leapApply x | .rtcFollow x _ | .laneRelease x _ | .nvmCommitCommand x
  | .nvmCommitDone x _ _ | .eccError x _ _ _ => some x
  | .slotStrobe | .laneSlot _ _ | .arbiterComparatorTrip | .outputFrame _ _ | .outputSlotClose | .vpoQueuePulseStart _
  | .vpoQueuePulseEnd _ | .votedRead _ _ | .votedWrite _ | .laneViewWrite _ | .powerFailNFall _ | .inputMonitorTrip _
  | .mailboxD2hCopy _ | .mailboxD2hTimeout | .tamperEvent | .tamperInactive | .tamperLogClear | .evaluationCycle _
  | .stopWord _ | .stopWordLoss | .configConfirm | .switchTest _ _ _ | .testPulse _ _ _ | .clockCheck _ | .ramMarch _
  | .vddSafeFault _ | .cycleWatchdog _ | .sresetRise _ _ | .sresetStuck | .sresetArm | .islandPowerOn
  | .hostreqWrite _ | .rollCall _ | .rollCallReport _ _ _ | .reportTimeout _ | .snapRollCallDecision | .bulkCopyDone
  | .dramPartDone | .deltaPass _ | .handoverSlot _ _ | .handoverTimeout | .donorFail | .donorPathTimeout
  | .excludeCommand _ | .rejoinCommand _ | .backupPowerLoss | .weekdayStep _ _ _ _ | .slewEnd _ _ _ _
  | .rtcWriteApply _ _ _ _ | .rtcSnap _ _ _ _ | .rtcSettime _ _ _ _ | .rtcSetwday _ _ _ _ | .rtcSetph _ _ _ _
  | .chargerStop _ | .chargerRestart _ | .laneSelfReset _ | .arbSupplyReset _ | .arbiterRelease | .startupRollCall
  | .startWindowClose | .settlementDone | .firstAgreement | .startGateOpen | .resetNFall | .arbiterResetEntry
  | .resetNRise | .registerWrite _ | .pairLowRead _ _ | .rcRead _ _ | .stallTimeout | .mbxH2dProducerWrite _
  | .mbxD2hConsumerWrite _ | .irqEnableWrite _ | .functionLevelReset | .perstRelease | .oscillatorEdge _ _ _ _
  | .registerRead _ _ | .laneRailReset _ | .perstNFall | .powerStateWrite _ => none

/-- Every voted output stands at its hardware reset default, and no pulse is queued or running (Table 01-2). -/
def Arb.AtDefaults (a : Arb) : Prop :=
  a.vdo = 0 ∧ a.vao = List.replicate 16 0 ∧ ∀ q ∈ a.vpo, q.queue = [] ∧ q.high = false
/-- In reset, after a comparator trip and behind the closed start gate the voted outputs stand at their defaults (R16, R458,
R464). -/
def Arb.Guarded (a : Arb) : Prop := (a.inReset = true ∨ a.fault = true ∨ a.gateOpen = false) → a.AtDefaults

/-- The mailbox memories and the MSI-X table are in the one canonical form of their contents. -/
def Arb.Canonical (a : Arb) : Prop :=
  mwf (fun _ => (0 : Byte)) a.mbx.h2d = true ∧ mwf (fun _ => (0 : Byte)) a.mbx.d2h = true ∧ mwf msixDflt a.msix = true
/-- No queue is longer than the spec gives it room: 4 pulses at each pulse output (R61), 16 messages held behind a full
mailbox ring (R454), 4 entries in the tamper log (Table 11-7). -/
def State.Bounded (s : State) : Prop :=
  (∀ q ∈ s.arb.vpo, q.queue.length ≤ 4) ∧ s.arb.mbx.held.length ≤ 16 ∧ s.bak.log.length = 4
/-- The endpoint takes a request at once: it is out of reset and in D0, and no access is stalled or waits behind one. -/
def State.HostReady (s : State) : Prop :=
  s.arb.inReset = false ∧ s.arb.perst = false ∧ s.arb.d3hot = false ∧ s.arb.stall = none ∧ s.arb.delayed = []

/-- The request at the head of a working lane's queue is `r`, of a code; `m` is the lane after the boundary actions of the
slot, with `r` taken from the queue (R316). -/
def Lane.Request (l : Lane) (me : LaneId) (code : Nat) (r : ExecReq) (m : Lane) : Prop :=
  l.working = true ∧ l.nextCode = some code ∧ natAt r.body 0 1 = code ∧
  ∃ rest, (l.loopsRun me).dict.todo = r :: rest ∧ m = { l.loopsRun me with dict := { (l.loopsRun me).dict with todo := rest } } ∧
    r.sess < m.dict.sessions.length
/-- The session of a request is open in the epoch of the request's admission. -/
def Lane.OpenFor (m : Lane) (r : ExecReq) : Prop := (m.sess r.sess).st ≠ 0 ∧ (m.sess r.sess).epoch = r.epoch
/-- The session is bound to the port that the request came through, has not answered it before, and it does not wait
for its commit slot already (R309, R314, R506). -/
def Lane.BoundFor (m : Lane) (r : ExecReq) : Prop :=
  m.OpenFor r ∧ (m.sess r.sess).st = 2 ∧ (m.sess r.sess).port = r.port ∧
  (∀ y ∈ (m.sess r.sess).retry, ¬(y.1 = natAt r.body 0 1 ∧ y.2.1 = natAt r.body 2 2)) ∧
  m.pendingTid r.sess (natAt r.body 0 1) (natAt r.body 2 2) = false
/-- From `l` to `m` session n has sent one response and nothing else has happened: the response is remembered for retries,
the session counts it, and it leaves by the session's port or, refused by the tamper policy, is counted (R314, R315, R353). -/
def Lane.Answers (l m : Lane) (n code st tid : Nat) (body : Bytes) : Prop :=
  { m with dict := l.dict, tx := l.tx, regs := l.regs } = l ∧ { m.dict with sessions := l.dict.sessions } = l.dict ∧
  (∀ k, k ≠ n → m.sess k = l.sess k) ∧
  { m.sess n with retry := (l.sess n).retry, txseq := (l.sess n).txseq, txCount := (l.sess n).txCount } = l.sess n ∧
  (m.sess n).retry = ((code, tid, leBytes 1 code ++ leBytes 1 st ++ leBytes 2 tid ++ body) :: (l.sess n).retry).take 16 ∧
  (m.sess n).txseq = (l.sess n).txseq + 1 ∧ (m.sess n).txCount = (l.sess n).txCount + 1 ∧
  (l.tamperActs = false → m.regs = l.regs ∧
    ((l.sess n).port = 0xFF → ∃ u, m.tx = l.tx ++ [u] ∧ u.sess = n ∧ u.port = 0xFF))

/-- From `l` to `m` field port p has become `q` and the registers read as `r`; nothing else has changed. -/
def Lane.PortIs (l m : Lane) (p : Nat) (q : PortSt) (r : RegMap) : Prop :=
  m.port p = q ∧ (∀ j, j ≠ p → m.port j = l.port j) ∧ { m with ports := l.ports, regs := l.regs } = l ∧ ∀ k, rget m.regs k = rget r k
/-- As PortIs, and port p has been given a frame: it joins the queue of its class, or is counted where 32 KiB do not take it;
while the transmit is gated it is discarded without count (R266, R270). -/
def Lane.PortQueues (l m : Lane) (me : LaneId) (p : Nat) (q : PortSt) (r : RegMap) (f : TxFrame) : Prop :=
  let c := l.portCfg me p
  let k := c.tcmap.getD f.cls 0 % 8
  let used := ((q.queues.getD k []).map fun g => g.wire c).sum + f.wire c
  (l.mask.has me = false → l.PortIs m p q r) ∧
  (l.mask.has me = true → used ≤ 32768 → l.PortIs m p { q with queues := q.queues.modify k fun fs => fs ++ [f] } r) ∧
  (l.mask.has me = true → 32768 < used → l.PortIs m p q (fbump r (f_PORT_TXDROP_QFULL.at (0x20 * p))))
/-- As PortQueues for a PTP message, over Ethernet or from a valid address of the port; without one it does not leave (R271,
R288). The protocol state of the port becomes `g`. -/
def Lane.PtpQueues (l m : Lane) (me : LaneId) (p : Nat) (g : PtpPort) (r : RegMap) (event peer : Bool) (stamp : Nat) (t2 : Int)
    (body : Bytes) : Prop :=
  let c := l.portCfg me p
  let q := { l.port p with ptp := g }
  match (if c.xport = 1 then some 0 else sourceAddr q c (ff02 0x181)) with
  | none => l.PortIs m p q r
  | some a => l.PortQueues m me p q r (ptpFrame c a event peer stamp t2 body)

end Sys2Proof.Machine
end

