-- ==== Sys2Proof/Certificates/Slice0/Obligations.lean ====
section
/-! DEFINITION. The statements about the device, for the provers. Where a docstring says that a command whose event cannot
occur changes nothing, that is the model's reading of its rows, assumption 1. -/

open Sys2Proof Sys2Proof.Machine

/-- A step takes the command at the front of the queue and performs it on the device with the queue's rest. With nothing
waiting the device idles: the model's choice, see the assumption log.
A command whose event cannot occur changes nothing: assumption 1. -/
def Obligations.StepPerformsTheFrontCommand : Prop :=
  (∀ (s : State) (c : Instr) (rest : List Instr), s.pending = c :: rest → step s = exec c { s with pending := rest }) ∧
  ∀ s : State, s.pending = [] → step s = .next s

/-- No command stops the device, and none touches the queue. -/
def Obligations.EveryCommandAnswersAndLeavesTheQueue : Prop :=
  ∀ (c : Instr) (s : State), ∃ t, exec c s = .next t ∧ t.pending = s.pending

/-- The frame of every command that is an event of one lane: the rest of the device is as before. -/
def Obligations.LaneEventsStayInTheirLane : Prop :=
  ∀ (c : Instr) (s : State) (x : LaneId), laneEvent c = some x → ∃ l, exec c s = .next (s.setLane x l)

/-- Every step keeps the guard of the voted outputs. -/
def Obligations.OutputsStayGuarded : Prop :=
  ∀ s t : State, s.arb.Guarded → step s = .next t → t.arb.Guarded

/-- R59 (and, for two lanes and one, R60 and R391 in part): what a member's first frame for an output does to the vote. -/
def Obligations.FramesPassByVoteOfTheMembers : Prop :=
  ∀ (s : State) (x : LaneId) (f : BitVec 64),
    let others := (s.arb.mask.toList.filter fun y => decide (y ≠ x)).filterMap fun y => s.arb.out.value y (frameKey f)
    s.arb.runs = true → s.arb.mask.has x = true → s.arb.out.isOpen = true → frameSlot f = s.arb.out.slot.toNat →
    isEnd f = false → s.arb.out.value x (frameKey f) = none → s.arb.out.passedOf (frameKey f) = none →
    ∃ t, exec (.outputFrame x f) s = .next t ∧ t.arb.out.frames = s.arb.out.frames ++ [(x, f)] ∧
      (s.arb.mask.count = 3 → t.arb.out.passedOf (frameKey f) = (if frameValue f ∈ others then some (frameValue f) else none) ∧
        (∀ w, others = [w] → w ≠ frameValue f → fget t.arb.regs f_ARB_OSTAT_THIRDWAIT = 1) ∧
        (frameValue f ∉ others → t.arb.vao = s.arb.vao ∧ t.arb.vdo = s.arb.vdo ∧ t.arb.vpo = s.arb.vpo ∧ t.arb.stop = s.arb.stop)) ∧
      (s.arb.mask.count = 2 →
        t.arb.out.passedOf (frameKey f) = (if others.head? = some (frameValue f) then some (frameValue f) else none) ∧
        t.arb.hold.active = (s.arb.hold.active || others.head?.any (fun w => w != frameValue f))) ∧
      (s.arb.mask.count = 1 → t.arb.out.passedOf (frameKey f) = some (frameValue f)) ∧
      (∀ k, k ≠ frameKey f → t.arb.out.passedOf k = s.arb.out.passedOf k) ∧ { t with arb := s.arb } = s

/-- R61, R16, R390: frames that take no part in a vote, and the close of an output slot.
A command whose event cannot occur changes nothing: assumption 1. -/
def Obligations.FramesOutsideTheSlotAreDiscarded : Prop :=
  (∀ (s : State) (x : LaneId) (f : BitVec 64),
    s.arb.runs = true → s.arb.mask.has x = true → (s.arb.out.isOpen = false ∨ frameSlot f ≠ s.arb.out.slot.toNat) →
    ∃ m, exec (.outputFrame x f) s = .next { s with arb := { s.arb with regs := m } } ∧ fget m f_ARB_OSTAT_LATEFRAME = 1 ∧
      (∀ g : Fld, g.key ≠ f_ARB_OSTAT_LATEFRAME.key ∨ g.hi < f_ARB_OSTAT_LATEFRAME.lo ∨ f_ARB_OSTAT_LATEFRAME.hi < g.lo →
        fget m g = fget s.arb.regs g)) ∧
  (∀ (s : State) (x : LaneId) (f : BitVec 64),
    (s.arb.runs = false ∨ (s.arb.mask.has x = false ∧ s.arb.listener x = false)) → exec (.outputFrame x f) s = .next s) ∧
  (∀ (s : State) (x : LaneId) (f : BitVec 64),
    s.arb.runs = true → s.arb.mask.has x = true → s.arb.out.isOpen = true → frameSlot f = s.arb.out.slot.toNat → isEnd f = true →
    exec (.outputFrame x f) s =
      .next { s with arb := { s.arb with out := { s.arb.out with frames := s.arb.out.frames ++ [(x, f)] } } }) ∧
  (∀ s : State, s.arb.runs = true → s.arb.out.isOpen = true →
    ∃ t, exec .outputSlotClose s = .next t ∧ t.arb.out.isOpen = false ∧
      (s.arb.mask.count ≠ 1 →
        (∀ x, fget t.arb.regs (laneFld f_ARB_ODISA_TOTAL x) =
          (if s.arb.mask.has x = true ∧ s.arb.disagrees x = true then
            satAdd (2 ^ (f_ARB_ODISA_TOTAL.hi + 1 - f_ARB_ODISA_TOTAL.lo) - 1) (fget s.arb.regs (laneFld f_ARB_ODISA_TOTAL x)) 1
           else fget s.arb.regs (laneFld f_ARB_ODISA_TOTAL x))) ∧
        fget t.arb.regs f_ARB_OSTAT_HELDCNT =
          (if s.arb.hold.active = true then
            satAdd (2 ^ (f_ARB_OSTAT_HELDCNT.hi + 1 - f_ARB_OSTAT_HELDCNT.lo) - 1) (fget s.arb.regs f_ARB_OSTAT_HELDCNT) 1
           else fget s.arb.regs f_ARB_OSTAT_HELDCNT)))

/-- R61, R390, R464 and Table 02-7: what a value does that passes. -/
def Obligations.PassedValuesReachTheirPins : Prop :=
  ∀ (s t : State) (x : LaneId) (f : BitVec 64),
    let i := frameKey f % 64
    let v := frameValue f
    s.arb.runs = true → s.arb.mask.has x = true → s.arb.out.isOpen = true → frameSlot f = s.arb.out.slot.toNat →
    isEnd f = false → s.arb.out.value x (frameKey f) = none → s.arb.out.passedOf (frameKey f) = none →
    exec (.outputFrame x f) s = .next t → t.arb.out.passedOf (frameKey f) = some v →
    (s.arb.gateOpen = true → s.arb.hold.active = false →
      t.arb.vao = (if frameKind f = 1 then s.arb.vao.set i (v.setWidth 16) else s.arb.vao) ∧
      t.arb.stop = (if frameKind f = 4 then some (v.setWidth 16) else s.arb.stop) ∧
      t.arb.vpo = (if frameKind f = 5 then s.arb.vpo.modify i (fun q => q.append (v.toNat / 65536) (v.toNat % 65536)) else s.arb.vpo) ∧
      ∀ j, j < 64 → t.arb.vdo.getLsbD j =
        (if frameKind f = 2 ∧ j = i then v.getLsbD 0
         else if frameKind f = 3 ∧ i < 4 ∧ j / 16 = i ∧ v.getLsbD (16 + j % 16) = true then v.getLsbD (j % 16)
         else s.arb.vdo.getLsbD j)) ∧
    (s.arb.gateOpen = false ∨ s.arb.hold.active = true →
      t.arb.vao = s.arb.vao ∧ t.arb.stop = s.arb.stop ∧ t.arb.vpo = s.arb.vpo ∧ t.arb.vdo = s.arb.vdo)

/-- R61, R390: the pulses of a queue. -/
def Obligations.QueuedPulsesStartAndEnd : Prop :=
  (∀ (s : State) (o w : Nat) (r : List Nat) (q : VpoQ), s.arb.runs = true → s.arb.hold.active = false →
    s.arb.vpo[o]? = some q → q.queue = w :: r → q.high = false → (q.ran = true → w ≤ q.since) →
    ∃ v, exec (.vpoQueuePulseStart o) s = .next { s with arb := { s.arb with vpo := v } } ∧
      v[o]? = some { queue := r, high := true, width := w, since := 0, ran := true } ∧
      ∀ j, j ≠ o → v[j]? = s.arb.vpo[j]?) ∧
  (∀ (s : State) (o : Nat) (q : VpoQ), s.arb.runs = true → s.arb.vpo[o]? = some q → q.high = true → q.width ≤ q.since →
    ∃ v, exec (.vpoQueuePulseEnd o) s = .next { s with arb := { s.arb with vpo := v } } ∧
      v[o]? = some { q with high := false, since := 0 } ∧ ∀ j, j ≠ o → v[j]? = s.arb.vpo[j]?)

/-- R464: the start gate.
A command whose event cannot occur changes nothing: assumption 1. -/
def Obligations.StartGateOpens : Prop :=
  (∀ s : State, s.arb.runs = true → s.arb.gateOpen = false → s.arb.agreed = true → s.arb.out.isOpen = true →
    s.arb.firstSlot.toNat + 5000 ≤ s.arb.slot.toNat → s.arb.logicPassed = true →
    ∃ a, exec .startGateOpen s = .next { s with arb := a } ∧ a.gateOpen = true ∧
      (fget a.regs f_ARB_IRQSTAT_CAUSE).testBit 5 = true ∧ a.mask = s.arb.mask ∧ a.out = s.arb.out ∧ a.slot = s.arb.slot) ∧
  (∀ s : State, (s.arb.runs = false ∨ s.arb.gateOpen = true ∨ s.arb.agreed = false ∨ s.arb.out.isOpen = false ∨
      s.arb.slot.toNat < s.arb.firstSlot.toNat + 5000 ∨ s.arb.logicPassed = false) → exec .startGateOpen s = .next s)

/-- R22, R40, R403: what a slot strobe does in the arbiter.
A command whose event cannot occur changes nothing: assumption 1. -/
def Obligations.TheStrobeNamesTheMembers : Prop :=
  (∀ s : State, s.arb.inReset = true → exec .slotStrobe s = .next s) ∧
  (∀ s : State, s.arb.inReset = false → s.arb.fault = true →
    ∃ w, exec .slotStrobe s = .next ({ s with arb := { s.arb with
        ticks := s.arb.ticks + 1, slot := (if s.arb.agreed = true then s.arb.slot + 1 else s.arb.slot), strobe := w } } : State).hostSettle ∧
      w.arbFault = true ∧ w.tamper = s.bak.active ∧ w.first = false ∧ w.mask = s.arb.strobe.mask ∧ w.solve = s.arb.strobe.solve) ∧
  (∀ s : State, s.arb.inReset = false → s.arb.fault = false →
    ∃ u : State, exec .slotStrobe s = .next u.takeSlots.hostSettle ∧
      u.arb.ticks = s.arb.ticks + 1 ∧ u.arb.slot = (if s.arb.agreed = true then s.arb.slot + 1 else s.arb.slot) ∧
      u.arb.strobe.mask = u.arb.mask ∧ u.arb.strobe.arbFault = false ∧ u.arb.strobe.tamper = s.bak.active ∧
      u.arb.strobe.first = s.arb.agreeNext ∧ u.arb.agreeNext = false ∧
      u.arb.out = { slot := u.arb.slot.setWidth 16, isOpen := s.arb.agreed && decide (0 < u.arb.mask.count), frames := [], passed := [] } ∧
      (s.arb.cmds = [] → (∀ x, s.lead = some x → (s.lane x).dict.nat 0x1100 5 = 0xFF ∧ (s.lane x).dict.nat 0x1100 6 = 0xFF) →
        u.arb.mask = (if s.arb.agreeNext = true then s.arb.ready else s.arb.nextMask) ∧ u.arb.nextMask = u.arb.mask)) ∧
  (∀ s : State, s.arb.stall = none → s.arb.delayed = [] → s.hostSettle = s)

/-- R25, R26, R40: the strobe in a lane. -/
def Obligations.LanesTakeTheStrobe : Prop :=
  (∀ (s : State) (x : LaneId) (c : Instr) (v : SlotSample),
    let l := s.lane x
    let member := s.arb.strobe.mask.has x && l.inRun
    l.life ≠ .held → s.arb.inReset = false →
    (c = .laneSlot x (.strobe v) ∧ s.arb.ticks = l.ticks + 1 ∧ (s.arb.strobe.first = true → s.arb.strobe.mask.has x = true → l.inRun = true) ∨
     c = .strobeResumed x v ∧ fget l.regs f_LCTL_CLKSTAT_STROBEOK = 0 ∧ l.ticks < s.arb.ticks) →
    ∃ l', exec c s = .next (s.setLane x l') ∧ l'.ticks = s.arb.ticks ∧ l'.word = s.arb.strobe ∧ l'.mask = s.arb.strobe.mask ∧
      l'.inRun = l.inRun ∧ l'.agree.stage = (if member = true then .exchange else .idle) ∧
      l'.slot = (if member = true ∧ s.arb.strobe.first = false then l.slot + 1 else l.slot)) ∧
  (∀ (s : State) (x : LaneId), (s.lane x).life ≠ .held →
    ∃ l', exec (.strobeLost x) s = .next (s.setLane x l') ∧ fget l'.regs f_LCTL_STROBE_STROBELOST = 1 ∧
      fget l'.regs f_LCTL_CLKSTAT_STROBEOK = 0 ∧ l'.agree = { (s.lane x).agree with stage := .idle } ∧
      { l' with regs := (s.lane x).regs, agree := (s.lane x).agree } = s.lane x ∧
      ∀ g : Fld, g.key ≠ f_LCTL_STROBE_STROBELOST.key → g.key ≠ f_LCTL_CLKSTAT_STROBEOK.key → fget l'.regs g = fget (s.lane x).regs g)

/-- R38, R55: what the monitors of links and clocks do. -/
def Obligations.MonitorsMarkLinksAndClocks : Prop :=
  (∀ (s : State) (x : LaneId) (link1 : Bool),
    let l := s.lane x
    let v := if link1 = true then l.agree.link1 else l.agree.link0
    ∃ d u, exec (.xlnkLinkDown x link1) s = .next (s.setLane x { l with agree := d }) ∧
      d = (if v.down = false ∧ (2 ≤ v.silent ∨ 8 ≤ v.errs.length) then
          (if link1 = true then { l.agree with link1 := { v with down := true, clean := 0 } } else { l.agree with link0 := { v with down := true, clean := 0 } })
        else l.agree) ∧
      exec (.xlnkLinkUp x link1) s = .next (s.setLane x { l with agree := u }) ∧
      u = (if v.down = true ∧ 1000 ≤ v.clean then
          (if link1 = true then { l.agree with link1 := { v with down := false, silent := 0, errs := [] } }
           else { l.agree with link0 := { v with down := false, silent := 0, errs := [] } })
        else l.agree)) ∧
  (∀ (s : State) (x : LaneId) (locks : BitVec 7), (s.lane x).life ≠ .held → locks ≠ 0 →
    ∃ l', exec (.clockMonitorFail x locks) s = .next (s.setLane x l') ∧ l'.rep = { (s.lane x).rep with clkFail := true } ∧
      { l' with regs := (s.lane x).regs, rep := (s.lane x).rep } = s.lane x ∧
      (∀ i, i < 32 → (rget l'.regs f_LCTL_CLKSTAT_XTALOK.key).getLsbD i =
        ((rget (s.lane x).regs f_LCTL_CLKSTAT_XTALOK.key).getLsbD i && !(decide (1 ≤ i) && locks.getLsbD (i - 1)))) ∧
      ∀ k, k ≠ f_LCTL_CLKSTAT_XTALOK.key → rget l'.regs k = rget (s.lane x).regs k)

/-- R16: the arbiter's comparator trips, and what its fault state does. -/
def Obligations.ComparatorTripForcesDefaults : Prop :=
  (∀ s : State, s.arb.runs = true →
    ∃ a, exec .arbiterComparatorTrip s = .next { s with arb := a, bak := { s.bak with wasFault := true } } ∧
      a.fault = true ∧ a.inReset = false ∧ a.AtDefaults ∧ a.out.isOpen = false ∧ (fget a.regs f_ARB_IRQSTAT_CAUSE).testBit 4 = true ∧
      a.mask = s.arb.mask ∧ a.nextMask = s.arb.nextMask ∧ a.strobe = s.arb.strobe ∧ a.ticks = s.arb.ticks ∧ a.slot = s.arb.slot ∧
      a.agreed = s.arb.agreed ∧ a.mbx = s.arb.mbx ∧
      ∀ k, k ≠ f_ARB_IRQSTAT_CAUSE.key → rget a.regs k = rget s.arb.regs k) ∧
  (∀ (s : State) (x : LaneId) (f : BitVec 64), s.arb.fault = true → exec (.outputFrame x f) s = .next s) ∧
  (∀ (s : State) (r : HostReq) (c : Instr), s.arb.fault = true → s.HostReady →
    c ∈ [Instr.registerWrite r, .votedWrite r, .laneViewWrite r, .hostreqWrite r, .irqEnableWrite r, .mbxH2dProducerWrite r, .mbxD2hConsumerWrite r] →
    exec c s = .next s) ∧
  (∀ s : State, s.arb.fault = true → ∃ t, exec .functionLevelReset s = .next t ∧ t.arb.fault = true ∧ t.arb.vdo = s.arb.vdo ∧ t.arb.vao = s.arb.vao ∧ t.arb.vpo = s.arb.vpo) ∧
  (∀ (s t : State) (c : Instr), s.arb.fault = true → s.arb.inReset = false → exec c s = .next t → t.arb.fault = false →
    (∃ m, c = .arbSupplyReset m) ∨ c = .backupPowerLoss ∨ c = .arbiterResetEntry ∨ c = .resetNRise) ∧
  (∀ (s : State) (c : Instr), ((∃ m, c = .arbSupplyReset m) ∨ c = .backupPowerLoss ∨ (s.bak.holdFrom.isSome = true ∧ (c = .arbiterResetEntry ∨ c = .resetNRise))) →
    ∃ t, exec c s = .next t ∧ t.arb.fault = false ∧ t.arb.inReset = true)

/-- R44, R46, R55: the exchange of a slot. -/
def Obligations.ExchangeKeepsVerifiedCopies : Prop :=
  (∀ (s : State) (x : LaneId) (link1 : Bool) (msg : Bytes), (s.lane x).life ≠ .held →
    ∃ l', exec (.round1Receive x link1 false msg) s = .next (s.setLane x l') ∧
      l'.regs = fbump (s.lane x).regs (f_XLNK_ERR0_CRCERR.at (if link1 = true then 4 else 0)) ∧
      l'.agree = (s.lane x).agree.modLink link1 (fun v => { v with err := true, errs := 0 :: v.errs }) ∧
      { l' with regs := (s.lane x).regs, agree := (s.lane x).agree } = s.lane x) ∧
  (∀ (s : State) (x : LaneId) (link1 : Bool) (msg : Bytes), (s.lane x).life ≠ .held →
    let l := s.lane x
    let a := l.agree.modLink link1 fun v => { v with got := true }
    let relayed (b : Agree) : Agree := match (msgSource msg).bind (l.relayDest x) with
      | some y => { b with relay := b.relay ++ [(y, false, [msg])] }
      | none => b
    let late := l.agree.stage ≠ .exchange ∨ l.agree.round1Closed = true ∨ l.staleRound1 msg = true
    ∃ l', exec (.round1Receive x link1 true msg) s = .next (s.setLane x l') ∧ { l' with regs := l.regs, agree := l.agree } = l ∧
      (msg = [] → l'.regs = l.regs ∧ l'.agree = a) ∧
      (msg ≠ [] → late → l'.regs = fbump l.regs (f_XLNK_ERR0_LATE.at (if link1 = true then 4 else 0)) ∧ l'.agree = relayed a) ∧
      (msg ≠ [] → ¬late → l.genuine msg = false →
        l'.regs = fbump l.regs (f_XLNK_ERR0_TAGFAIL.at (if link1 = true then 4 else 0)) ∧ l'.agree = relayed a) ∧
      (∀ src, ¬late → l.verifyRound1 msg = true → msgSource msg = some src →
        l'.regs = l.regs ∧ l'.agree = relayed (if src = x then a else { a with direct := a.direct ++ [(src, msg)] })) ∧
      (msg ≠ [] → ¬late → l.genuine msg = true → l.verifyRound1 msg = false → l'.regs = l.regs ∧ l'.agree = relayed a)) ∧
  (∀ (s : State) (x : LaneId), (s.lane x).agree.stage = .exchange →
    let l := s.lane x
    let copies (src : LaneId) := if src = x then [l.agree.own]
      else (l.agree.direct ++ l.agree.echoed).filterMap fun p => if p.1 = src then some p.2 else none
    ∃ l', exec (.round2Close x) s = .next (s.setLane x l') ∧ l'.agree.stage = .closed ∧
      { l' with regs := l.regs, rep := l.rep, agree := l.agree } = l ∧
      ∀ src i, (src, i) ∈ l'.agree.sets ↔
        (l.mask.has src = true ∧ ∃ c cs, copies src = c :: cs ∧ (∀ d ∈ cs, d = c) ∧ i = decRound1 c))

/-- R44, R46: an echo. -/
def Obligations.EchoedCopiesCount : Prop :=
  ∀ (s : State) (x : LaneId) (link1 crcOk : Bool) (sender : LaneId) (msgs : List Bytes), (s.lane x).life ≠ .held →
    (s.lane x).agree.stage = .exchange →
    ∃ l', exec (.echoReceive x link1 crcOk sender msgs) s = .next (s.setLane x l') ∧
      l'.agree.echoed = (s.lane x).agree.echoed ++ (if crcOk = true then
        (msgs.filter fun m => (s.lane x).verifyRound1 m && msgSource m != some sender && msgSource m != some x).filterMap
          fun m => (msgSource m).map fun y => (y, m) else []) ∧
      l'.agree.direct = (s.lane x).agree.direct ∧ l'.agree.stage = .exchange ∧
      { l' with regs := (s.lane x).regs, agree := (s.lane x).agree } = s.lane x

/-- R27, R48, R53, R60: the agreed image and the work of a slot.
A command whose event cannot occur changes nothing: assumption 1. -/
def Obligations.TheImageAndTheWorkOfASlot : Prop :=
  (∀ (s : State) (x : LaneId) (lat : Nat), (s.lane x).agree.stage = .closed →
    let l := s.lane x
    let g := l.img.select l.slot (l.agree.sets.map (·.2))
    ∃ l', exec (.laneSlot x (.image lat)) s = .next (s.setLane x l') ∧ l'.agree.stage = .imaged ∧
      l'.img.mtr = g.mtr ∧ l'.img.ain = g.ain ∧ l'.img.din = g.din ∧ l'.img.tb = g.tb ∧ l'.img.dtSec = g.dtSec ∧ l'.img.dtNs = g.dtNs ∧
      l'.img.age = (if l.agree.sets = [] then min 16777215 (l.img.age + 1) else 0) ∧
      l'.step1 = false ∧ l'.step3 = false ∧ l'.step4 = false ∧ l'.step5 = false ∧ l'.step6 = false ∧ l'.stepL = false) ∧
  (∀ (s : State) (x : LaneId), (s.lane x).agree.stage = .imaged →
    ∃ l', exec (.laneSlot x .work) s = .next (s.setLane x l').hostSettle ∧ l'.agree.stage = .done ∧
      (l'.trip = none → ∃ fs, l'.sent = fs ++ [endFrame l'.slot x fs])) ∧
  (∀ (s : State) (x : LaneId) (lat : Nat), (s.lane x).agree.stage ≠ .closed → exec (.laneSlot x (.image lat)) s = .next s) ∧
  (∀ (s : State) (x : LaneId), (s.lane x).agree.stage ≠ .imaged → exec (.laneSlot x .work) s = .next s)

/-- R435, R457: what a bus error does.
A command whose event cannot occur changes nothing: assumption 1. -/
def Obligations.BusErrorsAreReportedNotServed : Prop :=
  (∀ (s : State) (r : HostReq) (fab c : Nat), s.HostReady → reqFits r false = true → s.arb.fault = false → s.arb.busError r false = some c →
    ∃ m, exec (.registerRead r fab) s = .next { s with arb := { s.arb with regs := m, last := .abort } } ∧
      fget m f_ARB_HERR_RERR = 1 ∧ fget m f_ARB_HERR_RERRCNT =
        satAdd (2 ^ (f_ARB_HERR_RERRCNT.hi + 1 - f_ARB_HERR_RERRCNT.lo) - 1) (fget s.arb.regs f_ARB_HERR_RERRCNT) 1 ∧
      (fget s.arb.regs f_ARB_HERR_RERR = 0 → fget s.arb.regs f_ARB_HERR_WERR = 0 → c < 16 → fget m f_ARB_HERRINFO_CAUSE = c) ∧
      ∀ k, k ≠ f_ARB_HERR_RERR.key → k ≠ f_ARB_HERRADDR_ADDR.key → k ≠ f_ARB_HERRINFO_CAUSE.key → rget m k = rget s.arb.regs k) ∧
  (∀ (s : State) (r : HostReq) (c : Nat), s.HostReady → reqFits r true = true → s.arb.fault = false → s.arb.busError r true = some c →
    ∃ m x i, exec (.registerWrite r) s = .next { s with arb := { s.arb with regs := m, msix := x, msi := i } } ∧
      fget m f_ARB_HERR_WERR = 1 ∧ fget m f_ARB_HERR_WERRCNT =
        satAdd (2 ^ (f_ARB_HERR_WERRCNT.hi + 1 - f_ARB_HERR_WERRCNT.lo) - 1) (fget s.arb.regs f_ARB_HERR_WERRCNT) 1 ∧
      (fget m f_ARB_IRQSTAT_CAUSE).testBit 0 = true ∧
      (fget s.arb.regs f_ARB_HERR_RERR = 0 → fget s.arb.regs f_ARB_HERR_WERR = 0 → c < 16 → fget m f_ARB_HERRINFO_CAUSE = c) ∧
      ∀ k, k ≠ f_ARB_HERR_WERR.key → k ≠ f_ARB_HERRADDR_ADDR.key → k ≠ f_ARB_HERRINFO_CAUSE.key → k ≠ f_ARB_IRQSTAT_CAUSE.key →
        rget m k = rget s.arb.regs k) ∧
  (∀ (s : State) (r : HostReq), s.HostReady → reqFits r true = true → s.arb.fault = true →
    s.arb.busError r true = some 7 ∧ exec (.registerWrite r) s = .next s)

/-- R10, R66, R67, R380, R438: where a register write goes. -/
def Obligations.WritesReachTheirRegister : Prop :=
  (∀ (s : State) (r : HostReq) (k : Nat) (w : Word), s.HostReady → reqFits r true = true → s.arb.busError r true = none →
    r.dws = 1 → r.data = [w] →
    (reqPlace r 0 = .arbReg k ∧ k ≠ f_ARB_IRQEN_EN.key ∧ k ≠ f_ARB_EXCLUDE_GO.key ∧ k ≠ f_ARB_REJOIN_GO.key ∧ k ≠ f_ARB_TAMPACK_CLEARLOG.key ∨
     reqPlace r 0 = .safe k ∧ k = f_SAFE_HOSTREQ_REQ.key) →
    ∃ m, exec (.registerWrite r) s = .next { s with arb := { s.arb with regs := m } } ∧
      (reqPlace r 0 = .safe k → exec (.hostreqWrite r) s = .next { s with arb := { s.arb with regs := m } }) ∧
      (∀ i, i < 32 → (rget m k).getLsbD i =
        (if (rwMask k).getLsbD i = true ∧ r.fbe.getLsbD (i / 8) = true then w.getLsbD i else (rget s.arb.regs k).getLsbD i)) ∧
      ∀ j, j ≠ k → rget m j = rget s.arb.regs j) ∧
  (∀ (s : State) (r : HostReq) (x : LaneId) (k : Nat) (w : Word), s.HostReady → reqFits r true = true → s.arb.busError r true = none →
    r.dws = 1 → r.data = [w] → reqPlace r 0 = .laneReg (x.num + 1) k → stalls k = false → (s.lane x).answers (reqPlaces r) = true →
    exec (.laneViewWrite r) s = .next (s.setLane x ((s.lane x).regWrite k w r.fbe))) ∧
  (∀ (s : State) (r : HostReq) (k : Nat) (w : Word), s.HostReady → reqFits r true = true → s.arb.busError r true = none →
    r.dws = 1 → r.data = [w] → reqPlace r 0 = .laneReg 0 k → stalls k = false →
    (∃ y, s.arb.mask.has y = true ∧ (s.lane y).answers (reqPlaces r) = true) →
    ∃ t, exec (.votedWrite r) s = .next t ∧ { t with a := s.a, b := s.b, c := s.c } = s ∧
      ∀ y, t.lane y = (if s.arb.mask.has y = true ∧ (s.lane y).answers (reqPlaces r) = true then
        { s.lane y with vw := (s.lane y).vw ++ [{ key := k, data := w, be := r.fbe, due := false }] } else s.lane y))

/-- R64, R442, R444: a read of a lane unit through the voted view. -/
def Obligations.VotedReadsReturnWhatTwoLanesHold : Prop :=
  ∀ (s : State) (r : HostReq) (fab k : Nat), s.HostReady → reqFits r false = true → s.arb.fault = false → s.arb.busError r false = none →
    reqPlace r 0 = .laneReg 0 k →
    let ps := reqPlaces r
    let ans (x : LaneId) : Option (List Word) :=
      if (s.lane x).answers ps then some (identMerge ps (maskData ps ((s.lane x).hostRead x fab ps).2)) else none
    ∃ t, exec (.votedRead r fab) s = .next t ∧ t.isl = s.isl ∧ t.bak = s.bak ∧
      { t.arb with regs := s.arb.regs, last := s.arb.last } = s.arb ∧
      (∀ x, t.lane x = (if s.arb.mask.has x = true ∧ (s.lane x).answers ps = true then ((s.lane x).hostRead x fab ps).1 else s.lane x)) ∧
      (∀ v, s.arb.mask.count = 3 → (∃ x y, x ≠ y ∧ ans x = some v ∧ ans y = some v) → t.arb.last = .success v) ∧
      (∀ v, 0 < s.arb.mask.count → (∀ x, s.arb.mask.has x = true → ans x = some v) → t.arb.last = .success v ∧ t.arb.regs = s.arb.regs) ∧
      ((∀ x, s.arb.mask.has x = true → ans x = none) → t.arb.last = .success (defaultData ps) ∧ t.arb.regs = s.arb.countDefault.regs)

/-- R435, R439, R441: register reads. -/
def Obligations.LaneReadsLatchAndClear : Prop :=
  (∀ (s : State) (r : HostReq) (x : LaneId) (fab k : Nat), s.HostReady → reqFits r false = true → s.arb.busError r false = none →
    r.dws = 1 → r.fbe = 15 → reqPlace r 0 = .laneReg (x.num + 1) k → pairLow k = true → (s.lane x).answers (reqPlaces r) = true →
    let l := s.lane x
    ∃ l', exec (.pairLowRead r fab) s = .next { s.setLane x l' with arb := { s.arb with last := .success [l.regNow x k] } } ∧
      ∀ be f, (l'.regRead x (k + 4) be f).2 = l.regNow x (k + 4)) ∧
  (∀ (s : State) (r : HostReq) (x : LaneId) (fab k : Nat), s.HostReady → reqFits r false = true → s.arb.busError r false = none →
    r.dws = 1 → reqPlace r 0 = .laneReg (x.num + 1) k → pairLow k = false → pairHigh k = false → rtcShadow k = false →
    k ≠ f_TIME_EVHDR_EVOVF.key → k ≠ f_TIME_CLKNS_NS.key → (s.lane x).answers (reqPlaces r) = true →
    let l := s.lane x
    ∃ l', exec (.registerRead r fab) s =
        .next { s.setLane x l' with arb := { s.arb with last := .success [l.regNow x k &&& beMask r.fbe] } } ∧
      (rcMask k ≠ 0 → exec (.rcRead r fab) s =
        .next { s.setLane x l' with arb := { s.arb with last := .success [l.regNow x k &&& beMask r.fbe] } }) ∧
      { l' with regs := l.regs } = l ∧
      rget l'.regs k = rget l.regs k &&& ~~~(rcMask k &&& beMask r.fbe) ∧ ∀ j, j ≠ k → rget l'.regs j = rget l.regs j) ∧
  (∀ (s : State) (r : HostReq) (fab k : Nat), s.HostReady → reqFits r false = true → s.arb.busError r false = none →
    r.dws = 1 → reqPlace r 0 = .arbReg k → rcMask k = 0 →
    ∃ m h, exec (.registerRead r fab) s =
        .next { s with arb := { s.arb with regs := m, shadow := h, last := .success [s.arbWord k &&& beMask r.fbe] } } ∧
      (∀ j, rget m j = rget s.arb.regs j) ∧ ∀ j, rget h j = rget s.arb.shadow j)

/-- R284, R300: reads of the clock and of the event FIFO. -/
def Obligations.TimeReadsAreOfOneClock : Prop :=
  (∀ (s : State) (x : LaneId) (fab : Nat), (s.lane x).answers [(.laneReg 1 f_TIME_CLKNS_NS.key, 15)] = true →
    let l := s.lane x
    let t := clockParts (l.time.at fab)
    ∃ l', exec (.timeClockRead x fab) s = .next (s.setLane x l') ∧ { l' with regs := l.regs } = l ∧
      fget l'.regs f_TIME_CLKNS_NS = t.2.1 % 2 ^ 30 ∧ fget l'.regs f_TIME_CLKSLO_SECLO = t.1 % 2 ^ 32 ∧
      fget l'.regs f_TIME_CLKSHI_SECHI = t.1 / 2 ^ 32 % 2 ^ 16) ∧
  (∀ (s : State) (x : LaneId) (w : Nat) (e : Bool) (u : Nat) (rest : List (Nat × Bool × Nat)),
    (s.lane x).answers [(.laneReg 1 f_TIME_EVHDR_EVOVF.key, 15)] = true → (s.lane x).time.fifo = (w, e, u) :: rest →
    let l := s.lane x
    ∃ l', exec (.waymarkEventPop x) s = .next (s.setLane x l') ∧ { l' with regs := l.regs, time := l.time } = l ∧
      l'.time = { l.time with fifo := rest } ∧ fget l'.regs f_TIME_EVNS_NS = (clockParts u).2.1 % 2 ^ 30 ∧
      fget l'.regs f_TIME_EVSLO_SECLO = (clockParts u).1 % 2 ^ 32) ∧
  (∀ (s : State) (x : LaneId), (s.lane x).time.fifo = [] → ∃ l', exec (.waymarkEventPop x) s = .next (s.setLane x l') ∧
    { l' with regs := (s.lane x).regs } = s.lane x)

/-- R455: a write of the interrupt enables. -/
def Obligations.InterruptEnablesSignalOnce : Prop :=
  ∀ (s : State) (r : HostReq) (w : Word), s.HostReady → reqFits r true = true → s.arb.busError r true = none →
    r.dws = 1 → r.data = [w] → reqPlace r 0 = .arbReg f_ARB_IRQEN_EN.key →
    ∃ m x i, exec (.irqEnableWrite r) s = .next { s with arb := { s.arb with regs := m, msix := x, msi := s.arb.msi ++ i } } ∧
      rget m f_ARB_IRQEN_EN.key =
        ((rget s.arb.regs f_ARB_IRQEN_EN.key &&& ~~~(rwMask f_ARB_IRQEN_EN.key &&& beMask r.fbe)) ||| (w &&& (rwMask f_ARB_IRQEN_EN.key &&& beMask r.fbe))) ∧
      (∀ k, k ≠ f_ARB_IRQEN_EN.key → rget m k = rget s.arb.regs k) ∧
      i = (List.range 13).filter (fun v => (fget m f_ARB_IRQEN_EN).testBit v && !(fget s.arb.regs f_ARB_IRQEN_EN).testBit v &&
        (fget s.arb.regs f_ARB_IRQSTAT_CAUSE).testBit v && !(s.arb.msixByte (16 * v + 12)).getLsbD 0)

/-- R310, R311, R452 to R454: the mailbox. -/
def Obligations.MailboxIndicesAdvance : Prop :=
  (∀ (s : State) (r : HostReq) (w : Word), s.HostReady → reqFits r true = true → s.arb.busError r true = none →
    r.dws = 1 → r.data = [w] → r.fbe.getLsbD 0 = true → reqPlace r 0 = .mbx f_ARB_MBXH2DP_PROD.key → s.arb.mask.count = 0 →
    ∃ m, exec (.mbxH2dProducerWrite r) s = .next { s with arb := { s.arb with regs := m } } ∧
      m = (if (w.toNat % 256 + 256 - fget s.arb.regs f_ARB_MBXH2DC_CONS) % 256 ≤ 8 then fset s.arb.regs f_ARB_MBXH2DP_PROD (w.toNat % 256)
        else fflag s.arb.regs f_ARB_MBXSTAT_IDXERR)) ∧
  (∀ (s : State) (r : HostReq) (w : Word), s.HostReady → reqFits r true = true → s.arb.busError r true = none →
    r.dws = 1 → r.data = [w] → r.fbe.getLsbD 0 = true → reqPlace r 0 = .mbx f_ARB_MBXD2HC_CONS.key → s.arb.mbx.held = [] →
    let c := fget s.arb.regs f_ARB_MBXD2HC_CONS
    ∃ m, exec (.mbxD2hConsumerWrite r) s = .next { s with arb := { s.arb with regs := m } } ∧
      m = (if (w.toNat % 256 + 256 - c) % 256 ≤ (fget s.arb.regs f_ARB_MBXD2HP_PROD + 256 - c) % 256 then
        fset s.arb.regs f_ARB_MBXD2HC_CONS (w.toNat % 256) else fflag s.arb.regs f_ARB_MBXSTAT_IDXERR)) ∧
  (∀ (s : State) (x : LaneId) (u : OutMsg), s.arb.runs = true → s.arb.mask.has x = true → 2 ≤ s.arb.mask.count →
    (s.lane x).tx.find? (fun t => t.port == 0xFF) = some u → s.arb.mbx.late x (messageId u.bytes) = false →
    ∃ a, exec (.mailboxD2hCopy x) s =
        .next { (s.setLane x { s.lane x with tx := (s.lane x).tx.eraseP (fun t => t.port == 0xFF) }) with arb := a } ∧
      ((∀ c ∈ s.arb.mbx.copies, c.lane = x ∨ laneMasked c.bytes ≠ laneMasked u.bytes) →
        a = { s.arb with mbx := { s.arb.mbx with copies := s.arb.mbx.copies ++ [{ lane := x, bytes := u.bytes }] } }) ∧
      (∀ c, s.arb.mbx.copies.find? (fun c => decide (c.lane ≠ x) && laneMasked c.bytes == laneMasked u.bytes) = some c →
        (fget s.arb.regs f_ARB_MBXD2HP_PROD + 256 - fget s.arb.regs f_ARB_MBXD2HC_CONS) % 256 < 16 →
        (∀ d ∈ a.mbx.copies, messageId d.bytes ≠ messageId u.bytes) ∧
        fget a.regs f_ARB_MBXD2HP_PROD = (fget s.arb.regs f_ARB_MBXD2HP_PROD + 1) % 256 ∧
        bgetN a.mbx.d2h (fget s.arb.regs f_ARB_MBXD2HP_PROD % 16 * 2048) 2 = leBytes 2 c.bytes.length)) ∧
  (∀ (s : State) (c : MbxCopy) (cs : List MbxCopy), s.arb.runs = true → 2 ≤ s.arb.mask.count → s.arb.mbx.copies = c :: cs →
    ∃ m x i b, exec .mailboxD2hTimeout s = .next { s with arb := { s.arb with regs := m, msix := x, msi := i, mbx := b } } ∧
      fget m f_ARB_MBXSTAT_D2HMISM = satAdd (2 ^ (f_ARB_MBXSTAT_D2HMISM.hi + 1 - f_ARB_MBXSTAT_D2HMISM.lo) - 1) (fget s.arb.regs f_ARB_MBXSTAT_D2HMISM) 1 ∧
      (fget m f_ARB_IRQSTAT_CAUSE).testBit 0 = true ∧ b.h2d = s.arb.mbx.h2d ∧ b.d2h = s.arb.mbx.d2h ∧ b.held = s.arb.mbx.held ∧
      b.copies = s.arb.mbx.copies.filter fun d => !(messageId d.bytes == messageId c.bytes))

/-- R427, R448, R456, R494: resets and power states of the endpoint, and the limit of a stalled access.
A command whose event cannot occur changes nothing: assumption 1. -/
def Obligations.EndpointResetsAndPowerStates : Prop :=
  (∀ s : State, ∃ m, exec .perstNFall s = .next { s with arb := { s.arb with
      perst := true, d3hot := false, stall := none, delayed := [], msix := [], mbx := { s.arb.mbx with h2d := [], d2h := [], held := [] }, regs := m } } ∧
    (∀ k, k ∈ [0x100C000, 0x100C004, 0x100C008, 0x100C00C] → rget m k = 0) ∧
    ∀ k, k ∉ [0x100C000, 0x100C004, 0x100C008, 0x100C00C] → rget m k = rget s.arb.regs k) ∧
  (∀ s : State, exec .perstRelease s = .next { s with arb := { s.arb with perst := false } }) ∧
  (∀ s : State, s.arb.inReset = false → s.arb.perst = false →
    ∃ m, exec .functionLevelReset s = .next { s with arb := { s.arb with
      d3hot := false, stall := none, delayed := [], msix := [], mbx := { s.arb.mbx with h2d := [], d2h := [], held := [] }, regs := m } } ∧
    fget m f_ARB_IRQEN_EN = 0 ∧ fget m f_SAFE_HOSTREQ_REQ = 0 ∧ fget m f_ARB_MBXH2DP_PROD = 0 ∧ fget m f_ARB_MBXD2HC_CONS = 0) ∧
  (∀ (s : State) (d3 : Bool), s.arb.inReset = false → s.arb.perst = false →
    exec (.powerStateWrite d3) s = .next { s with arb := { s.arb with d3hot := d3 } }) ∧
  (∀ (s : State) (r : HostReq) (fab : Nat), s.arb.inReset = false → s.arb.perst = false → s.arb.d3hot = true →
    (reqFits r false = true → exec (.registerRead r fab) s = .next { s with arb := { s.arb with last := .unsupported } }) ∧
    exec (.registerWrite r) s = .next s) ∧
  (∀ (s : State) (st : StallAcc), s.arb.runs = true → s.arb.delayed = [] → s.arb.stall = some st → st.lanes ≠ [] →
    (∀ y ∈ st.lanes, s.arb.mask.has y = true ∧ (s.lane y).answers (reqPlaces st.req) = true ∧ (s.lane y).stallDone (reqKeys st.req) = false) →
    ∃ m x i, exec .stallTimeout s = .next { s with arb := { s.arb with stall := none, regs := m, msix := x, msi := i } } ∧
      fget m f_ARB_HERR_STALLTO = 1)

/-- R402: the commands that exclude a lane and let it rejoin. -/
def Obligations.LanesAreExcludedAndRestartedByCommand : Prop :=
  (∀ (s : State) (x : LaneId), s.arb.runs = true → s.arb.nextMask.has x = true → (s.arb.nextMask.put x false).count ≠ 0 →
    ∃ m, exec (.excludeCommand x) s = .next { s with
        arb := { s.arb.modJudge x (fun j => { j with window := [], badRun := 0, manual := true }) with
          nextMask := s.arb.nextMask.put x false, regs := m, cmds := s.arb.cmds.filter fun c => c.1 != f_ARB_EXCLUDE_GO.key } } ∧
      fget m (laneFld f_ARB_LANESTAT_CAUSE x) = 7 ∧ fget m f_ARB_EXCLUDE_REFUSED = 0 ∧
      fget m f_ARB_EXCNT_EXCLCNT = satAdd 0xFFFF (fget s.arb.regs f_ARB_EXCNT_EXCLCNT) 1 ∧
      ∀ k, k ≠ (laneFld f_ARB_LANESTAT_CAUSE x).key → k ≠ f_ARB_EXCLUDE_REFUSED.key → k ≠ f_ARB_EXCNT_EXCLCNT.key →
        rget m k = rget s.arb.regs k) ∧
  (∀ (s : State) (x : LaneId), s.arb.runs = true → (s.arb.nextMask.has x = false ∨ (s.arb.nextMask.put x false).count = 0) →
    exec (.excludeCommand x) s = .next { s with arb := { s.arb with
      regs := fset s.arb.regs f_ARB_EXCLUDE_REFUSED 1, cmds := s.arb.cmds.filter fun c => c.1 != f_ARB_EXCLUDE_GO.key } }) ∧
  (∀ (s : State) (x : LaneId), s.arb.runs = true → (s.lane x).rj = 6 →
    exec (.rejoinCommand x) s = .next { s with
      arb := { s.arb.modJudge x (fun j => { j with restart := true, permit := true, manual := false }) with
        regs := fset s.arb.regs f_ARB_REJOIN_REFUSED 0, cmds := s.arb.cmds.filter fun c => c.1 != f_ARB_REJOIN_GO.key } }) ∧
  (∀ (s : State) (x : LaneId), s.arb.runs = true → (s.lane x).rj ≠ 6 →
    exec (.rejoinCommand x) s = .next { s with arb := { s.arb with
      regs := fset s.arb.regs f_ARB_REJOIN_REFUSED 1, cmds := s.arb.cmds.filter fun c => c.1 != f_ARB_REJOIN_GO.key } })

/-- R381 to R387: the roll call. -/
def Obligations.RollCallsPollAndJudge : Prop :=
  (∀ s : State, s.arb.runs = true → s.arb.agreed = true → s.arb.rolling = false →
    s.arb.slot.toNat % 20 = fget s.arb.regs f_ARB_ROLLCFG_ROLLPHASE →
    ∃ ls, exec (.rollCall false) s = .next { s with arb := { s.arb with lanes := ls, rolling := true, downLinks := s.downNow } } ∧
      ∀ x, x.num < s.arb.lanes.length →
        ls.getD x.num judge0 = { s.arb.judge x with polled := (s.lane x).life != .held, answered := false }) ∧
  (∀ (s : State) (x : LaneId) (temp : Int) (ok : Bool), s.arb.runs = true → s.arb.agreed = true → (s.arb.judge x).polled = true →
    x.num < s.arb.lanes.length → (s.lane x).life ≠ .held → (s.lane x).trip = none →
    let j := s.arb.judge x
    let r := (s.lane x).report temp
    ∃ t, exec (.rollCallReport x temp ok) s = .next t ∧
      t.lane x = { s.lane x with
        rep := { (s.lane x).rep with rseq := ((s.lane x).rep.rseq + 1) % 65536, uce := 0, clkFail := false, cecc := 0, tecc := 0, oot := 0, absent := 0 } } ∧
      (∀ y, y ≠ x → t.lane y = s.lane y ∧ t.arb.judge y = s.arb.judge y) ∧
      (ok = true → (j.nextSeq = none ∨ j.nextSeq = some r.rseq) →
        t.arb.judge x = { j with rep := r, polled := false, answered := true, missed := false, nextSeq := some ((r.rseq + 1) % 65536) }) ∧
      ((ok = false ∨ ∃ n, j.nextSeq = some n ∧ n ≠ r.rseq) →
        t.arb.judge x = { j with polled := false, answered := false, missed := true, nextSeq := some ((r.rseq + 1) % 65536) })) ∧
  (∀ (s : State) (x : LaneId), s.arb.runs = true → (s.arb.judge x).polled = true →
    exec (.reportTimeout x) s = .next { s with
      arb := s.arb.modJudge x (fun j => { j with polled := false, answered := false, missed := true }) }) ∧
  (∀ s : State, s.arb.runs = true → s.arb.agreed = true → s.arb.rolling = true → s.arb.mask = s.arb.nextMask →
    s.arb.slot.toNat % 20 = fget s.arb.regs f_ARB_ROLLCFG_ROLLPHASE →
    (∃ x, s.arb.mask.has x = true ∧ s.arb.endPolls.criterion x = 0) →
    ∃ t, exec (.rollCall true) s = .next t ∧
      (∀ x, t.arb.nextMask.has x = (s.arb.mask.has x && decide (s.arb.endPolls.criterion x = 0))) ∧
      ∀ x, x.num < s.arb.lanes.length →
        let j := s.arb.judge x
        let miss := !j.answered && (j.polled || s.arb.mask.has x)
        (t.arb.judge x).missed = miss ∧ (t.arb.judge x).missedRun = (if miss then j.missedRun + 1 else 0))

/-- R389: the decision of a two-lane hold. -/
def Obligations.TwoLaneHoldsAreDecided : Prop :=
  (∀ (s : State) (x : LaneId) (e : Nat), s.arb.snapDue = true → s.arb.mask.count = 2 → s.arb.nextMask = s.arb.mask →
    s.arb.evidence = some (x, e) →
    ∃ t, exec .snapRollCallDecision s = .next t ∧ t.arb.nextMask = s.arb.mask.put x false ∧ t.arb.nextMask.count = 1 ∧
      t.arb.hold = { s.arb.hold with snap := false } ∧ fget t.arb.regs (laneFld f_ARB_LANESTAT_CAUSE x) = 6 ∧
      fget t.arb.regs f_ARB_HOLD_EVIDENCE = e % 4 ∧
      fget t.arb.regs f_ARB_HOLD_DECIDED = satAdd 255 (fget s.arb.regs f_ARB_HOLD_DECIDED) 1 ∧
      fget t.arb.regs f_ARB_HOLD_UNDECIDED = fget s.arb.regs f_ARB_HOLD_UNDECIDED ∧
      ∀ y, t.lane y = s.lane y) ∧
  (∀ (a : Arb) (x y : LaneId), (a.mask.toList = [x, y] ∨ a.mask.toList = [y, x]) → a.hold.endBad.has x = true →
    a.hold.endBad.has y = false → a.evidence = some (x, 1)) ∧
  (∀ s : State, s.arb.snapDue = true → s.arb.mask.count = 2 → s.arb.nextMask = s.arb.mask → s.arb.evidence = none →
    ∃ t, exec .snapRollCallDecision s = .next t ∧ t.arb.mask = LaneSet.empty ∧ t.arb.nextMask = LaneSet.empty ∧
      t.arb.AtDefaults ∧ t.arb.gateOpen = false ∧ t.arb.agreed = false)

/-- R392, R401, R402: self-test and back-off.
A command whose event cannot occur changes nothing: assumption 1. -/
def Obligations.SelfTestsEndInWaitingOrHalted : Prop :=
  (∀ (s : State) (x : LaneId) (item : Nat), (s.lane x).life = .up → (s.lane x).rj = 1 →
    let l := s.lane x
    ∃ l', exec (.selftestDone x item) s = .next (s.setLane x l') ∧
      { l' with regs := l.regs, rep := l.rep, waitFrom := l.waitFrom, solv := l.solv } = l ∧
      (0 < item → item < 256 → l'.rj = 6 ∧ fget l'.regs f_LCTL_RJSTAT_TESTITEM = item ∧ l'.rep.selfOk = false ∧
        (l.rep.uce = 0 → l'.rep.uce = 8)) ∧
      ((Config.dramSize x).toNat < 4 → l'.rj = 6 ∧ l'.rep.selfOk = false) ∧
      (item = 0 → 4 ≤ (Config.dramSize x).toNat → l'.rj = (if s.haltsAt x then 6 else 2) ∧ l'.rep.selfOk = true ∧
        l'.rep.clkFail = false ∧ l'.solv = { l.solv with retired := 0 } ∧ l'.waitFrom = s.arb.ticks ∧ fget l'.regs f_LCTL_CLKSTAT_XTALOK = 1)) ∧
  (∀ (s : State) (x y : LaneId), s.arb.mask.toList.head? = some y → (s.lane x).rj = 2 → (s.lane x).backoff = true →
    (s.lane x).waitFrom + (s.lane y).dict.nat 0x1100 4 * 20000 ≤ s.arb.ticks →
    exec (.backoffExpire x) s = .next (s.setLane x { s.lane x with backoff := false }) ∧
      ({ s.lane x with backoff := false } : Lane).rejoinReq = true) ∧
  (∀ (s : State) (x y : LaneId), s.arb.mask.toList.head? = some y →
    s.arb.ticks < (s.lane x).waitFrom + (s.lane y).dict.nat 0x1100 4 * 20000 → exec (.backoffExpire x) s = .next s)

/-- R395 to R397: the phases of a rejoin. -/
def Obligations.CopiesGoThroughTheirPhases : Prop :=
  (∀ s : State, s.arb.runs = true → s.arb.phase = 1 → (s.lane s.arb.joiner).rj = 3 →
    exec .bulkCopyDone s = .next { s.setLane s.arb.joiner
        { s.lane s.arb.joiner with copy := { (s.lane s.arb.joiner).copy with bulk := true } } with
      arb := { s.arb with regs := fset (fset s.arb.regs f_ARB_JOIN_PHASE 2) f_ARB_JOIN_PROGRESS 100 } }) ∧
  (∀ s : State, s.arb.runs = true → s.arb.phase = 2 → (s.lane s.arb.joiner).rj = 3 →
    exec .dramPartDone s = .next { s.setLane s.arb.joiner
        { (s.lane s.arb.joiner).setRj 4 with copy := { (s.lane s.arb.joiner).copy with dram := true } } with
      arb := { s.arb with regs := fset s.arb.regs f_ARB_JOIN_PHASE 3, dramDone := some s.arb.ticks } }) ∧
  (∀ (s : State) (marked : Nat), s.arb.runs = true → s.arb.phase = 3 → (s.lane s.arb.joiner).rj = 4 → marked ≤ 50331648 →
    exec (.deltaPass marked) s = .next (s.setLane s.arb.joiner
      { s.lane s.arb.joiner with copy := { (s.lane s.arb.joiner).copy with passes := (s.lane s.arb.joiner).copy.passes + 1 } })) ∧
  (∀ (s : State) (delta t0 : Nat), s.arb.runs = true → s.arb.phase = 3 → (s.lane s.arb.joiner).rj = 4 →
    1 ≤ (s.lane s.arb.joiner).copy.passes → delta ≤ 98304 → s.arb.dramDone = some t0 → s.arb.ticks ≤ t0 + 20000 →
    (s.lane s.arb.donor).handoverReady = true →
    let d := s.lane s.arb.donor
    ∃ l', exec (.handoverSlot delta true) s = .next { s.setLane s.arb.joiner l' with
        arb := { s.arb with regs := fset s.arb.regs f_ARB_JOIN_PHASE 4, strobe := { s.arb.strobe with joinPhase := 4 } } } ∧
      l'.rj = 5 ∧ l'.slot = d.slot ∧ l'.dict.vals = d.dict.vals ∧ l'.feeders = d.feeders ∧ l'.thm = d.thm ∧ l'.keyA = d.keyA ∧
      l'.img = d.img ∧ l'.rtc = (s.lane s.arb.joiner).rtc ∧ l'.rtdOwn = (s.lane s.arb.joiner).rtdOwn)

/-- R396 to R401: rejoins that fail, and the copies that trail. -/
def Obligations.RejoinsFailAndBeginAgain : Prop :=
  (∀ (s : State) (delta t0 : Nat), s.arb.runs = true → s.arb.phase = 3 → (s.lane s.arb.joiner).rj = 4 →
    1 ≤ (s.lane s.arb.joiner).copy.passes → delta ≤ 98304 → s.arb.dramDone = some t0 → s.arb.ticks ≤ t0 + 20000 →
    (s.lane s.arb.donor).handoverReady = true →
    ∃ t, exec (.handoverSlot delta false) s = .next t ∧ t.arb.joining = false ∧ (t.lane s.arb.joiner).rj = 1 ∧
      (t.lane s.arb.joiner).backoff = true ∧ (t.lane s.arb.joiner).waitFrom = s.arb.ticks ∧
      fget t.arb.regs f_ARB_JOIN_PHASE = 0 ∧ fget t.arb.regs (laneFld f_ARB_LANESTAT_CAUSE s.arb.joiner) = 8 ∧
      fget t.arb.regs f_ARB_JOIN_FAILS = satAdd 255 (fget s.arb.regs f_ARB_JOIN_FAILS) 1 ∧
      ∀ y, y ≠ s.arb.joiner → t.lane y = s.lane y) ∧
  (∀ (s : State), s.arb.runs = true → s.arb.phase = 3 → (∀ t0, s.arb.dramDone = some t0 → t0 + 20000 < s.arb.ticks) →
    ∃ t, exec .handoverTimeout s = .next t ∧ t.arb.joining = false ∧ (t.lane s.arb.joiner).rj = 2 ∧
      (t.lane s.arb.joiner).backoff = true ∧ fget t.arb.regs f_ARB_JOIN_PHASE = 0 ∧
      fget t.arb.regs f_ARB_JOIN_FAILS = satAdd 255 (fget s.arb.regs f_ARB_JOIN_FAILS) 1 ∧
      ∀ y, y ≠ s.arb.joiner → t.lane y = s.lane y) ∧
  (∀ (s : State) (d : LaneId), s.arb.runs = true → s.arb.joining = true →
    ((s.arb.nextMask.has s.arb.donor = false ∧ s.arb.nextMask.toList.head? = some d →
      ∃ m, exec .donorFail s = .next { s.setLane s.arb.joiner { (s.lane s.arb.joiner).setRj 3 with copy := copy0, handover := false } with
          arb := { s.arb with regs := m, dramDone := none } } ∧
        fget m f_ARB_JOIN_DONOR = d.num ∧ fget m f_ARB_JOIN_PHASE = 1 ∧ fget m f_ARB_JOIN_PROGRESS = 0 ∧
        fget m f_ARB_JOIN_DONORCHG = satAdd 255 (fget s.arb.regs f_ARB_JOIN_DONORCHG) 1 ∧
        fget m f_ARB_JOIN_JOINER = fget s.arb.regs f_ARB_JOIN_JOINER) ∧
     (1 ≤ s.arb.phase → s.arb.phase ≤ 3 → (s.arb.nextMask.toList.filter fun x => decide (x ≠ s.arb.donor)).head? = some d →
      ∃ m, exec .donorPathTimeout s = .next { s.setLane s.arb.joiner { (s.lane s.arb.joiner).setRj 3 with copy := copy0, handover := false } with
          arb := { s.arb with regs := m, dramDone := none } } ∧
        fget m f_ARB_JOIN_DONOR = d.num ∧ fget m f_ARB_JOIN_PHASE = 1) ∧
     (1 ≤ s.arb.phase → s.arb.phase ≤ 3 → (s.arb.nextMask.toList.filter fun x => decide (x ≠ s.arb.donor)) = [] →
      ∃ t, exec .donorPathTimeout s = .next t ∧ t.arb.joining = false ∧ (t.lane s.arb.joiner).rj = 2 ∧
        (t.lane s.arb.joiner).backoff = true ∧ (t.lane s.arb.joiner).copy = copy0))) ∧
  (∀ (s : State) (x : LaneId), (s.lane x).copy.factor = true → s.arb.mask.has x = true →
    exec (.factorFetchDone x) s = .next (s.setLane x { s.lane x with
      copy := { (s.lane x).copy with factor := false }
      solv := { (s.lane x).solv with factor := (s.lane x).solver.warm.map (·.fac) } })) ∧
  (∀ (s : State) (x d : LaneId), (s.lane x).copy.trailing = true → s.arb.mask.has x = true →
    (s.arb.mask.toList.find? fun y => decide (y ≠ x) && !(s.lane y).copy.trailing) = some d →
    ∃ t, exec (.journalCopyDone x) s = .next (s.setLane x t) ∧ t.copy.trailing = false ∧ t.dict.journal = (s.lane d).dict.journal ∧
      { t with copy := (s.lane x).copy, dict := (s.lane x).dict, leng := (s.lane x).leng } = s.lane x ∧
      { t.dict with journal := (s.lane x).dict.journal } = (s.lane x).dict ∧
      ∀ i, i < 16 → i < (s.lane x).leng.traces.length → i < (s.lane d).leng.traces.length →
        (t.leng.traces[i]?).map (·.ring) = ((s.lane d).leng.traces[i]?).map (·.ring))

/-- R14, R377, R458: the state after reset. -/
def Obligations.ResetHoldsEverythingAtItsStart : Prop :=
  (∀ x, (State.reset.lane x).life = .held) ∧ State.reset.arb.inReset = true ∧ State.reset.arb.mask = LaneSet.empty ∧
  State.reset.arb.AtDefaults ∧ (∀ k, rget State.reset.arb.regs k = regRst k) ∧ (∀ x k, rget (State.reset.lane x).regs k = regRst k) ∧
  State.reset.isl.locked = false ∧ State.reset.isl.armed = false ∧ State.reset.pending = [] ∧
  State.reset.arb.Guarded ∧ State.reset.arb.Canonical ∧ State.reset.Bounded

/-- R348, R458 to R460, R476: releases. -/
def Obligations.ReleasesStartArbiterAndLanes : Prop :=
  (∀ s : State, s.arb.inReset = true → s.bak.holdFrom = none →
    ∃ t, exec .arbiterRelease s = .next t ∧ t.arb.inReset = false ∧ t.arb.fault = false ∧ t.arb.AtDefaults ∧
      t.arb.mask = LaneSet.empty ∧ t.arb.perst = s.arb.perst ∧
      t.bak.holds = (if s.bak.wasReset then min 15 (s.bak.holds + 1) else s.bak.holds) ∧
      fget t.arb.regs f_ARB_RSTCAUSE_HOLDS = t.bak.holds % 16 ∧ fget t.arb.regs f_ARB_RSTHOLD_HOLDSEC = s.bak.holdSec % 2 ^ 32 ∧
      fget t.arb.regs f_ARB_RSTCAUSE_RESETN = s.bak.wasReset.toNat ∧ fget t.arb.regs f_ARB_RSTCAUSE_POR = s.bak.wasPor.toNat ∧
      fget t.arb.regs f_ARB_RSTCAUSE_VDDARB = s.bak.wasVddArb.toNat ∧ fget t.arb.regs f_ARB_RSTCAUSE_ARBFAULT = s.bak.wasFault.toNat ∧
      t.bak.wasReset = false ∧ t.bak.wasPor = false ∧ t.bak.wasVddArb = false ∧ t.bak.wasFault = false ∧ t.isl = s.isl ∧
      t.bak.log = s.bak.log ∧ ∀ x, (t.lane x).life = .held ∧ (t.lane x).rtc.sec = (s.lane x).rtc.sec) ∧
  (∀ (s : State) (x : LaneId) (item : Nat), s.canRelease x = true → s.bak.active = true → s.bak.policy ≠ 0 →
    ∃ l', exec (.laneRelease x item) s = .next (s.setLane x l') ∧ l'.life = .loading ∧ l'.rj = 1 ∧ l'.key = (s.lane x).key ∧
      l'.nvm = (s.lane x).nvm) ∧
  (∀ (s : State) (x : LaneId) (item : Nat), s.canRelease x = true → (s.bak.active = false ∨ s.bak.policy = 0) →
    let l := s.lane x
    let m := (l.fusesLoaded x s.arb.ticks).loadStored
    ∃ l', exec (.laneRelease x item) s = .next (s.setLane x l') ∧ l'.life = .up ∧ l'.key.ready = true ∧
      l'.keyA.gens = l.nvm.gens ∧ l'.nvm = l.nvm ∧
      (m.imageOk 1 = false ∨ m.imageOk 2 = false → l'.rj = 6 ∧ fget l'.regs f_LCTL_RJSTAT_UCECAUSE = 7) ∧
      (m.imageOk 1 = true → m.imageOk 2 = true → 4 ≤ (Config.dramSize x).toNat →
        l'.rj = (if item ≠ 0 ∨ s.haltsAt x = true then 6 else 2) ∧ l'.rep.selfOk = decide (item = 0)))

/-- R26, R337, R411, R461, R463: the start up to first agreement. -/
def Obligations.StartAgreesBeforeRunning : Prop :=
  (∀ s : State, s.arb.starting = true → s.arb.ticks % 20 = 0 →
    ∃ t, exec .startupRollCall s = .next t ∧ t.isl = s.isl ∧ t.bak = s.bak ∧ t.arb.mask = s.arb.mask ∧
      (∀ x, (s.lane x).life = .held → t.lane x = s.lane x) ∧
      ∀ x, (s.lane x).life ≠ .held →
        { t.lane x with nvm := (s.lane x).nvm, keyA := (s.lane x).keyA, key := (s.lane x).key } = s.lane x ∧
        (∀ y, (s.lane y).life ≠ .held → (s.lane y).nvm.gens.dev ≤ (t.lane x).nvm.gens.dev ∧ (s.lane y).nvm.gens.agr ≤ (t.lane x).nvm.gens.agr) ∧
        (∃ y, (s.lane y).life ≠ .held ∧ (t.lane x).nvm.gens.dev = (s.lane y).nvm.gens.dev) ∧
        (t.lane x).nvm.gens.sto = (s.lane x).nvm.gens.sto ∧ (t.lane x).keyA.gens.dev = (t.lane x).nvm.gens.dev) ∧
  (∀ (s : State) (t0 : Nat), s.arb.starting = true → s.arb.window = some t0 → s.arb.windowClosed = false →
    (s.arb.readySet.count = 3 ∨ t0 + 10000 ≤ s.arb.ticks) → s.arb.readySet.count ≠ 0 →
    ∃ ls, exec .startWindowClose s = .next { s with arb := { s.arb with lanes := ls, windowClosed := true, ready := s.arb.readySet } } ∧
      ∀ x, x.num < s.arb.lanes.length → ls.getD x.num judge0 =
        (if s.arb.readySet.has x = true then s.arb.judge x else { s.arb.judge x with permit := true })) ∧
  (∀ s : State, s.arb.starting = true → s.arb.windowClosed = true → 0 < s.stillReady.count →
    ∃ t, exec .settlementDone s = .next t ∧ t.arb = { s.arb with ready := s.stillReady, agreeNext := true } ∧
      (∀ x, s.stillReady.has x = false → t.lane x = s.lane x) ∧
      ∀ x y, s.stillReady.has x = true → s.stillReady.has y = true →
        (t.lane x).dict.vals = (t.lane y).dict.vals ∧ (t.lane x).lseq.image = (t.lane y).lseq.image) ∧
  (∀ s : State, s.arb.runs = true → s.arb.strobe.first = true → s.arb.agreed = false → 0 < s.firstLanes.count →
    ∃ t, exec .firstAgreement s = .next t ∧ t.arb.agreed = true ∧ t.arb.firstSlot = t.arb.slot ∧
      t.arb.slot = (s.startAgreed s.firstLanes.toList).slot ∧
      t.arb.out = { slot := BitVec.ofNat 16 t.arb.slot.toNat, isOpen := true, frames := [], passed := [] } ∧
      fget t.arb.regs f_ARB_ROLLCFG_ROLLPHASE = t.arb.slot.toNat % 20 ∧
      (∀ x, s.firstLanes.has x = true → (t.lane x).slot = t.arb.slot ∧ (t.lane x).inRun = true ∧ (t.lane x).firstSlot = t.arb.slot) ∧
      (∀ x, s.firstLanes.has x = false → t.lane x = s.lane x) ∧
      ((∀ x, s.firstLanes.has x = true → (s.lane x).rtc.noTime = true) → t.arb.slot = 0))

/-- R350, R467 to R469: commits and retags. -/
def Obligations.CommitsLeaveTheOlderImage : Prop :=
  (∀ (s : State) (x : LaneId), (s.lane x).mask.has x = true → (s.lane x).inRun = true → (s.lane x).trip = none →
    let l := s.lane x
    ∃ l', exec (.nvmCommitCommand x) s = .next (s.setLane x l') ∧ { l' with nvm := l.nvm } = l ∧
      (l.nvm.dict.busy = none → l'.nvm.dict = { l.nvm.dict with queued := false, busy := some { start := l.slot, image := l.dictImage, step := 1 } }) ∧
      (l.nvm.dict.busy ≠ none → l'.nvm.dict = { l.nvm.dict with queued := true })) ∧
  (∀ (s : State) (x : LaneId) (c ms : Nat) (b : CommitRun), (c = 1 ∨ c = 2) → ((s.lane x).nvm.cls c).busy = some b →
    (s.lane x).nvm.retag = none → (s.lane x).trip = none → ((s.lane x).nvm.cls c).cseq.toNat + 1 < 2 ^ 32 →
    let l := s.lane x
    ∃ l' r, exec (.nvmCommitDone x c ms) s = .next (s.setLane x l') ∧ { l' with nvm := l.nvm, regs := l.regs } = l ∧
      (l'.nvm.cls c).active = some r ∧ r.cseq.toNat = (l.nvm.cls c).cseq.toNat + 1 ∧ r.slot = b.start ∧
      r.tag = imageTag l.keyA.gens c b.image ∧ (l'.nvm.cls c).image r = b.image ∧ fget l'.regs f_NVM_STAT_COMMITDONE = 1 ∧
      ∀ q, (l.nvm.cls c).active = some q → (l'.nvm.cls c).image q = (l.nvm.cls c).image q ∧
        ((l'.nvm.cls c).rec0 = some q ∨ (l'.nvm.cls c).rec1 = some q)) ∧
  (∀ (s : State) (x : LaneId) (r : Retag), (s.lane x).nvm.retag = some r → (s.lane x).tamperActs = false →
    let l := s.lane x
    ∃ n, exec (.retagDone x) s = .next (s.setLane x { l with nvm := n }) ∧ n.retag = none ∧ n.gens.sto = r.target.sto ∧
      n.gens.dev = l.nvm.gens.dev ∧ n.gens.leaf = mset (fun _ => 0) (mset (fun _ => 0) l.nvm.gens.leaf (65536 * 4 + 1) (r.target.leafGen 4 1))
        (65536 * 4 + 2) (r.target.leafGen 4 2) ∧
      (r.dict = true → ∀ q, l.nvm.dict.active = some q →
        n.dict.active = some { q with cseq := q.cseq + 1, gSto := r.target.sto, gLeaf := r.target.leafGen 4 1
                                      tag := imageTag r.target 1 (l.nvm.dict.image q) }) ∧
      (r.dict = false → n.dict = l.nvm.dict))

/-- R252, R382, R423, R425, R472: trips and resets of a lane, and ECC errors.
A command whose event cannot occur changes nothing: assumption 1. -/
def Obligations.LanesTripAndReset : Prop :=
  (∀ (s : State) (x : LaneId), s.arb.runs = true → (s.lane x).life ≠ .held → (s.lane x).trip = none →
    ∀ p : Instr × Nat, p = (.powerFailNFall x, 1) ∨ p = (.inputMonitorTrip x, 2) →
      ∃ l' m u i, exec p.1 s = .next { s.setLane x l' with arb := { s.arb with regs := m, msix := u, msi := i } } ∧
        (fget m f_ARB_IRQSTAT_CAUSE).testBit 12 = true ∧
        ((s.lane x).meters = false → l' = { s.lane x with trip := some { slot := (s.lane x).slot, written := true } }) ∧
        ((s.lane x).meters = true → (∃ k, l'.trip = some { slot := k, written := false }) ∧
          (∃ f, l'.nvm.flaskBusy = some f ∧ f.cause = p.2) ∧
          ((s.lane x).metering = false → l'.dict = (s.lane x).dict ∧ l'.regs = (s.lane x).regs))) ∧
  (∀ (s : State) (x : LaneId), ((s.lane x).life = .held ∨ (s.lane x).trip ≠ none) →
    exec (.powerFailNFall x) s = .next s ∧ exec (.inputMonitorTrip x) s = .next s) ∧
  (∀ (s : State) (x : LaneId), (s.lane x).trip ≠ none → ∃ t, exec (.laneSelfReset x) s = .next t ∧
    { t.lane x with rtc := laneReset.rtc, nvm := laneReset.nvm, shadow := laneReset.shadow } = laneReset ∧
    (t.lane x).rtc.sec = (s.lane x).rtc.sec ∧ (t.lane x).rtc.frac = (s.lane x).rtc.frac ∧ (t.lane x).nvm.gens = (s.lane x).nvm.gens ∧
    (t.lane x).nvm.dict.rec0 = (s.lane x).nvm.dict.rec0 ∧ (∀ y, y ≠ x → t.lane y = s.lane y) ∧ t.isl = s.isl ∧ t.bak = s.bak ∧
    (s.arb.joining = true → s.arb.joiner = x → t.arb.joining = false) ∧
    (s.arb.joining = false → t.arb = s.arb)) ∧
  (∀ (s : State) (x : LaneId), (s.lane x).life ≠ .held → ∃ t, exec (.laneRailReset x) s = .next t ∧
    { t.lane x with rtc := laneReset.rtc, nvm := laneReset.nvm, shadow := laneReset.shadow } = laneReset ∧
    (t.lane x).rtc.sec = (s.lane x).rtc.sec ∧ (∀ y, y ≠ x → t.lane y = s.lane y) ∧
    ((s.lane x).meters = true → (t.lane x).nvm.flask.valid = false)) ∧
  (∀ (s : State) (x : LaneId) (corr : Bool) (site : EccSite) (addr : Nat), (s.lane x).life ≠ .held →
    let l := s.lane x
    ∃ l', exec (.eccError x corr site addr) s = .next (s.setLane x l') ∧ { l' with regs := l.regs, rep := l.rep } = l ∧
      (corr = true → site = .tile → l'.rep = { l.rep with tecc := satAdd 0xFFFF l.rep.tecc 1 }) ∧
      (corr = true → site ≠ .tile → l'.rep = { l.rep with cecc := satAdd 0xFFFF l.rep.cecc 1 }) ∧
      (corr = false → site ≠ .tile → l'.rep = { l.rep with uce := if l.rep.uce = 0 then 1 else l.rep.uce } ∧
        fget l'.regs f_LCTL_RJSTAT_UCECAUSE = 1) ∧
      (corr = false → site = .tile → l' = l) ∧
      (site = .dram → fget l'.regs f_DRC_ECCADDR_ADDR = addr % 2 ^ (f_DRC_ECCADDR_ADDR.hi + 1 - f_DRC_ECCADDR_ADDR.lo) ∧
        (corr = true → fget l'.regs f_DRC_STAT_CE = 1) ∧ (corr = false → fget l'.regs f_DRC_STAT_UCE = 1)) ∧
      (site ≠ .dram → corr = true → l'.regs = l.regs))

/-- R406, R417, R426, R475, R476: resets of the device. -/
def Obligations.DeviceResetsKeepTheirRecords : Prop :=
  (∀ s : State, s.bak.holdFrom = none → ∃ t, exec .resetNFall s = .next t ∧ t.bak.wasReset = true ∧ t.isl = s.isl ∧
    t.arb.mask = s.arb.mask ∧ t.arb.inReset = s.arb.inReset ∧ { t.bak with holdFrom := none, wasReset := s.bak.wasReset } = s.bak ∧
    (∀ y, s.rtcLead = some y → t.bak.holdFrom = some (s.lane y).rtc.ticks) ∧
    ∀ x, { t.lane x with rtc := laneReset.rtc, nvm := laneReset.nvm, shadow := laneReset.shadow } = laneReset) ∧
  (∀ (s : State) (h : Nat), s.bak.holdFrom = some h →
    exec .arbiterResetEntry s = .next { s with arb := { arbReset with perst := s.arb.perst } } ∧
    (∀ y, s.rtcLead = some y → exec .resetNRise s = .next { s with
      arb := { arbReset with perst := s.arb.perst }
      bak := { s.bak with holdFrom := none, holdSec := min (2 ^ 32 - 1) (((s.lane y).rtc.ticks - h) / 2 ^ 32) } })) ∧
  (∀ s : State, exec (.arbSupplyReset true) s = .next { s with
    arb := { arbReset with perst := s.arb.perst }
    bak := { s.bak with wasVddArb := true } }) ∧
  (∀ s : State, ∃ t, exec (.arbSupplyReset false) s = .next t ∧ t.arb = { arbReset with perst := s.arb.perst } ∧
    t.bak = { s.bak with wasVddArb := true, wasPor := true, mains := false } ∧
    ∀ x, t.lane x = { s.lane x with rtc := { (s.lane x).rtc with standby := true } }) ∧
  (∀ s : State, ∃ t, exec .backupPowerLoss s = .next t ∧ t.isl = s.isl ∧ t.arb = { arbReset with perst := s.arb.perst } ∧
    t.bak.log = [none, none, none, none] ∧ t.bak.active = false ∧ t.bak.policy = 0 ∧
    ∀ x, (t.lane x).life = .held ∧ (t.lane x).rtc = rtcReset ∧ (t.lane x).nvm = (s.lane x).nvm.cutOff x)

/-- R361, R363, R364, R377: configuration of the island.
A command whose event cannot occur changes nothing: assumption 1. -/
def Obligations.TheIslandIsConfiguredOnce : Prop :=
  (∀ (s : State) (b : Bytes) (w : Word), s.configOut = some (b, w) →
    ∃ t, exec .configConfirm s = .next t ∧ t.bak = s.bak ∧ t.arb.vdo = s.arb.vdo ∧ t.arb.mask = s.arb.mask ∧
      (∀ x, s.arb.mask.has x = false → t.lane x = s.lane x) ∧
      (∀ x, s.arb.mask.has x = true → (t.lane x).cfgOut = none ∧ ∃ d, (t.lane x).evq = (s.lane x).evq ++ [(8, d, 0xFF)]) ∧
      (s.isl.locked = true → t.isl = { s.isl with confirm := 3, regs := fflag s.isl.regs f_SAFE_STAT_CFGVIOL }) ∧
      (s.isl.locked = false → crc32 b ≠ w → t.isl = { s.isl with confirm := 2, regs := fflag s.isl.regs f_SAFE_STAT_CRCREJECT }) ∧
      (s.isl.locked = false → crc32 b = w → t.isl.locked = true ∧ t.isl.block = b ∧ t.isl.crc = w ∧ t.isl.confirm = 1 ∧
        t.isl.regs = s.isl.regs ∧
        ∀ (n : Nat) (x : IslChannel), s.isl.ch[n]? = some x → t.isl.ch[n]? = some (if (islCfg b n).mode ≠ 0 ∧ x.st = 0 then { x with st := 3, settling := true } else x))) ∧
  (∀ s : State, s.configOut = none → exec .configConfirm s = .next s) ∧
  (∀ s : State, exec .islandPowerOn s = .next { s with isl := islandReset } ∧ islandReset.locked = false ∧ islandReset.armed = false)

/-- R357, R366 to R368, R372: one evaluation cycle without a restart. -/
def Obligations.ChannelsStopOnRequestsAndFaults : Prop :=
  ∀ (s : State) (samples : List ChannelSample), ∃ t, exec (.evaluationCycle samples) s = .next t ∧
    (∀ x, t.lane x = s.lane x) ∧ t.bak = s.bak ∧ t.arb.vdo = s.arb.vdo ∧ t.isl.locked = s.isl.locked ∧ t.isl.block = s.isl.block ∧
    (∀ (n : Nat) (x : IslChannel), s.isl.ch[n]? = some x → ∃ y, t.isl.ch[n]? = some y ∧
      let c := islCfg s.isl.block n
      let p := samples.getD n ⟨0, 0, false, false⟩
      let sound := s.isl.faults = 0 ∧ (s.isl.locked = true → crc32 s.isl.block = s.isl.crc)
      (sound → x.st = 1 → islDiag c x p = 0 → c.filter * 8000 ≤ p.low →
        y.st = (if c.mode = 2 ∨ speedBelow p.edges c.window c.vstand = true then 3 else 2) ∧
        (y.st = 2 → y.v0 = p.edges ∧ y.t = 0)) ∧
      (sound → x.st = 2 → islDiag c x p = 0 → speedBelow p.edges c.window c.vstand = false →
        aboveEnvelope c p.edges x.v0 x.t = true → y.st = 4 ∧ y.cause = 1) ∧
      (sound → x.st ≠ 0 → x.st ≠ 4 → islDiag c x p ≠ 0 → y.st = 4 ∧ y.cause = islDiag c x p) ∧
      (y.st = 1 → x.st = 1) ∧
      (x.st ≠ 0 → (y.gate = true ↔ y.st = 1 ∨ y.st = 2)) ∧
      (s.isl.locked = true → crc32 s.isl.block ≠ s.isl.crc → y.st = 4 ∧ y.cause = 8 ∧ y.gate = false))

/-- R373 to R375: the reset input. -/
def Obligations.ValidPulsesRestartStoppedChannels : Prop :=
  (∀ (s : State) (us : Nat) (samples : List ChannelSample), ∃ t, exec (.sresetRise us samples) s = .next t ∧
    (∀ x, t.lane x = s.lane x) ∧ t.isl.armed = false ∧ t.isl.stuck = s.isl.stuck ∧
    (50000 ≤ us → us ≤ 3000000 → s.isl.armed = true → s.isl.stuck = false →
      ∀ (n : Nat) (x : IslChannel), s.isl.ch[n]? = some x → ∃ y, t.isl.ch[n]? = some y ∧
        let c := islCfg s.isl.block n
        let p := samples.getD n ⟨0, 0, false, false⟩
        (s.isl.faults = 0 → (s.isl.locked = true → crc32 s.isl.block = s.isl.crc) → x.st = 3 → islDiag c x p = 0 →
          p.hsb = false → p.lsb = false → x.seen = true → x.missed = 0 →
          p.low < c.filter * 8000 →
          (c.sources.testBit 0 = true → ((s.isl.newWord.getD s.isl.word).getLsbD n) = false) →
          (c.sources.testBit 1 = true → s.arb.hostReq.getLsbD n = false) →
          (c.sources.testBit 2 = true → s.isl.newWord ≠ none ∨ (s.isl.lost = false ∧ s.isl.sinceWord < 3)) →
          y.st = 1 ∧ y.gate = true)) ∧
    ((us < 50000 ∨ 3000000 < us ∨ s.isl.armed = false ∨ s.isl.stuck = true) →
      ∀ (n : Nat) (x : IslChannel), s.isl.ch[n]? = some x → ∃ y : IslChannel, t.isl.ch[n]? = some y ∧ (y.st = 1 → x.st = 1))) ∧
  (∀ s : State, exec .sresetStuck s = .next { s with
    isl := { s.isl with stuck := true, armed := false, regs := fbump s.isl.regs f_SAFE_RSTCNT_STUCKCNT } }) ∧
  (∀ s : State, exec .sresetArm s = .next { s with isl := { s.isl with armed := true, stuck := false } })

/-- R359, R360, R372: diagnostics of the island and its stop word.
A command whose event cannot occur changes nothing: assumption 1. -/
def Obligations.IslandTestsLatchTheirFaults : Prop :=
  (∀ (s : State) (c : Instr) (b : Nat), s.arb.runs = true →
    ((∃ ppm : Int, c = .clockCheck ppm ∧ 20000 < ppm.natAbs ∧ b = 0) ∨ (c = .ramMarch false ∧ b = 1) ∨
      (∃ mv, c = .vddSafeFault mv ∧ (mv < 1620 ∨ 1980 < mv) ∧ b = 3) ∨ (∃ us, c = .cycleWatchdog us ∧ 300 ≤ us ∧ b = 4)) →
    ∃ m u i j, exec c s = .next { s with isl := j, arb := { s.arb with regs := m, msix := u, msi := i } } ∧
      (∀ k, k < 5 → j.faults.getLsbD k = (s.isl.faults.getLsbD k || decide (k = b))) ∧
      j.first = (if s.isl.first = 0 then b + 1 else s.isl.first) ∧ j.sfault = true ∧ j.locked = s.isl.locked ∧
      (s.isl.faults = 0 → (fget m f_ARB_IRQSTAT_CAUSE).testBit 9 = true) ∧
      ∀ (n : Nat) (x : IslChannel), s.isl.ch[n]? = some x →
        j.ch[n]? = some { x with st := 4, cause := 8, gate := false, settling := true, restartable := false }) ∧
  (∀ (s : State) (ppm : Int), ppm.natAbs ≤ 20000 → exec (.clockCheck ppm) s = .next s) ∧
  (∀ s : State, exec (.ramMarch true) s = .next s) ∧
  (∀ (s : State) (mv : Nat), 1620 ≤ mv → mv ≤ 1980 → exec (.vddSafeFault mv) s = .next s) ∧
  (∀ (s : State) (us : Nat), us < 300 → exec (.cycleWatchdog us) s = .next s) ∧
  (∀ (s : State) (n : Nat) (x : IslChannel) (fell rose : Bool), s.isl.ch[n]? = some x → (x.st = 1 ∨ x.st = 2) →
    ∃ j, exec (.switchTest n fell rose) s = .next { s with isl := j } ∧ { j with ch := s.isl.ch, regs := s.isl.regs } = s.isl ∧
      j.ch[n]? = some { x with
        hsFail := x.hsFail || (!(fell && rose) && x.testHigh), lsFail := x.lsFail || (!(fell && rose) && !x.testHigh),
        testHigh := !x.testHigh, settling := true } ∧
      (∀ k, k ≠ n → j.ch[k]? = s.isl.ch[k]?) ∧ (fell = true → rose = true → j.regs = s.isl.regs)) ∧
  (∀ (s : State) (src : Nat) (high seen : BitVec 16), ∃ j, exec (.testPulse src high seen) s = .next { s with isl := j } ∧
    { j with ch := s.isl.ch, regs := s.isl.regs } = s.isl ∧
    ∀ (n : Nat) (x : IslChannel), s.isl.ch[n]? = some x → ∃ y, j.ch[n]? = some y ∧
      ((islCfg s.isl.block n).mode ≠ 0 → (islCfg s.isl.block n).tpsrc = src → seen.getLsbD n = true → y = { x with missed := 0, seen := true }) ∧
      ((islCfg s.isl.block n).mode ≠ 0 → (islCfg s.isl.block n).tpsrc = src → seen.getLsbD n = false → high.getLsbD n = true →
        y = { x with missed := x.missed + 1, seen := false }) ∧
      ((islCfg s.isl.block n).mode = 0 ∨ (islCfg s.isl.block n).tpsrc ≠ src → y = x)) ∧
  (∀ (s : State) (w : BitVec 16), s.arb.runs = true → s.arb.gateOpen = true → 0 < s.arb.mask.count → s.arb.stop = some w →
    exec (.stopWord false) s = .next s ∧
    (s.arb.ticks ≠ s.isl.wordSeq → exec (.stopWord true) s =
      .next { s with isl := { s.isl with newWord := some w, wordSeq := s.arb.ticks, sinceWord := 0 } })) ∧
  (∀ s : State, s.isl.newWord = none → 3 ≤ s.isl.sinceWord → exec .stopWordLoss s = .next { s with isl := { s.isl with lost := true } })

/-- R338, R340, R342, R353: the host's key jobs.
A command whose event cannot occur changes nothing: assumption 1. -/
def Obligations.HostKeyJobsEndWithTheirStatus : Prop :=
  ∀ (s : State) (x : LaneId) (len : Nat),
    let l := s.lane x
    let d := fget l.regs f_KEY_PATH_DOMAIN
    let n := fget l.regs f_KEY_PATH_NUMBER
    let data := ((List.range 16).flatMap fun k => leBytes 4 (fget l.regs (f_KEY_DATA_DATA.at (4 * k)))).take len
    let ends (l' : Lane) (st : Nat) (k : KeyUnit) : Prop :=
      { l' with key := l.key, regs := l.regs } = l ∧ l'.key = { k with job := none } ∧
        fget l'.regs f_KEY_RESULT_STATUS = st ∧ fget l'.regs f_KEY_STAT_LASTSTAT = st
    (∀ c op, (c, op) ∈ [(Instr.keyDerive x, 1), (.keyCrypt x len, 2), (.keyClear x, 3), (.keyKcv x, 4)] →
      ((∃ j, l.key.job = some j ∧ j.1 ≠ op) → exec c s = .next s) ∧
      ((∀ j, l.key.job = some j → j.1 = op) →
        (l.tamperActs = true → ∃ l', exec c s = .next (s.setLane x l') ∧ ends l' 2 l.key ∧
          fget l'.regs f_KEY_CNT_TAMPREF = satAdd 0xFFFF (fget l.regs f_KEY_CNT_TAMPREF) 1) ∧
        (l.tamperActs = false → l.key.ready = false → ∃ l', exec c s = .next (s.setLane x l') ∧ ends l' 3 l.key))) ∧
    (l.tamperActs = false → l.key.ready = true →
      ((∀ j, l.key.job = some j → j.1 = 1) →
        (leafOk d n = true → ∃ l', exec (.keyDerive x) s = .next (s.setLane x l') ∧
          ends l' 0 { l.key with reg := some (l.keyA.gens.path d n), host := some (l.keyA.gens.path d n) } ∧
          fget l'.regs f_KEY_GEN_GEN = (l.keyA.gens.path d n).gLeaf % 2 ^ 32) ∧
        (leafOk d n = false → ∃ l', exec (.keyDerive x) s = .next (s.setLane x l') ∧ ends l' 5 l.key)) ∧
      ((∀ j, l.key.job = some j → j.1 = 2) →
        (l.key.host = none → ∃ l', exec (.keyCrypt x len) s = .next (s.setLane x l') ∧ ends l' 5 l.key) ∧
        (∀ p, l.key.host = some p → (p.dom ≠ 4 ∨ p.num ≠ 2 ∨ len = 0 ∨ 64 < len) →
          ∃ l', exec (.keyCrypt x len) s = .next (s.setLane x l') ∧ ends l' 4 l.key) ∧
        (∀ p, l.key.host = some p → p.dom = 4 → p.num = 2 → 1 ≤ len → len ≤ 64 →
          (p.current l.keyA.gens = true → ∃ l', exec (.keyCrypt x len) s = .next (s.setLane x l') ∧ ends l' 0 { l.key with reg := some p } ∧
            ∀ k, k < 4 → fget l'.regs (f_KEY_MAC_MAC.at (4 * k)) = natAt (cmac p.key data) (4 * k) 4 % 2 ^ 32) ∧
          (p.current l.keyA.gens = false → ∃ l', exec (.keyCrypt x len) s = .next (s.setLane x l') ∧ ends l' 1 l.key))) ∧
      ((∀ j, l.key.job = some j → j.1 = 3) →
        ∃ l', exec (.keyClear x) s = .next (s.setLane x l') ∧ ends l' 0 { l.key with reg := none }) ∧
      ((∀ j, l.key.job = some j → j.1 = 4) →
        (l.key.host = none → ∃ l', exec (.keyKcv x) s = .next (s.setLane x l') ∧ ends l' 5 l.key) ∧
        (∀ p, l.key.host = some p →
          (p.current l.keyA.gens = true → ∃ l', exec (.keyKcv x) s = .next (s.setLane x l') ∧ ends l' 0 { l.key with reg := some p } ∧
            fget l'.regs f_KEY_RESULT_KCV = kcv p.key % 2 ^ 24) ∧
          (p.current l.keyA.gens = false → ∃ l', exec (.keyKcv x) s = .next (s.setLane x l') ∧ ends l' 1 l.key ∧
            fget l'.regs f_KEY_CNT_ORPHCNT = satAdd 0xFFFF (fget l.regs f_KEY_CNT_ORPHCNT) 1))))

/-- R309, R314 to R316, R328: binding, retries, READ and ECHO. -/
def Obligations.RequestsBindAndReadTheirField : Prop :=
  ∀ (s : State) (x : LaneId) (r : ExecReq) (m : Lane) (c : Instr) (k : Nat),
    (c, k) ∈ [(Instr.txRead x, 1), (.txWrite x, 2), (.txWriteStaged x, 3), (.txCommit x, 4), (.txAbort x, 5), (.txSubscribe x, 6),
      (.txUnsubscribe x, 7), (.txSegmentRead x, 0xA), (.txSegmentWrite x, 0xB), (.txEcho x, 0xC), (.txEnrol x, 0xD)] →
    (s.lane x).Request x k r m →
    let n := r.sess
    let tid := natAt r.body 2 2
    let b := r.body.drop 4
    let allowed := (m.dict.nat (0x1200 + n) 4).testBit (if r.port = 0xFF then 63 else r.port)
    (¬ m.OpenFor r → exec c s = .next (s.setLane x m)) ∧
    (m.OpenFor r → (m.sess n).st = 1 → allowed = false →
      exec c s = .next (s.setLane x { m with regs := fbump m.regs (f_XACT_RXERR_WRONGPORT.at (4 * n)) })) ∧
    (m.OpenFor r → (m.sess n).st = 1 → allowed = true → (k = 1 ∨ k = 0xC) →
      ∃ m', exec c s = .next (s.setLane x m') ∧ (m'.sess n).st = 2 ∧ (m'.sess n).port = r.port) ∧
    (∀ y, m.OpenFor r → (m.sess n).st = 2 → (m.sess n).port = r.port →
      (m.sess n).retry.find? (fun y => y.1 == k && y.2.1 == tid) = some y →
      ∃ m', exec c s = .next (s.setLane x m') ∧ m'.dict.vals = m.dict.vals ∧ m'.dict.reqs = m.dict.reqs ∧
        { m'.sess n with txseq := (m.sess n).txseq, txCount := (m.sess n).txCount } = m.sess n ∧ (m'.sess n).txseq = (m.sess n).txseq + 1) ∧
    (k = 0xC → m.BoundFor r → ∃ m', exec c s = .next (s.setLane x m') ∧ m.Answers m' n 0xC 0 tid b) ∧
    (k = 1 → m.BoundFor r → ∃ m', exec c s = .next (s.setLane x m') ∧
      (objDesc? (natAt b 0 2) (natAt b 2 1) = none → m.Answers m' n 1 1 tid []) ∧
      ∀ d, objDesc? (natAt b 0 2) (natAt b 2 1) = some d →
        let right := d.right (natAt b 0 2) (natAt b 2 1) (m.dict.nat (0x1200 + n) 2)
        let v := m.objRead (natAt b 0 2) (natAt b 2 1)
        (right = 0 → m.Answers m' n 1 2 tid []) ∧
        (right ≠ 0 → (natAt r.body 1 1).testBit 1 = true → m.Answers m' n 1 0 tid (d.bytes (natAt b 0 2) (natAt b 2 1))) ∧
        (right ≠ 0 → (natAt r.body 1 1).testBit 1 = false → 1320 < v.length → m.Answers m' n 1 0xA tid []) ∧
        (right ≠ 0 → (natAt r.body 1 1).testBit 1 = false → v.length ≤ 1320 →
          m.Answers m' n 1 0 tid (leBytes 1 d.type ++ zeros 1 ++ leBytes 2 v.length ++ v)))

/-- R316 to R319: writes.
A command whose event cannot occur changes nothing: assumption 1. -/
def Obligations.WritesAreStagedAndWaitForTheirSlot : Prop :=
  (∀ (s : State) (x : LaneId) (r : ExecReq) (m : Lane), m.BoundFor r →
    let n := r.sess
    let tid := natAt r.body 2 2
    let b := r.body.drop 4
    let f : StagedField := { idx := natAt b 0 2, sub := natAt b 2 1, val := slice b 6 (natAt b 4 2) }
    let kept : Lane := m.modSess n fun y => { y with stagedAt := m.slot }
    let waits (k : Nat) (g : Option StagedField) : Lane := { m with dict := { m.dict with
      reqs := m.dict.reqs ++ [{ sess := n, epoch := r.epoch, seq := r.seq, code := k, tid := tid, field := g, type := natAt b 3 1 }] } }
    ((s.lane x).Request x 2 r m → exec (.txWrite x) s = .next (s.setLane x (waits 2 (some f)))) ∧
    ((s.lane x).Request x 4 r m → exec (.txCommit x) s = .next (s.setLane x (waits 4 none))) ∧
    ((s.lane x).Request x 5 r m → ∃ m', exec (.txAbort x) s = .next (s.setLane x m') ∧
      (m.modSess n fun y => { y with staged := [] }).Answers m' n 5 0 tid (leBytes 4 (m.sess n).staged.length)) ∧
    ((s.lane x).Request x 3 r m → ∃ m', exec (.txWriteStaged x) s = .next (s.setLane x m') ∧
      (objDesc? f.idx f.sub = none → kept.Answers m' n 3 1 tid []) ∧
      ∀ d, objDesc? f.idx f.sub = some d →
        let right := d.right f.idx f.sub (m.dict.nat (0x1200 + n) 2)
        let new := putField f (m.sess n).staged
        (right < 2 → kept.Answers m' n 3 2 tid []) ∧
        (2 ≤ right → (natAt b 3 1 ≠ d.type ∨ valueFits d f.val = false) → kept.Answers m' n 3 3 tid []) ∧
        (2 ≤ right → natAt b 3 1 = d.type → valueFits d f.val = true → (65536 < new.length ∨ 16777216 < (new.map fun g => g.val.length).sum) →
          kept.Answers m' n 3 6 tid []) ∧
        (2 ≤ right → natAt b 3 1 = d.type → valueFits d f.val = true → new.length ≤ 65536 → (new.map fun g => g.val.length).sum ≤ 16777216 →
          (m.modSess n fun y => { y with staged := new, stagedAt := m.slot }).Answers m' n 3 0 tid (leBytes 4 new.length)))) ∧
  (∀ (s : State) (x : LaneId) (n : Nat), n < (s.lane x).dict.sessions.length → ((s.lane x).sess n).staged ≠ [] →
    (s.lane x).dict.nat (0x1200 + n) 7 * 20000 ≤ ((s.lane x).slot - ((s.lane x).sess n).stagedAt).toNat →
    let l := s.lane x
    exec (.stagedSetExpire x n) s = .next (s.setLane x { l.modSess n (fun y => { y with staged := [] }) with
      evq := l.evq ++ [(2, leBytes 4 (l.sess n).staged.length, n)] }) ∧
    ((l.modSess n fun y => { y with staged := [] }).sess n).staged = []) ∧
  (∀ (s : State) (x : LaneId) (n : Nat), (((s.lane x).sess n).staged = [] ∨
    ((s.lane x).slot - ((s.lane x).sess n).stagedAt).toNat < (s.lane x).dict.nat (0x1200 + n) 7 * 20000) →
    exec (.stagedSetExpire x n) s = .next s)

/-- R324, R325: subscriptions. -/
def Obligations.SubscriptionsPublishWhenDue : Prop :=
  (∀ (s : State) (x : LaneId) (r : ExecReq) (m : Lane), m.BoundFor r →
    let n := r.sess
    let tid := natAt r.body 2 2
    let b := r.body.drop 4
    let oc := natAt b 3 1 == 1
    let ms := min 3600000 (max (if oc then 0 else 10) (natAt b 4 4))
    ((s.lane x).Request x 6 r m → ∃ m', exec (.txSubscribe x) s = .next (s.setLane x m') ∧
      (∀ e, m.readCheck n (natAt b 0 2) (natAt b 2 1) = .error e → m.Answers m' n 6 e tid []) ∧
      ∀ d, m.readCheck n (natAt b 0 2) (natAt b 2 1) = .ok d →
        (1320 < (m.objRead (natAt b 0 2) (natAt b 2 1)).length → m.Answers m' n 6 0xA tid []) ∧
        ((m.objRead (natAt b 0 2) (natAt b 2 1)).length ≤ 1320 →
          (32 ≤ (m.sess n).subs.length ∨ 128 ≤ (m.dict.sessions.map fun y => y.subs.length).sum → m.Answers m' n 6 9 tid []) ∧
          ((m.sess n).subs.length < 32 → (m.dict.sessions.map fun y => y.subs.length).sum < 128 →
            ∃ i, i < 32 ∧ (∀ u ∈ (m.sess n).subs, u.id ≠ i) ∧ (∀ j, j < i → ∃ u ∈ (m.sess n).subs, u.id = j) ∧
              ∃ us, (m.modSess n fun y => { y with subs := us }).Answers m' n 6 0 tid (leBytes 1 i) ∧
                (∀ u, u ∈ us ↔ u ∈ (m.sess n).subs ∨ u = { id := i, idx := natAt b 0 2, sub := natAt b 2 1, onChange := oc, period := 20 * ms, last := m.slot - BitVec.ofNat 64 (20 * ms), lastVal := [], sent := false })))) ∧
    ((s.lane x).Request x 7 r m → ∃ m', exec (.txUnsubscribe x) s = .next (s.setLane x m') ∧
      let gone (u : Subscription) : Bool := natAt b 0 1 == 0xFF || u.id == natAt b 0 1
      (m.modSess n fun y => { y with subs := y.subs.filter fun u => !gone u }).Answers m' n 7 0 tid
        (leBytes 1 ((m.sess n).subs.filter gone).length))) ∧
  (∀ (s : State) (x : LaneId) (n : Nat), (s.lane x).working = true →
    let m := (s.lane x).loopsRun x
    n < m.dict.sessions.length → (m.sess n).st = 2 → (m.sess n).published = false →
    ∃ m', exec (.subscriptionDue x n) s = .next (s.setLane x m') ∧ (m'.sess n).published = true ∧ m'.dict.vals = m.dict.vals ∧
      (m'.sess n).subs = (m.sess n).subs.map fun u => if m.subDue u then
        { u with last := m.slot, sent := true, lastVal := if u.onChange then m.objRead u.idx u.sub else [] } else u) ∧
  (∀ (s : State) (x : LaneId) (n : Nat), (s.lane x).working = true → (((s.lane x).loopsRun x).sess n).published = true →
    exec (.subscriptionDue x n) s = .next (s.setLane x ((s.lane x).loopsRun x)))

/-- R327: segmented transfers. -/
def Obligations.SegmentsCarryLongFields : Prop :=
  (∀ (s : State) (x : LaneId) (r : ExecReq) (m : Lane), m.BoundFor r →
    let n := r.sess
    let tid := natAt r.body 2 2
    let b := r.body.drop 4
    let idx := natAt b 0 2
    let sub := natAt b 2 1
    let off := natAt b 4 4
    let len := natAt b 8 2
    let total := natAt b 8 4
    let kept : Lane := m.modSess n fun y => { y with stagedAt := m.slot }
    ((s.lane x).Request x 0xA r m → ∃ m', exec (.txSegmentRead x) s = .next (s.setLane x m') ∧
      (∀ e, m.readCheck n idx sub = .error e → m.Answers m' n 0xA e tid []) ∧
      ∀ d, m.readCheck n idx sub = .ok d →
        (1320 < len → m.Answers m' n 0xA 7 tid []) ∧
        (len ≤ 1320 → off = 0 → (m.objRead idx sub).length ≤ 16777216 →
          (m.modSess n fun y => { y with rs := some { idx := idx, sub := sub, data := m.objRead idx sub, snapSlot := m.slot, slot := m.slot } }).Answers
            m' n 0xA 0 tid (leBytes 4 (m.objRead idx sub).length ++ leBytes 8 m.slot.toNat ++ slice (m.objRead idx sub) 0 (min len (m.objRead idx sub).length))) ∧
        (len ≤ 1320 → off ≠ 0 → (m.sess n).rs = none → m.Answers m' n 0xA 7 tid []) ∧
        (∀ q, len ≤ 1320 → off ≠ 0 → (m.sess n).rs = some q →
          (q.idx = idx → q.sub = sub → off + len ≤ q.data.length →
            (m.modSess n fun y => { y with rs := some { q with slot := m.slot } }).Answers m' n 0xA 0 tid
              (leBytes 4 q.data.length ++ leBytes 8 q.snapSlot.toNat ++ slice q.data off len)) ∧
          (q.idx ≠ idx ∨ q.sub ≠ sub ∨ q.data.length < off + len → m.Answers m' n 0xA 7 tid []))) ∧
    ((s.lane x).Request x 0xB r m → ∃ m', exec (.txSegmentWrite x) s = .next (s.setLane x m') ∧
      (objDesc? idx sub = none → kept.Answers m' n 0xB 1 tid []) ∧
      ∀ d, objDesc? idx sub = some d →
        let size := min 16777216 (if typeSize d.type = 0 then d.n else if d.type < 0x80 then typeSize d.type else d.n * typeSize d.type)
        ((m.sess n).wx = none → (off ≠ 0 ∨ size < total) → kept.Answers m' n 0xB 7 tid []) ∧
        ((m.sess n).wx = none → off = 0 → total ≤ size → (b.drop 12).length < total →
          (m.modSess n fun y => { y with
            wx := some { idx := idx, sub := sub, type := natAt b 3 1, total := total, data := b.drop 12, slot := m.slot }, stagedAt := m.slot }).Answers
            m' n 0xB 0 tid (leBytes 4 (b.drop 12).length)) ∧
        (∀ w, (m.sess n).wx = some w → off = 0 → kept.Answers m' n 0xB 8 tid []) ∧
        (∀ w, (m.sess n).wx = some w → off ≠ 0 → (w.idx ≠ idx ∨ w.sub ≠ sub ∨ off ≠ w.data.length ∨ total ≠ w.total) →
          (m.modSess n fun y => { y with wx := none, stagedAt := m.slot }).Answers m' n 0xB 7 tid []) ∧
        (∀ w, (m.sess n).wx = some w → off ≠ 0 → w.idx = idx → w.sub = sub → off = w.data.length → total = w.total →
          (w.data ++ b.drop 12).length < w.total →
          (m.modSess n fun y => { y with wx := some { w with data := w.data ++ b.drop 12, slot := m.slot }, stagedAt := m.slot }).Answers
            m' n 0xB 0 tid (leBytes 4 (w.data ++ b.drop 12).length)))) ∧
  (∀ (s : State) (x : LaneId) (n : Nat) (q : ReadSnap), ((s.lane x).sess n).rs = some q →
    exec (.segmentReadExpire x n) s = .next (s.setLane x ((s.lane x).modSess n fun y =>
      if 1200000 ≤ ((s.lane x).slot - q.slot).toNat then { y with rs := none } else y))) ∧
  (∀ (s : State) (x : LaneId) (n : Nat) (w : WriteXfer), ((s.lane x).sess n).wx = some w →
    exec (.segmentWriteExpire x n) s = .next (s.setLane x ((s.lane x).modSess n fun y =>
      if 1200000 ≤ ((s.lane x).slot - w.slot).toNat then { y with wx := none } else y)))

/-- R42, R278, R308, R312, R344, R345, R347: enrolment, epochs and the authentication of frames. -/
def Obligations.EnrolmentsAndAuthenticationFollowTheirRules : Prop :=
  (∀ (s : State) (x : LaneId) (r : ExecReq) (m : Lane), m.BoundFor r → (s.lane x).Request x 0xD r m →
    let n := r.sess
    let tid := natAt r.body 2 2
    let b := r.body.drop 4
    let trusted := r.port == 0xFF || m.dict.nat (0x1200 + n) 2 == 0
    (trusted = false → ∃ m', exec (.txEnrol x) s = .next (s.setLane x m') ∧ m.Answers m' n 0xD 0xC tid []) ∧
    (trusted = true → 9 ≤ m.keyA.enrols.length → ∃ m', exec (.txEnrol x) s = .next (s.setLane x m') ∧
      m.Answers m' n 0xD 0 tid (m.enrolFail 5 b)) ∧
    (trusted = true → m.keyA.enrols.length < 9 → ∃ m', exec (.txEnrol x) s = .next (s.setLane x m') ∧
      { m' with keyA := m.keyA } = m ∧ m'.keyA.gens = m.keyA.gens ∧ m'.keyA.enrols.length = m.keyA.enrols.length + 1 ∧
      (m.keyA.enrols = [] → m.keyA.enrolEnd ≠ some m.slot →
        m'.keyA.enrols = [{ sess := n, mailbox := r.port == 0xFF, tid := tid, body := b, start := some m.slot, tamper := false }]))) ∧
  (∀ (s : State) (x : LaneId) (j : EnrolJob) (js : List EnrolJob) (t0 : BitVec 64), (s.lane x).keyA.enrols = j :: js →
    j.start = some t0 → t0 + 199 = (s.lane x).slot →
    let l := s.lane x
    let body := l.enrolBody j t0
    let base : Lane := { l with keyA := { l.keyA with enrols := js, enrolEnd := some l.slot } }
    (¬(natAt body 0 1 = 0 ∧ natAt body 1 1 = 1) → j.sess < l.dict.sessions.length → (l.sess j.sess).st = 2 →
      ∃ m', exec (.enrolComplete x) s = .next (s.setLane x m') ∧ base.Answers m' j.sess 0xD 0 j.tid body) ∧
    (natAt body 0 1 = 0 → natAt body 1 1 = 1 →
      ∃ m', exec (.enrolComplete x) s = .next (s.setLane x m') ∧ m'.keyA = base.keyA ∧
        ∀ n, n < 8 → n < l.dict.sessions.length → l.dict.nat (0x1200 + n) 3 = natAt body 2 2 →
          (m'.sess n).keyClosed = false ∧
          ((l.sess n).keyClosed = true → (l.sess n).spent = false → (l.sess n).epoch < 65535 →
            (m'.sess n).epoch = (l.sess n).epoch + 1 ∧ (m'.sess n).st = if l.dict.flag (0x1200 + n) 1 then 1 else 0))) ∧
  (∀ (s : State) (x : LaneId) (n : Nat), n < (s.lane x).dict.sessions.length → ((s.lane x).sess n).spent = false →
    ((s.lane x).sess n).epoch < 65535 → (2 ^ 31 ≤ ((s.lane x).sess n).txCount ∨ 2 ^ 31 ≤ ((s.lane x).sess n).rxCount) →
    ∃ m', exec (.epochMessageLimit x n) s = .next (s.setLane x m') ∧ (m'.sess n).epoch = ((s.lane x).sess n).epoch + 1 ∧
      (m'.sess n).st = (if (s.lane x).sessOpen n then 1 else 0) ∧ (m'.sess n).txseq = 0 ∧ (m'.sess n).rxseq = 0 ∧
      (m'.sess n).txCount = 0 ∧ (m'.sess n).rxCount = 0 ∧ (m'.sess n).staged = [] ∧ ∀ k, k ≠ n → m'.sess k = (s.lane x).sess k) ∧
  (∀ (s : State) (x : LaneId) (f : RxFrame) (fs : List RxFrame), (s.lane x).agree.rxq = f :: fs → (s.lane x).agree.held = false →
    (s.lane x).agree.taken = false →
    let l := s.lane x
    let bs := f.bytes
    let need := l.statRoom + offerBytes l.agree.offer + 12 + (if f.substation then 128 else bs.length - 40)
    ∃ l', exec (.xactAuthenticate x) s = .next (s.setLane x l') ∧
      (f.substation = false → exec (.afeshMessage x) s = .next (s.setLane x l')) ∧
      (f.substation = true → exec (.substationReport x) s = .next (s.setLane x l')) ∧
      (4696 < need → l'.agree = { l.agree with held := true, taken := true } ∧ fget l'.regs f_XLNK_STAT_FRAMEHOLD = 1 ∧ l'.dict = l.dict) ∧
      (need ≤ 4696 →
        l'.agree.rxq = fs ∧ l'.agree.held = false ∧ l'.agree.taken = false ∧
        (f.substation = true → bs.length ≠ 128 → l' = { l with
          agree := { l.agree with rxq := fs }, ownStats := lmod l.ownStats 0 fun c => satAdd 0xFFFFFFFF c 1 }) ∧
        (f.substation = true → bs.length = 128 → natAt bs 1 1 = 1 → natAt bs 0 1 = 0x51 → l.tamperActs = false →
          l.key.ready = true → natAt bs 8 4 = l.keyA.gens.leafGen 2 (natAt bs 2 2 % 4096) →
          let p := l.keyA.gens.path 2 (natAt bs 2 2 % 4096)
          ((cmac p.key (bs.take 120)).take 8 = bs.drop 120 → l'.agree.offer = l.agree.offer ++
            [{ port := f.port, kind := 1, source := natAt bs 2 2 % 4096, seq := BitVec.ofNat 32 (natAt bs 4 4), body := bs }]) ∧
          ((cmac p.key (bs.take 120)).take 8 ≠ bs.drop 120 → l'.agree.offer = l.agree.offer ∧
            l'.ownStats = lmod l.ownStats 2 fun c => satAdd 0xFFFFFFFF c 1)) ∧
        (f.substation = false → (l.sess (natAt bs 1 1 % 8)).st = 0 → l'.agree.offer = l.agree.offer) ∧
        (f.substation = false → natAt bs 10 2 = bs.length → 44 ≤ bs.length → bs.length ≤ 1400 → natAt bs 0 1 = 1 → natAt bs 2 2 = 0 →
          natAt bs 13 1 = 0 → l.tamperActs = false → l.key.ready = true →
          ∀ n, natAt bs 1 1 = n → n < 8 → (l.sess n).st ≠ 0 → natAt bs 8 2 = (l.sess n).epoch →
            (∀ body, l.openMsg bs = some body → l'.agree.offer = l.agree.offer ++
              [{ port := f.port, kind := 2, source := n, seq := BitVec.ofNat 32 (natAt bs 4 4), body := body }]) ∧
            (l.openMsg bs = none → l'.agree.offer = l.agree.offer ∧ l'.regs = fbump l.regs (f_XACT_RXERR_TAGFAIL.at (4 * n))))))

/-- R405 to R415: what an edge of a lane's oscillator does.
A command whose event cannot occur changes nothing: assumption 1. -/
def Obligations.EdgesAdvanceAndSetTheClock : Prop :=
  (∀ (s : State) (x : LaneId) (n e mv : Nat), s.arb.stall = none → s.arb.delayed = [] → s.arb.cmds = [] →
    let l := s.lane x
    let r := l.rtc
    let host : Bool := decide (l.life ≠ .held) && decide (l.rj ≠ 1)
    let sum := r.frac.toNat + (131072 + r.delta).toNat
    let carry := decide (2 ^ 32 ≤ sum)
    let sec' := if carry = true then r.sec + 1 else r.sec
    let midnight : Bool := carry && decide (((sec'.toNat : Int) - r.phase.toNat) % 86400 = 0)
    let wday' := if midnight = true then (if r.wday = 6 then 0 else r.wday + 1) else r.wday
    let r' : Rtc := { r with run := true, frac := BitVec.ofNat 32 sum, sec := sec', wday := wday', slewLeft := r.slewLeft - 1
                             delta := if r.slewLeft ≤ 1 then 0 else r.delta, acts := [] }
    let days (new : Nat) : Int := Int.fdiv ((new : Int) - r.phase.toNat) 86400 - Int.fdiv ((r.sec.toNat : Int) - r.phase.toNat) 86400
    let loaded (v : Nat) (w : Rtc) : Rtc := { w with sec := BitVec.ofNat 48 (v / 2 ^ 32 % 2 ^ 48), frac := BitVec.ofNat 32 v
                                                     wday := BitVec.ofNat 3 (Int.toNat (((r.wday.toNat : Int) + days (v / 2 ^ 32 % 2 ^ 48)) % 7)) }
    let norm (p : Nat) : BitVec 17 := BitVec.ofNat 17 (if 86400 ≤ p then p - 86400 else p)
    let edged (t : State) (w : Rtc) (snap : Bool) : Prop :=
      (t.lane x).rtc = w ∧ (t.lane x).tbu = { l.tbu with rtcN := n } ∧
        { t.lane x with rtc := l.rtc, shadow := l.shadow, regs := l.regs, tbu := l.tbu } = l ∧
        (snap = false → (t.lane x).regs = l.regs) ∧
        (snap = true → fget (t.lane x).regs f_RTC_SNAPLO_SECLO = w.sec.toNat % 2 ^ 32 ∧
          fget (t.lane x).regs f_RTC_SNAPHI_SECHI = w.sec.toNat / 2 ^ 32 ∧ fget (t.lane x).regs f_RTC_SNAPHI_WDAY = w.wday.toNat ∧
          fget (t.lane x).regs f_RTC_SNAPFR_FRAC = w.frac.toNat) ∧
        (∀ y, y ≠ x → t.lane y = s.lane y) ∧ { t.arb with shadow := s.arb.shadow } = s.arb ∧ t.isl = s.isl ∧
        (t.bak = s.bak ∨ t.bak = { s.bak with mv := mv })
    (r.acts = [] →
      (∃ t, exec (.oscillatorEdge x n e mv) s = .next t ∧ edged t r' false) ∧
      (midnight = true → (∃ t, exec (.weekdayStep x n e mv) s = .next t ∧ edged t r' false)) ∧
      (r.slewLeft = 1 → (∃ t, exec (.slewEnd x n e mv) s = .next t ∧ edged t r' false)) ∧
      (host = true →
        (∃ t, exec (.rtcSnap x n e mv) s = .next t ∧ edged t r' true) ∧
        (∃ t, exec (.rtcSettime x n e mv) s = .next t ∧ edged t { loaded (fget l.regs f_RTC_STGHI_SECHI * 2 ^ 64 + fget l.regs f_RTC_STGLO_SECLO * 2 ^ 32 +
            fget l.regs f_RTC_STGFR_FRAC * 2 ^ 17) r' with noTime := false, setCnt := satAdd 0xFFFF r.setCnt 1 } false) ∧
        (∃ t, exec (.rtcSetwday x n e mv) s = .next t ∧ edged t { r' with wday := BitVec.ofNat 3 (fget l.regs f_RTC_STGHI_WDAY), setCnt := satAdd 0xFFFF r.setCnt 1 } false) ∧
        (∃ t, exec (.rtcSetph x n e mv) s = .next t ∧ edged t { r' with phase := norm (fget l.regs f_RTC_STGPH_PHASE), setCnt := satAdd 0xFFFF r.setCnt 1 } false))) ∧
    (∀ a, r.acts = [a] → ∀ w, (match a with
        | .align d => w = { loaded ((r'.ticks : Int) - d).toNat r' with noTime := false, stepped := true }
        | .zero => w = { loaded 0 r' with stepped := true }
        | .step v => w = { loaded ((r'.ticks : Int) - v).toNat r' with stepped := true, stepCnt := satAdd 0xFFFF r.stepCnt 1 }
        | .timeset v => w = { loaded (v + e) r' with noTime := false, setCnt := satAdd 0xFFFF r.setCnt 1 }
        | .wday v => w = { r' with wday := BitVec.ofNat 3 v }
        | .phase p => w = { r' with phase := norm p }
        | .set _ _ _ | .snap => False) → (∃ t, exec (.rtcWriteApply x n e mv) s = .next t ∧ edged t w false)) ∧
    (midnight = false → exec (.weekdayStep x n e mv) s = .next s) ∧
    (r.slewLeft ≠ 1 → exec (.slewEnd x n e mv) s = .next s) ∧
    (r.acts = [] → exec (.rtcWriteApply x n e mv) s = .next s) ∧
    (host = false → ∀ c, c = Instr.rtcSnap x n e mv ∨ c = .rtcSettime x n e mv ∨ c = .rtcSetwday x n e mv ∨ c = .rtcSetph x n e mv →
      exec c s = .next s))

/-- R351, R406, R410, R412, R419: what the lanes' clocks follow, and the tamper monitor and charger of the backup domain.
A command whose event cannot occur changes nothing: assumption 1. -/
def Obligations.TheBackupDomainKeepsTimeAndTamper : Prop :=
  (∀ (s : State) (x : LaneId) (sub : Int), (s.lane x).followDue x = true →
    let l := s.lane x
    let e : Int := (l.rtc.ticks : Int) + sub - (l.img.dtNsTotal * 2 ^ 32 / 1000000000 : Nat)
    ∃ r, exec (.rtcFollow x sub) s = .next (s.setLane x { l with rtc := r }) ∧
      r.err = clampI (-8388607) 8388607 (roundShift (e * 1000000) 32) ∧
      (10 * e.natAbs ≤ 2 ^ 32 → { r with err := l.rtc.err, delta := l.rtc.delta, slewLeft := l.rtc.slewLeft } = l.rtc ∧
        r.slewLeft = 32768 ∧ r.delta = clampI (-52) 52 (-(roundShift e 15))) ∧
      (2 ^ 32 < 10 * e.natAbs → { r with err := l.rtc.err, acts := l.rtc.acts } = l.rtc ∧
        r.acts = l.rtc.acts ++ [.step (roundShift e 17 * 2 ^ 17)])) ∧
  (∀ (s : State) (x : LaneId) (sub : Int), (s.lane x).followDue x = false → exec (.rtcFollow x sub) s = .next s) ∧
  (∀ (s : State) (x : LaneId),
    let l := s.lane x
    (l.working = true → l.step1 = false → l.leapDue = true → l.dict.reqs = [] → l.vw = [] → l.tamperNew = false →
      ∃ d, exec (.leapApply x) s = .next (s.setLane x { l with step1 := true, dict := d }) ∧ { d with vals := l.dict.vals } = l.dict ∧
        d.int 0x1320 1 = (BitVec.ofInt 16 (l.dict.int 0x1320 1 + l.dict.int 0x1320 2)).toInt ∧ d.int 0x1320 2 = 0 ∧
        ∀ idx sub, objKey idx sub ≠ objKey 0x1320 1 → objKey idx sub ≠ objKey 0x1320 2 → d.get idx sub = l.dict.get idx sub) ∧
    ((l.working = false ∨ l.step1 = true ∨ l.leapDue = false) → exec (.leapApply x) s = .next s)) ∧
  (∀ (s : State) (x : LaneId), ∃ l', exec (.oscStop x) s = .next (s.setLane x l') ∧
    l'.rtc = { (s.lane x).rtc with run := false, oscStop := true, noTime := true } ∧
    { l' with rtc := (s.lane x).rtc, shadow := (s.lane x).shadow } = s.lane x) ∧
  (∀ s : State, s.bak.active = true → exec .tamperEvent s = .next s) ∧
  (∀ (s : State) (i : Nat), s.bak.active = false → s.arb.runs = true → s.bak.log[i]? = some none →
    (∀ j, j < i → ∃ e, s.bak.log[j]? = some (some e)) →
    ∃ (t : TamperEntry) (a : Arb) (k : Nat), exec .tamperEvent s = .next { s with
        arb := a, free := k, bak := { s.bak with event := true, active := true, log := s.bak.log.set i (some t) } } ∧
      t.standby = !s.bak.mains ∧ t.acted = false ∧
      (∀ y, s.rtcLead = some y → k = s.free ∧ t.sec = (s.lane y).rtc.sec ∧ t.lane = y) ∧
      (fget a.regs f_ARB_IRQSTAT_CAUSE).testBit 8 = true ∧ { a with regs := s.arb.regs, msi := s.arb.msi, msix := s.arb.msix } = s.arb ∧
      ∀ k, k ≠ f_ARB_IRQSTAT_CAUSE.key → rget a.regs k = rget s.arb.regs k) ∧
  (∀ s : State, s.bak.active = false → (∀ e ∈ s.bak.log, e ≠ none) → exec .tamperEvent s = .next { s with
    bak := { s.bak with event := true, active := true, lost := min 15 (s.bak.lost + 1) } }) ∧
  (∀ s : State, exec .tamperInactive s = .next { s with bak := { s.bak with active := false } }) ∧
  (∀ s : State,
    (s.arb.runs = true → ∃ b m, exec .tamperLogClear s = .next { s with
        bak := b, arb := { s.arb with shadow := m, cmds := s.arb.cmds.filter fun c => c.1 != f_ARB_TAMPACK_CLEARLOG.key } } ∧
      { b with log := s.bak.log } = s.bak ∧ b.log.length = s.bak.log.length ∧
      (∀ i : Nat, s.bak.log[i]? = some none → b.log[i]? = some none) ∧
      ∀ (i : Nat) (e : TamperEntry), s.bak.log[i]? = some (some e) → b.log[i]? = some (if e.acted = true then none else some e)) ∧
    (s.arb.runs = false → exec .tamperLogClear s = .next s)) ∧
  (∀ (s : State) (mv : Nat),
    (s.arb.runs = true → s.bak.chEnable = true → s.bak.atLimit = false → s.bak.chVlimit ≤ mv →
      exec (.chargerStop mv) s = .next { s with bak := { s.bak with atLimit := true, mv := mv } }) ∧
    ((s.arb.runs = false ∨ s.bak.chEnable = false ∨ s.bak.atLimit = true ∨ mv < s.bak.chVlimit) → exec (.chargerStop mv) s = .next s) ∧
    (s.bak.atLimit = true → mv + 50 ≤ s.bak.chVlimit →
      exec (.chargerRestart mv) s = .next { s with bak := { s.bak with atLimit := false, mv := mv } }) ∧
    ((s.bak.atLimit = false ∨ s.bak.chVlimit < mv + 50) → exec (.chargerRestart mv) s = .next s))

/-- R66, R317 to R322, R506: step 1 of a slot, with the WRITE of object 0x5000.05 (RETAINPER) as the set that passes.
A command whose event cannot occur changes nothing: assumption 1. -/
def Obligations.SetsApplyAtTheirCommitSlot : Prop :=
  ∀ (s : State) (x : LaneId),
    let l := s.lane x
    let num := fget l.regs f_XACT_COMMITNUM_NUM
    let still : Lane := { l with step1 := true, dict := { l.dict with reqs := [] } }
    ((l.working = false ∨ l.step1 = true) → exec (.commitApply x) s = .next s) ∧
    (l.working = true → l.step1 = false → l.tamperNew = false → l.leapDue = false →
      (l.dict.reqs = [] → exec (.commitApply x) s =
        .next (s.setLane x ((l.vw.filter (·.due)).foldl (fun m v => m.regWrite v.key v.data v.be) { l with step1 := true, vw := l.vw.filter fun v => !v.due }))) ∧
      (l.vw = [] → ∀ r : CommitReq, l.dict.reqs = [r] →
        let n := r.sess
        let role := l.dict.nat (0x1200 + n) 2
        (((l.sess n).epoch ≠ r.epoch ∨ (l.sess n).st = 0) → exec (.commitApply x) s = .next (s.setLane x still)) ∧
        ((l.sess n).epoch = r.epoch → (l.sess n).st = 2 → n < l.dict.sessions.length →
          (r.field = none → (l.sess n).staged = [] →
            ∃ l', exec (.commitApply x) s = .next (s.setLane x l') ∧ still.Answers l' n r.code 0 r.tid (leBytes 4 num ++ zeros 2 ++ zeros 4)) ∧
          (∀ f : StagedField, r.field = some f →
            let fails (st : Nat) : Prop := ∃ l', exec (.commitApply x) s = .next (s.setLane x l') ∧
              ({ still with regs := fset l.regs f_XACT_STAT_COMMITFAIL 1 } : Lane).Answers l' n r.code st r.tid (leBytes 2 f.idx ++ leBytes 1 f.sub)
            (objDesc? f.idx f.sub = none → fails 1) ∧
            (∀ d, objDesc? f.idx f.sub = some d →
              (d.right f.idx f.sub role < 2 → d.type = r.type → fails 2) ∧
              (d.right f.idx f.sub role = 3 → d.type = r.type → fails 5) ∧
              (2 ≤ d.right f.idx f.sub role → d.right f.idx f.sub role ≠ 3 → d.type = r.type → valueFits d f.val = false → fails 3) ∧
              (d.right f.idx f.sub role = 2 → valueFits d f.val = true → mailboxOnly f = false → d.type ≠ r.type → fails 3)) ∧
            (f.idx = 0x5000 → f.sub = 5 → r.type = 4 → l.writeStatus role true f = 0 → l.solver.held = [] →
              let req := leNat f.val
              let app := if req < 100 then 100 else if 10000 < req then 10000 else req
              let num' := (num + 1) % 2 ^ 32
              ∃ l', exec (.commitApply x) s = .next (s.setLane x l') ∧
                mget objDflt l'.dict.vals (objKey 0x5000 5) = leBytes 4 app ∧
                (∀ k, k ≠ objKey 0x5000 5 → mget objDflt l'.dict.vals k = mget objDflt l.dict.vals k) ∧
                l'.dict.reqs = [] ∧ l'.step1 = true ∧
                fget l'.regs f_XACT_COMMITNUM_NUM = num' ∧ fget l'.regs f_XACT_STAT_COMMITTED = 1 ∧
                (req = app → l'.dict.clamps = l.dict.clamps ∧ l'.dict.clampCount = l.dict.clampCount ∧ l'.irq = l.irq) ∧
                (req ≠ app → (∃ e : ClampEntry, l'.dict.clamps.getLast? = some e ∧ e.slot = l.slot ∧ e.commit = num' ∧ e.idx = 0x5000 ∧ e.sub = 5 ∧ e.reason = 1 ∧
                    e.src = n ∧ e.req = BitVec.ofNat 64 req ∧ e.app = BitVec.ofNat 64 app) ∧
                  l'.dict.clampCount = l.dict.clampCount + 1 ∧ fget l'.regs f_XACT_STAT_CLAMPNEW = 1 ∧ l'.irq = l.irq ||| 2 ^ 11) ∧
                (l'.sess n).retry = ((r.code, r.tid, leBytes 1 r.code ++ leBytes 1 0 ++ leBytes 2 r.tid ++ leBytes 4 num' ++
                  leBytes 2 (if req = app then 0 else 1)) :: (l.sess n).retry).take 16 ∧
                (∀ k, k ≠ n → l'.sess k = l.sess k) ∧
                { l' with step1 := false, dict := l.dict, regs := l.regs, nvm := l.nvm, irq := l.irq, tx := l.tx } = l)))))

/-- R159, R164, R167, R168, R172: commands to the loop engine.
A command whose event cannot occur changes nothing: assumption 1. -/
def Obligations.LoopsSwapBanksAndTracesObey : Prop :=
  ∀ (s : State) (x : LaneId) (n : Nat),
    let l := s.lane x
    let first := l.dict.nat (0x4000 + n) 4
    let nsec := l.dict.nat (0x4000 + n) 5
    let enabled := l.dict.flag (0x4000 + n) 1
    let due : Bool := enabled && decide (l.slot.toNat % rateD (l.dict.nat (0x4000 + n) 2) = l.dict.nat (0x4000 + n) 3)
    let zeroed (l' : Lane) : Prop := ∀ i, l'.sec i = if first ≤ i ∧ i < first + nsec then (0, 0) else l.sec i
    let onlyLoops (l' : Lane) : Prop := { l' with leng := { l'.leng with loops := l.leng.loops } } = l
    let onlyTrace (l' : Lane) : Prop := { l' with leng := { l'.leng with traces := l.leng.traces } } = l ∧
      l'.leng.traces.length = l.leng.traces.length ∧ ∀ c, c ≠ n → l'.traceOf c = l.traceOf c
    (enabled = true → (l.loop n).pend = false → ∃ l', exec (.bankSwapLoop x n) s = .next (s.setLane x l') ∧ onlyLoops l' ∧
      l'.loop n = { l.loop n with pend := true } ∧ ∀ k, k ≠ n → l'.loop k = l.loop k) ∧
    ((enabled = false ∨ (l.loop n).pend = true) → exec (.bankSwapLoop x n) s =
      .next (s.setLane x { l with regs := fflag (fbump l.regs f_LENG_SWAPCNT_IGNORED) f_LENG_STAT_SWAPIGN })) ∧
    (∃ l', exec (.bankSwapGroup x n) s = .next (s.setLane x l') ∧ { l' with regs := l.regs, leng := { l'.leng with loops := l.leng.loops } } = l ∧
      (∀ k, l'.loop k = if k ∈ l.dict.enabledLoops ∧ l.dict.flag (0x4000 + k) 1 = true ∧ l.dict.nat (0x4000 + k) 0x1B / 16 = n
        then { l.loop k with pend := true } else l.loop k) ∧
      (l.dict.enabledLoops.Nodup → (∀ k ∈ l.dict.enabledLoops, l.dict.flag (0x4000 + k) 1 = true ∧ (l.loop k).pend = false) →
        l'.regs = l.regs)) ∧
    (l.agree.stage = .imaged → due = true → (l.loop n).pend = true → ∃ l', exec (.bankSwapApply x n) s = .next (s.setLane x l') ∧
      l'.loop n = { l.loop n with pend := false, bank := !(l.loop n).bank } ∧ (∀ k, k ≠ n → l'.loop k = l.loop k) ∧
      (if (l.dict.nat (0x4000 + n) 0x1B).testBit 0 = true then zeroed l' else l'.leng.secs = l.leng.secs) ∧
      l'.regs = fflag (fbump l.regs f_LENG_SWAPCNT_APPLIED) f_LENG_STAT_SWAPDONE ∧
      l'.nvm.dirty = true ∧ l'.nvm.dict.queued = true ∧
      { l' with regs := l.regs, nvm := l.nvm, leng := { l'.leng with loops := l.leng.loops, secs := l.leng.secs } } = l) ∧
    ((l.agree.stage ≠ .imaged ∨ due = false ∨ (l.loop n).pend = false) → exec (.bankSwapApply x n) s = .next s) ∧
    (∃ l', exec (.loopReset x n) s = .next (s.setLane x l') ∧ zeroed l' ∧ { l' with leng := { l'.leng with secs := l.leng.secs } } = l) ∧
    (n < l.leng.traces.length →
      (∃ l', exec (.traceArm x n) s = .next (s.setLane x l') ∧ onlyTrace l' ∧ (l'.traceOf n).st = 1 ∧ (l'.traceOf n).ring = [] ∧
        (l'.traceOf n).count = 0 ∧ (l'.traceOf n).wrptr = 0 ∧ (l'.traceOf n).trigSlot = none ∧
        (l'.traceOf n).depth = max 64 (min 1048576 (fget l.regs (f_LENG_TRDEPTH_DEPTH.at (0x20 * n))))) ∧
      (∃ l', exec (.traceStop x n) s = .next (s.setLane x l') ∧ onlyTrace l' ∧ l'.traceOf n = { l.traceOf n with st := 0 }) ∧
      (∃ l', exec (.traceForce x n) s = .next (s.setLane x l') ∧ onlyTrace l' ∧
        l'.traceOf n = if (l.traceOf n).st = 1 then { l.traceOf n with force := true } else l.traceOf n))

/-- R175, R179 to R183, Table 06-6: the logic instructions.
A command whose event cannot occur changes nothing: assumption 1. -/
def Obligations.InstructionsDoWhatTheirTableSays : Prop :=
  (∀ (s : State) (x : LaneId) (im : LImage) (w : Word) (a area : Nat),
    let l := s.lane x
    let q := l.lseq
    let acc := q.exec.acc
    let wacc := q.exec.wacc
    q.exec.running = true → q.image = some im → im.prog[q.exec.idx]? = some w →
    let is (op area a cost : Nat) : Prop :=
      w.toNat / 2 ^ 24 = op ∧ w.toNat / 2 ^ 20 % 16 = area ∧ w.toNat % 2 ^ 20 = a ∧ q.exec.clocks + cost ≤ q.exec.budget
    let goes (c : Instr) (op area a cost next : Nat) (q' : Lseq) : Prop := is op area a cost →
      exec c s = .next (s.setLane x { l with lseq := { q' with exec := { q'.exec with idx := next, clocks := q.exec.clocks + cost } } })
    let bit : Bool := match area with
      | 0 => mget (fun _ => false) q.inI a
      | 1 => mget (fun _ => false) q.work.q a
      | 2 => mget (fun _ => false) q.flags a
      | 3 => (mget (fun _ => timer0) q.timers a).q
      | 4 => decide ((BitVec.ofNat 32 ((im.counters.getD a 0).toNat / 2 ^ 32)).toInt ≤ (mget (fun _ => counter0) q.counters a).cv)
      | 8 => l.sBit a
      | _ => false
    let word : Int := if area = 7 then im.consts.getD a 0
      else if 0x8000 ≤ a ∧ a ≤ 0x900F then mget (fun _ => 0) q.work.w a else mget (fun _ => 0) q.inW a
    let sat (v : Int) : Int := max (-2147483648) (min 2147483647 v)
    let withAcc (v : Bool) : Lseq := { q with exec := { q.exec with acc := v } }
    let withWacc (v : Int) : Lseq := { q with exec := { q.exec with wacc := v } }
    let stored (v : Bool) : Lseq := if area = 1 then { q with work := { q.work with q := mset (fun _ => false) q.work.q a v } }
      else { q with flags := mset (fun _ => false) q.flags a v }
    let drops (l' : Lane) : Lane := { l' with regs := fflag l.regs f_LSEQ_STAT_OWNDROP, lseq := { l'.lseq with ownDrop := true } }
    let dropQ : Prop := area = 1 ∧ a ≤ 0x3F ∧ l.dict.loopOwned 2 a = true
    let dropW : Prop := 0x9000 ≤ a ∧ l.dict.loopOwned 1 (a - 0x9000) = true
    let stores (c : Instr) (op cost : Nat) (owned : Prop) (q' : Lseq) : Prop := is op area a cost →
      let l' : Lane := { l with lseq := { q' with exec := { q'.exec with idx := q.exec.idx + 1, clocks := q.exec.clocks + cost } } }
      (owned → exec c s = .next (s.setLane x (drops l'))) ∧ (¬ owned → exec c s = .next (s.setLane x l'))
    let next := q.exec.idx + 1
    (∀ p ∈ [(Instr.seqLd x area a, 0x01, bit), (.seqLdn x area a, 0x02, !bit), (.seqAnd x area a, 0x03, acc && bit),
        (.seqAndn x area a, 0x04, acc && !bit), (.seqOr x area a, 0x05, acc || bit), (.seqOrn x area a, 0x06, acc || !bit),
        (.seqXor x area a, 0x07, acc ^^ bit)],
      goes p.1 p.2.1 area a 2 next (withAcc p.2.2)) ∧
    stores (.seqSt x area a) 0x08 2 dropQ (stored acc) ∧ stores (.seqStn x area a) 0x09 2 dropQ (stored (!acc)) ∧
    stores (.seqSet x area a) 0x0A 2 (dropQ ∧ acc = true) (if acc = true then stored true else q) ∧
    stores (.seqRst x area a) 0x0B 2 (dropQ ∧ acc = true) (if acc = true then stored false else q) ∧
    goes (.seqAndParen x) 0x10 0 0 2 next { q with exec := { q.exec with stack := (acc, true) :: q.exec.stack, acc := true } } ∧
    goes (.seqOrParen x) 0x11 0 0 2 next { q with exec := { q.exec with stack := (acc, false) :: q.exec.stack, acc := false } } ∧
    (∀ v r, q.exec.stack = (v, true) :: r → goes (.seqCloseParen x) 0x12 0 0 2 next { q with exec := { q.exec with stack := r, acc := v && acc } }) ∧
    (∀ v r, q.exec.stack = (v, false) :: r → goes (.seqCloseParen x) 0x12 0 0 2 next { q with exec := { q.exec with stack := r, acc := v || acc } }) ∧
    goes (.seqLw x area a) 0x38 area a 3 next (withWacc word) ∧
    stores (.seqSw x area a) 0x39 3 dropW { q with work := { q.work with w := mset (fun _ => 0) q.work.w a wacc } } ∧
    goes (.seqSubw x area a) 0x3A area a 2 next (withWacc (sat (wacc - word))) ∧
    goes (.seqAbsw x) 0x3B 0 0 1 next (withWacc (sat (if wacc < 0 then -wacc else wacc))) ∧
    (∀ p ∈ [(Instr.seqCeq x area a, 0x40, decide (wacc = word)), (.seqCne x area a, 0x41, decide (wacc ≠ word)),
        (.seqClt x area a, 0x42, decide (wacc < word)), (.seqCgt x area a, 0x43, decide (wacc > word)),
        (.seqCle x area a, 0x44, decide (wacc ≤ word)), (.seqCge x area a, 0x45, decide (wacc ≥ word))],
      goes p.1 p.2.1 area a 2 next (withAcc p.2.2)) ∧
    goes (.seqJmp x a) 0x50 0 a 2 a q ∧
    goes (.seqJmpc x a) 0x51 0 a 2 (if acc = true then a else next) q ∧
    (q.run ≠ 2 → is 0xFF 0 0 4 → ∃ m, exec (.seqEnd x) s = .next (s.setLane x { l with
        regs := m
        lseq := { q with due := true, own := q.work, exec := { q.exec with running := false, idx := next, clocks := q.exec.clocks + 4 } } }) ∧
      fget m f_LSEQ_EXEC_LASTEXEC = min 65535 ((q.exec.clocks + 4) / 64) ∧
      fget m f_LSEQ_EXEC_MAXEXEC = min 65535 (max (fget l.regs f_LSEQ_EXEC_MAXEXEC) ((q.exec.clocks + 4) / 64)) ∧
      ∀ k, k ≠ f_LSEQ_EXEC_LASTEXEC.key → rget m k = rget l.regs k)) ∧
  (∀ (s : State) (x : LaneId) (op area a : Nat) (c : Instr),
    (c, op, area, a) ∈ [(Instr.seqLd x area a, 0x01, area, a), (.seqSt x area a, 0x08, area, a), (.seqLw x area a, 0x38, area, a),
      (.seqCeq x area a, 0x40, area, a), (.seqJmp x a, 0x50, 0, a), (.seqEnd x, 0xFF, 0, 0)] →
    ((s.lane x).lseq.exec.running = false ∨
      ∃ im w, (s.lane x).lseq.image = some im ∧ im.prog[(s.lane x).lseq.exec.idx]? = some w ∧
        ¬(w.toNat / 2 ^ 24 = op ∧ w.toNat / 2 ^ 20 % 16 = area ∧ w.toNat % 2 ^ 20 = a)) →
    exec c s = .next s)

/-- R187, R188, R190, Table 06-7: timers, counters and edge detectors. -/
def Obligations.TimersCountersAndEdgesRemember : Prop :=
  ∀ (s : State) (x : LaneId) (im : LImage) (w : Word) (n : Nat),
    let l := s.lane x
    let q := l.lseq
    let inp := q.exec.acc
    q.exec.running = true → q.image = some im → im.prog[q.exec.idx]? = some w →
    let is (op area cost : Nat) : Prop :=
      w.toNat / 2 ^ 24 = op ∧ w.toNat / 2 ^ 20 % 16 = area ∧ w.toNat % 2 ^ 20 = n ∧ q.exec.clocks + cost ≤ q.exec.budget
    let goes (c : Instr) (q' : Lseq) (cost : Nat) (acc : Bool) : Prop := exec c s = .next (s.setLane x { l with
      lseq := { q' with exec := { q.exec with acc := acc, idx := q.exec.idx + 1, clocks := q.exec.clocks + cost } } })
    let pt := (im.timers.getD n 0).toNat / 2 ^ 32 * (if (im.timers.getD n 0).toNat / 8 % 2 = 1 then 1000 else 1)
    let t := mget (fun _ => timer0) q.timers n
    let e := ((q.tl : Int) - t.start).toNat
    let after (start timing out : Bool) : TimerSt :=
      { prev := some inp, start := if start = true then (q.tl : Int) else t.start, timing := timing, q := out }
    let timer (c : Instr) (start timing out : Bool) : Prop :=
      goes c { q with timers := mset (fun _ => timer0) q.timers n (after start timing out) } 6 out
    let pv := (BitVec.ofNat 32 ((im.counters.getD n 0).toNat / 2 ^ 32)).toInt
    let k := mget (fun _ => counter0) q.counters n
    let cu := if inp = true ∧ k.pcu = some false then min 2147483647 (k.cv + 1) else k.cv
    let cd := if inp = true ∧ k.pcd = some false then max (-2147483648) (k.cv - 1) else k.cv
    let counter (c : Instr) (k' : CounterSt) (acc : Bool) : Prop :=
      goes c { q with counters := mset (fun _ => counter0) q.counters n k' } 5 acc
    let edge (c : Instr) (acc : Bool) : Prop := goes c { q with edges := mset (fun _ => none) q.edges n (some inp) } 3 acc
    let p := mget (fun _ => none) q.edges n
    (is 0x20 3 6 →
      (inp = false → timer (.seqTon x n) false false false) ∧
      (inp = true → t.prev = some true → timer (.seqTon x n) false t.timing (decide (pt ≤ e))) ∧
      (inp = true → t.prev ≠ some true → timer (.seqTon x n) true true (decide (pt = 0)))) ∧
    (is 0x21 3 6 →
      (inp = true → timer (.seqTof x n) false false true) ∧
      (inp = false → t.prev = some true → timer (.seqTof x n) true true (decide (pt ≠ 0))) ∧
      (inp = false → t.prev ≠ some true → t.timing = true → timer (.seqTof x n) false (decide (e < pt)) (decide (e < pt))) ∧
      (inp = false → t.prev ≠ some true → t.timing = false → timer (.seqTof x n) false false false)) ∧
    (is 0x22 3 6 →
      (t.timing = true → timer (.seqTp x n) false (decide (e < pt)) (decide (e < pt))) ∧
      (t.timing = false → inp = true → t.prev = some false → timer (.seqTp x n) true true (decide (pt ≠ 0))) ∧
      (t.timing = false → (inp = false ∨ t.prev ≠ some false) → timer (.seqTp x n) false false false)) ∧
    (is 0x28 4 5 → -2147483648 ≤ k.cv → k.cv ≤ 2147483647 → counter (.seqCu x n) { k with cv := cu, pcu := some inp } (decide (pv ≤ cu))) ∧
    (is 0x29 4 5 → -2147483648 ≤ k.cv → k.cv ≤ 2147483647 → counter (.seqCd x n) { k with cv := cd, pcd := some inp } (decide (cd ≤ 0))) ∧
    (is 0x2A 4 5 →
      counter (.seqCr x n) { k with cv := if inp = true then (if (im.counters.getD n 0).toNat % 4 = 1 then pv else 0) else k.cv } inp) ∧
    (is 0x30 5 3 → edge (.seqRise x n) (inp && decide (p = some false))) ∧
    (is 0x31 5 3 → edge (.seqFall x n) (!inp && decide (p = some true)))

/-- R173 to R176, R186, R194, R195, R197: cycles of the sequencer.
A command whose event cannot occur changes nothing: assumption 1. -/
def Obligations.CyclesBeginStopAndRestart : Prop :=
  (∀ (s : State) (x : LaneId) (im : LImage),
    let l := s.lane x
    let q := l.lseq
    let tl := max q.tl l.img.tb.toNat
    l.agree.stage = .imaged → l.step1 = true → l.step3 = true → l.step4 = true → l.step5 = true → l.step6 = false →
    l.solver.asked = true → l.leng.active = true → q.image = some im → q.blanketDue = false → q.nextFirst.testBit 3 = false →
    let starts (l' : Lane) (first : Nat) : Prop :=
      l'.step6 = true ∧ l'.lseq.exec = ⟨true, 0, false, 0, [], 2400, l.dict.nat 0x5000 2 * im.len * 200⟩ ∧
      l'.lseq.tl = tl ∧ l'.lseq.cycle = l.slot ∧ l'.lseq.due = false ∧ l'.lseq.run = (if q.restart = none then q.run else 1) ∧
      l'.lseq.first = first ∧ l'.lseq.nextFirst = 0 ∧ l'.lseq.restart = none ∧ l'.lseq.image = some im ∧ l'.lseq.work = l'.lseq.own ∧
      l'.lseq.pendImg = q.pendImg ∧ l'.lseq.checking = q.checking ∧
      (∀ w ∈ im.prog, opAreas (opOf w) ≠ [] → areaOf w = 0 → (∀ e ∈ l.dict.forces, entArea e.2 = 0 → entAddr e.2 ≠ addrOf w) →
        mget (fun _ => false) l'.lseq.inI (addrOf w) = l.bitInput (addrOf w)) ∧
      (∀ w ∈ im.prog, opAreas (opOf w) ≠ [] → areaOf w = 6 → addrOf w < 0x8000 ∨ 0x10000 ≤ addrOf w →
        (∀ e ∈ l.dict.forces, entArea e.2 = 6 → entAddr e.2 ≠ addrOf w) →
        mget (fun _ => 0) l'.lseq.inW (addrOf w) = l.wordInput (addrOf w))
    (q.restart = none → q.run ≠ 2 → (l.slot - q.cycle).toNat = im.len → ∃ l', exec (.logicCycleStart x) s = .next (s.setLane x l') ∧
      starts l' q.nextFirst ∧ l'.lseq.own = q.own ∧ l'.lseq.pub = (if q.due = true then applyForces (l.dict.forces.map (·.2)) q.own else q.pub) ∧
      l'.lseq.flags = q.flags ∧ l'.lseq.timers = q.timers ∧ l'.lseq.counters = q.counters ∧ l'.lseq.edges = q.edges ∧
      (q.due = false → l'.sent = l.sent) ∧
      (q.due = true → ∃ fs, l'.sent = l.sent ++ fs ++ [outFrame l.slot x 4 0
        ((List.range 16).map fun n => if getQ l'.lseq.pub (0x1000 + n) = true then 2 ^ n else 0).sum]) ∧
      { l' with lseq := q, sent := l.sent, step6 := false } = l) ∧
    (q.restart = some false → ∃ l', exec (.restartResume x) s = .next (s.setLane x l') ∧ starts l' (q.nextFirst ||| 16) ∧
      l'.lseq.own = q.own ∧ l'.lseq.pub = q.pub ∧ l'.lseq.flags = q.flags ∧ l'.lseq.counters = q.counters ∧ l'.lseq.edges = q.edges ∧
      l'.lseq.timers = q.timers.map (fun p => (p.1, if p.2.timing = true then { p.2 with start := p.2.start + ((tl : Int) - q.stopTl) } else p.2)) ∧
      l'.regs = fset l.regs f_LSEQ_STAT_STARTMODE 3 ∧ { l' with lseq := q, regs := l.regs, step6 := false } = l) ∧
    (q.restart = some true → ∃ l', exec (.restartCold x) s = .next (s.setLane x l') ∧ starts l' (q.nextFirst ||| 4) ∧
      l'.lseq.own = ⟨[], []⟩ ∧ l'.lseq.pub = q.pub ∧ l'.lseq.flags = [] ∧ l'.lseq.counters = [] ∧ l'.lseq.edges = [] ∧ l'.lseq.timers = [] ∧
      l'.regs = fset l.regs f_LSEQ_STAT_STARTMODE 4 ∧ { l' with lseq := q, regs := l.regs, step6 := false } = l)) ∧
  (∀ (s : State) (x : LaneId) (im : LImage) (w : Word),
    let l := s.lane x
    let q := l.lseq
    q.exec.running = true → q.image = some im → im.prog[q.exec.idx]? = some w →
    (q.exec.budget < q.exec.clocks + opClocks (w.toNat / 2 ^ 24) → ∃ l', exec (.watchdogStop x) s = .next (s.setLane x l') ∧
      l'.lseq = { q with run := 2, blanketDue := true, due := false, stopTl := q.tl, stopImg := some im, own := q.work, exec := { q.exec with running := false } } ∧
      fget l'.regs f_LSEQ_STAT_OVERRUN = 1 ∧ fget l'.regs f_LSEQ_STOPAT_INDEX = q.exec.idx % 2 ^ 18 ∧
      l'.irq.testBit 7 = true ∧ l'.evq = l.evq ++ [(6, leBytes 4 q.exec.idx, 0xFF)] ∧ l'.dict.journalCount = l.dict.journalCount + 1 ∧
      { l'.dict with journal := l.dict.journal, journalCount := l.dict.journalCount } = l.dict ∧
      { l' with lseq := q, regs := l.regs, irq := l.irq, evq := l.evq, dict := l.dict } = l) ∧
    (q.exec.clocks + opClocks (w.toNat / 2 ^ 24) ≤ q.exec.budget → exec (.watchdogStop x) s = .next s)) ∧
  (∀ (s : State) (x : LaneId) (im : LImage),
    let l := s.lane x
    let q := l.lseq
    q.image = some im →
    (q.exec.running = true → im.len ≤ (l.slot - q.cycle).toNat → exec (.logicExecTimeout x) s = .next (s.setLane x { l with
      lseq := { q with due := false, exec := { q.exec with running := false } },
      regs := fset l.regs f_LCTL_RJSTAT_UCECAUSE 5, rep := { l.rep with uce := if l.rep.uce = 0 then 5 else l.rep.uce } })) ∧
    ((q.exec.running = false ∨ (l.slot - q.cycle).toNat < im.len) → exec (.logicExecTimeout x) s = .next s))

/-- R191 to R193, R201 to R203: logic images and retain records.
A command whose event cannot occur changes nothing: assumption 1. -/
def Obligations.ImagesAreCheckedSwappedAndRetained : Prop :=
  (∀ (s : State) (x : LaneId) (bs : Bytes) (c : BitVec 64), (s.lane x).lseq.checking = some (bs, c) →
    let l := s.lane x
    let q := l.lseq
    let r := l.checkImage bs true
    ∃ l', exec (.logicImageCheckDone x) s = .next (s.setLane x l') ∧ l'.lseq.checking = none ∧
      fget l'.regs f_LSEQ_LOADRES_CODE = r.1.1 % 256 ∧ fget l'.regs f_LSEQ_LOADRES_INDEX = r.1.2 % 2 ^ 18 ∧
      (cmac (l.leafKey 4 2) (untagged bs) ≠ slice bs 37 16 → r.1 = (1, 0)) ∧
      (cmac (l.leafKey 4 2) (untagged bs) = slice bs 37 16 → (imageCheck bs).1.1 ≠ 0 → r.1 = (imageCheck bs).1) ∧
      (cmac (l.leafKey 4 2) (untagged bs) = slice bs 37 16 → (imageCheck bs).1.1 = 0 →
        r.1 = if l.dict.nat 0x5000 2 * (decImage bs).len * 200 < (imageCheck bs).2.1 then (10, 0) else (imageCheck bs).1) ∧
      (r.1.1 ≠ 0 → fget l'.regs f_LSEQ_STAT_REFUSED = 1 ∧ l'.lseq = { q with checking := none }) ∧
      (r.1.1 = 0 → l'.lseq = { q with checking := none, pendImg := some (decImage bs, c) } ∧
        fget l'.regs f_LSEQ_STAT_REFUSED = fget l.regs f_LSEQ_STAT_REFUSED) ∧
      { l' with lseq := q, regs := l.regs, dict := l.dict } = l ∧ { l'.dict with vals := l.dict.vals } = l.dict ∧
      (∀ idx sub, objKey idx sub / 256 ≠ 0x5020 → l'.dict.get idx sub = l.dict.get idx sub)) ∧
  (∀ (s : State) (x : LaneId), (s.lane x).lseq.checking = none → exec (.logicImageCheckDone x) s = .next s) ∧
  (∀ (s : State) (x : LaneId) (im : LImage) (c : BitVec 64),
    let l := s.lane x
    let q := l.lseq
    let old := q.image.getD emptyImage
    l.agree.stage = .imaged → l.step3 = false → q.pendImg = some (im, c) →
    (l.cycleStarts = true → c.toNat + 100 ≤ l.slot.toNat →
      ∃ l', exec (.logicImageSwap x) s = .next (s.setLane x l') ∧ l'.step3 = true ∧ l'.lseq.image = some im ∧ l'.lseq.pendImg = none ∧
        l'.lseq.run = (if q.run = 2 then 2 else 1) ∧ l'.lseq.nextFirst.testBit 5 = true ∧ fget l'.regs f_LSEQ_STAT_SWAPPED = 1 ∧
        l'.nvm.logic.queued = true ∧ (l'.slot - l'.lseq.cycle).toNat = im.len % 2 ^ 64 ∧ l'.lseq.pub = q.pub ∧ l'.lseq.restart = q.restart ∧
        (q.restart = some true → l'.lseq.flags = [] ∧ l'.lseq.timers = [] ∧ l'.lseq.counters = [] ∧ l'.lseq.edges = [] ∧ l'.lseq.own = ⟨[], []⟩) ∧
        (q.restart ≠ some true → l'.lseq.flags = q.flags ∧ l'.lseq.own = q.own ∧
          (∀ n, getTimer l'.lseq n = if n < im.timers.length ∧ timerType old n = timerType im n then getTimer q n else timer0) ∧
          (∀ n, n < im.counters.length → getCounter l'.lseq n =
            if n < old.counters.length ∧ counterType old n = counterType im n then getCounter q n
            else { cv := if counterType im n = 1 then counterPV im n else 0, pcu := none, pcd := none }) ∧
          (∀ n, getEdge l'.lseq n = if n < im.edges then getEdge q n else none)) ∧
        { l' with lseq := q, step3 := false, regs := l.regs, nvm := l.nvm, dict := l.dict } = l) ∧
    ((l.cycleStarts = false ∨ l.slot.toNat < c.toNat + 100) → exec (.logicImageSwap x) s = .next (s.setLane x { l with step3 := true }))) ∧
  (∀ (s : State) (x : LaneId) (bs : Bytes) (c : BitVec 64),
    let l := s.lane x
    l.agree.stage = .imaged → l.lseq.checking = some (bs, c) →
    (l.cycleStarts = true → c.toNat + 100 ≤ l.slot.toNat → exec (.logicCheckLate x) s = .next (s.setLane x { l with
      regs := fset l.regs f_LCTL_RJSTAT_UCECAUSE 6, rep := { l.rep with uce := if l.rep.uce = 0 then 6 else l.rep.uce } })) ∧
    ((l.cycleStarts = false ∨ l.slot.toNat < c.toNat + 100) → exec (.logicCheckLate x) s = .next s)) ∧
  (∀ (s : State) (x : LaneId) (im : LImage),
    let l := s.lane x
    let q := l.lseq
    let period := q.tl / (1000 * max 1 (l.dict.nat 0x5000 5))
    q.run = 1 → q.image = some im → q.due = true →
    (period ≠ q.lastRetain → ∃ (r : RetainRec), exec (.retainWrite x) s = .next (s.setLane x { l with
        lseq := { q with retainSeq := q.retainSeq + 1, lastRetain := period },
        nvm := if (q.retainSeq + 1).getLsbD 0 = true then { l.nvm with retA := r } else { l.nvm with retB := r } }) ∧
      r.valid = true ∧ r.seq = q.retainSeq + 1 ∧ r.imageId = im.id ∧ r.flags = q.flags ∧ r.counters = q.counters ∧ r.edges = q.edges ∧
      ∀ n t e, (n, t, e) ∈ r.timers ↔ ((n, t) ∈ q.timers ∧ (im.timers.getD n 0).getLsbD 4 = true ∧ e = ((q.tl : Int) - t.start).toNat)) ∧
    (period = q.lastRetain → exec (.retainWrite x) s = .next s))

/-- R213, R227, R235, R239, R240: feeders, resistance channels and pulse inputs.
A command whose event cannot occur changes nothing: assumption 1. -/
def Obligations.FeedersCloseLatchAndSense : Prop :=
  (∀ (s : State) (x : LaneId) (f : Nat), ((s.lane x).working = false ∨ (s.lane x).meters = false) →
    exec (.zcTimeout x f) s = .next s ∧ exec (.nominalWindowClose x f) s = .next s ∧ exec (.mtrLatch x f) s = .next s) ∧
  (∀ (s : State) (x : LaneId) (f : Nat), (s.lane x).working = true → (s.lane x).meters = true →
    let m := (s.lane x).loopsRun x
    let c := m.dict.feederCfg f
    let u := m.feeder f
    let now := tSlot m.slot.toNat
    let only (b l' : Lane) (g : Feeder) : Prop := l'.feeder f = g ∧ (∀ k, k ≠ f → l'.feeder k = b.feeder k) ∧
      { l' with feeders := b.feeders, regs := b.regs, thm := b.thm } = b
    let k := m.feederCloses f
    let v := k.feeder f
    f < 4 → f < m.feeders.length → u = (s.lane x).feeder f → c.enable = true →
    (u.stage = 0 → feederLate c = false → u.held = none → flt fmt64 0 ((m.mtrSample c f).x.getD c.refPhase 0) = false →
      (u.mode = .acquire ∨ u.mode = .track → u.lastCross + c.zcTimeout * 100000 ≤ now → now < u.lastCross + c.zcTimeout * 100000 + c.pnom →
        ∃ l' g, exec (.zcTimeout x f) s = .next (s.setLane x l') ∧ only m l' g ∧ l'.thm = m.thm ∧ g.mode = .nozc ∧
          g.tOpen = u.lastCross + c.zcTimeout * 100000 ∧ g.lastCross = u.lastCross ∧ g.seq = u.seq ∧ g.ring = u.ring ∧ g.fresh = u.fresh ∧ g.stage = 1 ∧
          l'.regs = fbump m.regs { f_MTR_ZCTO_TO0 with hi := 8 * f + 7, lo := 8 * f }) ∧
      (u.mode = .nozc → u.tOpen + c.pnom ≤ now → now < u.tOpen + 2 * c.pnom →
        ∃ l' g, exec (.nominalWindowClose x f) s = .next (s.setLane x l') ∧ only m l' g ∧ l'.thm = m.thm ∧ l'.regs = m.regs ∧ g.mode = .nozc ∧
          g.tOpen = u.tOpen + c.pnom ∧ g.lastCross = u.lastCross ∧ g.seq = u.seq ∧ g.ring = u.ring ∧ g.stage = 1)) ∧
    (v.stage = 1 → c.latchN ≤ v.acc.cycles → v.seq = u.seq →
      ∃ l' g, exec (.mtrLatch x f) s = .next (s.setLane x l') ∧ only k l' g ∧ g.seq = (v.seq + 1) % 2 ^ 32 ∧
        g.fresh = v.fresh ++ [v.record f] ∧ g.ring = v.ring ∧
        g.regs = v.regs.map (fun r => { r with intv := 0 }) ∧ g.acc = { latch0 with openOff := v.acc.closeOff } ∧ g.mode = v.mode ∧
        g.tOpen = v.tOpen ∧ l'.thm = { k.thm with want := some k.slot } ∧ l'.regs = forBits k.regs f_MTR_STAT_LATCHED (2 ^ f)) ∧
    (v.stage = 1 → v.acc.cycles < c.latchN → v.seq = u.seq → exec (.mtrLatch x f) s = .next s)) ∧
  (∀ (s : State) (x : LaneId) (ch : Nat) (v : RtdSense),
    let l := s.lane x
    let o := l.rtdOwn.getD ch ⟨none, none⟩
    let w := l.slot.toNat / 2000 - 1
    (ch < l.rtdOwn.length → 2000 ≤ l.slot.toNat → (∀ p, o.last = some p → p.1 < w) →
      ∃ code, exec (.rtdConversion x ch v) s = .next (s.setLane x { l with
          rtdOwn := l.rtdOwn.set ch { last := some (w, code), prev := o.last },
          regs := fset (fset l.regs (f_THM_RAW_CONV.at (4 * ch)) (w % 256)) (f_THM_RAW_CODE.at (4 * ch)) code }) ∧
        (v = .opened → code = 0xFFFFFF) ∧ (v = .shorted → code = 0) ∧
        (∀ n d, v = .ratio n d → code ≤ 0xFFFFFF ∧ 1 ≤ code)) ∧
    ((l.slot.toNat < 2000 ∨ ∃ p, o.last = some p ∧ w ≤ p.1) → exec (.rtdConversion x ch v) s = .next s)) ∧
  (∀ (s : State) (x : LaneId) (n low high since : Nat) (level : Bool),
    let l := s.lane x
    let o := l.pulseOwn.getD n ⟨0, 0⟩
    let deb := [0, 1000, 10000, 100000, 1000000, 10000000].getD (l.dict.nat (0x3040 + n) 1) 10000000
    let mode := l.dict.pulseMode n
    let leaves (p : PulseOwn) (v : BitVec 32) : Prop := exec (.flowEdge x n low high since level) s = .next (s.setLane x { l with
      pulseOwn := l.pulseOwn.set n p, regs := fset l.regs (f_THM_PULSERAW_VALUE.at (4 * n)) v.toNat })
    (n < l.pulseOwn.length → deb ≤ low → deb ≤ high → 512 ≤ since →
      (mode = 2 → leaves { o with period := min since (2 ^ 32 - 1) } (BitVec.ofNat 32 (min since (2 ^ 32 - 1)))) ∧
      (mode = 3 → n % 2 = 0 → leaves { o with count := if level = true then o.count + 1 else o.count - 1 } (if level = true then o.count + 1 else o.count - 1)) ∧
      (mode = 3 → n % 2 = 1 → leaves o (BitVec.ofNat 32 (l.plevel.getLsbD n).toNat)) ∧
      (mode ≠ 2 → mode ≠ 3 → leaves { o with count := o.count + 1 } (o.count + 1))) ∧
    ((low < deb ∨ high < deb ∨ since < 512) → exec (.flowEdge x n low high since level) s = .next s)) ∧
  (∀ (s : State) (x : LaneId) (n : Nat),
    let l := s.lane x
    (n < l.pulseOwn.length → l.dict.pulseMode n = 2 → exec (.freqTimeout x n) s = .next (s.setLane x { l with
      pulseOwn := l.pulseOwn.set n { l.pulseOwn.getD n ⟨0, 0⟩ with period := 0 }, regs := fset l.regs (f_THM_PULSERAW_VALUE.at (4 * n)) 0 })) ∧
    (l.dict.pulseMode n ≠ 2 → exec (.freqTimeout x n) s = .next s))

/-- R248, R251, R252, R254, R257 to R259: circuits, pulse outputs and records.
A command whose event cannot occur changes nothing: assumption 1. -/
def Obligations.CircuitsPulsesAndTotalsPersist : Prop :=
  (∀ (s : State) (x : LaneId) (c : Nat), ((s.lane x).working = false ∨ (s.lane x).meters = false) →
    exec (.thmLatch x c) s = .next s ∧ exec (.vpoPulseStart x c) s = .next s ∧ exec (.vpoPulseWidthEnd x c) s = .next s ∧
    exec (.flaskMerge x) s = .next s) ∧
  (∀ (s : State) (x : LaneId), (s.lane x).working = true → (s.lane x).meters = true →
    let m := (s.lane x).loopsRun x
    let t := m.thm
    t = (s.lane x).thm → m.meters = true → t.stage = 0 →
    let leaves (c : Instr) (l' : Lane) : Prop := exec c s = .next (s.setLane x l') ∧ l'.thm.stage = 2 ∧ l'.thm.tbPrev = some m.img.tb ∧
      { l' with feeders := m.feeders, thm := m.thm, regs := m.regs, sent := m.sent } = m
    (∀ c p, c < 8 → c < t.circs.length → t.merge = none → t.tbPrev = some p →
      let g := m.dict.circCfg c
      let u := m.circ c
      let seq := (u.seq + 1) % 2 ^ 32
      (g.enable = true → p.toNat / (g.latchN * 1000000) < m.img.tb.toNat / (g.latchN * 1000000) →
        ∃ l', leaves (.thmLatch x c) l' ∧ (l'.circ c).seq = seq ∧ l'.thm.want = some m.slot ∧
          (l'.circ c).fresh = u.fresh ++ [thmRecord c g.cold seq { u.acc with last := m.slot - 1 } (u.regs.map (·.intv)) false] ∧
          (l'.circ c).ring = u.ring ∧
          (fget l'.regs f_THM_STAT_LATCHED).testBit c = true) ∧
      ((g.enable = false ∨ m.img.tb.toNat / (g.latchN * 1000000) ≤ p.toNat / (g.latchN * 1000000)) →
        exec (.thmLatch x c) s = .next s)) ∧
    (∀ o, o < 16 → o < t.vpo.length →
      let g := m.dict.vpoCfg o
      let v := t.vpo.getD o vpoOut0
      let w := v.effWidth g m.slot
      (g.enable = true → m.word.arbFault = false → v.active = none → 1 ≤ v.owed → (∀ e, v.lastEnd = some e → e.toNat + w ≤ m.slot.toNat) →
        ∃ l', leaves (.vpoPulseStart x o) l' ∧ (l'.thm.vpo.getD o vpoOut0).active = some (m.slot, w) ∧
          (l'.thm.vpo.getD o vpoOut0).lastEnd = v.lastEnd ∧ outFrame m.slot x 5 o (w * 65536 + 1) ∈ l'.sent) ∧
      (∀ b k, v.active = some (b, k) → m.slot.toNat < b.toNat + k → exec (.vpoPulseStart x o) s = .next s) ∧
      (∀ b k, v.active = some (b, k) → b.toNat + k ≤ m.slot.toNat → v.lastEnd ≠ some m.slot →
        ∃ l', leaves (.vpoPulseWidthEnd x o) l' ∧ (l'.thm.vpo.getD o vpoOut0).lastEnd = some m.slot ∧
          (g.enable = false → l'.thm.vpo.getD o vpoOut0 = { v with owed := v.owed - 1, active := none, lastEnd := some m.slot, backlog := v.backlog && decide (v.owed - 1 ≠ 0) }) ∧
          (1 ≤ g.width → (l'.thm.vpo.getD o vpoOut0).active = none)) ∧
      ((v.active = none ∨ ∃ b k, v.active = some (b, k) ∧ m.slot.toNat < b.toNat + k) → exec (.vpoPulseWidthEnd x o) s = .next s)) ∧
    (∀ p, t.merge = some p → m.slot ≠ m.firstSlot →
      let u := m.mtrSlot
      ∃ l', leaves (.flaskMerge x) l' ∧ l'.thm.merge = none ∧ l'.thm.lastFlask = p.fseq ∧ l'.thm.merging = true ∧ l'.thm.want = some m.slot ∧
        ∀ f r, f < m.feeders.length → r < (u.feeder f).regs.length → (l'.feeder f).regs.getD r ereg0 =
          { ((u.feeder f).regs.getD r ereg0).merge (p.baseRes.getD (36 * f + r) 0) (p.regs.getD (36 * f + r) (0, 0, 0)) with k := 0 }) ∧
    ((t.merge = none ∨ m.slot = m.firstSlot) → exec (.flaskMerge x) s = .next s)) ∧
  (∀ (s : State) (x : LaneId),
    let l := s.lane x
    (∀ a, l.thm.want = some a → l.nvm.totBusy = none → l.meters = true → l.mask.has x = true → l.thm.metered = l.slot →
      exec (.totalsWrite x) s = .next (s.setLane x { l with
        thm := { l.thm with want := none },
        nvm := { l.nvm with totBusy := some (l.nvm.totNextB, totalsRecord l.feeders l.thm a l.thm.lastFlask), totNextB := !l.nvm.totNextB } })) ∧
    ((l.thm.want = none ∨ l.nvm.totBusy ≠ none ∨ l.meters = false ∨ l.mask.has x = false ∨ l.thm.metered ≠ l.slot) → exec (.totalsWrite x) s = .next s) ∧
    (∀ b r, l.nvm.totBusy = some (b, r) →
      let banks := if b = true then { l.nvm with totBusy := none, totB := r } else { l.nvm with totBusy := none, totA := r }
      let merged : Prop := l.thm.merging = true ∧ r.lastFlask = l.thm.lastFlask
      let cleared : Lane := { l with
        nvm := { banks with flask := flask0 }, thm := { l.thm with tseq := r.tseq, merging := false }, regs := fflag l.regs f_THM_TOTSTAT_MERGED }
      (merged → exec (.totalsWriteDone x) s = .next (s.setLane x cleared) ∧ exec (.mergedRecordDone x) s = .next (s.setLane x cleared)) ∧
      (¬ merged → exec (.totalsWriteDone x) s = .next (s.setLane x { l with nvm := banks, thm := { l.thm with tseq := r.tseq } }) ∧
        exec (.mergedRecordDone x) s = .next s)) ∧
    (l.nvm.totBusy = none → exec (.totalsWriteDone x) s = .next s ∧ exec (.mergedRecordDone x) s = .next s) ∧
    (∀ f, l.nvm.flaskBusy = some f → exec (.flaskWriteDone x) s = .next (s.setLane x { l with
      nvm := { l.nvm with flask := f, fseq := f.fseq, flaskBusy := none }, trip := l.trip.map fun t => { t with written := true } })) ∧
    (l.nvm.flaskBusy = none → exec (.flaskWriteDone x) s = .next s))

/-- R261, R264 to R275, R283: the field ports. The forms of messages are the model's choice (log entries 110, 102,
108 and 109).
A command whose event cannot occur changes nothing: assumption 1. -/
def Obligations.PortsDiscoverSendAndFilter : Prop :=
  ∀ (s : State) (x : LaneId) (p : Nat),
    let l := s.lane x
    let c := l.portCfg x p
    let q := l.port p
    let counted (f : Fld) : Lane := { l with regs := fbump l.regs (f.at (0x20 * p)) }
    let rx : Lane := counted f_PORT_RXCNT_RX
    let isOpen : Prop := p < 16 ∧ p < l.ports.length ∧ q.up = true ∧ c.enable = true
    ((16 ≤ p ∨ q.up = false ∨ c.enable = false) → ∀ (fab : Nat) (ok : Bool) (f : Bytes) (src dst : BitVec 128) (mac : BitVec 48) (head : BitVec 32),
      exec (.ethFrameReceive x p fab ok f) s = .next s ∧ exec (.neighborSolicitation x p src dst mac) s = .next s ∧
      exec (.neighborAdvertisement x p dst mac) s = .next s ∧ exec (.routerAdvertisement x p) s = .next s ∧
      exec (.redirect x p) s = .next s ∧ exec (.echoRequest x p src dst head f) s = .next s ∧ exec (.mldQuery x p) s = .next s) ∧
    (isOpen →
      (∀ (fab : Nat) (ok : Bool) (f : Bytes),
        let tagged : Prop := beAt f 12 2 = 0x8100
        let sized : Prop := ok = true ∧ 64 ≤ f.length + 4 ∧ (f.length + 4 ≤ 1518 ∨ tagged ∧ f.length + 4 ≤ 1522)
        let ty := if beAt f 12 2 = 0x8100 then beAt f 16 2 else beAt f 12 2
        (¬ sized → exec (.ethFrameReceive x p fab ok f) s = .next (s.setLane x (counted f_PORT_RXDROP_LINEERR))) ∧
        (sized → ty = 0x8808 → exec (.ethFrameReceive x p fab ok f) s = .next s) ∧
        (sized → ty ≠ 0x8808 → (macAccepted q c (beAt f 0 6) = false ∨
            tagged ∧ beAt f 14 2 % 4096 ≠ c.pvid ∧ (beAt f 14 2 % 4096 = 0 ∨ c.vlans.contains (beAt f 14 2 % 4096) = false)) →
          exec (.ethFrameReceive x p fab ok f) s = .next (s.setLane x (counted f_PORT_RXDROP_FILTERED))) ∧
        (sized → ¬ tagged → macAccepted q c (beAt f 0 6) = true →
          (ty ≠ 0x86DD → ty ≠ 0x88F7 → ty ≠ 0x8808 →
            exec (.ethFrameReceive x p fab ok f) s = .next (s.setLane x (counted f_PORT_RXDROP_IPDROP))) ∧
          (ty = 0x86DD → ipFilter q c (f.drop 14) = .error .ip →
            exec (.ethFrameReceive x p fab ok f) s = .next (s.setLane x (counted f_PORT_RXDROP_IPDROP))) ∧
          (∀ src sport body, ty = 0x86DD → ipFilter q c (f.drop 14) = .ok (.afesh src sport body) →
            exec (.ethFrameReceive x p fab ok f) s = .next (s.setLane x
              (rx.rxEnqueue ⟨16 * x.num + p, src, sport, natAt body 0 1 == 0x51 || natAt body 0 1 == 0x52, body⟩))))) ∧
      exec (.routerAdvertisement x p) s = .next (s.setLane x rx) ∧ exec (.redirect x p) s = .next (s.setLane x rx) ∧
      (∀ (src target : BitVec 128) (mac : BitVec 48), src ≠ 0 →
        (q.owns c target = false → exec (.neighborSolicitation x p src target mac) s = .next (s.setLane x rx)) ∧
        (q.owns c target = true → (∀ e ∈ q.nd, e.addr ≠ src) → q.nd.length < 64 →
          ∃ l', exec (.neighborSolicitation x p src target mac) s = .next (s.setLane x l') ∧
            l.PortQueues l' x p { q with ndTick := q.ndTick + 1, nd := q.nd ++ [⟨src, some mac, true, q.ndTick + 1, []⟩] } rx.regs
              (naFrame c src target true))) ∧
      (∀ (target : BitVec 128) (mac : BitVec 48), ∃ l', exec (.neighborAdvertisement x p target mac) s = .next (s.setLane x l') ∧
        (target ∉ c.addrs → (∀ e ∈ q.nd, e.addr = target → e.wait = []) →
          l.PortIs l' p { q with nd := q.nd.map fun e => if e.addr = target then { e with mac := some mac, stale := false } else e } rx.regs) ∧
        (∀ k, k < 3 → target = c.addrs.getD k 0 → target ≠ 0 → q.addr.getD k 0 = 1 → (l'.port p).addr.getD k 0 = 3)) ∧
      (∀ (src dst : BitVec 128) (head : BitVec 32) (data : Bytes),
        let sec := l.slot.toNat / 20000
        let cnt := if q.echoSec = sec then q.echoCnt else 0
        let reply := icmpFrame dst src (beBytes 4 (129 * 2 ^ 24) ++ beBytes 4 head.toNat ++ data)
        (q.owns c dst = false → exec (.echoRequest x p src dst head data) s = .next (s.setLane x rx)) ∧
        (q.owns c dst = true → ∃ l', exec (.echoRequest x p src dst head data) s = .next (s.setLane x l') ∧
          ((1232 < data.length ∨ 100 ≤ cnt) →
            l.PortIs l' p { q with echoSec := sec, echoCnt := cnt } (fbump rx.regs (f_PORT_RXDROP_ECHODROP.at (0x20 * p)))) ∧
          (data.length ≤ 1232 → cnt < 100 → (l'.port p).echoCnt = cnt + 1 ∧ (l'.port p).echoSec = sec ∧
            (∀ hop e, src.toNat / 2 ^ 120 ≠ 0xFF → nextHop c src = some hop → q.nd.find? (fun e => e.addr == hop) = some e →
              e.mac.isSome = true → e.stale = false → l.mask.has x = true →
              ∃ nd, l.PortQueues l' x p { q with echoSec := sec, echoCnt := cnt + 1, ndTick := q.ndTick + 1, nd := nd } rx.regs reply)))) ∧
      (∃ l', exec (.mldQuery x p) s = .next (s.setLane x l') ∧ l.PortQueues l' x p q rx.regs (mldFrame q c))) ∧
    (∀ (mode : Nat),
      (p < 16 → p < l.ports.length → q.up = false → c.enable = true → modeOk p c.mode mode = true →
        ∃ l', exec (.portLinkUp x p mode) s = .next (s.setLane x l') ∧ (l'.port p).up = true ∧ (l'.port p).mode = mode ∧
          (l'.port p).addr = c.addrs.map (fun a => if a = 0 then 0 else 1) ∧
          (l.mask.has x = false → { l'.port p with ptp := q.ptp } = q.linkUp c mode (if autoNeg p c.mode then 2 else 4)) ∧
          (l.mask.has x = true → q.queues = List.replicate 8 [] → (l'.port p).queues.getD (c.tcmap.getD 1 0 % 8) [] =
            (q.linkUp c mode (if autoNeg p c.mode then 2 else 4)).upFrames c) ∧
          (∀ j, j ≠ p → { l'.port j with ptp := (l.port j).ptp } = l.port j) ∧
          { l' with ports := l.ports, time := l.time, regs := l.regs } = l) ∧
      ((16 ≤ p ∨ q.up = true ∨ c.enable = false ∨ modeOk p c.mode mode = false) → exec (.portLinkUp x p mode) s = .next s)) ∧
    (∀ (fab : Nat),
      (q.up = false → exec (.portLinkDown x p fab) s = .next s) ∧
      (q.up = true → p < l.ports.length →
        ∃ l', exec (.portLinkDown x p fab) s = .next (s.setLane x l') ∧ { l'.port p with ptp := q.ptp } = q.linkDown ∧ (l'.port p).up = false ∧
          (l'.port p).addr = [0, 0, 0] ∧ (l'.port p).queues = q.queues ∧ (l'.port p).ptp.foreign = none ∧ (l'.port p).ptp.st = 0 ∧
          l'.regs = fbump l.regs (f_PORT_LINK_LINKDN.at (0x20 * p)) ∧ (∀ j, j ≠ p → { l'.port j with ptp := (l.port j).ptp } = l.port j) ∧
          { l' with ports := l.ports, time := l.time, regs := l.regs } = l)) ∧
    (∀ (k : Nat) (conflict : Bool),
      (q.addr.getD k 0 = 1 → ∃ l', exec (.dadComplete x p k conflict) s = .next (s.setLane x l') ∧
        l.PortIs l' p { q with addr := q.addr.set k (if conflict = true then 3 else 2) } l.regs) ∧
      (q.addr.getD k 0 ≠ 1 → exec (.dadComplete x p k conflict) s = .next s)) ∧
    (∀ (a : BitVec 128), ∃ l', exec (.neighborEntryStale x p a) s = .next (s.setLane x l') ∧
      l.PortIs l' p { q with nd := q.nd.map fun e => if e.addr = a ∧ e.mac.isSome = true then { e with stale := true } else e } l.regs) ∧
    (∀ (fab : Nat),
      let falls (g : GateList) (e : Nat) : Prop :=
        let off := (((nsOf (l.clk fab) : Nat) : Int) - g.base) % (((g.entries.map gateIntv).sum : Nat) : Int)
        g.entries ≠ [] → (((g.entries.take e).map gateIntv).sum : Int) ≤ off ∧ off < ((g.entries.take (e + 1)).map gateIntv).sum
      (q.oper = none → exec (.gateEntryEnd x p fab) s = .next s) ∧
      (∀ g, q.oper = some g → ∃ l' e, exec (.gateEntryEnd x p fab) s = .next (s.setLane x l') ∧
        l.PortIs l' p { q with entry := e } l.regs ∧ falls g e) ∧
      (∀ g t, q.pend = some (g, t) → t ≤ nsOf (l.clk fab) →
        ∃ l' e, exec (.gateListChange x p fab) s = .next (s.setLane x l') ∧
          l.PortIs l' p { q with oper := some g, pend := none, entry := e } l.regs ∧ falls g e) ∧
      ((∀ g t, q.pend = some (g, t) → nsOf (l.clk fab) < t) → exec (.gateListChange x p fab) s = .next s) ∧
      (q.up = false → exec (.txFrameStart x p fab) s = .next s) ∧
      (q.up = true → l.mask.has x = false → exec (.txFrameStart x p fab) s =
        .next (s.setLane x { l with ports := l.ports.map fun y => { y with queues := List.replicate 8 [] } })) ∧
      (q.up = true → l.mask.has x = true → p < l.ports.length →
        let d := q.gateDrops c
        let now := l.slot.toNat * 50000000 + fab * 2500
        let dropped := fbump l.regs (f_PORT_TXDROP_GATEDROP.at (0x20 * p)) d.2
        ∃ l', exec (.txFrameStart x p fab) s = .next (s.setLane x l') ∧
          ((∀ n, n < 8 → (q.gates c).testBit n = true → d.1.queues.getD n [] = []) → l.PortIs l' p d.1 dropped) ∧
          (∀ n f rest, n < 8 → (q.gates c).testBit n = true → d.1.queues.getD n [] = f :: rest →
            (∀ j, n < j → j < 8 → (q.gates c).testBit j = true → d.1.queues.getD j [] = []) →
            ((now < q.busyTill ∨ d.1.fits c (nsOf (l.clk fab)) n f = false) → l.PortIs l' p d.1 dropped) ∧
            (q.busyTill ≤ now → d.1.fits c (nsOf (l.clk fab)) n f = true →
              ∃ t, l.PortIs l' p { d.1 with
                  queues := d.1.queues.set n rest
                  busyTill := now + (f.wire c + 20) * 8 * 1000000 / lineRate q.mode
                  lastTx := some { insertStamp f (l.txStamp x p fab) with tag := if c.txvid = 0 then 0 else 8192 * n + c.txvid }
                  ptp := { q.ptp with tReq := t } } (fbump dropped (f_PORT_TXCNT_TX.at (0x20 * p))))))) ∧
    (∀ n, n = l.slot + 1 →
      ((n.toNat % 20000 ≠ 0 ∨ l.statSlot = some n) → exec (.laneStatistics x) s = .next s) ∧
      (n.toNat % 20000 = 0 → l.statSlot ≠ some n → ∃ e : FrameEntry, e.kind = 3 ∧ e.source = x.num ∧ e.seq = BitVec.ofNat 32 (n.toNat / 20000) ∧
        e.body = l.ownStats.flatMap (leBytes 4) ∧
        exec (.laneStatistics x) s = .next (s.setLane x { l with statSlot := some n, agree := { l.agree with offer := e :: l.agree.offer } })))

/-- R286 to R300: the PTP instance and the waymark pins. Quotients are free (log entry 19), message
forms and selection the model's (log entries 106 and 107).
A command whose event cannot occur changes nothing: assumption 1. -/
def Obligations.TimeFollowsTheParent : Prop :=
  ∀ (s : State) (x : LaneId) (p : Nat),
    let l := s.lane x
    let c := l.portCfg x p
    let tc := l.timeCfg x
    let q := l.port p
    let t := l.time
    let rx : Lane := { l with regs := fbump l.regs (f_PORT_RXCNT_RX.at (0x20 * p)) }
    let intv (sub : Nat) := l.dict.nat (0x8000 + 16 * x.num + p) sub
    let holds (locked : Bool) (ps : List WmkPin) : List WmkPin := ps.mapIdx fun w k => k.hold (l.wmk x w) locked
    let measured (l' : Lane) (fab : Nat) (d t2 : Int) : Prop :=
      let o := d - q.ptp.delay.getD 0
      (l'.port p).ptp = { q.ptp with d21 := some d, sync := none } ∧ (∀ j, j ≠ p → (l'.port j).ptp = (l.port j).ptp) ∧
        (∀ j, { l'.port j with ptp := (l.port j).ptp, entry := (l.port j).entry } = l.port j) ∧
        { l' with ports := l.ports, regs := l.regs, time := l.time } = l ∧
        (∀ k, k ≠ f_TIME_STAT_SLEWLIM.key → k ≠ f_TIME_STEPS_STEPCNT.key → rget l'.regs k = rget rx.regs k) ∧
        (let u := l'.time; u.parent = t.parent ∧ u.gm = t.gm ∧ u.fifo = t.fifo ∧ (u.offs = [] ∨ u.offs.head? = some o) ∧
          (t.offs.length < 2 → u = { t with offs := o :: t.offs, lastT2 := some t2, pins := holds t.locked t.pins } ∧ l'.regs = rx.regs) ∧
          (∀ a b r, t.offs = a :: b :: r →
            ((tc.stepThr * 65536 < (mid3 o a b).natAbs → u.offs = [] ∧ u.lastT2 = none ∧ u.locked = false ∧ u.yi = t.yi ∧ u.y = t.y ∧
                (mid3 o a b ≤ t.clock → (u.at fab : Int) = t.at fab - mid3 o a b) ∧
                u.pins = holds false (t.pins.map fun k => { k with ref := some (u.at fab) }) ∧
                fget l'.regs f_TIME_STAT_STEPPED = 1 ∧
                fget l'.regs f_TIME_STEPS_STEPCNT = satAdd (2 ^ (f_TIME_STEPS_STEPCNT.hi + 1 - f_TIME_STEPS_STEPCNT.lo) - 1) (fget l.regs f_TIME_STEPS_STEPCNT) 1) ∧
              ((mid3 o a b).natAbs ≤ tc.stepThr * 65536 →
                let rate (k : Nat) : Int := Config.quot (mid3 o a b * 2 ^ 40) (2 ^ k * (match t.lastT2 with | some r => t2 - r | none => 0).toNat)
                u.filt = mid3 o a b ∧ u.offs = [o, a, b] ∧ u.lastT2 = some t2 ∧ u.pins = holds u.locked t.pins ∧
                u.yi = max (-549755814) (min 549755814 (t.yi - rate tc.kish)) ∧ u.y = max (-549755814) (min 549755814 (u.yi - rate tc.kpsh)) ∧
                (clkAdvance u.y fab ≤ t.at fab → u.at fab = t.at fab) ∧
                fget l'.regs f_TIME_STEPS_STEPCNT = fget l.regs f_TIME_STEPS_STEPCNT ∧
                (t.locked = false → (u.locked = true ↔ (mid3 o a b).natAbs ≤ tc.lockThr * 65536 ∧ 15 ≤ t.inRun)) ∧
                (t.locked = true → (u.locked = false ↔ tc.lockThr * 65536 < (mid3 o a b).natAbs ∧ 3 ≤ t.outRun))))))
    let delayed (m : Int) : PortSt := { q with ptp := { q.ptp with
      delay := some (match q.ptp.delay with | none => m | some e => e + Config.quot (m - e) (2 ^ tc.dlysh))
      tReq := none } }
    ((16 ≤ p ∨ q.up = false ∨ c.enable = false) → ∀ (fab seq sp : Nat) (ident : BitVec 64) (two : Bool) (t1 corr : Int) (a : Announce),
      exec (.syncReceive x p fab ident two seq t1 corr) s = .next s ∧ exec (.followUpReceive x p fab ident seq t1 corr) s = .next s ∧
      exec (.delayReqReceive x p fab ident sp seq corr) s = .next s ∧ exec (.delayRespReceive x p ident seq t1 corr) s = .next s ∧
      exec (.pdelayReqReceive x p fab ident sp seq corr) s = .next s ∧ exec (.pdelayRespReceive x p fab seq corr) s = .next s ∧
      exec (.announceReceive x p fab a) s = .next s) ∧
    (p < 16 → p < l.ports.length → q.up = true → c.enable = true → ∀ (fab seq sp : Nat) (ident : BitVec 64) (t1 corr : Int),
      let t2 := l.rxStamp x p fab
      let fromParent : Prop := q.ptp.st = 3 ∧ ∃ a, q.ptp.foreign = some a ∧ a.ident = ident
      (¬ fromParent → (∀ two, exec (.syncReceive x p fab ident two seq t1 corr) s = .next (s.setLane x rx)) ∧
        exec (.followUpReceive x p fab ident seq t1 corr) s = .next (s.setLane x rx) ∧
        exec (.delayRespReceive x p ident seq t1 corr) s = .next (s.setLane x rx)) ∧
      (fromParent →
        (∃ l', exec (.syncReceive x p fab ident true seq t1 corr) s = .next (s.setLane x l') ∧
          l.PortIs l' p { q with ptp := { q.ptp with sync := some (seq, t2, corr) } } rx.regs) ∧
        (∃ l', exec (.syncReceive x p fab ident false seq t1 corr) s = .next (s.setLane x l') ∧
          measured l' fab (t2 - t1 * 65536 - corr) t2) ∧
        (q.ptp.sync = none → exec (.followUpReceive x p fab ident seq t1 corr) s = .next (s.setLane x rx)) ∧
        (∀ n r2 r, q.ptp.sync = some (n, r2, r) →
          (n ≠ seq → exec (.followUpReceive x p fab ident seq t1 corr) s = .next (s.setLane x rx)) ∧
          (n = seq → ∃ l', exec (.followUpReceive x p fab ident seq t1 corr) s = .next (s.setLane x l') ∧
            measured l' fab (r2 - t1 * 65536 - (corr + r)) r2)) ∧
        ((q.ptp.tReq = none ∨ q.ptp.d21 = none) → exec (.delayRespReceive x p ident seq t1 corr) s = .next (s.setLane x rx)) ∧
        (∀ n t3 d, q.ptp.tReq = some (n, t3) → q.ptp.d21 = some d →
          (n ≠ seq → exec (.delayRespReceive x p ident seq t1 corr) s = .next (s.setLane x rx)) ∧
          (n = seq → ∃ l', exec (.delayRespReceive x p ident seq t1 corr) s = .next (s.setLane x l') ∧
            l.PortIs l' p (delayed (Config.quot (d + (t1 * 65536 - corr - t3)) 2)) rx.regs))) ∧
      ((c.peer = false ∨ q.ptp.tReq = none) → exec (.pdelayRespReceive x p fab seq corr) s = .next (s.setLane x rx)) ∧
      (∀ n r1, c.peer = true → q.ptp.tReq = some (n, r1) →
        (n ≠ seq → exec (.pdelayRespReceive x p fab seq corr) s = .next (s.setLane x rx)) ∧
        (n = seq → ∃ l', exec (.pdelayRespReceive x p fab seq corr) s = .next (s.setLane x l') ∧
          l.PortIs l' p (delayed (Config.quot (t2 - r1 - corr) 2)) rx.regs)) ∧
      ((q.ptp.st ≠ 2 ∨ c.peer = true) → exec (.delayReqReceive x p fab ident sp seq corr) s = .next (s.setLane x rx)) ∧
      (q.ptp.st = 2 → c.peer = false → ∃ l', exec (.delayReqReceive x p fab ident sp seq corr) s = .next (s.setLane x l') ∧
        l.PtpQueues l' x p q.ptp rx.regs false false 0 0 (ptpMsg tc 9 p seq (corr - (t2.toNat % 65536 : Nat)) (intv 0x11)
          (beBytes 6 (t2.toNat / 65536 / 1000000000) ++ beBytes 4 (t2.toNat / 65536 % 1000000000) ++ beBytes 8 ident.toNat ++ beBytes 2 sp))) ∧
      ((c.role = 0 ∨ c.peer = false) → exec (.pdelayReqReceive x p fab ident sp seq corr) s = .next (s.setLane x rx)) ∧
      (c.role ≠ 0 → c.peer = true → ∃ l', exec (.pdelayReqReceive x p fab ident sp seq corr) s = .next (s.setLane x l') ∧
        l.PtpQueues l' x p q.ptp rx.regs true true 2 t2 (ptpMsg tc 3 p seq corr 0x7F (zeros 10 ++ beBytes 8 ident.toNat ++ beBytes 2 sp))) ∧
      (∀ a : Announce,
        ((c.role = 0 ∨ a.ident = tc.ident) → exec (.announceReceive x p fab a) s = .next (s.setLane x rx)) ∧
        (c.role ≠ 0 → a.ident ≠ tc.ident → ∃ l', exec (.announceReceive x p fab a) s = .next (s.setLane x l') ∧ l'.regs = rx.regs ∧
          { l' with ports := l.ports, regs := l.regs, time := l.time } = l ∧ (∀ j, { l'.port j with ptp := (l.port j).ptp } = l.port j) ∧
          (∀ j, j ≠ p → (l'.port j).ptp.foreign = (l.port j).ptp.foreign ∧ (l'.port j).ptp.seen = (l.port j).ptp.seen) ∧
          (q.ptp.foreign = none → (l'.port p).ptp.foreign = some a ∧ (l'.port p).ptp.seen = 1) ∧
          (∀ b, q.ptp.foreign = some b →
            (b.ident = a.ident ∧ b.srcPort = a.srcPort → (l'.port p).ptp.foreign = some a ∧ (l'.port p).ptp.seen = min 2 (q.ptp.seen + 1)) ∧
            (¬ (b.ident = a.ident ∧ b.srcPort = a.srcPort) → betterSet a b = true → (l'.port p).ptp.foreign = some a ∧ (l'.port p).ptp.seen = 1) ∧
            (¬ (b.ident = a.ident ∧ b.srcPort = a.srcPort) → betterSet a b = false → (l'.port p).ptp.foreign = some b ∧ (l'.port p).ptp.seen = q.ptp.seen)) ∧
          (∀ j, l'.time.parent = some j ↔ (l'.port j).ptp.st = 3) ∧
          (l'.time.parent ≠ t.parent → l'.time.offs = []) ∧ (l'.time.parent = none → t.parent ≠ none → l'.time.locked = false ∧ l'.time.y = t.yi) ∧
          l'.time.yi = t.yi ∧ l'.time.pins = holds l'.time.locked t.pins ∧ l'.time.fifo = t.fifo))) ∧
    (q.ptp.st ≠ 2 → exec (.syncTransmit x p) s = .next s ∧ exec (.announceTransmit x p) s = .next s) ∧
    (q.ptp.st = 2 →
      (∃ l', exec (.syncTransmit x p) s = .next (s.setLane x l') ∧
        l.PtpQueues l' x p { q.ptp with syncSeq := (q.ptp.syncSeq + 1) % 65536 } l.regs true false 1 0
          (ptpMsg tc 0 p q.ptp.syncSeq 0 (intv 0xF) (zeros 10))) ∧
      ∃ (l' : Lane) (body : Bytes), exec (.announceTransmit x p) s = .next (s.setLane x l') ∧ body.length = 30 ∧
        l.PtpQueues l' x p { q.ptp with annSeq := (q.ptp.annSeq + 1) % 65536 } l.regs false false 0 0
          (ptpMsg tc 11 p q.ptp.annSeq 0 (intv 0x10) body) ∧
        (t.parent = none → beAt body 13 1 = tc.prio1 % 256 ∧ beAt body 19 8 = tc.ident.toNat ∧ beAt body 27 2 = 0) ∧
        (∀ r b, t.parent = some r → r ≠ p → (l.port r).ptp.foreign = some b →
          beAt body 13 1 = b.prio1 % 256 ∧ beAt body 19 8 = b.gm.toNat ∧ beAt body 27 2 = (b.steps + 1) % 65536)) ∧
    ((q.ptp.st ≠ 3 ∨ c.peer = true) → exec (.delayReqTransmit x p) s = .next s) ∧
    (q.ptp.st = 3 → c.peer = false → ∃ l', exec (.delayReqTransmit x p) s = .next (s.setLane x l') ∧
      l.PtpQueues l' x p { q.ptp with reqSeq := (q.ptp.reqSeq + 1) % 65536, tReq := none } l.regs true false 1 0
        (ptpMsg tc 1 p q.ptp.reqSeq 0 0x7F (zeros 10))) ∧
    ((c.role = 0 ∨ c.peer = false ∨ q.up = false) → exec (.pdelayReqTransmit x p) s = .next s) ∧
    (c.role ≠ 0 → c.peer = true → q.up = true → p < l.ports.length → ∃ l', exec (.pdelayReqTransmit x p) s = .next (s.setLane x l') ∧
      l.PtpQueues l' x p { q.ptp with reqSeq := (q.ptp.reqSeq + 1) % 65536, tReq := none } l.regs true true 1 0
        (ptpMsg tc 2 p q.ptp.reqSeq 0 0x7F (zeros 20))) ∧
    (∀ fab : Nat,
      ((q.ptp.st ≠ 3 ∨ t.locked = false) → exec (.syncTimeout x p fab) s = .next s) ∧
      (q.ptp.st = 3 → t.locked = true → exec (.syncTimeout x p fab) s = .next (s.setLane x { l with
        regs := fbump l.regs f_TIME_STEPS_SYNCLOSS
        time := { t with locked := false, inRun := 0, outRun := 0, pins := holds false t.pins } })) ∧
      (p < l.ports.length → ∃ l', exec (.announceReceiptTimeout x p fab) s = .next (s.setLane x l') ∧
        (l'.port p).ptp.foreign = none ∧ (l'.port p).ptp.seen = 0 ∧ (l'.port p).ptp.sync = none ∧ l'.time.parent ≠ some p ∧
        (∀ j, { l'.port j with ptp := (l.port j).ptp } = l.port j) ∧ { l' with ports := l.ports, regs := l.regs, time := l.time } = l ∧
        l'.time.yi = t.yi ∧ (t.parent = some p → l'.time.parent = none → l'.time.locked = false ∧ l'.time.y = t.yi) ∧
        (q.ptp.st = 3 → t.locked = true → l'.time.locked = false ∧ l'.regs = fbump l.regs f_TIME_STEPS_SYNCLOSS) ∧
        ((q.ptp.st ≠ 3 ∨ t.locked = false) → l'.regs = l.regs))) ∧
    (∀ (w fab : Nat) (falling : Bool),
      let k := l.wmk x w
      let pin := t.pins.getD w wmk0
      let now := l.clk fab
      let i := k.start + (now - k.start) / (k.period * 65536) * (k.period * 65536)
      (w < 4 → k.mode = 2 → 0 < k.period → k.start ≤ now → (∀ r, pin.ref = some r → r < i) →
        (k.unlocked = 1 ∧ t.locked = false → exec (.waymarkOutputRise x w fab) s =
          .next (s.setLane x { l with time := { t with pins := t.pins.set w ⟨false, true, some i, none⟩ } })) ∧
        ((k.unlocked ≠ 1 ∨ t.locked = true) → exec (.waymarkOutputRise x w fab) s =
          .next (s.setLane x { l with time := { t with pins := t.pins.set w ⟨true, false, some i, some (i + k.width * 65536)⟩ } }))) ∧
      ((4 ≤ w ∨ k.mode ≠ 2 ∨ k.period = 0 ∨ now < k.start ∨ ∃ r, pin.ref = some r ∧ i ≤ r) → exec (.waymarkOutputRise x w fab) s = .next s) ∧
      (∀ e, pin.fallAt = some e → e ≤ now → exec (.waymarkOutputFall x w fab) s =
        .next (s.setLane x { l with time := { t with pins := t.pins.set w { pin with level := false, fallAt := none } } })) ∧
      ((∀ e, pin.fallAt = some e → now < e) → exec (.waymarkOutputFall x w fab) s = .next s) ∧
      ((4 ≤ w ∨ k.mode ≠ 1) → exec (.waymarkEvent x w fab falling) s = .next s) ∧
      (w < 4 → k.mode = 1 →
        let u := { t with pins := t.pins.set w { pin with level := !falling } }
        let wanted := k.edge.testBit (if falling = true then 1 else 0)
        (wanted = false → exec (.waymarkEvent x w fab falling) s = .next (s.setLane x { l with time := u })) ∧
        (wanted = true → t.fifo.length < 64 → exec (.waymarkEvent x w fab falling) s =
          .next (s.setLane x { l with time := { u with fifo := t.fifo ++ [(w, falling, atRes now 32768)] } })) ∧
        (wanted = true → 64 ≤ t.fifo.length → exec (.waymarkEvent x w fab falling) s =
          .next (s.setLane x { l with time := u, regs := fset l.regs f_TIME_EVHDR_EVOVF 1 }))))

/-- R122: the effective mode of a solve. MODE is 0 AUTO, 1 FIXED, 2 WARM. -/
def Obligations.SolvesTakeTheModeOfTheirSize : Prop :=
  ∀ (s : State) (x : LaneId) (i : Instr),
    let l := s.lane x
    let z := l.solver
    let ready : Prop := z.mstate = 3 ∧ z.commitAt.toNat + 40000 ≤ l.slot.toNat
    l.working = true → l.step1 = true → z.asked = false → z.cancel = false → l.word.arbFault = false → z.run = none → l.dict.nat 0x6000 1 = 1 →
    (z.active = true ∨ ready) →
    (i = .solveNow x ∨ i = .snapshotSlot x ∧ z.now = 0 ∧ l.slot.toNat % (l.dict.nat 0x6000 3 * 20000) = l.dict.nat 0x6000 4) →
    ∃ l' r, exec i s = .next (s.setLane x l') ∧ l'.solver.run = some r ∧ r.snap = l.slot ∧
      ∀ g, (ready → g = l.pendingObj) → (¬ ready → g = l.activeObj) →
        let m := (subsEnabled g).length
        (l.dict.nat 0x6000 2 = 0 → (r.warmMode = true ↔ 512 < m) ∧ r.forced = false) ∧
        (l.dict.nat 0x6000 2 = 1 → (m ≤ 2048 → r.warmMode = false ∧ r.forced = false) ∧ (2048 < m → r.warmMode = true ∧ r.forced = true)) ∧
        (l.dict.nat 0x6000 2 = 2 → r.warmMode = true ∧ r.forced = false)

/-- R103 to R108, R121, R123, R127, R131 to R138, R145 to R148: the model load and the solver. Reuse of the factor follows log
entry 126.
A command whose event cannot occur changes nothing: assumption 1. -/
def Obligations.SolvesRunFromSnapshotToPublication : Prop :=
  ∀ (s : State) (x : LaneId),
    let l := s.lane x
    let z := l.solver
    let o := l.solv
    let modelEv (m code : Nat) : List (Nat × Bytes × Nat) := l.evq ++ [(4, leBytes 1 m ++ leBytes 1 code, 0xFF)]
    let only (l' : Lane) (z' : Solver) (o' : SolvOwn) : Prop := l'.solver = z' ∧ l'.solv = o' ∧
      { l' with solver := z, solv := o, regs := l.regs, evq := l.evq, irq := l.irq } = l
    let quiet (l' : Lane) : Prop := l'.evq = l.evq ∧ l'.irq = l.irq
    let ended (l' : Lane) (r : SolveRun) (status : Nat) : Prop := (∃ z' o', only l' z' o') ∧
      l'.solver.run = none ∧ l'.solver.last.status = status ∧ l'.solver.last.round = 0 ∧ l'.solver.last.num = r.num ∧
      l'.solver.last.result = z.last.result ∧ l'.solver.warm = z.warm ∧ l'.solv.phase = (if o.catchup = true then 7 else 0) ∧
      l'.evq = l.evq ++ [(5, leBytes 1 status ++ leBytes 1 0 ++ leBytes 2 r.num, 0xFF)] ∧ l'.irq = l.irq ||| 2 ^ 6
    let usable : Prop := z.active = true ∨ z.mstate = 3 ∧ z.commitAt.toNat + 40000 ≤ l.slot.toNat
    let begun (l' : Lane) : Prop := ∃ r, l'.solver.run = some r ∧ l'.solver.num = r.num ∧ l'.solver.active = true ∧ l'.solver.asked = true ∧
      r.num = (z.num + 1) % 65536 ∧ r.snap = l.slot ∧ r.verdict = none ∧ r.pub = none ∧ r.tGrid = l.img.dtNsTotal ∧ r.inp.grid = l.img.dtNsTotal ∧
      l'.solver.last = z.last ∧ l'.solver.warm = z.warm ∧
      (z.mstate ≠ 3 → l'.solver.mver = z.mver ∧ l'.solver.held = z.held ∧ l'.evq = l.evq ∧ l'.irq = l.irq ∧
        let d := l.dict.nat 0x6000 5
        r.stop = l.slot + BitVec.ofNat 64 (d * 20 - 101) ∧ r.dead = l.slot + BitVec.ofNat 64 (d * 20) ∧
        r.inp.vals = z.held.foldl (fun v p => mset objDflt v p.1 p.2) l.dict.vals ∧
        ((r.warmMode = false ∨ z.warm = none ∨ l.dict.nat 0x6000 0xB ≤ 1) → r.refact = true) ∧
        (∀ w, r.warmMode = true → z.warm = some w → l.warmNet = some w → w.age + 1 < l.dict.nat 0x6000 0xB → r.refact = false)) ∧
      (z.mstate = 3 → z.commitAt.toNat + 40000 ≤ l.slot.toNat → l'.solver.mstate = 0 ∧ l'.solver.held = [] ∧ l'.solver.mver = z.mver + 1) ∧
      (l.copy.factor = true → l'.solv.nocomp = true ∧ (o.catchup = false → l'.solv.phase = 0)) ∧
      (l.copy.factor = false → l'.solv.nocomp = false ∧ l'.solv.work = some r.inp.net ∧ l'.solv.store.recs = []) ∧
      l'.solv.last = 0 ∧ l'.solv.fact = false ∧ l'.solv.fetching = false ∧ l'.solv.retired = o.retired
    (z.mstate = 1 → modelCheck l.pendingObj = none →
      exec (.modelCheckDone x) s = .next (s.setLane x { l with solver := { z with mstate := 2 }, evq := modelEv 2 z.refCode })) ∧
    (∀ f, z.mstate = 1 → modelCheck l.pendingObj = some f → ∃ l', exec (.modelCheckDone x) s = .next (s.setLane x l') ∧
      l'.solver = { z with mstate := 4, held := [], refCode := f.code, refIndex := f.index, refSub := f.sub, refRow := f.row } ∧
      l'.regs = fset l.regs f_ASM_STAT_REFUSED 1 ∧
      (∀ p ∈ z.held, (∀ p' ∈ z.held, p'.1 = p.1 → p' = p) → mget objDflt l'.dict.vals p.1 = p.2) ∧
      (∀ k, (∀ p ∈ z.held, p.1 ≠ k) → mget objDflt l'.dict.vals k = mget objDflt l.dict.vals k) ∧
      { l' with solver := z, regs := l.regs, dict := l.dict, nvm := l.nvm, evq := l.evq, irq := l.irq } = l) ∧
    (z.mstate ≠ 1 → exec (.modelCheckDone x) s = .next s) ∧
    (z.mstate = 2 →
      let net := netProb l.pendingObj [] 0
      let split := factorSplit (factorSizes net.graph net.ordering) l.wsBytes
      exec (.modelOrderDone x) s = .next (s.setLane x { l with
        solver := { z with mstate := 3, pendOrder := net.ordering, factorBytes := split.1, factorHeld := split.2 }
        evq := modelEv 3 z.refCode })) ∧
    (z.mstate ≠ 2 → exec (.modelOrderDone x) s = .next s) ∧
    ((z.mstate = 1 ∨ z.mstate = 2) → z.commitAt.toNat + 40000 ≤ l.slot.toNat → exec (.modelLoadLate x) s = .next (s.setLane x { l with
      regs := fset (fset l.regs f_ASM_STAT_LATE 1) f_LCTL_RJSTAT_UCECAUSE 2
      rep := { l.rep with uce := if l.rep.uce = 0 then 2 else l.rep.uce } })) ∧
    ((z.mstate ≠ 1 ∧ z.mstate ≠ 2 ∨ l.slot.toNat < z.commitAt.toNat + 40000) → exec (.modelLoadLate x) s = .next s) ∧
    ((l.working = false ∨ l.step1 = true ∧ z.asked = true) → exec (.snapshotSlot x) s = .next s ∧
      exec (.solveNow x) s = .next (s.setLane x { l with solver := { z with now := z.now + 1 } })) ∧
    (l.working = true → l.step1 = true → z.asked = false → z.cancel = false → z.now = 0 →
      let due : Prop := l.periodic = true
      let taken : Lane := { l with solver := { z with asked := true } }
      let skipped : Lane := { taken with regs := fbump l.regs f_SOLV_CNT_SKIPCNT }
      ((¬ due ∨ l.word.arbFault = true ∨ z.run.isSome = true ∧ ¬ usable) → exec (.snapshotSlot x) s = .next (s.setLane x taken)) ∧
      (due → l.word.arbFault = false → z.run.isSome = true → usable → exec (.snapshotSlot x) s = .next (s.setLane x skipped)) ∧
      (due → l.word.arbFault = false → z.run = none → ¬ usable →
        exec (.snapshotSlot x) s = .next (s.setLane x { taken with solver := { taken.solver with last := { z.last with status := 8 } } })) ∧
      (due → l.word.arbFault = false → z.run = none → usable → ∃ l', exec (.snapshotSlot x) s = .next (s.setLane x l') ∧ begun l') ∧
      ((l.word.arbFault = true ∨ ¬ due ∧ (z.run.isSome = true ∨ l.dict.nat 0x6000 1 ≠ 1 ∨ ¬ usable)) →
        exec (.solveNow x) s = .next (s.setLane x skipped)) ∧
      (l.word.arbFault = false → z.run = none → l.dict.nat 0x6000 1 = 1 → usable →
        ∃ l', exec (.solveNow x) s = .next (s.setLane x l') ∧ begun l')) ∧
    (z.run = none → exec (.solveCancel x) s = .next (s.setLane x { l with solver := { z with cancel := false } })) ∧
    (∀ r, z.run = some r → ∃ l', exec (.solveCancel x) s = .next (s.setLane x l') ∧ ended l' r 9 ∧ l'.solver.cancel = false ∧ l'.regs = l.regs) ∧
    ((z.run = none ∨ o.phase ≠ 1 ∨ o.catchup = true) → exec (.hamperComplete x) s = .next s) ∧
    ((z.run = none ∨ o.phase ≠ 2) → exec (.factorisationDone x) s = .next s) ∧
    ((z.run = none ∨ o.phase ≠ 3) → exec (.couplingRoundDone x) s = .next s) ∧
    (∀ r, z.run = some r →
      (o.phase = 1 → o.catchup = false →
        let b := { o with built := o.built + 1, store := o.store.addHamper r.inp r.hampers o.built }
        (o.built + 1 < r.hampers.length → exec (.hamperComplete x) s = .next (s.setLane x { l with solv := b })) ∧
        (r.hampers.length ≤ o.built + 1 → min r.cap r.budget ≠ 0 → ∃ l', exec (.hamperComplete x) s = .next (s.setLane x l') ∧ quiet l' ∧
          only l' z { b with phase := if r.refact = true then 2 else 3 } ∧
          fget l'.regs f_ASM_TIME_LASTTIME = (Config.asmTime x r.snap).toNat % 2 ^ 16) ∧
        (r.hampers.length ≤ o.built + 1 → min r.cap r.budget = 0 → ∃ l', exec (.hamperComplete x) s = .next (s.setLane x l') ∧ quiet l' ∧
          only l' z { b with phase := 4, done := true })) ∧
      (o.phase = 2 → min r.cap r.budget ≠ 0 → exec (.factorisationDone x) s =
        .next (s.setLane x { l with solv := { o with fact := true, newFac := some (r.inp.net.factorise z.order), phase := 3 } })) ∧
      (o.phase = 3 → min r.cap r.budget ≤ o.last → exec (.couplingRoundDone x) s = .next s) ∧
      (o.phase = 3 → o.last < min r.cap r.budget →
        let st := r.inp.round (l.factorInUse r) r.refact o.cur
        let b := { o with last := o.last + 1, cur := st, old := o.cur, store := o.store.retarget r.inp st }
        (st.bad = true → ∃ l', exec (.couplingRoundDone x) s = .next (s.setLane x l') ∧ ended l' r 7 ∧ l'.regs = l.regs) ∧
        (st.bad = false → r.endsAt (o.last + 1) st = false → exec (.couplingRoundDone x) s = .next (s.setLane x { l with solv := b })) ∧
        (st.bad = false → r.endsAt (o.last + 1) st = true → ∃ l', exec (.couplingRoundDone x) s = .next (s.setLane x l') ∧ quiet l' ∧
          only l' z { b with done := true, phase := 4 } ∧
          fget l'.regs f_SOLV_TIMING_LASTTIME = min (2 ^ 16 - 1) ((l.slot - r.snap).toNat / 2))) ∧
      (r.stop ≠ l.slot → exec (.stopSlot x) s = .next s) ∧
      (r.stop = l.slot → l.word.arbFault = false → (o.phase = 0 ∨ 4 ≤ o.phase ∧ o.phase ≠ 7) → exec (.stopSlot x) s = .next s) ∧
      (r.stop = l.slot → l.word.arbFault = false → (1 ≤ o.phase ∧ o.phase ≤ 3 ∨ o.phase = 7 ∧ o.nocomp = false) →
        ∃ l', exec (.stopSlot x) s = .next (s.setLane x l') ∧ quiet l' ∧
          only l' z { o with phase := if o.phase = 7 then 7 else 5 } ∧ fget l'.regs f_SOLV_STAT_STOPPED = 1) ∧
      (r.stop = l.slot → l.word.arbFault = true → ∃ l', exec (.stopSlot x) s = .next (s.setLane x l') ∧ ended l' r 6) ∧
      (∀ v k src, o.fetching = true → r.verdict = some (v, k, src) → src ≠ x → s.arb.mask.has src = true → (s.lane src).hasRound r.num k = true →
        exec (.roundFetchDone x) s = .next (s.setLane x { l with solv := { o with
          fetching := false, fetched := true, last := k, phase := 4, cur := (s.lane src).solv.cur, old := o.cur } })) ∧
      ((o.fetching = false ∨ r.verdict = none) → exec (.roundFetchDone x) s = .next s)) ∧
    (z.run = none → exec (.stopSlot x) s = .next s ∧ exec (.roundFetchDone x) s = .next s) ∧
    (∀ t : Nat,
      ((48 ≤ t ∨ o.retired.getLsbD t = true) → exec (.tileRetire x t) s = .next s) ∧
      (t < 48 → o.retired.getLsbD t = false → ∃ l', exec (.tileRetire x t) s = .next (s.setLane x l') ∧
        l'.solv = { o with retired := l'.solv.retired } ∧ (∀ k, k < 48 → l'.solv.retired.getLsbD k = (o.retired.getLsbD k || decide (k = t))) ∧
        { l' with solv := o, regs := l.regs, rep := l.rep } = l ∧ fget l'.regs f_SOLV_STAT_TILERET = 1 ∧
        (l.dict.nat 0x6000 0xC ≤ l'.solv.tiles → l'.rep = l.rep) ∧
        (l'.solv.tiles < l.dict.nat 0x6000 0xC → l'.rep.uce = (if l.rep.uce = 0 then 4 else l.rep.uce) ∧ fget l'.regs f_LCTL_RJSTAT_UCECAUSE = 4))) ∧
    (l.working = false → exec (.publication x) s = .next s) ∧
    (l.working = true → l.step1 = true → l.step3 = true → l.step4 = true → z.asked = true → exec (.publication x) s = .next s) ∧
    (l.working = true → l.step1 = true → l.step3 = true → l.step4 = false → z.asked = true →
      (z.last.pubSlot ≠ l.slot →
        ((∀ r, z.run = some r → r.pub ≠ some l.slot) → exec (.publication x) s = .next (s.setLane x { l with step4 := true })) ∧
        (∀ r v k src, z.run = some r → r.verdict = some (v, k, src) → r.pub = some l.slot → (o.last ≠ k ∨ o.fetching = true ∨ o.missed = true) →
          exec (.publication x) s = .next (s.setLane x { l with
            step4 := true
            solver := { z with run := none }
            solv := { o with phase := 0, fetching := false }
            regs := fset l.regs f_LCTL_RJSTAT_UCECAUSE 3
            rep := { l.rep with uce := if l.rep.uce = 0 then 3 else l.rep.uce } }))) ∧
      (∀ r v k src, z.run = some r → r.verdict = some (v, k, src) → r.pub = some l.slot → o.last = k → o.fetching = false → o.missed = false →
        ∃ l' w, exec (.publication x) s = .next (s.setLane x l') ∧ l'.step4 = true ∧ l'.solver.run = none ∧ l'.solver.num = z.num ∧ l'.solver.warm = some w ∧
          l'.solver.last.num = r.num ∧ l'.solver.last.round = k ∧ l'.solver.last.status = r.status k o.cur ∧ l'.solver.last.snap = r.snap ∧
          l'.solver.last.pubSlot = l.slot ∧ l'.solver.last.pubCold = r.coldSub ∧ l'.solver.last.result = some (r.inp.publish o.cur) ∧
          w.tGrid = r.tGrid ∧ w.netSig = z.netSig ∧ w.st = o.cur ∧ (r.refact = true → w.age = 0 ∧ w.factor = r.num) ∧
          (∀ w0, r.refact = false → z.warm = some w0 → w.age = w0.age + 1 ∧ w.factor = w0.factor ∧ w.fac = w0.fac) ∧
          l'.solv = { o with
            phase := if r.refact = true ∧ o.fact = false then 7 else 0
            catchup := o.catchup || (r.refact && !o.fact)
            factor := if r.refact = true ∧ o.fact = true then o.newFac else o.factor
            newFac := none } ∧
          (r.inp.subs = [] →
            l'.evq = l.evq ++ [(5, leBytes 1 (r.status k o.cur) ++ leBytes 1 k ++ leBytes 2 r.num, 0xFF)] ∧ l'.irq = l.irq ||| 2 ^ 6 ∧
            { l' with step4 := false, solver := z, solv := o, evq := l.evq, irq := l.irq, lseq := l.lseq, regs := l.regs } = l))) ∧
    (o.catchup = false → exec (.factorCatchupDone x) s = .next s) ∧
    (o.catchup = true → o.phase ≠ 7 → exec (.factorCatchupDone x) s =
      .next (s.setLane x { l with solv := { o with catchup := false, factor := z.warm.map (·.fac) } })) ∧
    (o.catchup = true → o.phase = 7 → ∀ n, (n = match z.run with
        | none => 0
        | some r => if o.nocomp = true then 0 else if r.stop.toNat ≤ l.slot.toNat then 5 else 1) →
      exec (.factorCatchupDone x) s =
        .next (s.setLane x { l with solv := { o with catchup := false, factor := z.warm.map (·.fac), phase := n } }))
end

