-- ==== Sys2Proof/Laws/State.lean ====
section
/-! SUPPORT. What each update of the device's state leaves in each of its fields: one lemma per field and update. -/
namespace Sys2Proof.Machine

/-! ### One lane -/

@[simp] theorem State.lane_setLane_same (s : State) (x : LaneId) (l : Lane) : (s.setLane x l).lane x = l := by cases x <;> rfl
theorem State.lane_setLane_other (s : State) {x y : LaneId} (l : Lane) (h : y ≠ x) : (s.setLane x l).lane y = s.lane y := by
  cases x <;> cases y <;> first | rfl | exact absurd rfl h
@[simp] theorem State.setLane_lane (s : State) (x : LaneId) : s.setLane x (s.lane x) = s := by cases x <;> rfl
@[simp] theorem State.setLane_setLane (s : State) (x : LaneId) (l m : Lane) : (s.setLane x l).setLane x m = s.setLane x m := by
  cases x <;> rfl
@[simp] theorem State.lane_onLane_same (s : State) (x : LaneId) (f : Lane → Lane) : (s.onLane x f).lane x = f (s.lane x) := by
  cases x <;> rfl
theorem State.lane_onLane_other (s : State) {x y : LaneId} (f : Lane → Lane) (h : y ≠ x) : (s.onLane x f).lane y = s.lane y :=
  s.lane_setLane_other _ h

@[simp] theorem State.setLane_arb (s : State) (x : LaneId) (l : Lane) : (s.setLane x l).arb = s.arb := by cases x <;> rfl
@[simp] theorem State.onLane_arb (s : State) (x : LaneId) (f : Lane → Lane) : (s.onLane x f).arb = s.arb := by cases x <;> rfl
@[simp] theorem State.setLane_isl (s : State) (x : LaneId) (l : Lane) : (s.setLane x l).isl = s.isl := by cases x <;> rfl
@[simp] theorem State.onLane_isl (s : State) (x : LaneId) (f : Lane → Lane) : (s.onLane x f).isl = s.isl := by cases x <;> rfl
@[simp] theorem State.setLane_bak (s : State) (x : LaneId) (l : Lane) : (s.setLane x l).bak = s.bak := by cases x <;> rfl
@[simp] theorem State.onLane_bak (s : State) (x : LaneId) (f : Lane → Lane) : (s.onLane x f).bak = s.bak := by cases x <;> rfl
@[simp] theorem State.setLane_free (s : State) (x : LaneId) (l : Lane) : (s.setLane x l).free = s.free := by cases x <;> rfl
@[simp] theorem State.onLane_free (s : State) (x : LaneId) (f : Lane → Lane) : (s.onLane x f).free = s.free := by cases x <;> rfl
@[simp] theorem State.setLane_pending (s : State) (x : LaneId) (l : Lane) : (s.setLane x l).pending = s.pending := by cases x <;> rfl
@[simp] theorem State.onLane_pending (s : State) (x : LaneId) (f : Lane → Lane) : (s.onLane x f).pending = s.pending := by cases x <;> rfl

/-! ### Every lane -/

@[simp] theorem State.lane_onLanes (s : State) (f : LaneId → Lane → Lane) (x : LaneId) : (s.onLanes f).lane x = f x (s.lane x) := by
  cases x <;> rfl
@[simp] theorem State.lane_onSet (s : State) (m : LaneSet) (f : LaneId → Lane → Lane) (x : LaneId) :
    (s.onSet m f).lane x = if m.has x then f x (s.lane x) else s.lane x := by cases x <;> rfl
@[simp] theorem State.onLanes_arb (s : State) (f : LaneId → Lane → Lane) : (s.onLanes f).arb = s.arb := rfl
@[simp] theorem State.onSet_arb (s : State) (m : LaneSet) (f : LaneId → Lane → Lane) : (s.onSet m f).arb = s.arb := rfl
@[simp] theorem State.onLanes_isl (s : State) (f : LaneId → Lane → Lane) : (s.onLanes f).isl = s.isl := rfl
@[simp] theorem State.onSet_isl (s : State) (m : LaneSet) (f : LaneId → Lane → Lane) : (s.onSet m f).isl = s.isl := rfl
@[simp] theorem State.onLanes_bak (s : State) (f : LaneId → Lane → Lane) : (s.onLanes f).bak = s.bak := rfl
@[simp] theorem State.onSet_bak (s : State) (m : LaneSet) (f : LaneId → Lane → Lane) : (s.onSet m f).bak = s.bak := rfl
@[simp] theorem State.onLanes_free (s : State) (f : LaneId → Lane → Lane) : (s.onLanes f).free = s.free := rfl
@[simp] theorem State.onSet_free (s : State) (m : LaneSet) (f : LaneId → Lane → Lane) : (s.onSet m f).free = s.free := rfl
@[simp] theorem State.onLanes_pending (s : State) (f : LaneId → Lane → Lane) : (s.onLanes f).pending = s.pending := rfl
@[simp] theorem State.onSet_pending (s : State) (m : LaneSet) (f : LaneId → Lane → Lane) : (s.onSet m f).pending = s.pending := rfl

/-! ### The arbiter and the island -/

@[simp] theorem State.onArb_arb (s : State) (f : Arb → Arb) : (s.onArb f).arb = f s.arb := rfl
@[simp] theorem State.lane_onArb (s : State) (f : Arb → Arb) (x : LaneId) : (s.onArb f).lane x = s.lane x := by cases x <;> rfl
@[simp] theorem State.onArb_a (s : State) (f : Arb → Arb) : (s.onArb f).a = s.a := rfl
@[simp] theorem State.onArb_b (s : State) (f : Arb → Arb) : (s.onArb f).b = s.b := rfl
@[simp] theorem State.onArb_c (s : State) (f : Arb → Arb) : (s.onArb f).c = s.c := rfl
@[simp] theorem State.onArb_isl (s : State) (f : Arb → Arb) : (s.onArb f).isl = s.isl := rfl
@[simp] theorem State.onArb_bak (s : State) (f : Arb → Arb) : (s.onArb f).bak = s.bak := rfl
@[simp] theorem State.onArb_free (s : State) (f : Arb → Arb) : (s.onArb f).free = s.free := rfl
@[simp] theorem State.onArb_pending (s : State) (f : Arb → Arb) : (s.onArb f).pending = s.pending := rfl
@[simp] theorem State.onIsl_isl (s : State) (f : Island → Island) : (s.onIsl f).isl = f s.isl := by
  simp only [State.onIsl]; split <;> rfl
@[simp] theorem State.onIsl_a (s : State) (f : Island → Island) : (s.onIsl f).a = s.a := by
  simp only [State.onIsl]; split <;> rfl
@[simp] theorem State.onIsl_b (s : State) (f : Island → Island) : (s.onIsl f).b = s.b := by
  simp only [State.onIsl]; split <;> rfl
@[simp] theorem State.onIsl_c (s : State) (f : Island → Island) : (s.onIsl f).c = s.c := by
  simp only [State.onIsl]; split <;> rfl
@[simp] theorem State.onIsl_bak (s : State) (f : Island → Island) : (s.onIsl f).bak = s.bak := by
  simp only [State.onIsl]; split <;> rfl
@[simp] theorem State.onIsl_free (s : State) (f : Island → Island) : (s.onIsl f).free = s.free := by
  simp only [State.onIsl]; split <;> rfl
@[simp] theorem State.onIsl_pending (s : State) (f : Island → Island) : (s.onIsl f).pending = s.pending := by
  simp only [State.onIsl]; split <;> rfl
@[simp] theorem State.lane_onIsl (s : State) (f : Island → Island) (x : LaneId) : (s.onIsl f).lane x = s.lane x := by
  cases x <;> simp [State.lane]

end Sys2Proof.Machine
end

