-- ==== Sys2Proof/Laws/Queue.lean ====
section
/-! SUPPORT. No operation of the device changes the queue of commands that wait. -/
namespace Sys2Proof.Machine

/-- A fold whose every step keeps a measure keeps it. -/
theorem foldl_keeps {α β γ : Type} (f : α → β → α) (g : α → γ) (h : ∀ a b, g (f a b) = g a) (l : List β) (a : α) :
    g (l.foldl f a) = g a := by
  induction l generalizing a with
  | nil => rfl
  | cons b l ih => rw [List.foldl_cons, ih, h]

@[simp] theorem State.emptyMask_pending (s : State) : s.emptyMask.pending = s.pending := by simp [State.emptyMask]
@[simp] theorem State.excludeLanes_pending (s : State) (xs) : (s.excludeLanes xs).pending = s.pending := by
  simp only [State.excludeLanes]; split
  · rfl
  · split <;> simp
@[simp] theorem State.failJoin_pending (s : State) (x n) : (s.failJoin x n).pending = s.pending := by simp [State.failJoin]
@[simp] theorem State.handoverCheck_pending (s : State) : s.handoverCheck.pending = s.pending := by
  simp only [State.handoverCheck]; split
  · rfl
  · split <;> simp
@[simp] theorem State.closeSlot_pending (s : State) : s.closeSlot.pending = s.pending := by simp [State.closeSlot]
@[simp] theorem State.manualExclude_pending (s : State) (x) : (s.manualExclude x).pending = s.pending := by
  simp only [State.manualExclude]; split <;> simp
@[simp] theorem State.manualRejoin_pending (s : State) (x) : (s.manualRejoin x).pending = s.pending := by
  simp only [State.manualRejoin]; split <;> simp
@[simp] theorem State.laneCommand_pending (s : State) (c) : (s.laneCommand c).pending = s.pending := by
  simp only [State.laneCommand]
  repeat' split
  all_goals simp
@[simp] theorem State.hostCommands_pending (s : State) : s.hostCommands.pending = s.pending := by
  simp only [State.hostCommands, State.onArb_pending]
  apply foldl_keeps (g := State.pending); intro a b; simp
@[simp] theorem State.dictCommands_pending (s : State) : s.dictCommands.pending = s.pending := by
  simp only [State.dictCommands]
  repeat' split
  all_goals simp
@[simp] theorem State.restarts_pending (s : State) : s.restarts.pending = s.pending := by
  unfold State.restarts
  apply foldl_keeps (g := State.pending)
  intro a b; split <;> simp
@[simp] theorem State.copySettings_pending (s : State) : s.copySettings.pending = s.pending := by
  simp only [State.copySettings]; split <;> simp
@[simp] theorem State.collectIrqs_pending (s : State) : s.collectIrqs.pending = s.pending := by simp [State.collectIrqs]
@[simp] theorem State.donorFails_pending (s : State) (d) : (s.donorFails d).pending = s.pending := by simp [State.donorFails]
@[simp] theorem State.replaceDonor_pending (s : State) : s.replaceDonor.pending = s.pending := by
  simp only [State.replaceDonor]; split <;> simp
@[simp] theorem State.sendStrobe_pending (s : State) (w) : (s.sendStrobe w).pending = s.pending := by
  simp only [State.sendStrobe]; split <;> simp
@[simp] theorem State.issueStrobe_pending (s : State) : s.issueStrobe.pending = s.pending := by
  simp only [State.issueStrobe]; split <;> simp [State.faultStrobe, State.beforeStrobe, State.newSlot]
@[simp] theorem State.takeSlot_pending (s : State) : s.takeSlot.pending = s.pending := by
  simp only [State.takeSlot]; split <;> simp
@[simp] theorem State.takeSlots_pending (s : State) : s.takeSlots.pending = s.pending := by
  simp only [State.takeSlots]; split
  · apply foldl_keeps (g := State.pending); intro a b; simp
  · rfl
@[simp] theorem State.backupRefresh_pending (s : State) : s.backupRefresh.pending = s.pending := by
  simp only [State.backupRefresh]; split <;> simp
@[simp] theorem State.tamperClear_pending (s : State) : s.tamperClear.pending = s.pending := by simp [State.tamperClear]
@[simp] theorem State.tamperAcks_pending (s : State) : s.tamperAcks.pending = s.pending := by
  simp only [State.tamperAcks]; split <;> simp
@[simp] theorem State.arbWrite_pending (s : State) (k w be) : (s.arbWrite k w be).pending = s.pending := by
  simp only [State.arbWrite]
  repeat' split
  all_goals simp
@[simp] theorem State.writeH2dProd_pending (s : State) (w be) : (s.writeH2dProd w be).pending = s.pending := by
  simp only [State.writeH2dProd]
  repeat' split
  all_goals simp
@[simp] theorem State.writePlace_pending (s : State) (p be w) : (s.writePlace p be w).pending = s.pending := by
  simp only [State.writePlace]
  repeat' split
  all_goals simp
@[simp] theorem State.writeUnits_pending (s : State) (r v) : (s.writeUnits r v).pending = s.pending := by
  simp only [State.writeUnits]
  have h : ∀ (f : LaneId → Lane → Lane) (xs : List LaneId) (s : State),
      (xs.foldl (fun s x => s.onLane x (f x)) s).pending = s.pending := fun f xs s =>
    foldl_keeps _ State.pending (fun a b => by simp) xs s
  split
  · simp
  · split <;> simp [h (fun _ => _)]
@[simp] theorem State.writeOuter_pending (s : State) (r) : (s.writeOuter r).pending = s.pending := by
  have h : ∀ (xs : List ((Place × BitVec 4) × Word)) (s : State),
      (xs.foldl (fun s w => s.writePlace w.1.1 w.1.2 w.2) s).pending = s.pending := fun xs s =>
    foldl_keeps _ State.pending (fun a b => by simp) xs s
  simp only [State.writeOuter]; split <;> simp [h]
@[simp] theorem State.writeReq_pending (s : State) (r) : (s.writeReq r).pending = s.pending := by
  simp only [State.writeReq]; split <;> simp
@[simp] theorem State.settleStall_pending (s : State) : s.settleStall.pending = s.pending := by
  simp only [State.settleStall]
  repeat' split
  all_goals simp
@[simp] theorem State.stallLimit_pending (s : State) : s.stallLimit.pending = s.pending := by
  simp only [State.stallLimit]; split <;> simp
@[simp] theorem State.voteReads_pending (s : State) (fab ps xs) : (s.voteReads fab ps xs).1.pending = s.pending := by
  induction xs generalizing s with
  | nil => rfl
  | cons x xs ih =>
    simp only [State.voteReads]; rw [ih]
    simp only [State.voteRead]; split <;> simp
@[simp] theorem State.votedRead_pending (s : State) (a fab ps) : (s.votedRead a fab ps).1.pending = s.pending := by
  simp only [State.votedRead]; split <;> simp
@[simp] theorem State.laneRead_pending (s : State) (x fab ps) : (s.laneRead x fab ps).1.pending = s.pending := by
  simp only [State.laneRead]; split <;> simp
@[simp] theorem State.arbClears_pending (s : State) (k be) : (s.arbClears k be).pending = s.pending := by
  simp only [State.arbClears]
  repeat' split
  all_goals simp
@[simp] theorem State.safeRead_pending (s : State) (k be) : (s.safeRead k be).1.pending = s.pending := by
  simp only [State.safeRead]
  repeat' split
  all_goals simp
@[simp] theorem State.readPlace_pending (s : State) (p be) : (s.readPlace p be).1.pending = s.pending := by
  simp only [State.readPlace]; split <;> simp
@[simp] theorem State.readPlaces_pending (s : State) (ps) : (s.readPlaces ps).1.pending = s.pending := by
  induction ps generalizing s with
  | nil => rfl
  | cons p ps ih => simp only [State.readPlaces]; rw [ih]; simp
@[simp] theorem State.readReq_pending (s : State) (r fab) : (s.readReq r fab).1.pending = s.pending := by
  simp only [State.readReq]
  repeat' split
  all_goals simp
@[simp] theorem State.serve_pending (s : State) (r w fab) : (s.serve r w fab).pending = s.pending := by
  simp only [State.serve]
  repeat' split
  all_goals simp
@[simp] theorem State.serveOrWait_pending (s : State) (q) : (s.serveOrWait q).pending = s.pending := by
  simp only [State.serveOrWait]; split <;> simp
@[simp] theorem State.serveDelayed_pending (s : State) : s.serveDelayed.pending = s.pending := by
  simp only [State.serveDelayed]; split
  · rfl
  · rw [foldl_keeps _ State.pending (fun a b => by simp)]; simp
@[simp] theorem State.hostSettle_pending (s : State) : s.hostSettle.pending = s.pending := by simp [State.hostSettle]
@[simp] theorem State.hostAccess_pending (s : State) (r w fab) : (s.hostAccess r w fab).pending = s.pending := by
  simp only [State.hostAccess]
  repeat' split
  all_goals simp
@[simp] theorem State.evaluate_pending (s : State) (f xs r) : (s.evaluate f xs r).pending = s.pending := by simp [State.evaluate]
@[simp] theorem State.lockEvent_pending (s : State) : s.lockEvent.pending = s.pending := by simp [State.lockEvent]
@[simp] theorem State.tripLane_pending (s : State) (x n) : (s.tripLane x n).pending = s.pending := by
  simp only [State.tripLane]; split <;> simp
@[simp] theorem State.resetLane_pending (s : State) (x f) : (s.resetLane x f).pending = s.pending := by simp [State.resetLane]
@[simp] theorem State.joinPhase_pending (s : State) (p f) : (s.joinPhase p f).pending = s.pending := by simp [State.joinPhase]
@[simp] theorem State.handover_pending (s : State) (h) : (s.handover h).pending = s.pending := by
  simp only [State.handover]; split <;> simp
@[simp] theorem State.judgeSolve_pending (s : State) : s.judgeSolve.pending = s.pending := by
  simp only [State.judgeSolve]
  repeat' split
  all_goals simp
@[simp] theorem State.islandLost_pending (s : State) : s.islandLost.pending = s.pending := by
  simp only [State.islandLost]; split <;> simp
@[simp] theorem State.poll_pending (s : State) : s.poll.pending = s.pending := by simp [State.poll]
@[simp] theorem State.rollVerdict_pending (s : State) : s.rollVerdict.pending = s.pending := by
  simp only [State.rollVerdict]; split <;> simp
@[simp] theorem State.snapDecide_pending (s : State) : s.snapDecide.pending = s.pending := by
  simp only [State.snapDecide]
  repeat' split
  all_goals simp
@[simp] theorem State.oscEdge_pending (s : State) (x a b c) : (s.oscEdge x a b c).pending = s.pending := by
  simp only [State.oscEdge]; split <;> simp
@[simp] theorem State.tamperEvent_pending (s : State) : s.tamperEvent.pending = s.pending := by
  simp only [State.tamperEvent]; split <;> simp
@[simp] theorem State.releaseArbiter_pending (s : State) : s.releaseArbiter.pending = s.pending := by simp [State.releaseArbiter]

end Sys2Proof.Machine
end

