-- ==== Sys2Proof/Laws/Lane.lean ====
section
/-! SUPPORT. How a command on one lane answers, and what the basic updates of a lane leave. -/
namespace Sys2Proof.Machine

/-- A command on one lane answers with that lane replaced. -/
theorem laneNext_eq (s : State) (x : LaneId) (f : Lane → Lane) : laneNext s x f = .next (s.setLane x (f (s.lane x))) := rfl
/-- Under its condition the event happens. -/
theorem laneWhen_pos {s : State} {x : LaneId} {p : Lane → Bool} {f : Lane → Lane} (h : p (s.lane x) = true) :
    laneWhen s x p f = .next (s.setLane x (f (s.lane x))) := by
  simp [laneWhen, laneNext, State.onLane, h]
/-- Without its condition nothing occurs. -/
theorem laneWhen_neg {s : State} {x : LaneId} {p : Lane → Bool} {f : Lane → Lane} (h : p (s.lane x) = false) :
    laneWhen s x p f = .next s := by
  simp [laneWhen, laneNext, State.onLane, h]
/-- A change that leaves the lane as it is leaves the device as it is. -/
theorem laneNext_same {s : State} {x : LaneId} {f : Lane → Lane} (h : f (s.lane x) = s.lane x) : laneNext s x f = .next s := by
  rw [laneNext_eq, h, State.setLane_lane]

/-! ### Basic updates -/

@[simp] theorem Lane.reg_regs (l : Lane) (f) : (l.reg f).regs = f l.regs := rfl
theorem Lane.reg_frame (l : Lane) (f) : { l.reg f with regs := l.regs } = l := rfl
theorem Lane.ku_frame (l : Lane) (f) : { l.ku f with key := l.key } = l := rfl
theorem Lane.seq_frame (l : Lane) (f) : { l.seq f with lseq := l.lseq } = l := rfl
theorem Lane.slv_frame (l : Lane) (f) : { l.slv f with solver := l.solver } = l := rfl
theorem Lane.sown_frame (l : Lane) (f) : { l.sown f with solv := l.solv } = l := rfl
theorem Lane.event_frame (l : Lane) (c d) : { l.event c d with evq := l.evq } = l := rfl
theorem Lane.cause_frame (l : Lane) (v) : { l.cause v with irq := l.irq } = l := rfl
theorem Lane.journal_frame (l : Lane) (c x i b d) : { l.journal c x i b d with dict := l.dict } = l := rfl
theorem Lane.modSess_frame (l : Lane) (n f) : { l.modSess n f with dict := l.dict } = l := rfl
theorem Lane.modPort_frame (l : Lane) (p f) : { l.modPort p f with ports := l.ports } = l := rfl
theorem Lane.raiseUce_frame (l : Lane) (n) : { l.raiseUce n with regs := l.regs, rep := l.rep } = l := rfl
theorem Lane.setRj_frame (l : Lane) (n) : { l.setRj n with regs := l.regs } = l := rfl

end Sys2Proof.Machine
end

