-- ==== Sys2Proof/Laws/Maps.lean ====
section
/-! SUPPORT. What reading after writing a sparse map, a byte memory, a register or a field of a register answers, and that
every write keeps the canonical form. -/
namespace Sys2Proof.Machine

variable {α : Type}

/-! ### Sparse maps -/

theorem mget_mdel_same (d : Nat → α) (m : NMap α) (k : Nat) : mget d (mdel m k) k = d k := by
  induction m with
  | nil => rfl
  | cons p m ih =>
    unfold mdel at *
    by_cases h : p.1 = k
    · simpa [List.filter, h] using ih
    · have h' : (p.1 != k) = true := by simp [h]
      simp only [List.filter, h', mget]
      rw [if_neg (fun e => h e.symm)]; exact ih

theorem mget_mdel_other (d : Nat → α) (m : NMap α) {k j : Nat} (h : j ≠ k) : mget d (mdel m k) j = mget d m j := by
  induction m with
  | nil => rfl
  | cons p m ih =>
    unfold mdel at *
    by_cases e : p.1 = k
    · simp only [List.filter, e, bne_self_eq_false, mget]
      rw [if_neg h]; exact ih
    · have e' : (p.1 != k) = true := by simp [e]
      simp only [List.filter, e', mget]; rw [ih]

theorem mget_mput_same (d : Nat → α) (m : NMap α) (k : Nat) (x : α) : mget d (mput m k x) k = x := by
  induction m with
  | nil => simp [mput, mget]
  | cons p m ih =>
    obtain ⟨k', v⟩ := p
    simp only [mput]
    split
    · simp [mget]
    · split
      · simp [mget]
      · rename_i h; simp only [mget]; rw [if_neg h]; exact ih

theorem mget_mput_other (d : Nat → α) (m : NMap α) {k j : Nat} (x : α) (h : j ≠ k) :
    mget d (mput m k x) j = mget d m j := by
  induction m with
  | nil => simp [mput, mget, h]
  | cons p m ih =>
    obtain ⟨k', v⟩ := p
    simp only [mput]
    split
    · simp [mget, h]
    · split
      · rename_i e; subst e; simp [mget, h]
      · simp only [mget]; rw [ih]

/-- A key reads as what was written. -/
@[simp] theorem mget_mset_same [DecidableEq α] (d : Nat → α) (m : NMap α) (k : Nat) (x : α) :
    mget d (mset d m k x) k = x := by
  unfold mset; split
  · rename_i h; rw [mget_mdel_same, h]
  · exact mget_mput_same d m k x

/-- Every other key reads as before. -/
theorem mget_mset_other [DecidableEq α] (d : Nat → α) (m : NMap α) {k j : Nat} (x : α) (h : j ≠ k) :
    mget d (mset d m k x) j = mget d m j := by
  unfold mset; split
  · exact mget_mdel_other d m h
  · exact mget_mput_other d m x h

/-! ### The canonical form -/

theorem mwfFrom_mono [DecidableEq α] (d : Nat → α) {a b : Nat} (m : NMap α) (h : a ≤ b)
    (w : mwfFrom d (some b) m = true) : mwfFrom d (some a) m = true := by
  cases m with
  | nil => rfl
  | cons p m =>
    simp only [mwfFrom, Bool.and_eq_true, decide_eq_true_eq] at *
    exact ⟨⟨by omega, w.1.2⟩, w.2⟩

theorem mwfFrom_none [DecidableEq α] (d : Nat → α) {b : Nat} (m : NMap α)
    (w : mwfFrom d (some b) m = true) : mwfFrom d none m = true := by
  cases m with
  | nil => rfl
  | cons p m => simp only [mwfFrom, Bool.and_eq_true, decide_eq_true_eq] at *; exact ⟨⟨trivial, w.1.2⟩, w.2⟩

theorem mwfFrom_mdel [DecidableEq α] (d : Nat → α) (m : NMap α) (k : Nat) :
    ∀ lo, mwfFrom d lo m = true → mwfFrom d lo (mdel m k) = true := by
  induction m with
  | nil => intro lo h; exact h
  | cons p m ih =>
    intro lo h
    obtain ⟨k', v⟩ := p
    simp only [mwfFrom, Bool.and_eq_true] at h
    have t := ih _ h.2
    unfold mdel at *
    by_cases e : k' = k
    · simp only [List.filter, e, bne_self_eq_false]
      cases lo with
      | none => exact mwfFrom_none d _ t
      | some b => exact mwfFrom_mono d _ (by have := h.1.1; simp at this; omega) t
    · have e' : (k' != k) = true := by simp [e]
      simp only [List.filter, e', mwfFrom, Bool.and_eq_true]
      exact ⟨h.1, t⟩

theorem mwfFrom_mput [DecidableEq α] (d : Nat → α) (m : NMap α) (k : Nat) (x : α) (hx : x ≠ d k) :
    ∀ lo, (∀ b, lo = some b → b < k) → mwfFrom d lo m = true → mwfFrom d lo (mput m k x) = true := by
  induction m with
  | nil =>
    intro lo hl _
    cases lo with
    | none => simp [mput, mwfFrom, hx]
    | some b => simp [mput, mwfFrom, hx, hl b rfl]
  | cons p m ih =>
    intro lo hl h
    obtain ⟨k', v⟩ := p
    have h' := h
    simp only [mwfFrom, Bool.and_eq_true] at h
    simp only [mput]
    split
    · rename_i lt
      simp only [mwfFrom, Bool.and_eq_true]
      refine ⟨⟨?_, by simp [hx]⟩, ⟨by simp [lt], h.1.2⟩, h.2⟩
      cases lo with
      | none => rfl
      | some b => simp [hl b rfl]
    · split
      · rename_i e; subst e
        simp only [mwfFrom, Bool.and_eq_true]
        exact ⟨⟨h.1.1, by simp [hx]⟩, h.2⟩
      · rename_i h1 h2
        simp only [mwfFrom, Bool.and_eq_true]
        exact ⟨h.1, ih _ (by intro b e; cases e; omega) h.2⟩

/-- A write keeps the canonical form. -/
theorem mwf_mset [DecidableEq α] (d : Nat → α) (m : NMap α) (k : Nat) (x : α) (h : mwf d m = true) :
    mwf d (mset d m k x) = true := by
  unfold mwf mset at *; split
  · exact mwfFrom_mdel d m k _ h
  · rename_i hx; exact mwfFrom_mput d m k x hx _ (by intro b e; cases e) h

/-! ### Byte memories -/

@[simp] theorem bget_bset_same (m : NMap Byte) (a : Nat) (b : Byte) : bget (bset m a b) a = b := mget_mset_same _ m a b
theorem bget_bset_other (m : NMap Byte) {a c : Nat} (b : Byte) (h : c ≠ a) : bget (bset m a b) c = bget m c :=
  mget_mset_other _ m b h
theorem mwf_bset (m : NMap Byte) (a : Nat) (b : Byte) (h : mwf (fun _ => (0 : Byte)) m = true) :
    mwf (fun _ => (0 : Byte)) (bset m a b) = true := mwf_mset _ m a b h
theorem mwf_bsetN (bs : Bytes) : ∀ (m : NMap Byte) (a : Nat), mwf (fun _ => (0 : Byte)) m = true →
    mwf (fun _ => (0 : Byte)) (bsetN m a bs) = true := by
  induction bs with
  | nil => intro m a h; exact h
  | cons b bs ih => intro m a h; exact ih _ _ (mwf_bset m a b h)
/-- A byte outside a string written to a byte memory reads as before. -/
theorem bget_bsetN_other (bs : Bytes) : ∀ (m : NMap Byte) (a c : Nat), (c < a ∨ a + bs.length ≤ c) →
    bget (bsetN m a bs) c = bget m c := by
  induction bs with
  | nil => intros; rfl
  | cons b bs ih =>
    intro m a c h
    simp only [List.length_cons] at h
    rw [bsetN, ih _ _ _ (by omega), bget_bset_other _ _ (by omega)]
/-- A byte of a string written to a byte memory reads as written. -/
theorem bget_bsetN_in (bs : Bytes) : ∀ (m : NMap Byte) (a i : Nat) (h : i < bs.length),
    bget (bsetN m a bs) (a + i) = bs[i] := by
  induction bs with
  | nil => intro m a i h; simp at h
  | cons b bs ih =>
    intro m a i h
    cases i with
    | zero => rw [bsetN, bget_bsetN_other _ _ _ _ (by omega)]; simp
    | succ i =>
      rw [bsetN, show a + (i + 1) = (a + 1) + i by omega, ih _ _ _ (by simpa using h)]; simp

/-! ### Registers and fields -/

@[simp] theorem rget_rset_same (m : RegMap) (k : Nat) (w : Word) : rget (rset m k w) k = w := mget_mset_same _ m k w
theorem rget_rset_other (m : RegMap) {k j : Nat} (w : Word) (h : j ≠ k) : rget (rset m k w) j = rget m j :=
  mget_mset_other _ m w h
theorem mwf_rset (m : RegMap) (k : Nat) (w : Word) (h : mwf regRst m = true) : mwf regRst (rset m k w) = true :=
  mwf_mset _ m k w h

/-- A field write leaves every other register as it was. -/
theorem rget_fset_other (m : RegMap) (f : Fld) (v : Nat) {k : Nat} (h : k ≠ f.key) : rget (fset m f v) k = rget m k :=
  rget_rset_other m _ h
theorem fget_fset_other (m : RegMap) (f g : Fld) (v : Nat) (h : g.key ≠ f.key) : fget (fset m f v) g = fget m g := by
  unfold fget; rw [rget_fset_other m f v h]

theorem bitMask_bit (hi lo i : Nat) (h : lo ≤ hi) (hh : hi < 32) :
    (bitMask hi lo).getLsbD i = decide (lo ≤ i ∧ i ≤ hi) := by
  have e : 2 ^ (hi + 1) - 2 ^ lo = (2 ^ (hi + 1 - lo) - 1) * 2 ^ lo := by
    rw [Nat.sub_mul, ← Nat.pow_add]; congr 1; · congr 1; omega
    · omega
  unfold bitMask
  rw [BitVec.getLsbD_ofNat, e, Nat.testBit_mul_two_pow, Nat.testBit_two_pow_sub_one]
  by_cases h1 : lo ≤ i <;> by_cases h2 : i ≤ hi <;> simp [h1, h2] <;> omega

theorem putBits_bit (w : Word) (hi lo v i : Nat) (h : lo ≤ hi) (hh : hi < 32) :
    (putBits w hi lo v).getLsbD i =
      if lo ≤ i ∧ i ≤ hi then v.testBit (i - lo) else w.getLsbD i := by
  unfold putBits
  rw [BitVec.getLsbD_or, BitVec.getLsbD_and, BitVec.getLsbD_not, bitMask_bit hi lo i h hh, BitVec.getLsbD_ofNat,
    Nat.testBit_mul_two_pow, Nat.testBit_mod_two_pow]
  by_cases h3 : i < 32
  · by_cases h1 : lo ≤ i <;> by_cases h2 : i ≤ hi <;> simp [h1, h2, h3] <;> omega
  · have : w.getLsbD i = false := BitVec.getLsbD_of_ge _ _ (by omega)
    simp [h3, this]; omega

/-- Bits of a field as numbers. -/
theorem field_bit (w : Word) (hi lo i : Nat) :
    (w.toNat / 2 ^ lo % 2 ^ (hi + 1 - lo)).testBit i = (decide (i < hi + 1 - lo) && w.getLsbD (lo + i)) := by
  rw [Nat.testBit_mod_two_pow, Nat.testBit_div_two_pow, Nat.add_comm i lo]; rfl

/-- A field reads as the value written, modulo its width. -/
theorem fget_fset_same (m : RegMap) (f : Fld) (v : Nat) (h : f.lo ≤ f.hi) (hh : f.hi < 32) :
    fget (fset m f v) f = v % 2 ^ (f.hi + 1 - f.lo) := by
  unfold fget fset
  rw [rget_rset_same]
  apply Nat.eq_of_testBit_eq
  intro i
  rw [field_bit, putBits_bit _ _ _ _ _ h hh, Nat.testBit_mod_two_pow]
  by_cases hi : i < f.hi + 1 - f.lo
  · rw [if_pos (by omega)]; simp
  · simp [hi]

/-- A field write leaves every field apart from it as it was. -/
theorem fget_fset_apart (m : RegMap) (f g : Fld) (v : Nat) (h : f.lo ≤ f.hi) (hh : f.hi < 32)
    (apart : g.hi < f.lo ∨ f.hi < g.lo) : fget (fset m f v) g = fget m g := by
  by_cases hk : g.key = f.key
  · unfold fget fset
    rw [hk, rget_rset_same]
    apply Nat.eq_of_testBit_eq
    intro i
    rw [field_bit, field_bit, putBits_bit _ _ _ _ _ h hh]
    by_cases hi : i < g.hi + 1 - g.lo
    · rw [if_neg (by omega)]
    · simp [hi]
  · exact fget_fset_other m f g v hk

theorem mwf_fset (m : RegMap) (f : Fld) (v : Nat) (h : mwf regRst m = true) : mwf regRst (fset m f v) = true :=
  mwf_rset m _ _ h

end Sys2Proof.Machine
end

