-- ==== Sys2Proof/Laws/Outputs.lean ====
section
/-! SUPPORT. What each operation does to the voted outputs and to what guards them: the arbiter's reset, its fault state and
the start gate. -/
namespace Sys2Proof.Machine

/-! ### The gate bit of the arbiter's registers -/

/-- GATEOPEN. -/
def gateBit (m : RegMap) : Nat := fget m f_ARB_RSTCAUSE_GATEOPEN
theorem gateBit_fset (m : RegMap) (f : Fld) (v : Nat) (h : f.key ≠ 0xF00600) : gateBit (fset m f v) = gateBit m :=
  fget_fset_other m f _ v (fun e => h e.symm)
theorem gateBit_fbool (m : RegMap) (f : Fld) (v : Bool) (h : f.key ≠ 0xF00600) : gateBit (fbool m f v) = gateBit m := gateBit_fset m f _ h
theorem gateBit_fflag (m : RegMap) (f : Fld) (h : f.key ≠ 0xF00600) : gateBit (fflag m f) = gateBit m := gateBit_fset m f _ h
theorem gateBit_fbump (m : RegMap) (f : Fld) (n) (h : f.key ≠ 0xF00600) : gateBit (fbump m f n) = gateBit m := gateBit_fset m f _ h
theorem gateBit_fsat (m : RegMap) (f : Fld) (n) (h : f.key ≠ 0xF00600) : gateBit (fsat m f n) = gateBit m := gateBit_fset m f _ h
theorem gateBit_forBits (m : RegMap) (f : Fld) (n) (h : f.key ≠ 0xF00600) : gateBit (forBits m f n) = gateBit m := gateBit_fset m f _ h
theorem gateBit_rset (m : RegMap) (k : Nat) (w : Word) (h : k ≠ 0xF00600) : gateBit (rset m k w) = gateBit m := by
  unfold gateBit fget; rw [rget_rset_other _ _ (show f_ARB_RSTCAUSE_GATEOPEN.key ≠ k from fun e => h e.symm)]

/-! ### What the guard of the voted outputs depends on -/

/-- The voted outputs, with what guards them. -/
structure OutView where
  vdo : BitVec 64
  vao : List (BitVec 16)
  vpo : List VpoQ
  inReset : Bool
  fault : Bool
  gate : Nat
/-- The view of an arbiter. -/
def Arb.outv (a : Arb) : OutView := ⟨a.vdo, a.vao, a.vpo, a.inReset, a.fault, gateBit a.regs⟩
@[simp] theorem Arb.modJudge_outv (a : Arb) (x f) : (a.modJudge x f).outv = a.outv := rfl
@[simp] theorem Arb.signal_outv (a : Arb) (v) : (a.signal v).outv = a.outv := by
  unfold Arb.signal; split <;> rfl
theorem Arb.outv_regs (a : Arb) (m : RegMap) (h : gateBit m = gateBit a.regs) : ({ a with regs := m } : Arb).outv = a.outv := by
  unfold Arb.outv; rw [h]
@[simp] theorem Arb.irq_outv (a : Arb) (v) : (a.irq v).outv = a.outv := by
  unfold Arb.irq; split
  · rfl
  · dsimp only; split
    · rw [Arb.signal_outv, Arb.outv_regs]; exact gateBit_forBits _ _ _ (by decide)
    · rw [Arb.outv_regs]; exact gateBit_forBits _ _ _ (by decide)
theorem Arb.reg_outv (a : Arb) (f) (h : gateBit (f a.regs) = gateBit a.regs) : (a.reg f).outv = a.outv := Arb.outv_regs a _ h
theorem laneFld_key (f : Fld) (x : LaneId) (h : f.key + 8 < 0xF00600 ∨ 0xF00600 < f.key) : (laneFld f x).key ≠ 0xF00600 := by
  cases x <;> simp [laneFld, Fld.at, LaneId.num] <;> omega
@[simp] theorem Arb.exclude_outv (a : Arb) (x c) : (a.exclude x c).outv = a.outv := by
  unfold Arb.exclude; dsimp only
  rw [Arb.reg_outv]; · rfl
  rw [gateBit_fbump _ _ _ (by decide), gateBit_fset _ _ _ (laneFld_key _ _ (by decide))]
@[simp] theorem Arb.irqs_outv (a : Arb) (n) : (a.irqs n).outv = a.outv := by
  unfold Arb.irqs; apply foldl_keeps (g := Arb.outv); intro a b; split <;> simp

/-- The guard, in terms of the view. -/
def OutView.Guarded (v : OutView) : Prop :=
  (v.inReset = true ∨ v.fault = true ∨ v.gate ≠ 1) → v.vdo = 0 ∧ v.vao = List.replicate 16 0 ∧ ∀ q ∈ v.vpo, q.queue = [] ∧ q.high = false
/-- The guard of an arbiter's outputs, in terms of the view. -/
def Arb.Grd (a : Arb) : Prop := a.outv.Guarded
theorem Arb.Grd.of_eq {a b : Arb} (h : a.Grd) (e : b.outv = a.outv) : b.Grd := by unfold Arb.Grd; rw [e]; exact h
theorem Arb.guarded_default {a : Arb} (h1 : a.vdo = 0) (h2 : a.vao = List.replicate 16 0) (h3 : a.vpo = List.replicate 16 vpoQ0) : a.Grd := by
  intro _; refine ⟨h1, h2, ?_⟩
  intro q hq; simp only [Arb.outv, h3] at hq
  rw [List.mem_replicate] at hq; rw [hq.2]; exact ⟨rfl, rfl⟩
theorem Arb.irq_guarded {a : Arb} (v) (h : a.Grd) : (a.irq v).Grd := h.of_eq (by simp)

/-! ### Operations -/

@[simp] theorem State.emptyMask_guarded (s : State) : s.emptyMask.arb.Grd := by
  simp only [State.emptyMask, State.onArb_arb]
  apply Arb.irq_guarded
  split
  · apply Arb.irq_guarded; exact Arb.guarded_default rfl rfl rfl
  · exact Arb.guarded_default rfl rfl rfl
theorem State.excludeLanes_guarded (s : State) (xs) (h : s.arb.Grd) : (s.excludeLanes xs).arb.Grd := by
  simp only [State.excludeLanes]; split
  · exact h
  · split
    · simp
    · simp only [State.onArb_arb]
      apply h.of_eq; apply foldl_keeps (g := Arb.outv); intro a b; simp
@[simp] theorem State.failJoin_outv (s : State) (x n) : (s.failJoin x n).arb.outv = s.arb.outv := by
  simp only [State.failJoin, State.onLane_arb, State.onArb_arb]
  refine Eq.trans (b := (s.arb.reg fun m => fset (fset (fbump m f_ARB_JOIN_FAILS) f_ARB_JOIN_PHASE 0) f_ARB_JOIN_PROGRESS 0).outv) rfl ?_
  apply Arb.reg_outv
  rw [gateBit_fset _ _ _ (by decide), gateBit_fset _ _ _ (by decide), gateBit_fbump _ _ _ (by decide)]
@[simp] theorem Arb.startHold_outv (a : Arb) : a.startHold.outv = a.outv := by
  unfold Arb.startHold; split
  · rfl
  · dsimp only; rw [foldl_keeps (g := Arb.outv)]; · rfl
    intro a b; simp
theorem Arb.drive_guarded (a : Arb) (k v) (_h : a.Grd) (g : gateBit a.regs = 1) (r : a.inReset = false) (f : a.fault = false) :
    (a.drive k v).Grd := by
  intro c; exfalso
  unfold Arb.drive at c; dsimp only at c
  revert c
  split <;> (try split) <;> simp [Arb.outv, g, r, f]
theorem Arb.drive_same (a : Arb) (k v) : (a.drive k v).inReset = a.inReset ∧ (a.drive k v).fault = a.fault ∧ (a.drive k v).regs = a.regs := by
  unfold Arb.drive; dsimp only; split <;> (try split) <;> simp
theorem Arb.gateOpen_iff (a : Arb) : a.gateOpen = true ↔ gateBit a.regs = 1 := by
  simp [Arb.gateOpen, gateBit]
theorem Arb.pass_guarded (a : Arb) (k v) (h : a.Grd) (r : a.runs = true) : (a.pass k v).Grd := by
  simp only [Arb.runs, Bool.and_eq_true, Bool.not_eq_true'] at r
  unfold Arb.pass; dsimp only
  have h' : ({ a with out := { a.out with passed := (k, v) :: a.out.passed.filter fun p => !(p.1 == k) } } : Arb).Grd := h.of_eq rfl
  split
  · rename_i c
    simp only [Bool.and_eq_true] at c
    exact Arb.drive_guarded _ _ _ h' ((Arb.gateOpen_iff _).1 c.1) r.1 r.2
  · exact h'
theorem Arb.vote_guarded (a : Arb) (k v o) (h : a.Grd) (r : a.runs = true) : (a.vote k v o).Grd := by
  have p := Arb.pass_guarded a k v h r
  have q : a.startHold.Grd := h.of_eq (by simp)
  have t : (a.reg fun m => fflag m f_ARB_OSTAT_THIRDWAIT).Grd := h.of_eq (Arb.reg_outv _ _ (gateBit_fflag _ _ (by decide)))
  unfold Arb.vote
  repeat' split
  all_goals assumption
theorem Arb.takeFrame_guarded (a : Arb) (x f) (h : a.Grd) : (a.takeFrame x f).Grd := by
  have t : (a.reg fun m => fflag m f_ARB_OSTAT_LATEFRAME).Grd := h.of_eq (Arb.reg_outv _ _ (gateBit_fflag _ _ (by decide)))
  unfold Arb.takeFrame
  split
  · exact h
  · rename_i c
    split
    · exact t
    · dsimp only; split
      · exact h.of_eq rfl
      · refine Arb.vote_guarded _ _ _ _ (h.of_eq rfl) ?_
        show a.runs = true
        by_contra e; simp [e] at c
@[simp] theorem Arb.noteDisagree_outv (a : Arb) (x) : (a.noteDisagree x).outv = a.outv := by
  unfold Arb.noteDisagree; dsimp only
  rw [Arb.reg_outv]; · rfl
  rw [gateBit_fbump _ _ _ (laneFld_key _ _ (by decide))]
@[simp] theorem Arb.enter_outv (a : Arb) (x) : (a.enter x).outv = a.outv := by
  unfold Arb.enter; dsimp only
  rw [Arb.reg_outv]; · rfl
  rw [gateBit_fset _ _ _ (by decide), gateBit_fset _ _ _ (by decide), gateBit_fbump _ _ _ (by decide)]
@[simp] theorem State.handoverCheck_outv (s : State) : s.handoverCheck.arb.outv = s.arb.outv := by
  unfold State.handoverCheck; dsimp only
  split
  · rfl
  · split
    · simp
    · rw [State.failJoin_outv]
      exact Arb.reg_outv _ _ (gateBit_fset _ _ _ (laneFld_key _ _ (by decide)))
@[simp] theorem Arb.noteBad_outv (a : Arb) : a.noteBad.outv = a.outv := by
  have h : (a.bad.foldl Arb.noteDisagree a).outv = a.outv := foldl_keeps _ Arb.outv (fun a b => by simp) _ _
  unfold Arb.noteBad; dsimp only; split
  · rw [Arb.reg_outv _ _ (gateBit_fbump _ _ _ (by decide)), h]
  · exact h
@[simp] theorem Arb.holdAtClose_outv (a : Arb) : a.holdAtClose.outv = a.outv := by
  unfold Arb.holdAtClose; dsimp only; split
  · split
    · exact a.startHold_outv
    · exact a.startHold_outv
  · split <;> rfl
@[simp] theorem Arb.countBad_outv (a : Arb) (l) : (a.countBad l).outv = a.outv := by
  unfold Arb.countBad; exact foldl_keeps _ Arb.outv (fun a b => by simp) _ _
theorem State.closeSlot_guarded (s : State) (h : s.arb.Grd) : s.closeSlot.arb.Grd := by
  unfold State.closeSlot
  apply State.excludeLanes_guarded
  refine Arb.Grd.of_eq (a := s.arb) h ?_
  show (State.handoverCheck _).arb.outv = _
  rw [State.handoverCheck_outv]; simp
theorem Arb.openGate_guarded (a : Arb) (r : a.runs = true) : a.openGate.Grd := by
  simp only [Arb.runs, Bool.and_eq_true, Bool.not_eq_true'] at r
  unfold Arb.openGate; dsimp only
  apply Arb.irq_guarded
  have key : ∀ b : Arb, b.inReset = false → b.fault = false → gateBit b.regs = 1 → b.Grd := by
    intro b h1 h2 h3 c; simp [Arb.outv, h1, h2, h3] at c
  have gate : gateBit (fsat (fbool a.regs f_ARB_RSTCAUSE_GATEOPEN true) f_ARB_RSTCAUSE_GATETIME (a.ticks / 200)) = 1 := by
    unfold gateBit fsat fbool
    rw [fget_fset_apart _ _ _ _ (by decide) (by decide) (by decide), fget_fset_same _ _ _ (by decide) (by decide)]; rfl
  split
  · exact key _ r.1 r.2 gate
  · have := foldl_keeps (fun (a : Arb) (p : Nat × Word) => a.drive p.1 p.2) (fun a => (a.inReset, a.fault, a.regs))
      (by intro a b; have := a.drive_same b.1 b.2; simp [this])
      (a.reg fun m => fsat (fbool m f_ARB_RSTCAUSE_GATEOPEN true) f_ARB_RSTCAUSE_GATETIME (a.ticks / 200)).out.passed.reverse
      (a.reg fun m => fsat (fbool m f_ARB_RSTCAUSE_GATEOPEN true) f_ARB_RSTCAUSE_GATETIME (a.ticks / 200))
    simp only [Prod.mk.injEq] at this
    apply key
    · rw [this.1]; exact r.1
    · rw [this.2.1]; exact r.2
    · rw [this.2.2]; exact gate
theorem State.manualExclude_guarded (s : State) (x) (h : s.arb.Grd) : (s.manualExclude x).arb.Grd := by
  unfold State.manualExclude; split
  · exact h.of_eq (Arb.reg_outv _ _ (gateBit_fbool _ _ _ (by decide)))
  · exact State.excludeLanes_guarded _ _ (h.of_eq (Arb.reg_outv _ _ (gateBit_fbool _ _ _ (by decide))))
@[simp] theorem State.manualRejoin_outv (s : State) (x) : (s.manualRejoin x).arb.outv = s.arb.outv := by
  unfold State.manualRejoin; split
  · exact Arb.reg_outv _ _ (gateBit_fbool _ _ _ (by decide))
  · exact Arb.reg_outv _ _ (gateBit_fbool _ _ _ (by decide))
theorem State.dictCommands_guarded (s : State) (h : s.arb.Grd) : s.dictCommands.arb.Grd := by
  unfold State.dictCommands; split
  · exact h
  · dsimp only
    have h1 : ∀ o : Option LaneId, (match o with | some y => s.manualExclude y | none => s).arb.Grd := by
      intro o; cases o with
      | none => exact h
      | some y => exact State.manualExclude_guarded _ _ h
    have h2 : ∀ (s : State), s.arb.Grd → ∀ o : Option LaneId, (match o with | some y => s.manualRejoin y | none => s).arb.Grd := by
      intro s h o; cases o with
      | none => exact h
      | some y => exact h.of_eq (by simp)
    split
    · exact h2 _ (h1 _) _
    · exact h2 _ (h1 _) _
@[simp] theorem State.restarts_outv (s : State) : s.restarts.arb.outv = s.arb.outv := by
  unfold State.restarts; apply foldl_keeps _ (fun s => State.arb s |>.outv); intro a b; split <;> simp
@[simp] theorem State.copySettings_outv (s : State) : s.copySettings.arb.outv = s.arb.outv := by
  unfold State.copySettings; split
  · rfl
  · exact Arb.reg_outv _ _ (by rw [gateBit_fset _ _ _ (by decide), gateBit_fset _ _ _ (by decide)])
@[simp] theorem State.collectIrqs_outv (s : State) : s.collectIrqs.arb.outv = s.arb.outv := by
  simp [State.collectIrqs]
@[simp] theorem State.donorFails_outv (s : State) (d) : (s.donorFails d).arb.outv = s.arb.outv := by
  unfold State.donorFails
  show Arb.outv { (State.onLane _ _ _).arb with regs := _, dramDone := none } = _
  rw [State.onLane_arb]
  refine (Arb.outv_regs _ _ ?_).trans rfl
  rw [gateBit_fset _ _ _ (by decide), gateBit_fset _ _ _ (by decide), gateBit_fset _ _ _ (by decide), gateBit_fbump _ _ _ (by decide)]
@[simp] theorem State.replaceDonor_outv (s : State) : s.replaceDonor.arb.outv = s.arb.outv := by
  unfold State.replaceDonor; split <;> simp
@[simp] theorem Arb.refresh_outv (a : Arb) : a.refresh.outv = a.outv := by
  unfold Arb.refresh
  refine (Arb.outv_regs _ _ ?_).trans rfl
  dsimp only
  rw [foldl_keeps (g := gateBit)]
  · rw [gateBit_fbool _ _ _ (by decide), gateBit_fset _ _ _ (by decide), gateBit_fset _ _ _ (by decide)]
  · intro m x
    rw [gateBit_fset _ _ _ (laneFld_key _ _ (by decide)), gateBit_fbool _ _ _ (laneFld_key _ _ (by decide)), gateBit_fbool _ _ _ (laneFld_key _ _ (by decide)), gateBit_fsat _ _ _ (laneFld_key _ _ (by decide)), gateBit_fsat _ _ _ (laneFld_key _ _ (by decide))]
theorem Arb.nextSlot_guarded (a : Arb) (h : a.Grd) : a.nextSlot.Grd := by
  have : ∀ b : Arb, b.vdo = a.vdo → b.vao = a.vao → b.vpo = a.vpo.map VpoQ.tick → b.inReset = a.inReset → b.fault = a.fault → b.regs = a.regs → b.Grd := by
    intro b h1 h2 h3 h4 h5 h6 c
    simp only [Arb.outv, h1, h2, h3, h4, h5, h6] at c ⊢
    obtain ⟨p, q, r⟩ := h c
    refine ⟨p, q, ?_⟩
    intro v hv
    rw [List.mem_map] at hv
    obtain ⟨w, hw, rfl⟩ := hv
    exact r w hw
  unfold Arb.nextSlot; dsimp only
  repeat' split
  all_goals first
    | (apply Arb.irq_guarded; exact this _ rfl rfl rfl rfl rfl rfl)
    | exact this _ rfl rfl rfl rfl rfl rfl
@[simp] theorem State.sendStrobe_outv (s : State) (w) : (s.sendStrobe w).arb.outv = s.arb.outv := by
  unfold State.sendStrobe; dsimp only
  rw [State.onArb_arb, Arb.refresh_outv]; split <;> rfl
theorem foldl_guarded {β : Type} (f : State → β → State) (h : ∀ s b, s.arb.Grd → (f s b).arb.Grd) (l : List β) (s : State)
    (g : s.arb.Grd) : (l.foldl f s).arb.Grd := by
  induction l generalizing s with
  | nil => exact g
  | cons b l ih => exact ih _ (h _ _ g)
theorem State.laneCommand_guarded (s : State) (c) (h : s.arb.Grd) : (s.laneCommand c).arb.Grd := by
  unfold State.laneCommand; repeat' split
  · exact State.manualExclude_guarded _ _ h
  · exact h.of_eq (Arb.reg_outv _ _ (gateBit_fbool _ _ _ (by decide)))
  · exact h.of_eq (by simp)
  · exact h.of_eq (Arb.reg_outv _ _ (gateBit_fbool _ _ _ (by decide)))
  · exact h
theorem State.hostCommands_guarded (s : State) (h : s.arb.Grd) : s.hostCommands.arb.Grd := by
  unfold State.hostCommands
  exact (foldl_guarded _ (fun s c g => State.laneCommand_guarded s c g) _ _ h).of_eq rfl
theorem State.issueStrobe_guarded (s : State) (h : s.arb.Grd) : s.issueStrobe.arb.Grd := by
  unfold State.issueStrobe; split
  · exact h.of_eq rfl
  · dsimp only [State.newSlot, State.beforeStrobe]
    refine (Arb.nextSlot_guarded _ ?_).of_eq (State.sendStrobe_outv _ _)
    exact (State.dictCommands_guarded _ (State.hostCommands_guarded s h)).of_eq (by simp)

@[simp] theorem Arb.placeMessage_outv (a : Arb) (b) : (a.placeMessage b).outv = a.outv := by
  unfold Arb.placeMessage; dsimp only; split
  · split
    · rfl
    · exact Arb.reg_outv _ _ (gateBit_fbump _ _ _ (by decide))
  · rw [Arb.irq_outv, Arb.reg_outv]; · rfl
    exact gateBit_fset _ _ _ (by decide)
@[simp] theorem Arb.placeHeld_outv (a : Arb) : a.placeHeld.outv = a.outv := by
  unfold Arb.placeHeld; rw [foldl_keeps _ Arb.outv (fun a b => by simp)]; rfl
@[simp] theorem Arb.writeD2hCons_outv (a : Arb) (w be) : (a.writeD2hCons w be).outv = a.outv := by
  unfold Arb.writeD2hCons; dsimp only; repeat' split
  · rfl
  · exact Arb.reg_outv _ _ (gateBit_fflag _ _ (by decide))
  · rw [Arb.placeHeld_outv]; exact Arb.reg_outv _ _ (gateBit_fset _ _ _ (by decide))
@[simp] theorem Arb.mailboxCopy_outv (a : Arb) (x b) : (a.mailboxCopy x b).outv = a.outv := by
  unfold Arb.mailboxCopy; dsimp only; repeat' split
  all_goals first | rfl | (rw [Arb.placeMessage_outv]; done) | (rw [Arb.placeMessage_outv]; rfl)
@[simp] theorem Arb.copyTimeout_outv (a : Arb) : a.copyTimeout.outv = a.outv := by
  unfold Arb.copyTimeout; dsimp only; repeat' split
  all_goals first | rfl | (rw [Arb.placeMessage_outv]; rfl) | (rw [Arb.irq_outv, Arb.reg_outv _ _ (gateBit_fbump _ _ _ (by decide))]; rfl)
@[simp] theorem State.takeSlot_outv (s : State) : s.takeSlot.arb.outv = s.arb.outv := by
  unfold State.takeSlot; dsimp only
  rw [State.onArb_arb, Arb.irq_outv, Arb.reg_outv _ _ (gateBit_fset _ _ _ (by decide))]
  split
  · exact Arb.reg_outv _ _ (gateBit_fflag _ _ (by decide))
  · simp
@[simp] theorem State.takeSlots_outv (s : State) : s.takeSlots.arb.outv = s.arb.outv := by
  unfold State.takeSlots; split
  · exact foldl_keeps _ (fun s => State.arb s |>.outv) (fun a b => by simp) _ _
  · rfl
@[simp] theorem State.writeH2dProd_outv (s : State) (w be) : (s.writeH2dProd w be).arb.outv = s.arb.outv := by
  unfold State.writeH2dProd; dsimp only; repeat' split
  · rfl
  · exact Arb.reg_outv _ _ (gateBit_fflag _ _ (by decide))
  · rw [State.takeSlots_outv]; exact Arb.reg_outv _ _ (gateBit_fset _ _ _ (by decide))
theorem gateBit_regMerge (m : RegMap) (k w be) : gateBit (regMerge m k w be) = gateBit m := by
  by_cases h : k = 0xF00600
  · subst h
    have e : rwMask 0xF00600 = 0 := by decide
    unfold regMerge gateBit fget
    simp only [e, f_ARB_RSTCAUSE_GATEOPEN, rget_rset_same]
    have z : (rget m 15730176 &&& ~~~((0 : Word) &&& beMask be)) ||| (w &&& ((0 : Word) &&& beMask be)) = rget m 15730176 := by
      have n : ~~~(0#32 : Word) = BitVec.allOnes 32 := by decide
      have z0 : (0 : Word) = 0#32 := rfl
      rw [z0]
      rw [BitVec.zero_and, n, BitVec.and_zero, BitVec.or_zero, BitVec.and_allOnes]
    rw [z]
  · exact gateBit_rset _ _ _ h
@[simp] theorem Arb.msixPut_outv (a : Arb) (k b) : (a.msixPut k b).outv = a.outv := rfl
theorem Arb.foldl_outv {β : Type} (f : Arb → β → Arb) (h : ∀ a b, (f a b).outv = a.outv) (l : List β) (a : Arb) : (l.foldl f a).outv = a.outv :=
  foldl_keeps f Arb.outv h l a
@[simp] theorem Arb.msixStore_outv (a : Arb) (k w) : (a.msixStore k w).outv = a.outv := by
  unfold Arb.msixStore; apply Arb.foldl_outv; intro a b; exact Arb.msixPut_outv _ _ _
theorem Arb.msi_outv (a : Arb) (l) : ({ a with msi := l } : Arb).outv = a.outv := rfl
@[simp] theorem Arb.msixWrite_outv (a : Arb) (k w) : (a.msixWrite k w).outv = a.outv := by
  unfold Arb.msixWrite
  generalize (if k % 16 = 0 then w &&& 0xFFFFFFFC else if k % 16 = 12 then w &&& 1 else w) = w
  dsimp only
  have e := Arb.msixStore_outv a k w
  generalize a.msixStore k w = b at *
  split
  · rfl
  · split
    · rw [Arb.msi_outv, Arb.msixPut_outv, e]
    · exact e
@[simp] theorem Arb.enableIrqs_outv (a : Arb) (w be) : (a.enableIrqs w be).outv = a.outv := by
  have h : ∀ (o : Nat) (a : Arb) v, (Arb.signalNew o a v).outv = a.outv := by
    intro o a v; unfold Arb.signalNew; split
    · exact Arb.signal_outv _ _
    · rfl
  unfold Arb.enableIrqs
  exact (foldl_keeps _ Arb.outv (h _) _ _).trans (Arb.outv_regs a _ (gateBit_regMerge _ _ _ _))
theorem State.backupRefresh_outv (s : State) : s.backupRefresh.arb.outv = s.arb.outv := by
  unfold State.backupRefresh; split <;> rfl
@[simp] theorem State.tamperClear_outv (s : State) : s.tamperClear.arb.outv = s.arb.outv := by
  unfold State.tamperClear; rw [State.backupRefresh_outv]; rfl
@[simp] theorem State.tamperAcks_outv (s : State) : s.tamperAcks.arb.outv = s.arb.outv := by
  unfold State.tamperAcks; split <;> simp
theorem State.arbWrite_guarded (s : State) (k w be) (h : s.arb.Grd) : (s.arbWrite k w be).arb.Grd := by
  unfold State.arbWrite; repeat' split
  · exact h.of_eq (by simp)
  · exact h
  · exact h
  · exact h.of_eq (Arb.reg_outv _ _ (gateBit_regMerge _ _ _ _))
theorem State.writePlace_guarded (s : State) (p be w) (h : s.arb.Grd) : (s.writePlace p be w).arb.Grd := by
  unfold State.writePlace; repeat' split
  · exact State.arbWrite_guarded _ _ _ _ h
  · exact h.of_eq (by simp)
  · exact h.of_eq (Arb.reg_outv _ _ (gateBit_regMerge _ _ _ _))
  · exact h
  · exact h.of_eq (by simp)
  · exact h.of_eq (by simp)
  · exact h
  · exact h
@[simp] theorem Arb.countDefault_outv (a : Arb) : a.countDefault.outv = a.outv := by
  unfold Arb.countDefault; split
  · rfl
  · exact Arb.outv_regs _ _ (by rw [gateBit_fflag _ _ (by decide), gateBit_fbump _ _ _ (by decide)])
theorem State.writeUnits_outv (s : State) (r v) : (s.writeUnits r v).arb.outv = s.arb.outv := by
  unfold State.writeUnits; dsimp only; split
  · simp
  · split
    · show Arb.outv { (List.foldl _ _ _ : State).arb with stall := _ } = _
      have := foldl_keeps (fun (s : State) x => s.onLane x fun l => l.hostWrite (v == 0) ((reqPlaces r).zip r.data)) State.arb (fun a b => by simp)
        (s.writeLanes v (reqPlaces r)) s
      rw [this]; rfl
    · have := foldl_keeps (fun (s : State) x => s.onLane x fun l => l.hostWrite (v == 0) ((reqPlaces r).zip r.data)) State.arb (fun a b => by simp)
        (s.writeLanes v (reqPlaces r)) s
      rw [this]
theorem State.writeReq_guarded (s : State) (r) (h : s.arb.Grd) : (s.writeReq r).arb.Grd := by
  unfold State.writeReq; split
  · exact h.of_eq (State.writeUnits_outv _ _ _)
  · have g := foldl_guarded (fun s (w : (Place × BitVec 4) × Word) => s.writePlace w.1.1 w.1.2 w.2)
      (fun s b g => State.writePlace_guarded _ _ _ _ g) ((reqPlaces r).zip r.data) s h
    unfold State.writeOuter; dsimp only; split
    · exact g.of_eq rfl
    · exact g
@[simp] theorem State.settleStall_outv (s : State) : s.settleStall.arb.outv = s.arb.outv := by
  unfold State.settleStall; dsimp only; repeat' split
  all_goals first | rfl | (simp only [State.onArb_arb, Arb.countDefault_outv]; rfl)
@[simp] theorem State.stallLimit_outv (s : State) : s.stallLimit.arb.outv = s.arb.outv := by
  unfold State.stallLimit; dsimp only; split
  · rfl
  · rename_i st _
    have key : ∀ m : RegMap, gateBit (st.lanes.foldl (fun m x => forBits m f_ARB_VSTAT_MISLANE (2 ^ x.num)) m) = gateBit m :=
      fun m => foldl_keeps _ gateBit (fun a b => gateBit_forBits _ _ _ (by decide)) _ _
    simp only [State.onArb_arb]
    split
    · rfl
    · split
      all_goals (try rw [Arb.countDefault_outv])
      all_goals (rw [Arb.irq_outv]; refine (Arb.reg_outv _ _ ?_).trans rfl)
      all_goals (dsimp only; split <;> (try simp only [if_true, if_false, key, Bool.false_eq_true]) <;> exact gateBit_fflag _ f_ARB_HERR_STALLTO (by decide))

theorem gateBit_mask (m : RegMap) (k : Nat) (w : Word) (hw : k = 0xF00600 → w = 0) : gateBit (rset m k (rget m k &&& ~~~w)) = gateBit m := by
  by_cases h : k = 0xF00600
  · have e := hw h; subst h
    unfold gateBit fget
    have z : rget m 15730176 &&& ~~~w = rget m 15730176 := by
      rw [e]
      have n : ~~~(0#32 : Word) = BitVec.allOnes 32 := by decide
      have z0 : (0 : Word) = 0#32 := rfl
      rw [z0, n, BitVec.and_allOnes]
    simp only [f_ARB_RSTCAUSE_GATEOPEN, rget_rset_same, z]
  · exact gateBit_rset _ _ _ h
theorem gateBit_sourceClear (fl : Bool) (m : RegMap) (k : Nat) (w : Word) : gateBit (sourceClear fl k w m) = gateBit m := by
  by_cases h : k = 0xF00600
  · subst h
    have e : (match regDesc? 0xF00600 with | none => true | some d => d.fields.all fun f => !(f.acc = .rc ∧ f.sh = true)) = true := by decide
    unfold sourceClear
    revert e
    cases regDesc? 0xF00600 with
    | none => intro _; rfl
    | some d =>
      simp only [List.all_eq_true]
      intro e
      generalize d.fields = fs at e
      induction fs generalizing m with
      | nil => rfl
      | cons f fs ih =>
        simp only [List.foldl_cons]
        have := e f (by simp)
        rw [if_neg (by simp only [Bool.not_eq_true', decide_eq_false_iff_not] at this; exact this)]
        exact ih _ (fun x hx => e x (by simp [hx]))
  · unfold sourceClear; split
    · rfl
    · apply foldl_keeps _ gateBit
      intro a b; dsimp only; split
      · split <;> exact gateBit_fset _ _ _ h
      · rfl
theorem State.arbClears_outv (s : State) (k be) : (s.arbClears k be).arb.outv = s.arb.outv := by
  have key : gateBit (sourceClear false k (rget s.arb.shadow k &&& (rcMask k &&& beMask be) &&& shMask k)
      (rset s.arb.regs k (rget s.arb.regs k &&& ~~~((rcMask k &&& beMask be) &&& ~~~(shMask k))))) = gateBit s.arb.regs := by
    rw [gateBit_sourceClear, gateBit_mask]
    intro h; subst h
    have e : rcMask 0xF00600 = 0 := by decide
    have z0 : (0 : Word) = 0#32 := rfl
    rw [e, z0, BitVec.zero_and, BitVec.zero_and]
  unfold State.arbClears; split
  · rfl
  · dsimp only; split
    · exact (Arb.outv_regs { s.arb with shadow := _ } _ key).trans rfl
    · exact (Arb.outv_regs { s.arb with shadow := _ } _ key).trans rfl
theorem State.safeRead_outv (s : State) (k be) : (s.safeRead k be).1.arb.outv = s.arb.outv := by
  unfold State.safeRead; dsimp only; repeat' split
  all_goals rfl
theorem State.readPlace_outv (s : State) (p be) : (s.readPlace p be).1.arb.outv = s.arb.outv := by
  unfold State.readPlace; split
  · exact State.arbClears_outv _ _ _
  · exact State.arbClears_outv _ _ _
  · rfl
  · exact State.safeRead_outv _ _ _
  · rfl
  · rfl
  · rfl
theorem State.readPlaces_outv (s : State) (ps) : (s.readPlaces ps).1.arb.outv = s.arb.outv := by
  induction ps generalizing s with
  | nil => rfl
  | cons p ps ih => simp only [State.readPlaces]; rw [ih]; exact State.readPlace_outv _ _ _
theorem State.laneRead_outv (s : State) (x fab ps) : (s.laneRead x fab ps).1.arb.outv = s.arb.outv := by
  unfold State.laneRead; split <;> simp
theorem State.voteReads_arb (s : State) (fab ps xs) : (s.voteReads fab ps xs).1.arb = s.arb := by
  induction xs generalizing s with
  | nil => rfl
  | cons x xs ih =>
    simp only [State.voteReads]; rw [ih]
    simp only [State.voteRead]; split <;> simp
theorem Arb.mismatch_outv (a : Arb) (n xs) : (a.mismatch n xs).outv = a.outv := by
  have key : ∀ m : RegMap, gateBit (xs.foldl (fun m (x : LaneId) => forBits m f_ARB_VSTAT_MISLANE (2 ^ x.num)) m) = gateBit m :=
    fun m => foldl_keeps _ gateBit (fun a b => gateBit_forBits _ _ _ (by decide)) _ _
  unfold Arb.mismatch; split
  · rfl
  · apply Arb.outv_regs
    rw [key, gateBit_fbump _ _ _ (by decide), gateBit_fflag _ _ (by decide)]
    split
    · exact gateBit_fset _ _ _ (by decide)
    · rfl
theorem State.votedRead_outv (s : State) (n fab ps) : (s.votedRead n fab ps).1.arb.outv = s.arb.outv := by
  unfold State.votedRead; dsimp only; split
  · rw [State.onArb_arb, Arb.countDefault_outv, State.voteReads_arb]
  · rw [State.onArb_arb, Arb.mismatch_outv, State.voteReads_arb]
theorem State.readReq_outv (s : State) (r fab) : (s.readReq r fab).1.arb.outv = s.arb.outv := by
  unfold State.readReq; dsimp only; repeat' split
  all_goals first | exact State.votedRead_outv _ _ _ _ | exact State.laneRead_outv _ _ _ _ | rfl | exact State.readPlaces_outv _ _
theorem Arb.countError_outv (a : Arb) (r w c) : (a.countError r w c).outv = a.outv := by
  have k (m : RegMap) : gateBit (if fget m f_ARB_HERR_RERR = 0 ∧ fget m f_ARB_HERR_WERR = 0 then
        fset (fset (fset (fbool (fset (fset (fset m f_ARB_HERRADDR_SPACE (reqSpace r)) f_ARB_HERRADDR_ADDR r.addr) f_ARB_HERRINFO_CAUSE c) f_ARB_HERRINFO_WRITE w) f_ARB_HERRINFO_LEN r.dws) f_ARB_HERRINFO_LASTBE (if r.dws = 1 then 0 else r.lbe.toNat)) f_ARB_HERRINFO_FIRSTBE r.fbe.toNat
      else m) = gateBit m := by
    split
    · rw [gateBit_fset _ _ _ (by decide), gateBit_fset _ _ _ (by decide), gateBit_fset _ _ _ (by decide), gateBit_fbool _ _ _ (by decide), gateBit_fset _ _ _ (by decide), gateBit_fset _ _ _ (by decide), gateBit_fset _ _ _ (by decide)]
    · rfl
  unfold Arb.countError; split
  · rfl
  · dsimp only; split
    · rw [Arb.irq_outv]; apply Arb.outv_regs; rw [gateBit_fflag _ _ (by decide), gateBit_fbump _ _ _ (by decide), k]
    · apply Arb.outv_regs; rw [gateBit_fflag _ _ (by decide), gateBit_fbump _ _ _ (by decide), k]
theorem State.serve_guarded (s : State) (r w fab) (h : s.arb.Grd) : (s.serve r w fab).arb.Grd := by
  unfold State.serve; split
  · dsimp only; split
    · exact h.of_eq (Arb.countError_outv _ _ _ _)
    · exact h.of_eq ((Arb.countError_outv _ _ _ _).trans rfl |> fun e => e)
  · split
    · exact (State.writeReq_guarded s r h).of_eq (State.settleStall_outv _)
    · exact h.of_eq (State.readReq_outv _ _ _)
theorem State.serveOrWait_guarded (s : State) (q) (h : s.arb.Grd) : (s.serveOrWait q).arb.Grd := by
  unfold State.serveOrWait; split
  · exact h.of_eq rfl
  · exact State.serve_guarded _ _ _ _ h
theorem State.serveDelayed_guarded (s : State) (h : s.arb.Grd) : s.serveDelayed.arb.Grd := by
  unfold State.serveDelayed; split
  · exact h
  · exact foldl_guarded _ (fun s b g => State.serveOrWait_guarded _ _ g) _ _ (h.of_eq rfl)
theorem State.hostSettle_guarded (s : State) (h : s.arb.Grd) : s.hostSettle.arb.Grd :=
  State.serveDelayed_guarded _ (h.of_eq (State.settleStall_outv _))
theorem State.hostAccess_guarded (s : State) (r w fab) (h : s.arb.Grd) : (s.hostAccess r w fab).arb.Grd := by
  unfold State.hostAccess; repeat' split
  · exact h
  · exact h
  · exact h.of_eq rfl
  · exact State.serveOrWait_guarded _ _ (State.hostSettle_guarded _ h)
@[simp] theorem Arb.endpointReset_outv (a : Arb) : a.endpointReset.outv = a.outv := by
  unfold Arb.endpointReset Arb.mailboxReset
  refine (Arb.outv_regs { a with mbx := { a.mbx with h2d := [], d2h := [], held := [] } } _ ?_).trans rfl
  simp only [List.foldl]
  rw [gateBit_rset _ _ _ (by decide), gateBit_rset _ _ _ (by decide), gateBit_rset _ _ _ (by decide), gateBit_rset _ _ _ (by decide)]
theorem Arb.functionReset_outv (a : Arb) : a.functionReset.outv = a.outv := by
  unfold Arb.functionReset
  refine (Arb.outv_regs a.endpointReset _ ?_).trans (Arb.endpointReset_outv a)
  simp only [List.foldl]
  rw [gateBit_rset _ _ _ (by decide), gateBit_rset _ _ _ (by decide), gateBit_rset _ _ _ (by decide), gateBit_rset _ _ _ (by decide), gateBit_rset _ _ _ (by decide), gateBit_rset _ _ _ (by decide)]
theorem State.onIsl_outv (s : State) (f) : (s.onIsl f).arb.outv = s.arb.outv := by
  unfold State.onIsl; dsimp only; split
  · exact Arb.irq_outv _ _
  · rfl
theorem State.evaluate_outv (s : State) (f xs r) : (s.evaluate f xs r).arb.outv = s.arb.outv := by
  unfold State.evaluate; dsimp only
  rw [State.onArb_arb]
  have : ∀ (a : Arb) w, (a.takeIsland w).outv = a.outv := by
    intro a w; unfold Arb.takeIsland; split <;> rfl
  rw [this, State.onIsl_outv]
theorem State.tripLane_outv (s : State) (x n) : (s.tripLane x n).arb.outv = s.arb.outv := by
  unfold State.tripLane; split <;> simp
theorem State.resetLane_outv (s : State) (x f) : (s.resetLane x f).arb.outv = s.arb.outv := by
  unfold State.resetLane Arb.dropJoiner; simp only [State.onArb_arb, State.onLane_arb]; split
  · exact (Arb.outv_regs s.arb _ (by rw [gateBit_fset _ _ _ (by decide), gateBit_fset _ _ _ (by decide)])).trans rfl
  · rfl
theorem State.joinPhase_outv (s : State) (p f) : (s.joinPhase p f).arb.outv = s.arb.outv := by
  unfold State.joinPhase; simp only [State.onArb_arb, State.onLane_arb]
  exact Arb.reg_outv _ _ (gateBit_fset _ _ _ (by decide))
theorem State.handover_outv (s : State) (h) : (s.handover h).arb.outv = s.arb.outv := by
  unfold State.handover; dsimp only; split
  · exact State.joinPhase_outv _ _ _
  · rw [State.failJoin_outv]; exact Arb.reg_outv _ _ (gateBit_fset _ _ _ (laneFld_key _ _ (by decide)))
theorem State.judgeSolve_outv (s : State) : s.judgeSolve.arb.outv = s.arb.outv := by
  unfold State.judgeSolve; dsimp only; repeat' split
  all_goals rfl
theorem Arb.grant_outv (a : Arb) : a.grant.outv = a.outv := by
  unfold Arb.grant; split
  · exact (Arb.outv_regs a _ (by rw [gateBit_fset _ _ _ (by decide), gateBit_fset _ _ _ (by decide), gateBit_fset _ _ _ (by decide), gateBit_fset _ _ _ (by decide)])).trans rfl
  · rfl
theorem State.islandLost_outv (s : State) : s.islandLost.arb.outv = s.arb.outv := by
  unfold State.islandLost; split <;> rfl
theorem Arb.window_outv (a : Arb) (b c) : ({ a with windowClosed := b, ready := c } : Arb).outv = a.outv := rfl
theorem Arb.rolling_outv (a : Arb) (b d) : ({ a with rolling := b, downLinks := d } : Arb).outv = a.outv := rfl
theorem State.poll_outv (s : State) : s.poll.arb.outv = s.arb.outv := by
  unfold State.poll; rw [State.onArb_arb, Arb.rolling_outv, Arb.foldl_outv]; intro a x; exact Arb.modJudge_outv _ _ _
theorem Arb.joinEnd_outv (a : Arb) (j d) : ({ a with joining := j, dramDone := d } : Arb).outv = a.outv := rfl
theorem Arb.regJoin_outv (a : Arb) (f j d) (h : gateBit (f a.regs) = gateBit a.regs) : ({ a.reg f with joining := j, dramDone := d } : Arb).outv = a.outv := by
  rw [Arb.joinEnd_outv, Arb.reg_outv _ _ h]
theorem Arb.takeScore_outv (a : Arb) (x) : (a.takeScore x).outv = a.outv := by
  unfold Arb.takeScore; apply Arb.reg_outv; exact gateBit_fset _ _ _ (laneFld_key _ _ (by decide))
theorem Arb.endPoll_outv (a : Arb) (x) : (a.endPoll x).outv = a.outv := by
  unfold Arb.endPoll; exact Arb.modJudge_outv _ _ _
theorem Arb.endPolls_outv (a : Arb) : a.endPolls.outv = a.outv := by
  unfold Arb.endPolls
  generalize [LaneId.A, .B, .C] = l
  rw [Arb.foldl_outv _ Arb.takeScore_outv, Arb.foldl_outv _ Arb.endPoll_outv]; rfl
theorem State.rollVerdict_guarded (s : State) (h : s.arb.Grd) : s.rollVerdict.arb.Grd := by
  have k : (s.onArb Arb.endPolls).arb.Grd := h.of_eq (Arb.endPolls_outv _)
  unfold State.rollVerdict; dsimp only
  generalize s.onArb Arb.endPolls = z at k ⊢
  have := State.excludeLanes_guarded z.judgeSolve z.arb.guilty (k.of_eq (State.judgeSolve_outv _))
  generalize z.judgeSolve.excludeLanes z.arb.guilty = y at this ⊢
  split
  · exact this
  · refine this.of_eq ?_
    rw [State.islandLost_outv, State.onArb_arb, Arb.grant_outv]
theorem State.snapDecide_guarded (s : State) (h : s.arb.Grd) : s.snapDecide.arb.Grd := by
  unfold State.snapDecide; dsimp only; repeat' split
  · exact h.of_eq rfl
  · apply State.excludeLanes_guarded; refine h.of_eq ?_
    exact (Arb.reg_outv _ _ (by rw [gateBit_fset _ _ _ (by decide), gateBit_fbump _ _ _ (by decide)])).trans rfl
  · apply State.excludeLanes_guarded; refine h.of_eq ?_
    exact (Arb.reg_outv _ _ (by rw [gateBit_fset _ _ _ (by decide), gateBit_fbump _ _ _ (by decide)])).trans rfl
theorem State.oscEdge_outv (s : State) (x a b c) : (s.oscEdge x a b c).arb.outv = s.arb.outv := by
  unfold State.oscEdge; dsimp only; split
  · rw [State.backupRefresh_outv]; simp
  · simp
theorem State.tamperEvent_outv (s : State) : s.tamperEvent.arb.outv = s.arb.outv := by
  unfold State.tamperEvent; dsimp only; split
  · exact Arb.irq_outv _ _
  · rfl
theorem Arb.held_guarded (a : Arb) : a.held.Grd := Arb.guarded_default rfl rfl rfl

/-- The guard of Safety in terms of the view. -/
theorem Arb.guarded_iff (a : Arb) : a.Guarded ↔ a.Grd := by
  have g : a.gateOpen = false ↔ gateBit a.regs ≠ 1 := by
    rw [← Bool.not_eq_true, Arb.gateOpen_iff]
  unfold Arb.Guarded Arb.Grd OutView.Guarded Arb.AtDefaults Arb.outv
  simp only [g]

end Sys2Proof.Machine
end

