-- ==== Sys2Proof/WellFormed.lean ====
section
/-! DEFINITION. Commands whose operands can occur: numbers inside the ranges that the spec gives the ports, channels,
registers and requests they name. The meanings are total and do not depend on this check. -/
namespace Sys2Proof

/-- A request the endpoint can receive (R428, R437): whole doublewords inside its BAR, with data for a write. -/
def HostReq.wf (r : HostReq) (write : Bool) : Bool :=
  decide (r.addr % 4 = 0) && decide (0 < r.dws) && decide (r.dws ≤ 1024)
  && decide (r.addr + 4 * r.dws ≤ if r.bar2 then 0x10000 else 0x4000000) && (!write || decide (r.data.length = r.dws))
/-- A slot's samples: 24 metering channels and 32 process inputs (R5). -/
def SlotSample.wf (x : SlotSample) : Bool := decide (x.mtr.length = 24) && decide (x.ain.length = 32)
/-- The instant of a slot. -/
def SlotPhase.wf (p : SlotPhase) : Bool :=
  match p with
  | .strobe x => x.wf
  | .round1 => true
  | .image _ => true
  | .work => true
/-- An Announce as its fields hold it. -/
def Announce.wf (a : Announce) : Bool :=
  decide (a.srcPort < 65536) && decide (a.prio1 < 256) && decide (a.cls < 256) && decide (a.acc < 256)
  && decide (a.var < 65536) && decide (a.prio2 < 256) && decide (a.steps < 65536)
/-- A ratio of resistances has a denominator. -/
def RtdSense.wf (x : RtdSense) : Bool :=
  match x with
  | .opened => true
  | .shorted => true
  | .ratio _ den => decide (0 < den)
/-- Modes a port can resolve to (Table 09-3): T1L ports 0 to 11, SerDes ports 12 to 15. -/
def portMode (port mode : Nat) : Bool := 
  if port < 12 then decide (1 ≤ mode) && decide (mode ≤ 2) else decide (3 ≤ mode) && decide (mode ≤ 8)

/-- The command's operands are inside their ranges. -/
def Instr.wf (i : Instr) : Bool :=
  match i with
  | .slotStrobe => true
  | .laneSlot _ phase => phase.wf
  | .strobeLost _ => true
  | .strobeResumed _ x => x.wf
  | .arbiterComparatorTrip => true
  | .clockMonitorFail _ _ => true
  | .round1Receive _ _ _ msg => decide (msg.length ≤ 5120)
  | .echoReceive _ _ _ _ msgs =>
    (decide (msgs.length ≤ 3) && msgs.all fun m => decide (m.length ≤ 5120))
  | .round2Close _ => true
  | .xactAuthenticate _ => true
  | .xlnkLinkDown _ _ => true
  | .xlnkLinkUp _ _ => true
  | .outputFrame _ _ => true
  | .outputSlotClose => true
  | .vpoQueuePulseStart out => decide (out < 16)
  | .vpoQueuePulseEnd out => decide (out < 16)
  | .votedRead req _ => req.wf false
  | .votedWrite req => req.wf true
  | .laneViewWrite req => req.wf true
  | .commitApply _ => true
  | .modelCheckDone _ => true
  | .modelOrderDone _ => true
  | .modelLoadLate _ => true
  | .snapshotSlot _ => true
  | .hamperComplete _ => true
  | .factorisationDone _ => true
  | .couplingRoundDone _ => true
  | .tileRetire _ tile => decide (tile < 48)
  | .stopSlot _ => true
  | .roundFetchDone _ => true
  | .publication _ => true
  | .factorCatchupDone _ => true
  | .solveCancel _ => true
  | .solveNow _ => true
  | .bankSwapLoop _ loop => decide (loop < 512)
  | .bankSwapGroup _ group => decide (group < 16)
  | .bankSwapApply _ loop => decide (loop < 512)
  | .loopReset _ loop => decide (loop < 512)
  | .traceArm _ ch => decide (ch < 16)
  | .traceStop _ ch => decide (ch < 16)
  | .traceForce _ ch => decide (ch < 16)
  | .logicCycleStart _ => true
  | .seqLd _ area addr => decide (area < 16) && decide (addr < 1048576)
  | .seqLdn _ area addr => decide (area < 16) && decide (addr < 1048576)
  | .seqAnd _ area addr => decide (area < 16) && decide (addr < 1048576)
  | .seqAndn _ area addr => decide (area < 16) && decide (addr < 1048576)
  | .seqOr _ area addr => decide (area < 16) && decide (addr < 1048576)
  | .seqOrn _ area addr => decide (area < 16) && decide (addr < 1048576)
  | .seqXor _ area addr => decide (area < 16) && decide (addr < 1048576)
  | .seqSt _ area addr => decide (area < 16) && decide (addr < 1048576)
  | .seqStn _ area addr => decide (area < 16) && decide (addr < 1048576)
  | .seqSet _ area addr => decide (area < 16) && decide (addr < 1048576)
  | .seqRst _ area addr => decide (area < 16) && decide (addr < 1048576)
  | .seqAndParen _ => true
  | .seqOrParen _ => true
  | .seqCloseParen _ => true
  | .seqTon _ n => decide (n < 1048576)
  | .seqTof _ n => decide (n < 1048576)
  | .seqTp _ n => decide (n < 1048576)
  | .seqCu _ n => decide (n < 1048576)
  | .seqCd _ n => decide (n < 1048576)
  | .seqCr _ n => decide (n < 1048576)
  | .seqRise _ n => decide (n < 1048576)
  | .seqFall _ n => decide (n < 1048576)
  | .seqLw _ area addr => decide (area < 16) && decide (addr < 1048576)
  | .seqSw _ area addr => decide (area < 16) && decide (addr < 1048576)
  | .seqSubw _ area addr => decide (area < 16) && decide (addr < 1048576)
  | .seqAbsw _ => true
  | .seqCeq _ area addr => decide (area < 16) && decide (addr < 1048576)
  | .seqCne _ area addr => decide (area < 16) && decide (addr < 1048576)
  | .seqClt _ area addr => decide (area < 16) && decide (addr < 1048576)
  | .seqCgt _ area addr => decide (area < 16) && decide (addr < 1048576)
  | .seqCle _ area addr => decide (area < 16) && decide (addr < 1048576)
  | .seqCge _ area addr => decide (area < 16) && decide (addr < 1048576)
  | .seqJmp _ target => decide (target < 1048576)
  | .seqJmpc _ target => decide (target < 1048576)
  | .seqEnd _ => true
  | .watchdogStop _ => true
  | .logicExecTimeout _ => true
  | .restartResume _ => true
  | .restartCold _ => true
  | .logicImageCheckDone _ => true
  | .logicImageSwap _ => true
  | .logicCheckLate _ => true
  | .retainWrite _ => true
  | .zcTimeout _ feeder => decide (feeder < 4)
  | .nominalWindowClose _ feeder => decide (feeder < 4)
  | .mtrLatch _ feeder => decide (feeder < 4)
  | .rtdConversion _ ch x => decide (ch < 16) && x.wf
  | .flowEdge _ n _ _ _ _ => decide (n < 16)
  | .freqTimeout _ n => decide (n < 16)
  | .thmLatch _ c => decide (c < 8)
  | .totalsWrite _ => true
  | .totalsWriteDone _ => true
  | .vpoPulseStart _ out => decide (out < 16)
  | .vpoPulseWidthEnd _ out => decide (out < 16)
  | .powerFailNFall _ => true
  | .inputMonitorTrip _ => true
  | .flaskWriteDone _ => true
  | .flaskMerge _ => true
  | .mergedRecordDone _ => true
  | .ethFrameReceive _ port _ _ frame =>
    decide (port < 16) && decide (frame.length < 65536)
  | .txFrameStart _ port _ => decide (port < 16)
  | .gateEntryEnd _ port _ => decide (port < 16)
  | .gateListChange _ port _ => decide (port < 16)
  | .portLinkUp _ port mode => decide (port < 16) && portMode port mode
  | .portLinkDown _ port _ => decide (port < 16)
  | .dadComplete _ port k _ => decide (port < 16) && decide (k < 3)
  | .neighborSolicitation _ port _ _ _ => decide (port < 16)
  | .neighborAdvertisement _ port _ _ => decide (port < 16)
  | .neighborEntryStale _ port _ => decide (port < 16)
  | .routerAdvertisement _ port => decide (port < 16)
  | .redirect _ port => decide (port < 16)
  | .echoRequest _ port _ _ _ data => decide (port < 16) && decide (data.length ≤ 1518)
  | .mldQuery _ port => decide (port < 16)
  | .substationReport _ => true
  | .laneStatistics _ => true
  | .syncReceive _ port _ _ _ seq _ _ => decide (port < 16) && decide (seq < 65536)
  | .followUpReceive _ port _ _ seq _ _ => decide (port < 16) && decide (seq < 65536)
  | .delayReqReceive _ port _ _ srcPort seq _ =>
    decide (port < 16) && decide (srcPort < 65536) && decide (seq < 65536)
  | .delayRespReceive _ port _ seq _ _ => decide (port < 16) && decide (seq < 65536)
  | .pdelayReqReceive _ port _ _ srcPort seq _ =>
    decide (port < 16) && decide (srcPort < 65536) && decide (seq < 65536)
  | .pdelayRespReceive _ port _ seq _ => decide (port < 16) && decide (seq < 65536)
  | .announceReceive _ port _ a => decide (port < 16) && a.wf
  | .syncTransmit _ port => decide (port < 16)
  | .announceTransmit _ port => decide (port < 16)
  | .delayReqTransmit _ port => decide (port < 16)
  | .pdelayReqTransmit _ port => decide (port < 16)
  | .syncTimeout _ port _ => decide (port < 16)
  | .announceReceiptTimeout _ port _ => decide (port < 16)
  | .waymarkOutputRise _ pin _ => decide (pin < 4)
  | .waymarkOutputFall _ pin _ => decide (pin < 4)
  | .waymarkEvent _ pin _ _ => decide (pin < 4)
  | .waymarkEventPop _ => true
  | .timeClockRead _ _ => true
  | .afeshMessage _ => true
  | .txRead _ => true
  | .txWrite _ => true
  | .txWriteStaged _ => true
  | .txCommit _ => true
  | .txAbort _ => true
  | .txSubscribe _ => true
  | .txUnsubscribe _ => true
  | .txSegmentRead _ => true
  | .txSegmentWrite _ => true
  | .txEcho _ => true
  | .txEnrol _ => true
  | .enrolComplete _ => true
  | .stagedSetExpire _ sess => decide (sess < 8)
  | .segmentReadExpire _ sess => decide (sess < 8)
  | .segmentWriteExpire _ sess => decide (sess < 8)
  | .epochMessageLimit _ sess => decide (sess < 8)
  | .subscriptionDue _ sess => decide (sess < 8)
  | .mailboxD2hCopy _ => true
  | .mailboxD2hTimeout => true
  | .keyDerive _ => true
  | .keyCrypt _ len => decide (len < 128)
  | .keyClear _ => true
  | .keyKcv _ => true
  | .retagDone _ => true
  | .tamperEvent => true
  | .tamperInactive => true
  | .tamperLogClear => true
  | .evaluationCycle samples => decide (samples.length = 16)
  | .stopWord _ => true
  | .stopWordLoss => true
  | .configConfirm => true
  | .switchTest ch _ _ => decide (ch < 16)
  | .testPulse src _ _ => decide (src < 2)
  | .clockCheck _ => true
  | .ramMarch _ => true
  | .vddSafeFault _ => true
  | .cycleWatchdog _ => true
  | .sresetRise _ samples => decide (samples.length = 16)
  | .sresetStuck => true
  | .sresetArm => true
  | .islandPowerOn => true
  | .hostreqWrite req => req.wf true
  | .rollCall _ => true
  | .rollCallReport _ temp _ => (decide (-128 ≤ temp) && decide (temp ≤ 127))
  | .reportTimeout _ => true
  | .snapRollCallDecision => true
  | .selftestDone _ item => decide (item < 256)
  | .bulkCopyDone => true
  | .dramPartDone => true
  | .deltaPass _ => true
  | .handoverSlot _ _ => true
  | .handoverTimeout => true
  | .donorFail => true
  | .donorPathTimeout => true
  | .backoffExpire _ => true
  | .factorFetchDone _ => true
  | .journalCopyDone _ => true
  | .excludeCommand _ => true
  | .rejoinCommand _ => true
  | .oscStop _ => true
  | .backupPowerLoss => true
  | .weekdayStep _ _ _ _ => true
  | .leapApply _ => true
  | .rtcFollow _ _ => true
  | .slewEnd _ _ _ _ => true
  | .rtcWriteApply _ _ _ _ => true
  | .rtcSnap _ _ _ _ => true
  | .rtcSettime _ _ _ _ => true
  | .rtcSetwday _ _ _ _ => true
  | .rtcSetph _ _ _ _ => true
  | .chargerStop _ => true
  | .chargerRestart _ => true
  | .laneSelfReset _ => true
  | .arbSupplyReset _ => true
  | .arbiterRelease => true
  | .laneRelease _ item => decide (item < 256)
  | .startupRollCall => true
  | .startWindowClose => true
  | .settlementDone => true
  | .firstAgreement => true
  | .startGateOpen => true
  | .nvmCommitCommand _ => true
  | .nvmCommitDone _ cls _ => (cls == 1 || cls == 2)
  | .resetNFall => true
  | .arbiterResetEntry => true
  | .resetNRise => true
  | .registerWrite req => req.wf true
  | .pairLowRead req _ => req.wf false
  | .rcRead req _ => req.wf false
  | .stallTimeout => true
  | .mbxH2dProducerWrite req => req.wf true
  | .mbxD2hConsumerWrite req => req.wf true
  | .irqEnableWrite req => req.wf true
  | .functionLevelReset => true
  | .perstRelease => true
  | .oscillatorEdge _ _ _ _ => true
  | .registerRead req _ => req.wf false
  | .laneRailReset _ => true
  | .perstNFall => true
  | .eccError _ _ _ addr => decide (addr < 4294967296)
  | .powerStateWrite _ => true

end Sys2Proof
end

