-- ==== Sys2Proof/Tests/Slice0.lean ====
section
/-! SUPPORT. The model's own tests: what well-formedness refuses, numbers that the spec works out, and a witness for the
hypotheses of every statement. -/
namespace Sys2Proof.Tests
open Sys2Proof.Machine
set_option linter.unusedVariables false
set_option Elab.async false

/-! ### Well-formedness refuses what cannot occur -/

/-- A sample. -/
def sample0 : SlotSample := { dev := 0, mtr := List.replicate 24 0, ain := List.replicate 32 0, din := 0, plevel := 0 }
/-- Sixteen samples of the island's channels. -/
def channels0 : List ChannelSample := List.replicate 16 ⟨0, 0, true, true⟩
/-- An Announce. -/
def announce0 : Announce := { ident := 77, srcPort := 1, prio1 := 100, cls := 6, acc := 33, var := 9, prio2 := 128, gm := 77, steps := 0 }

/-- A request is aligned, of 1 to 1,024 doublewords, inside its BAR, and carries its data. -/
theorem test_illformed_requests :
    (HostReq.wf ⟨false, 0x10000, 1, 15, 0, [5]⟩ true && HostReq.wf ⟨true, 0xFFFC, 1, 15, 0, []⟩ false
      && !HostReq.wf ⟨false, 0x10002, 1, 15, 0, [5]⟩ true && !HostReq.wf ⟨false, 0x10000, 0, 15, 0, []⟩ true
      && !HostReq.wf ⟨false, 0, 1025, 15, 15, []⟩ false && !HostReq.wf ⟨false, 0x3FFFFFC, 2, 15, 15, []⟩ false
      && !HostReq.wf ⟨true, 0x10000, 1, 15, 0, []⟩ false && !HostReq.wf ⟨false, 0x10000, 1, 15, 0, []⟩ true) = true := by decide +kernel
/-- Every command that carries a request checks it. -/
theorem test_illformed_request_commands :
    ([Instr.votedWrite, .laneViewWrite, .hostreqWrite, .registerWrite, .mbxH2dProducerWrite, .mbxD2hConsumerWrite, .irqEnableWrite].all
        fun f => !(f ⟨false, 2, 1, 15, 0, [0]⟩).wf && (f ⟨false, 4, 1, 15, 0, [0]⟩).wf) &&
      ([Instr.votedRead, .pairLowRead, .rcRead, .registerRead].all
        fun f => !(f ⟨false, 2, 1, 15, 0, []⟩ 0).wf && (f ⟨false, 4, 1, 15, 0, []⟩ 0).wf) = true := by decide +kernel
/-- A slot has 24 metering samples and 32 process samples; an evaluation of the island has 16. -/
theorem test_illformed_samples :
    (!(Instr.laneSlot .A (.strobe { sample0 with mtr := [] })).wf && !(Instr.strobeResumed .A { sample0 with ain := [0] }).wf
      && (Instr.laneSlot .A (.strobe sample0)).wf && !(Instr.evaluationCycle []).wf && !(Instr.sresetRise 50000 []).wf
      && (Instr.evaluationCycle channels0).wf && (Instr.sresetRise 50000 channels0).wf) = true := by decide +kernel
/-- A message of agreement has at most 5,120 bytes, and an echo carries at most three. -/
theorem test_illformed_messages :
    (!(Instr.round1Receive .A false true (zeros 5121)).wf && !(Instr.echoReceive .A false true .B [zeros 5121]).wf
      && !(Instr.echoReceive .A false true .B [[], [], [], []]).wf && (Instr.round1Receive .A false true (zeros 5120)).wf)
      = true := by decide +kernel
/-- An instruction's area has 4 bits and its address 20. -/
theorem test_illformed_instructions :
    ([Instr.seqLd, .seqLdn, .seqAnd, .seqAndn, .seqOr, .seqOrn, .seqXor, .seqSt, .seqStn, .seqSet, .seqRst, .seqLw, .seqSw, .seqSubw,
        .seqCeq, .seqCne, .seqClt, .seqCgt, .seqCle, .seqCge].all
        fun f => !(f .A 16 0).wf && !(f .A 0 1048576).wf && (f .A 15 1048575).wf) &&
      ([Instr.seqTon, .seqTof, .seqTp, .seqCu, .seqCd, .seqCr, .seqRise, .seqFall, .seqJmp, .seqJmpc].all
        fun f => !(f .A 1048576).wf && (f .A 1048575).wf) = true := by decide +kernel
/-- Numbers of loops, groups, channels, outputs, feeders, circuits, sessions, tiles and pins. -/
theorem test_illformed_numbers :
    ([(Instr.vpoQueuePulseStart, 16), (.vpoQueuePulseEnd, 16), (.tileRetire .A, 48), (.bankSwapLoop .A, 512), (.bankSwapGroup .A, 16),
        (.bankSwapApply .A, 512), (.loopReset .A, 512), (.traceArm .A, 16), (.traceStop .A, 16), (.traceForce .A, 16), (.zcTimeout .A, 4),
        (.nominalWindowClose .A, 4), (.mtrLatch .A, 4), (.freqTimeout .A, 16), (.thmLatch .A, 8), (.vpoPulseStart .A, 16),
        (.vpoPulseWidthEnd .A, 16), (.stagedSetExpire .A, 8), (.segmentReadExpire .A, 8), (.segmentWriteExpire .A, 8),
        (.epochMessageLimit .A, 8), (.subscriptionDue .A, 8), (.keyCrypt .A, 128), (.selftestDone .A, 256), (.laneRelease .A, 256),
        (fun n => .rtdConversion .A n .opened, 16), (fun n => .flowEdge .A n 0 0 0 false, 16), (fun n => .waymarkOutputRise .A n 0, 4),
        (fun n => .waymarkOutputFall .A n 0, 4), (fun n => .waymarkEvent .A n 0 true, 4), (fun n => .switchTest n true true, 16),
        (fun n => .testPulse n 0 0, 2), (fun n => .eccError .A true .sram n, 4294967296)] : List ((Nat → Instr) × Nat)).all
        (fun p => !(p.1 p.2).wf && (p.1 (p.2 - 1)).wf) = true := by decide +kernel
/-- Ports 0 to 15; the modes of a port; the 16-bit numbers of PTP. -/
theorem test_illformed_ports :
    ([fun p => .gateEntryEnd .A p 0, fun p => .gateListChange .A p 0, fun p => .portLinkDown .A p 0, fun p => .mldQuery .A p,
        fun p => .routerAdvertisement .A p, fun p => .redirect .A p, fun p => .txFrameStart .A p 0, fun p => .syncTransmit .A p,
        fun p => .announceTransmit .A p, fun p => .delayReqTransmit .A p, fun p => .pdelayReqTransmit .A p, fun p => .syncTimeout .A p 0,
        fun p => .announceReceiptTimeout .A p 0, fun p => .dadComplete .A p 2 true, fun p => .announceReceive .A p 0 announce0,
        fun p => .ethFrameReceive .A p 0 true [],
        fun p => .neighborSolicitation .A p 0 0 0, fun p => .neighborAdvertisement .A p 0 0, fun p => .neighborEntryStale .A p 0,
        fun p => .echoRequest .A p 0 0 0 [], fun p => .syncReceive .A p 0 0 true 0 0 0, fun p => .followUpReceive .A p 0 0 0 0 0,
        fun p => .delayReqReceive .A p 0 0 0 0 0, fun p => .delayRespReceive .A p 0 0 0 0, fun p => .pdelayReqReceive .A p 0 0 0 0 0,
        fun p => .pdelayRespReceive .A p 0 0 0] : List (Nat → Instr)).all (fun f => !(f 16).wf && (f 15).wf) &&
      !(Instr.dadComplete .A 0 3 true).wf && !(Instr.portLinkUp .A 3 3).wf && (Instr.portLinkUp .A 3 2).wf && !(Instr.portLinkUp .A 12 2).wf
      && ([{ announce0 with srcPort := 65536 }, { announce0 with prio1 := 256 }, { announce0 with cls := 256 },
            { announce0 with acc := 256 }, { announce0 with var := 65536 }, { announce0 with prio2 := 256 },
            { announce0 with steps := 65536 }].all fun a => !(Instr.announceReceive .A 0 0 a).wf)
      && ([fun n => .syncReceive .A 0 0 0 true n 0 0, fun n => .followUpReceive .A 0 0 0 n 0 0, fun n => .delayReqReceive .A 0 0 0 n 0 0,
            fun n => .delayReqReceive .A 0 0 0 0 n 0, fun n => .delayRespReceive .A 0 0 n 0 0, fun n => .pdelayReqReceive .A 0 0 0 n 0 0,
            fun n => .pdelayReqReceive .A 0 0 0 0 n 0, fun n => .pdelayRespReceive .A 0 0 n 0] : List (Nat → Instr)).all
          (fun f => !(f 65536).wf && (f 65535).wf)
      && !(Instr.echoRequest .A 0 0 0 0 (zeros 1519)).wf
      && !(Instr.rtdConversion .A 0 (.ratio 1 0)).wf && !(Instr.rollCallReport .A 128 true).wf && !(Instr.rollCallReport .A (-129) true).wf
      && !(Instr.nvmCommitDone .A 0 3).wf && (Instr.nvmCommitDone .A 2 3).wf = true := by decide +kernel

/-! ### Numbers worked out in the spec -/

/-- The check value of CRC-32 for the string 123456789 (the polynomial of R21). -/
theorem test_crc32_check_value : crc32 (ascii "123456789") = 0xCBF43926 := by decide +kernel
/-- FIPS 197, example C.3: AES-256 of 00112233…EEFF under the key 000102…1F. -/
theorem test_aes256_example :
    aesWith (roundKeys ((List.range 32).map (BitVec.ofNat 8))) ((List.range 16).map fun i => BitVec.ofNat 8 (17 * i)) =
      [0x8E, 0xA2, 0xB7, 0xCA, 0x51, 0x67, 0x45, 0xBF, 0xEA, 0xFC, 0x49, 0x90, 0x4B, 0x49, 0x60, 0x89] := by decide +kernel
/-- Table 02-5: three lanes agree on the mid value, two on the floor of the mean. -/
theorem test_selection_of_table_02_5 :
    selectSample (0, false) [(23100, false), (23102, false), (25072, false)] = (23102, false) ∧
      selectSample (0, false) [(23100, false), (25072, false)] = (24086, false) := by decide +kernel
/-- Table 04-9: the assembly time, a round on 47 tiles, the deadline and the round budget. -/
theorem test_times_of_table_04_9 :
    tAsm 1180 3 7180 = 1637740 * tns ∧ tRound 1180 48 (20 * 1048576) 47 40 8 1 14000 = 1261000 * tns ∧
      tD 820 = 814950000 * tns ∧ roundBudget 820 (tAsm 1180 3 7180) (9600000 * tns) (tRound 1180 48 (20 * 1048576) 47 40 8 1 14000) = 255 := by
  decide +kernel
/-- Chapter 03: 1,180 records make 28 hampers of 25 and 20 of 24, and all of them are resident. -/
theorem test_hampers_of_chapter_03 :
    hamperSizes 1180 = List.replicate 28 25 ++ List.replicate 20 24 ∧ resident 1180 48 (20 * 1048576) = 1180 := by decide +kernel
/-- Table 07-7: 20,000,000,000 µWh wrap the register once. -/
theorem test_wrap_of_table_07_7 :
    let r := EReg.credit { ereg0 with val := 0xFFFFFFFE00000000 } (fofInt fmt64 72000000)
    r.val = 11410065408 ∧ r.wrap = 1 := by decide +kernel
/-- The published check values of IAPWS-IF97 Region 1 at 300 K and 3 MPa: v = 0.00100215168 m³/kg, h = 115.331273 kJ/kg. -/
theorem test_water_at_its_check_point :
    let t := fofRatio fmt64 2685 100
    let p := fofInt fmt64 3000000
    let v := fdivide fmt64 (fofInt fmt64 1) (if97Rho t p)
    (flt fmt64 (fofRatio fmt64 1002151679 (10 ^ 12)) v && flt fmt64 v (fofRatio fmt64 1002151681 (10 ^ 12))
      && flt fmt64 (fofRatio fmt64 1153312725 (10 ^ 4)) (if97H t p)
      && flt fmt64 (if97H t p) (fofRatio fmt64 1153312735 (10 ^ 4))) = true := by decide +kernel
/-- Chapter 14: with WPHASE 82,837 the weekday steps from 3 to 4 at TAI 1,725,577,237 s. -/
theorem test_weekday_of_chapter_14 :
    let r := { rtcReset with run := true, sec := 1725577236, frac := 0xFFFE0000, phase := 82837, wday := 3 }
    r.advance.sec = 1725577237 ∧ r.advance.wday = 4 := by decide +kernel

/-! ### States of the witnesses -/

/-- The state an outcome goes on in. -/
def outcome (o : Host.Outcome State Fault Refusal) : State := match o with | .next t => t | _ => State.reset
theorem next_outcome {o : Host.Outcome State Fault Refusal} (h : (match o with | .next _ => true | _ => false) = true) :
    o = .next (outcome o) := by
  cases o <;> simp_all [outcome]
/-- An output frame of a slot: kind, index and value (Table 02-7). -/
def frm (slot kind idx v : Nat) : BitVec 64 := BitVec.ofNat 64 (slot * 2 ^ 48 + kind * 2 ^ 42 + idx * 2 ^ 36 + v)
/-- A lane in its run, whose agreed image of slot 40,000 is ready. -/
def lane0 : Lane :=
  { laneReset with
    life := .up, inRun := true, slot := 40000, ticks := 7, mask := LaneSet.full
    word := { strobeWord0 with mask := LaneSet.full }, agree := { agree0 with stage := .imaged }
    regs := fset (fset [] f_LCTL_CLKSTAT_FABLOCK 1) f_LCTL_RJSTAT_RJSTATE 7 }
/-- An arbiter that runs with three members, its gate closed and output slot 40,000 open. -/
def arb0 : Arb :=
  { arbReset with
    inReset := false, perst := false, mask := LaneSet.full, nextMask := LaneSet.full, agreed := true, slot := 40000, ticks := 7
    strobe := { strobeWord0 with mask := LaneSet.full }
    out := { slot := 40000, isOpen := true, frames := [], passed := [] } }
/-- The device in its run. -/
def st0 : State := { State.reset with a := lane0, b := lane0, c := lane0, arb := arb0 }
/-- Another arbiter. -/
def wArb (f : Arb → Arb) : State := { st0 with arb := f arb0 }
/-- Another lane A. -/
def wLane (f : Lane → Lane) : State := { st0 with a := f lane0 }
/-- Another gate. -/
def openGate (a : Arb) : Arb := { a with regs := fset a.regs f_ARB_RSTCAUSE_GATEOPEN 1 }
/-- A one-doubleword write. -/
def wr (addr : Nat) (w : Word) : HostReq := ⟨false, addr, 1, 15, 0, [w]⟩
/-- A one-doubleword read. -/
def rd (addr : Nat) : HostReq := ⟨false, addr, 1, 15, 0, []⟩
/-- A sample. -/
def smp : SlotSample := { dev := 0, mtr := List.replicate 24 0, ain := List.replicate 32 0, din := 0, plevel := 0 }
/-- A message on its way to the mailbox. -/
def msg0 (x : Byte) : OutMsg := { sess := 0, cls := 0, port := 0xFF, addr := 0, uport := 0, bytes := (List.range 24).map fun i => if i = 2 then x else BitVec.ofNat 8 i }
/-- A judge whose poll is out. -/
def polled0 (a : Arb) : Arb := { a with lanes := List.replicate 3 { judge0 with polled := true } }
/-- The lane's session 0 is bound to the mailbox and a request waits. -/
def reqLane (bd : Bytes) (f : Session → Session) : Lane :=
  let d := (lane0.dict.put 0x1200 1 [1]).put 0x1200 4 [255, 255, 255, 255, 255, 255, 255, 255]
  { lane0 with dict := { (d.put 0x1200 2 [0]) with
      sessions := lmod d.sessions 0 fun y => f { y with st := 2, port := 0xFF, epoch := 1 }
      todo := [{ sess := 0, epoch := 1, seq := 9, port := 0xFF, body := bd }] } }
/-- The device with that lane. -/
def reqSt (bd : Bytes) (f : Session → Session) : State := { st0 with a := reqLane bd f }
/-- The request. -/
def req0 (bd : Bytes) : ExecReq := { sess := 0, epoch := 1, seq := 9, port := 0xFF, body := bd }
/-- The lane with the request taken. -/
def took (l : Lane) : Lane := let m := l.loopsRun .A; { m with dict := { m.dict with todo := m.dict.todo.tail } }
/-- A partner's request body: code, options, TID 7, and what follows. -/
def bdy (code : Nat) (b : Bytes) : Bytes := [BitVec.ofNat 8 code, 0, 7, 0] ++ b
/-- An island configuration: channel 0 has mode 1 (SS1), filter 2 ms, window 10 ms and stop values of 50, 100 and 1000 Hz. -/
def block0 : Bytes := zeros 16 ++ [1, 0, 2, 0, 10, 0, 0, 0] ++ leBytes 4 100 ++ leBytes 4 (f32i 10) ++ leBytes 4 0x42C80000
  ++ leBytes 4 (f32i 50) ++ leBytes 4 (f32i 50000) ++ leBytes 4 (f32i 1000000) ++ leBytes 4 (f32i 50) ++ zeros 480
/-- Channel 0 of the configured island. -/
def wIsl (x : IslChannel) (f : Island → Island) : State :=
  { st0 with isl := f { islandReset with locked := true, block := block0, crc := crc32 block0, lost := false, ch := islandReset.ch.set 0 x } }
/-- A running channel. -/
def run0 : IslChannel := { islChannelReset with st := 1, gate := true, seen := true }
/-- The key unit is ready with the host path of the STORE image leaf. -/
def keySt (dom num : Nat) (f : Lane → Lane) : State :=
  wLane fun l => f { l with key := { l.key with ready := true }, regs := fset (fset l.regs f_KEY_PATH_DOMAIN dom) f_KEY_PATH_NUMBER num }
/-- A copy in its phase. -/
def joinSt (p rj : Nat) (f : Lane → Lane) : State :=
  { st0 with
    a := { lane0 with leng := { leng0 with active := true }, lseq := { lseq0 with restart := some true } }
    c := f (lane0.setRj rj)
    arb := { arb0 with
      joining := true, mask := ⟨true, true, false⟩, nextMask := ⟨true, true, false⟩, dramDone := some 3
      regs := fset (fset (fset arb0.regs f_ARB_JOIN_PHASE p) f_ARB_JOIN_JOINER 2) f_ARB_JOIN_DONOR 0 } }
/-- An arbiter before first agreement. -/
def startArb : Arb := { arb0 with agreed := false, mask := LaneSet.empty, nextMask := LaneSet.empty, ticks := 20 }
/-- A lane that waits. -/
def waitLane : Lane := { (lane0.setRj 2) with inRun := false, mask := LaneSet.empty, agree := agree0, rep := { lane0.rep with selfOk := true } }
/-- A judge that has seen a lane ready. -/
def readyJudge : LaneJudge := { judge0 with answered := true, rep := { judge0.rep with selfOk := true, state := 2 } }
/-- A start. -/
def startSt (f : Arb → Arb) : State :=
  { st0 with a := waitLane, b := waitLane, c := waitLane, arb := f { startArb with lanes := List.replicate 3 readyJudge } }
/-- A commit record of bank A. -/
def rec1 : CommitRec := { cls := 1, bank := false, cseq := 3, len := 2, imageId := 0, gSto := 0, gLeaf := 0, tag := zeros 16, slot := 5 }
/-- A logic image with a program; timer 0 of 5 ms, counter 0 of preset 2, constant 0 of value -7. -/
def im0 (ws : List Word) : LImage :=
  { id := 1, len := 20, prog := ws, consts := [-7], timers := [BitVec.ofNat 64 (5 * 2 ^ 32)], counters := [BitVec.ofNat 64 (2 * 2 ^ 32 + 1)], edges := 1,
    wc := 100, depth := 1, tag := [], blanket := [], quant := [], raw := [] }
/-- The operation word: code, area, address (Table 06-6). -/
def opw (op area a : Nat) : Word := BitVec.ofNat 32 (op * 2 ^ 24 + area * 2 ^ 20 + a)
/-- A lane that executes one instruction. -/
def seqLane (w : Word) (f : Lseq → Lseq) : Lane :=
  { lane0 with
    leng := { leng0 with active := true }
    lseq := f { lseq0 with
      run := 1, image := some (im0 [w]), tl := 10
      exec := { running := true, idx := 0, acc := true, wacc := -5, stack := [(false, true), (true, false)], clocks := 94, budget := 100 } } }
/-- The device with it. -/
def seqSt (w : Word) (f : Lseq → Lseq) : State := { st0 with a := seqLane w f }
/-- Lane A with an RTC. -/
def rtcSt (f : Rtc → Rtc) : State :=
  wLane fun l => { l with rtc := f { rtcReset with run := true, sec := 86399, frac := 0xFFFE0000, phase := 0, wday := 6 } }
/-- A request for the commit slot. -/
def creq (f : StagedField) (ty : Nat) : CommitReq := { sess := 0, epoch := 1, seq := 9, code := 2, tid := 7, field := some f, type := ty }
/-- The lane with it. -/
def commitSt (r : CommitReq) (f : Lane → Lane) : State :=
  let l := reqLane [] id
  { st0 with a := f { l with dict := { l.dict with reqs := [r], todo := [] } } }
/-- A tamper entry. -/
def ent (acted : Bool) : TamperEntry := { sec := 5, lane := .A, standby := false, acted := acted }
/-- Values put into a lane's dictionary. -/
def putAll (l : Lane) (vs : List (Nat × Nat × Bytes)) : Lane := { l with dict := vs.foldl (fun d v => d.put v.1 v.2.1 v.2.2) l.dict }
/-- A lane that runs its logic and metering. -/
def actLane : Lane := { lane0 with leng := { leng0 with active := true } }
/-- A lane before LSEQ's step of the slot. -/
def cycLane (f : Lseq → Lseq) : Lane :=
  { actLane with
    step1 := true, step3 := true, step4 := true, step5 := true, step6 := false
    solver := { solverReset with asked := true }
    lseq := f { lseq0 with run := 1, image := some (im0 [opw 1 0 5, opw 0x38 6 3]), cycle := 39980, tl := 10 } }
/-- Lane A metering with feeder 2 enabled. -/
def mtrLane (f : Feeder → Feeder) : Lane :=
  let l := putAll actLane [(0x2012, 1, [1]), (0x2012, 3, leBytes 2 100), (0x2012, 4, leBytes 4 50)]
  { l with feeders := l.feeders.set 2 (f { feeder0 with mode := .track }) }
/-- A thermal lane: circuit 3 enabled with a latch each second, pulse output 5 of 40 slots. -/
def thmLane (f : Thm → Thm) : Lane :=
  let l := putAll actLane [(0x3013, 1, [1]), (0x3013, 0x10, leBytes 4 1000), (0x3105, 1, [1]), (0x3105, 6, leBytes 2 2)]
  { l with thm := f { l.thm with tbPrev := some 999999 }, img := { l.img with tb := 1000000000 } }
/-- Port 3 of lane A up, enabled, master of a PTP instance if wanted. -/
def prtLane (vs : List (Nat × Nat × Bytes)) (f : PortSt → PortSt) : Lane :=
  let l := putAll lane0 ([(0x8003, 1, [1]), (0x8003, 3, [2, 1, 1, 1, 1, 9])] ++ vs)
  { l with ports := lmod l.ports 3 fun q => f { q with up := true, mode := 1, addr := [2, 0, 0] } }
/-- The device with it. -/
def prtSt (vs : List (Nat × Nat × Bytes)) (f : PortSt → PortSt) : State := { st0 with a := prtLane vs f }
/-- An Announce. -/
def ann0 : Announce := { ident := 77, srcPort := 1, prio1 := 100, cls := 6, acc := 33, var := 9, prio2 := 128, gm := 77, steps := 0 }
/-- An empty network problem. -/
def np0 : NetProb := { n := 1, lay := { nc := 0, sc := 0, src := [], sto := [], pmp := [], flx := [], lk := 0, sub := [] }, rows := [], cost := [], ref := [], rhoC := 0, rhoN := 0, sigmaN := 0, clamped := 0 }
/-- A solve in progress. -/
def run1 : SolveRun :=
  { num := 9, snap := 39000, tGrid := 0, warmMode := false, budget := 5, cap := 4, refact := true, coldNet := true, coldSub := 0, streamed := 0, forced := false,
    hampers := [2, 2], stop := 40000, dead := 40101, early := false, epsP := 0, epsD := 0, inp := { vals := [], grid := 0, ops := [], net := np0, subs := [] }, verdict := none, pub := none }
/-- A lane with it. -/
def slvLane (r : Option SolveRun) (f : Lane → Lane) : Lane := f { lane0 with solver := { solverReset with active := true, num := 8, run := r } }

/-! ### Witnesses -/

/-- States and operands that meet the hypotheses of StepPerformsTheFrontCommand, clause by clause. -/
theorem witness_StepPerformsTheFrontCommand :
    (∃ (s : State) (c : Instr) (rest : List Instr), s.pending = c :: rest) ∧
    (∃ (s : State), s.pending = []) :=
  ⟨⟨{ st0 with pending := [.slotStrobe, .outputSlotClose] }, .slotStrobe, [.outputSlotClose], by decide +kernel⟩,
    ⟨State.reset, by decide +kernel⟩⟩

/-- States and operands that meet the hypotheses of LaneEventsStayInTheirLane, clause by clause. -/
theorem witness_LaneEventsStayInTheirLane :
    ∃ (c : Instr) (s : State) (x : LaneId), laneEvent c = some x :=
  ⟨.oscStop .B, st0, .B, by decide +kernel⟩

/-- States and operands that meet the hypotheses of OutputsStayGuarded, clause by clause. -/
theorem witness_OutputsStayGuarded :
    ∃ (s : State) (t : State), s.arb.Guarded ∧ step s = .next t :=
  ⟨{ wArb openGate with pending := [.arbiterComparatorTrip] }, outcome (step
      { wArb openGate with pending := [.arbiterComparatorTrip] }), by unfold Arb.Guarded Arb.AtDefaults; decide +kernel,
      next_outcome (by decide +kernel)⟩

/-- States and operands that meet the hypotheses of FramesPassByVoteOfTheMembers, clause by clause. -/
theorem witness_FramesPassByVoteOfTheMembers :
    (∃ (s : State) (x : LaneId) (f : BitVec 64), s.arb.runs = true ∧ s.arb.mask.has x = true ∧ s.arb.out.isOpen = true ∧
      frameSlot f = s.arb.out.slot.toNat ∧ isEnd f = false ∧ s.arb.out.value x (frameKey f) = none ∧ s.arb.out.passedOf
      (frameKey f) = none ∧ s.arb.mask.count = 3 ∧ (¬frameValue f ∈ List.filterMap (fun y => s.arb.out.value y (frameKey f))
      (List.filter (fun y => decide (y ≠ x)) s.arb.mask.toList))) ∧
    (∃ (s : State) (x : LaneId) (f : BitVec 64), s.arb.runs = true ∧ s.arb.mask.has x = true ∧ s.arb.out.isOpen = true ∧
      frameSlot f = s.arb.out.slot.toNat ∧ isEnd f = false ∧ s.arb.out.value x (frameKey f) = none ∧ s.arb.out.passedOf
      (frameKey f) = none ∧ s.arb.mask.count = 2) ∧
    (∃ (s : State) (x : LaneId) (f : BitVec 64), s.arb.runs = true ∧ s.arb.mask.has x = true ∧ s.arb.out.isOpen = true ∧
      frameSlot f = s.arb.out.slot.toNat ∧ isEnd f = false ∧ s.arb.out.value x (frameKey f) = none ∧ s.arb.out.passedOf
      (frameKey f) = none ∧ s.arb.mask.count = 1) :=
  ⟨⟨wArb (fun a => { a with out := { a.out with frames := [(.A, frm 40000 1 3 76)] } }), .B, frm 40000 1 3 77,
      by decide +kernel⟩,
    ⟨wArb (fun a => { a with out := { a.out with frames := [(.A, frm 40000 2 63 1)] } , mask := ⟨true, false, true⟩ }), .C, frm
      40000 2 63 1, by decide +kernel⟩,
    ⟨wArb (fun a => { a with mask := ⟨false, true, false⟩ }), .B, frm 40000 5 0 196611, by decide +kernel⟩⟩

/-- States and operands that meet the hypotheses of FramesOutsideTheSlotAreDiscarded, clause by clause. -/
theorem witness_FramesOutsideTheSlotAreDiscarded :
    (∃ (s : State) (x : LaneId) (f : BitVec 64), s.arb.runs = true ∧ s.arb.mask.has x = true ∧ (s.arb.out.isOpen = false ∨
      frameSlot f ≠ s.arb.out.slot.toNat)) ∧
    (∃ (s : State) (x : LaneId) (f : BitVec 64), (s.arb.runs = false ∨ s.arb.mask.has x = false ∧ s.arb.listener x = false)) ∧
    (∃ (s : State) (x : LaneId) (f : BitVec 64), s.arb.runs = true ∧ s.arb.mask.has x = true ∧ s.arb.out.isOpen = true ∧
      frameSlot f = s.arb.out.slot.toNat ∧ isEnd f = true) ∧
    (∃ (s : State), s.arb.runs = true ∧ s.arb.out.isOpen = true ∧ s.arb.mask.count ≠ 1) :=
  ⟨⟨st0, .A, frm 39999 1 0 5, by decide +kernel⟩,
    ⟨State.reset, .A, frm 0 1 0 5, by decide +kernel⟩,
    ⟨st0, .A, frm 40000 15 0 5, by decide +kernel⟩,
    ⟨wArb (fun a =>
      { a with out := { a.out with frames := [(.A, frm 40000 1 3 76), (.B, frm 40000 1 3 77), (.C, frm 40000 1 3 77)], passed := [(67, 77)] } }),
      by decide +kernel⟩⟩

/-- States and operands that meet the hypotheses of PassedValuesReachTheirPins, clause by clause. -/
theorem witness_PassedValuesReachTheirPins :
    (∃ (s : State) (t : State) (x : LaneId) (f : BitVec 64), s.arb.runs = true ∧ s.arb.mask.has x = true ∧ s.arb.out.isOpen =
      true ∧ frameSlot f = s.arb.out.slot.toNat ∧ isEnd f = false ∧ s.arb.out.value x (frameKey f) = none ∧ s.arb.out.passedOf
      (frameKey f) = none ∧ exec (Instr.outputFrame x f) s = .next t ∧ t.arb.out.passedOf (frameKey f) = some (frameValue f) ∧
      s.arb.gateOpen = true ∧ s.arb.hold.active = false) ∧
    (∃ (s : State) (t : State) (x : LaneId) (f : BitVec 64), s.arb.runs = true ∧ s.arb.mask.has x = true ∧ s.arb.out.isOpen =
      true ∧ frameSlot f = s.arb.out.slot.toNat ∧ isEnd f = false ∧ s.arb.out.value x (frameKey f) = none ∧ s.arb.out.passedOf
      (frameKey f) = none ∧ exec (Instr.outputFrame x f) s = .next t ∧ t.arb.out.passedOf (frameKey f) = some (frameValue f) ∧
      (s.arb.gateOpen = false ∨ s.arb.hold.active = true)) :=
  ⟨⟨wArb (fun a => openGate { a with out := { a.out with frames := [(.A, frm 40000 1 3 77)] }, vdo := 32 }), outcome (exec
      (.outputFrame .B (frm 40000 1 3 77)) (wArb (fun a => openGate
      { a with out := { a.out with frames := [(.A, frm 40000 1 3 77)] }, vdo := 32 }))), .B, frm 40000 1 3 77,
      by decide +kernel, by decide +kernel, by decide +kernel, by decide +kernel, by decide +kernel, by decide +kernel,
      by decide +kernel, next_outcome (by decide +kernel), by decide +kernel, by decide +kernel, by decide +kernel⟩,
    ⟨wArb (fun a => id { a with out := { a.out with frames := [(.A, frm 40000 1 3 77)] }, vdo := 32 }), outcome (exec
      (.outputFrame .B (frm 40000 1 3 77)) (wArb (fun a => id
      { a with out := { a.out with frames := [(.A, frm 40000 1 3 77)] }, vdo := 32 }))), .B, frm 40000 1 3 77,
      by decide +kernel, by decide +kernel, by decide +kernel, by decide +kernel, by decide +kernel, by decide +kernel,
      by decide +kernel, next_outcome (by decide +kernel), by decide +kernel, by decide +kernel⟩⟩

/-- States and operands that meet the hypotheses of QueuedPulsesStartAndEnd, clause by clause. -/
theorem witness_QueuedPulsesStartAndEnd :
    (∃ (s : State) (o : Nat) (w : Nat) (r : List Nat) (q : VpoQ), s.arb.runs = true ∧ s.arb.hold.active = false ∧ s.arb.vpo[o]?
      = some q ∧ q.queue = w :: r ∧ q.high = false ∧ (q.ran = true → w ≤ q.since)) ∧
    (∃ (s : State) (o : Nat) (q : VpoQ), s.arb.runs = true ∧ s.arb.vpo[o]? = some q ∧ q.high = true ∧ q.width ≤ q.since) :=
  ⟨⟨wArb (fun a => { a with vpo := a.vpo.set 15 ⟨[3], false, 3, 3, true⟩ }), 15, 3, [], ⟨[3], false, 3, 3, true⟩,
      by decide +kernel⟩,
    ⟨wArb (fun a => { a with vpo := a.vpo.set 0 ⟨[], true, 3, 3, true⟩ }), 0, ⟨[], true, 3, 3, true⟩, by decide +kernel⟩⟩

/-- States and operands that meet the hypotheses of StartGateOpens, clause by clause. -/
theorem witness_StartGateOpens :
    (∃ (s : State), s.arb.runs = true ∧ s.arb.gateOpen = false ∧ s.arb.agreed = true ∧ s.arb.out.isOpen = true ∧
      s.arb.firstSlot.toNat + 5000 ≤ s.arb.slot.toNat ∧ s.arb.logicPassed = true) ∧
    (∃ (s : State), (s.arb.runs = false ∨ s.arb.gateOpen = true ∨ s.arb.agreed = false ∨ s.arb.out.isOpen = false ∨
      s.arb.slot.toNat < s.arb.firstSlot.toNat + 5000 ∨ s.arb.logicPassed = false)) :=
  ⟨⟨wArb (fun a =>
      { a with firstSlot := 35000, out := { a.out with frames := [(.A, frm 40000 4 0 1), (.B, frm 40000 4 0 1)], passed := [(256, 1)] } }),
      by decide +kernel⟩,
    ⟨wArb (fun a => { a with firstSlot := 35001 }), by decide +kernel⟩⟩

/-- States and operands that meet the hypotheses of TheStrobeNamesTheMembers, clause by clause. -/
theorem witness_TheStrobeNamesTheMembers :
    (∃ (s : State), s.arb.inReset = true) ∧
    (∃ (s : State), s.arb.inReset = false ∧ s.arb.fault = true) ∧
    (∃ (s : State), s.arb.inReset = false ∧ s.arb.fault = false ∧ s.arb.cmds = [] ∧ (∀ (x : LaneId), s.lead = some x → (s.lane
      x).dict.nat 4352 5 = 255 ∧ (s.lane x).dict.nat 4352 6 = 255)) ∧
    (∃ (s : State), s.arb.stall = none ∧ s.arb.delayed = []) :=
  ⟨⟨State.reset, by decide +kernel⟩,
    ⟨wArb (fun a => { a with fault := true }), by decide +kernel⟩,
    ⟨st0, by decide +kernel⟩,
    ⟨st0, by decide +kernel⟩⟩

/-- States and operands that meet the hypotheses of LanesTakeTheStrobe, clause by clause. -/
theorem witness_LanesTakeTheStrobe :
    (∃ (s : State) (x : LaneId) (c : Instr) (v : SlotSample), (s.lane x).life ≠ LaneLife.held ∧ s.arb.inReset = false ∧ (c =
      Instr.laneSlot x (SlotPhase.strobe v) ∧ s.arb.ticks = (s.lane x).ticks + 1 ∧ (s.arb.strobe.first = true →
      s.arb.strobe.mask.has x = true → (s.lane x).inRun = true) ∨ c = Instr.strobeResumed x v ∧ fget (s.lane x).regs
      f_LCTL_CLKSTAT_STROBEOK = 0 ∧ (s.lane x).ticks < s.arb.ticks)) ∧
    (∃ (s : State) (x : LaneId), (s.lane x).life ≠ LaneLife.held) :=
  ⟨⟨wArb (fun a => { a with ticks := 8 }), .A, .laneSlot .A (.strobe smp), smp, by decide +kernel⟩,
    ⟨st0, .C, by decide +kernel⟩⟩

/-- States and operands that meet the hypotheses of MonitorsMarkLinksAndClocks, clause by clause. -/
theorem witness_MonitorsMarkLinksAndClocks :
    ∃ (s : State) (x : LaneId) (locks : BitVec 7), (s.lane x).life ≠ LaneLife.held ∧ locks ≠ 0 :=
  ⟨wLane (fun l => { l with regs := rset l.regs f_LCTL_CLKSTAT_XTALOK.key 0xFF }), .A, 0x42, by decide +kernel⟩

/-- States and operands that meet the hypotheses of ComparatorTripForcesDefaults, clause by clause. -/
theorem witness_ComparatorTripForcesDefaults :
    (∃ (s : State), s.arb.runs = true) ∧
    (∃ (s : State) (x : LaneId) (f : BitVec 64), s.arb.fault = true) ∧
    (∃ (s : State) (r : HostReq) (c : Instr), s.arb.fault = true ∧ s.HostReady ∧ c ∈ [Instr.registerWrite r, Instr.votedWrite
      r, Instr.laneViewWrite r, Instr.hostreqWrite r, Instr.irqEnableWrite r, Instr.mbxH2dProducerWrite r,
      Instr.mbxD2hConsumerWrite r]) ∧
    (∃ (s : State), s.arb.fault = true) ∧
    (∃ (s : State) (t : State) (c : Instr), s.arb.fault = true ∧ s.arb.inReset = false ∧ exec c s = .next t ∧ t.arb.fault =
      false) ∧
    (∃ (s : State) (c : Instr), ((∃ (m : Bool), c = Instr.arbSupplyReset m) ∨ c = Instr.backupPowerLoss ∨ s.bak.holdFrom.isSome
      = true ∧ (c = Instr.arbiterResetEntry ∨ c = Instr.resetNRise))) :=
  ⟨⟨wArb (fun a => { openGate a with vdo := 5 }), by decide +kernel⟩,
    ⟨wArb (fun a => { a with fault := true }), .A, frm 40000 1 0 3, by decide +kernel⟩,
    ⟨wArb (fun a => { a with fault := true }), wr 0xF80100 1, .hostreqWrite (wr 0xF80100 1), by decide +kernel,
      by unfold State.HostReady; decide +kernel, by decide +kernel⟩,
    ⟨wArb (fun a => { a with fault := true }), by decide +kernel⟩,
    ⟨wArb (fun a => { a with fault := true }), outcome (exec (.arbSupplyReset true) (wArb (fun a =>
      { a with fault := true }))), .arbSupplyReset true, by decide +kernel, by decide +kernel, next_outcome
      (by decide +kernel), by decide +kernel⟩,
    ⟨wArb (fun a => { a with fault := true }), .backupPowerLoss, by decide +kernel⟩⟩

/-- States and operands that meet the hypotheses of ExchangeKeepsVerifiedCopies, clause by clause. -/
theorem witness_ExchangeKeepsVerifiedCopies :
    (∃ (s : State) (x : LaneId) (link1 : Bool) (msg : Bytes), (s.lane x).life ≠ LaneLife.held) ∧
    (∃ (s : State) (x : LaneId) (link1 : Bool) (msg : Bytes), (s.lane x).life ≠ LaneLife.held ∧ msg ≠ [] ∧ (¬((s.lane
      x).agree.stage ≠ SlotStage.exchange ∨ (s.lane x).agree.round1Closed = true ∨ (s.lane x).staleRound1 msg = true)) ∧
      (s.lane x).genuine msg = false) ∧
    (∃ (s : State) (x : LaneId) (link1 : Bool) (msg : Bytes), (s.lane x).life ≠ LaneLife.held ∧ ((s.lane x).agree.stage ≠
      SlotStage.exchange ∨ (s.lane x).agree.round1Closed = true ∨ (s.lane x).staleRound1 msg = true)) ∧
    (∃ (s : State) (x : LaneId), (s.lane x).agree.stage = SlotStage.exchange) :=
  ⟨⟨wLane (fun l =>
      { l with agree := { l.agree with stage := .exchange, own := [1], direct := [(.B, [2])], echoed := [(.B, [2])] } }), .A,
      true, [1, 2], by decide +kernel⟩,
    ⟨wLane (fun l =>
      { l with agree := { l.agree with stage := .exchange, own := [1], direct := [(.B, [2])], echoed := [(.B, [2])] } }), .A,
      true, [1, 2], by decide +kernel⟩,
    ⟨st0, .A, false, [1, 2], by decide +kernel⟩,
    ⟨wLane (fun l =>
      { l with agree := { l.agree with stage := .exchange, own := [1], direct := [(.B, [2])], echoed := [(.B, [2])] } }), .A,
      by decide +kernel⟩⟩

/-- States and operands that meet the hypotheses of EchoedCopiesCount, clause by clause. -/
theorem witness_EchoedCopiesCount :
    ∃ (s : State) (x : LaneId) (link1 : Bool) (crcOk : Bool) (sender : LaneId) (msgs : List Bytes), (s.lane x).life ≠
      LaneLife.held ∧ (s.lane x).agree.stage = SlotStage.exchange :=
  ⟨wLane (fun l =>
      { l with agree := { l.agree with stage := .exchange, own := [1], direct := [(.B, [2])], echoed := [(.B, [2])] } }), .A,
      true, true, .B, [[1]], by decide +kernel⟩

/-- States and operands that meet the hypotheses of TheImageAndTheWorkOfASlot, clause by clause. -/
theorem witness_TheImageAndTheWorkOfASlot :
    (∃ (s : State) (x : LaneId) (lat : Nat), (s.lane x).agree.stage = SlotStage.closed) ∧
    (∃ (s : State) (x : LaneId), (s.lane x).agree.stage = SlotStage.imaged) ∧
    (∃ (s : State) (x : LaneId) (lat : Nat), (s.lane x).agree.stage ≠ SlotStage.closed) ∧
    (∃ (s : State) (x : LaneId), (s.lane x).agree.stage ≠ SlotStage.imaged) :=
  ⟨⟨wLane (fun l => { l with agree := { l.agree with stage := .closed } }), .A, 100, by decide +kernel⟩,
    ⟨st0, .A, by decide +kernel⟩,
    ⟨st0, .A, 3, by decide +kernel⟩,
    ⟨wLane (fun l => { l with agree := { l.agree with stage := .closed } }), .A, by decide +kernel⟩⟩

/-- States and operands that meet the hypotheses of BusErrorsAreReportedNotServed, clause by clause. -/
theorem witness_BusErrorsAreReportedNotServed :
    (∃ (s : State) (r : HostReq) (fab : Nat) (c : Nat), s.HostReady ∧ reqFits r false = true ∧ s.arb.fault = false ∧
      s.arb.busError r false = some c ∧ fget s.arb.regs f_ARB_HERR_RERR = 0 ∧ fget s.arb.regs f_ARB_HERR_WERR = 0 ∧ c < 16) ∧
    (∃ (s : State) (r : HostReq) (c : Nat), s.HostReady ∧ reqFits r true = true ∧ s.arb.fault = false ∧ s.arb.busError r true =
      some c ∧ fget s.arb.regs f_ARB_HERR_RERR = 0 ∧ fget s.arb.regs f_ARB_HERR_WERR = 0 ∧ c < 16) ∧
    (∃ (s : State) (r : HostReq), s.HostReady ∧ reqFits r true = true ∧ s.arb.fault = true) :=
  ⟨⟨st0, rd 0xE00000, 0, 2, by unfold State.HostReady; decide +kernel, by decide +kernel, by decide +kernel,
      by decide +kernel, by decide +kernel, by decide +kernel, by decide +kernel⟩,
    ⟨st0, wr 0x1100000 1, 5, by unfold State.HostReady; decide +kernel, by decide +kernel, by decide +kernel,
      by decide +kernel, by decide +kernel, by decide +kernel, by decide +kernel⟩,
    ⟨wArb (fun a => { a with fault := true }), wr 0xF80100 1, by unfold State.HostReady; decide +kernel, by decide +kernel,
      by decide +kernel⟩⟩

/-- States and operands that meet the hypotheses of WritesReachTheirRegister, clause by clause. -/
theorem witness_WritesReachTheirRegister :
    (∃ (s : State) (r : HostReq) (k : Nat) (w : Word), s.HostReady ∧ reqFits r true = true ∧ s.arb.busError r true = none ∧
      r.dws = 1 ∧ r.data = [w] ∧ (reqPlace r 0 = Place.arbReg k ∧ k ≠ f_ARB_IRQEN_EN.key ∧ k ≠ f_ARB_EXCLUDE_GO.key ∧ k ≠
      f_ARB_REJOIN_GO.key ∧ k ≠ f_ARB_TAMPACK_CLEARLOG.key ∨ reqPlace r 0 = Place.safe k ∧ k = f_SAFE_HOSTREQ_REQ.key) ∧
      reqPlace r 0 = Place.safe k) ∧
    (∃ (s : State) (r : HostReq) (x : LaneId) (k : Nat) (w : Word), s.HostReady ∧ reqFits r true = true ∧ s.arb.busError r true
      = none ∧ r.dws = 1 ∧ r.data = [w] ∧ reqPlace r 0 = Place.laneReg (x.num + 1) k ∧ stalls k = false ∧ (s.lane x).answers
      (reqPlaces r) = true) ∧
    (∃ (s : State) (r : HostReq) (k : Nat) (w : Word), s.HostReady ∧ reqFits r true = true ∧ s.arb.busError r true = none ∧
      r.dws = 1 ∧ r.data = [w] ∧ reqPlace r 0 = Place.laneReg 0 k ∧ stalls k = false ∧ (∃ (y : LaneId), s.arb.mask.has y = true
      ∧ (s.lane y).answers (reqPlaces r) = true)) :=
  ⟨⟨st0, wr 0xF80100 0x8001, 0xF80100, 0x8001, by unfold State.HostReady; decide +kernel, by decide +kernel,
      by decide +kernel, by decide +kernel, by decide +kernel, by decide +kernel, by decide +kernel⟩,
    ⟨st0, wr 0x10A0004 9, .A, 0x0A0004, 9, by unfold State.HostReady; decide +kernel, by decide +kernel, by decide +kernel,
      by decide +kernel, by decide +kernel, by decide +kernel, by decide +kernel, by decide +kernel⟩,
    ⟨st0, wr 0x0A0004 9, 0x0A0004, 9, by unfold State.HostReady; decide +kernel, by decide +kernel, by decide +kernel,
      by decide +kernel, by decide +kernel, by decide +kernel, by decide +kernel, ⟨.A, by decide +kernel⟩⟩⟩

/-- States and operands that meet the hypotheses of VotedReadsReturnWhatTwoLanesHold, clause by clause. -/
theorem witness_VotedReadsReturnWhatTwoLanesHold :
    ∃ (s : State) (r : HostReq) (fab : Nat) (k : Nat), s.HostReady ∧ reqFits r false = true ∧ s.arb.fault = false ∧
      s.arb.busError r false = none ∧ reqPlace r 0 = Place.laneReg 0 k ∧ s.arb.mask.count = 3 ∧ 0 < s.arb.mask.count :=
  ⟨st0, rd 0x0A0004, 0, 0x0A0004, by unfold State.HostReady; decide +kernel, by decide +kernel, by decide +kernel,
      by decide +kernel, by decide +kernel, by decide +kernel, by decide +kernel⟩

/-- States and operands that meet the hypotheses of LaneReadsLatchAndClear, clause by clause. -/
theorem witness_LaneReadsLatchAndClear :
    (∃ (s : State) (r : HostReq) (x : LaneId) (fab : Nat) (k : Nat), s.HostReady ∧ reqFits r false = true ∧ s.arb.busError r
      false = none ∧ r.dws = 1 ∧ r.fbe = 15 ∧ reqPlace r 0 = Place.laneReg (x.num + 1) k ∧ pairLow k = true ∧ (s.lane
      x).answers (reqPlaces r) = true) ∧
    (∃ (s : State) (r : HostReq) (x : LaneId) (fab : Nat) (k : Nat), s.HostReady ∧ reqFits r false = true ∧ s.arb.busError r
      false = none ∧ r.dws = 1 ∧ reqPlace r 0 = Place.laneReg (x.num + 1) k ∧ pairLow k = false ∧ pairHigh k = false ∧
      rtcShadow k = false ∧ k ≠ f_TIME_EVHDR_EVOVF.key ∧ k ≠ f_TIME_CLKNS_NS.key ∧ (s.lane x).answers (reqPlaces r) = true ∧
      rcMask k ≠ 0) ∧
    (∃ (s : State) (r : HostReq) (fab : Nat) (k : Nat), s.HostReady ∧ reqFits r false = true ∧ s.arb.busError r false = none ∧
      r.dws = 1 ∧ reqPlace r 0 = Place.arbReg k ∧ rcMask k = 0) :=
  ⟨⟨st0, rd (0x1000000 + f_LCTL_SLOTLO_SLOTLO.key), .A, 0, f_LCTL_SLOTLO_SLOTLO.key,
      by unfold State.HostReady; decide +kernel, by decide +kernel, by decide +kernel, by decide +kernel, by decide +kernel,
      by decide +kernel, by decide +kernel, by decide +kernel⟩,
    ⟨wLane (fun l => { l with regs := fset l.regs f_LCTL_STROBE_STROBELOST 1 }), rd (0x1000000 + f_LCTL_STROBE_STROBELOST.key),
      .A, 0, f_LCTL_STROBE_STROBELOST.key, by unfold State.HostReady; decide +kernel, by decide +kernel, by decide +kernel,
      by decide +kernel, by decide +kernel, by decide +kernel, by decide +kernel, by decide +kernel, by decide +kernel,
      by decide +kernel, by decide +kernel, by decide +kernel⟩,
    ⟨st0, rd f_ARB_IRQEN_EN.key, 0, f_ARB_IRQEN_EN.key, by unfold State.HostReady; decide +kernel, by decide +kernel,
      by decide +kernel, by decide +kernel, by decide +kernel, by decide +kernel⟩⟩

/-- States and operands that meet the hypotheses of TimeReadsAreOfOneClock, clause by clause. -/
theorem witness_TimeReadsAreOfOneClock :
    (∃ (s : State) (x : LaneId) (fab : Nat), (s.lane x).answers [(Place.laneReg 1 f_TIME_CLKNS_NS.key, 15)] = true) ∧
    (∃ (s : State) (x : LaneId) (w : Nat) (e : Bool) (u : Nat) (rest : List (Nat × Bool × Nat)), (s.lane x).answers
      [(Place.laneReg 1 f_TIME_EVHDR_EVOVF.key, 15)] = true ∧ (s.lane x).time.fifo = (w, e, u) :: rest) ∧
    (∃ (s : State) (x : LaneId), (s.lane x).time.fifo = []) :=
  ⟨⟨wLane (fun l => { l with time := { l.time with clock := 123456789 * 2 ^ 80 } }), .A, 5, by decide +kernel⟩,
    ⟨wLane (fun l => { l with time := { l.time with fifo := [(1, true, 5 * 10 ^ 9 * 2 ^ 56)] } }), .A, 1, true, 5 * 10 ^ 9 * 2
      ^ 56, [], by decide +kernel⟩,
    ⟨st0, .A, by decide +kernel⟩⟩

/-- States and operands that meet the hypotheses of InterruptEnablesSignalOnce, clause by clause. -/
theorem witness_InterruptEnablesSignalOnce :
    ∃ (s : State) (r : HostReq) (w : Word), s.HostReady ∧ reqFits r true = true ∧ s.arb.busError r true = none ∧ r.dws = 1 ∧
      r.data = [w] ∧ reqPlace r 0 = Place.arbReg f_ARB_IRQEN_EN.key :=
  ⟨wArb (fun a => { a with regs := fset a.regs f_ARB_IRQSTAT_CAUSE 0x1001 }), wr 0xF00514 0x1FFF, 0x1FFF,
      by unfold State.HostReady; decide +kernel, by decide +kernel, by decide +kernel, by decide +kernel, by decide +kernel,
      by decide +kernel⟩

/-- States and operands that meet the hypotheses of MailboxIndicesAdvance, clause by clause. -/
theorem witness_MailboxIndicesAdvance :
    (∃ (s : State) (r : HostReq) (w : Word), s.HostReady ∧ reqFits r true = true ∧ s.arb.busError r true = none ∧ r.dws = 1 ∧
      r.data = [w] ∧ r.fbe.getLsbD 0 = true ∧ reqPlace r 0 = Place.mbx f_ARB_MBXH2DP_PROD.key ∧ s.arb.mask.count = 0) ∧
    (∃ (s : State) (r : HostReq) (w : Word), s.HostReady ∧ reqFits r true = true ∧ s.arb.busError r true = none ∧ r.dws = 1 ∧
      r.data = [w] ∧ r.fbe.getLsbD 0 = true ∧ reqPlace r 0 = Place.mbx f_ARB_MBXD2HC_CONS.key ∧ s.arb.mbx.held = []) ∧
    (∃ (s : State) (x : LaneId) (u : OutMsg), s.arb.runs = true ∧ s.arb.mask.has x = true ∧ 2 ≤ s.arb.mask.count ∧ (List.find?
      (fun (t : OutMsg) ↦ t.port == 255) (s.lane x).tx = some u) ∧ s.arb.mbx.late x (messageId u.bytes) = false ∧ (∀ (c :
      MbxCopy), c ∈ s.arb.mbx.copies → c.lane = x ∨ laneMasked c.bytes ≠ laneMasked u.bytes)) ∧
    (∃ (s : State) (x : LaneId) (u : OutMsg), s.arb.runs = true ∧ s.arb.mask.has x = true ∧ 2 ≤ s.arb.mask.count ∧ (List.find?
      (fun (t : OutMsg) ↦ t.port == 255) (s.lane x).tx = some u) ∧ s.arb.mbx.late x (messageId u.bytes) = false ∧ (fget
      s.arb.regs f_ARB_MBXD2HP_PROD + 256 - fget s.arb.regs f_ARB_MBXD2HC_CONS) % 256 < 16) ∧
    (∃ (s : State) (c : MbxCopy) (cs : List MbxCopy), s.arb.runs = true ∧ 2 ≤ s.arb.mask.count ∧ s.arb.mbx.copies = c :: cs) :=
  ⟨⟨wArb (fun a => { a with mask := LaneSet.empty }), ⟨true, 0xC000, 1, 1, 0, [8]⟩, 8,
      by unfold State.HostReady; decide +kernel, by decide +kernel, by decide +kernel, by decide +kernel, by decide +kernel,
      by decide +kernel, by decide +kernel, by decide +kernel⟩,
    ⟨wArb (fun a => { a with regs := fset a.regs f_ARB_MBXD2HP_PROD 2 }), ⟨true, 0xC00C, 1, 1, 0, [2]⟩, 2,
      by unfold State.HostReady; decide +kernel, by decide +kernel, by decide +kernel, by decide +kernel, by decide +kernel,
      by decide +kernel, by decide +kernel, by decide +kernel⟩,
    ⟨{ st0 with a := { lane0 with tx := [msg0 0] } }, .A, msg0 0, by decide +kernel⟩,
    ⟨{ st0 with a := { lane0 with tx := [msg0 0] }, arb := { arb0 with mbx := { arb0.mbx with copies := [⟨.B, (msg0 0).bytes⟩] } } },
      .A, msg0 0, by decide +kernel⟩,
    ⟨wArb (fun a => { a with mbx := { a.mbx with copies := [⟨.B, (msg0 0).bytes⟩] } }), ⟨.B, (msg0 0).bytes⟩, [],
      by decide +kernel⟩⟩

/-- States and operands that meet the hypotheses of EndpointResetsAndPowerStates, clause by clause. -/
theorem witness_EndpointResetsAndPowerStates :
    (∃ (s : State), s.arb.inReset = false ∧ s.arb.perst = false) ∧
    (∃ (s : State) (d3 : Bool), s.arb.inReset = false ∧ s.arb.perst = false) ∧
    (∃ (s : State) (r : HostReq) (fab : Nat), s.arb.inReset = false ∧ s.arb.perst = false ∧ s.arb.d3hot = true ∧ reqFits r
      false = true) ∧
    (∃ (s : State) (st : StallAcc), s.arb.runs = true ∧ s.arb.delayed = [] ∧ s.arb.stall = some st ∧ st.lanes ≠ [] ∧ (∀ (y :
      LaneId), y ∈ st.lanes → s.arb.mask.has y = true ∧ (s.lane y).answers (reqPlaces st.req) = true ∧ (s.lane y).stallDone
      (reqKeys st.req) = false)) :=
  ⟨⟨st0, by decide +kernel⟩,
    ⟨st0, true, by decide +kernel⟩,
    ⟨wArb (fun a => { a with d3hot := true }), rd 0xE00000, 0, by decide +kernel⟩,
    ⟨{ st0 with a := { lane0 with rtc := { lane0.rtc with acts := [.snap] } }, arb := { arb0 with stall := some ⟨wr (0x1000000 + f_RTC_SNAP_SNAP.key) 1, [.A], 1, true⟩ } },
      ⟨wr (0x1000000 + f_RTC_SNAP_SNAP.key) 1, [.A], 1, true⟩, by decide +kernel⟩⟩

/-- States and operands that meet the hypotheses of LanesAreExcludedAndRestartedByCommand, clause by clause. -/
theorem witness_LanesAreExcludedAndRestartedByCommand :
    (∃ (s : State) (x : LaneId), s.arb.runs = true ∧ s.arb.nextMask.has x = true ∧ (s.arb.nextMask.put x false).count ≠ 0) ∧
    (∃ (s : State) (x : LaneId), s.arb.runs = true ∧ (s.arb.nextMask.has x = false ∨ (s.arb.nextMask.put x false).count = 0)) ∧
    (∃ (s : State) (x : LaneId), s.arb.runs = true ∧ (s.lane x).rj = 6) ∧
    (∃ (s : State) (x : LaneId), s.arb.runs = true ∧ (s.lane x).rj ≠ 6) :=
  ⟨⟨st0, .C, by decide +kernel⟩,
    ⟨wArb (fun a => { a with nextMask := ⟨false, true, false⟩ }), .B, by decide +kernel⟩,
    ⟨wLane (fun l => l.setRj 6), .A, by decide +kernel⟩,
    ⟨st0, .A, by decide +kernel⟩⟩

/-- States and operands that meet the hypotheses of RollCallsPollAndJudge, clause by clause. -/
theorem witness_RollCallsPollAndJudge :
    (∃ (s : State), s.arb.runs = true ∧ s.arb.agreed = true ∧ s.arb.rolling = false ∧ s.arb.slot.toNat % 20 = fget s.arb.regs
      f_ARB_ROLLCFG_ROLLPHASE) ∧
    (∃ (s : State) (x : LaneId) (temp : Int) (ok : Bool), s.arb.runs = true ∧ s.arb.agreed = true ∧ (s.arb.judge x).polled =
      true ∧ x.num < s.arb.lanes.length ∧ (s.lane x).life ≠ LaneLife.held ∧ (s.lane x).trip = none ∧ LaneId.A ≠ x ∧ LaneId.C ≠
      x ∧ ok = true ∧ ((s.arb.judge x).nextSeq = none ∨ (s.arb.judge x).nextSeq = some ((s.lane x).report temp).rseq)) ∧
    (∃ (s : State) (x : LaneId) (temp : Int) (ok : Bool), s.arb.runs = true ∧ s.arb.agreed = true ∧ (s.arb.judge x).polled =
      true ∧ x.num < s.arb.lanes.length ∧ (s.lane x).life ≠ LaneLife.held ∧ (s.lane x).trip = none ∧ (ok = false ∨ ∃ n,
      (s.arb.judge x).nextSeq = some n ∧ n ≠ ((s.lane x).report temp).rseq)) ∧
    (∃ (s : State) (x : LaneId), s.arb.runs = true ∧ (s.arb.judge x).polled = true) ∧
    (∃ (s : State), s.arb.runs = true ∧ s.arb.agreed = true ∧ s.arb.rolling = true ∧ s.arb.mask = s.arb.nextMask ∧
      s.arb.slot.toNat % 20 = fget s.arb.regs f_ARB_ROLLCFG_ROLLPHASE ∧ (∃ (x : LaneId), s.arb.mask.has x = true ∧
      s.arb.endPolls.criterion x = 0)) :=
  ⟨⟨st0, by decide +kernel⟩,
    ⟨wArb polled0, .B, 45, true, by decide +kernel⟩,
    ⟨wArb polled0, .B, -40, false, by decide +kernel⟩,
    ⟨wArb polled0, .C, by decide +kernel⟩,
    ⟨wArb (fun a =>
      { a with rolling := true, lanes := [{ judge0 with answered := true }, { judge0 with answered := true }, { judge0 with polled := true, missedRun := 1 }] }),
      by decide +kernel, by decide +kernel, by decide +kernel, by decide +kernel, by decide +kernel, ⟨.A, by decide +kernel⟩⟩⟩

/-- States and operands that meet the hypotheses of TwoLaneHoldsAreDecided, clause by clause. -/
theorem witness_TwoLaneHoldsAreDecided :
    (∃ (s : State) (x : LaneId) (e : Nat), s.arb.snapDue = true ∧ s.arb.mask.count = 2 ∧ s.arb.nextMask = s.arb.mask ∧
      s.arb.evidence = some (x, e)) ∧
    (∃ (a : Arb) (x : LaneId) (y : LaneId), (a.mask.toList = [x, y] ∨ a.mask.toList = [y, x]) ∧ a.hold.endBad.has x = true ∧
      a.hold.endBad.has y = false) ∧
    (∃ (s : State), s.arb.snapDue = true ∧ s.arb.mask.count = 2 ∧ s.arb.nextMask = s.arb.mask ∧ s.arb.evidence = none) :=
  ⟨⟨wArb (fun a =>
      { a with hold := { a.hold with active := true, snap := true, slot := 39999, endBad := ⟨true, false, false⟩ }, mask := ⟨true, true, false⟩, nextMask := ⟨true, true, false⟩ }),
      .A, 1, by decide +kernel⟩,
    ⟨(wArb (fun a =>
      { a with hold := { a.hold with active := true, snap := true, slot := 39999, endBad := ⟨true, false, false⟩ }, mask := ⟨true, true, false⟩, nextMask := ⟨true, true, false⟩ })).arb,
      .A, .B, by decide +kernel⟩,
    ⟨wArb (fun a =>
      { a with hold := { a.hold with active := true, snap := true, slot := 39999, endBad := ⟨false, false, false⟩ }, mask := ⟨true, true, false⟩, nextMask := ⟨true, true, false⟩ }),
      by decide +kernel⟩⟩

/-- States and operands that meet the hypotheses of SelfTestsEndInWaitingOrHalted, clause by clause. -/
theorem witness_SelfTestsEndInWaitingOrHalted :
    (∃ (s : State) (x : LaneId) (item : Nat), (s.lane x).life = LaneLife.up ∧ (s.lane x).rj = 1 ∧ 0 < item ∧ item < 256 ∧
      (s.lane x).rep.uce = 0) ∧
    (∃ (s : State) (x : LaneId) (item : Nat), (s.lane x).life = LaneLife.up ∧ (s.lane x).rj = 1 ∧ item = 0) ∧
    (∃ (s : State) (x : LaneId) (y : LaneId), s.arb.mask.toList.head? = some y ∧ (s.lane x).rj = 2 ∧ (s.lane x).backoff = true
      ∧ (s.lane x).waitFrom + (s.lane y).dict.nat 4352 4 * 20000 ≤ s.arb.ticks) ∧
    (∃ (s : State) (x : LaneId) (y : LaneId), s.arb.mask.toList.head? = some y ∧ s.arb.ticks < (s.lane x).waitFrom + (s.lane
      y).dict.nat 4352 4 * 20000) :=
  ⟨⟨wLane (fun l => l.setRj 1), .A, 255, by decide +kernel⟩,
    ⟨wLane (fun l => l.setRj 1), .A, 0, by decide +kernel⟩,
    ⟨{ st0 with c := { (lane0.setRj 2) with backoff := true, waitFrom := 5 }, arb := { arb0 with ticks := 1200005 } }, .C, .A,
      by decide +kernel⟩,
    ⟨{ st0 with c := { (lane0.setRj 2) with backoff := true, waitFrom := 6 }, arb := { arb0 with ticks := 1200005 } }, .C, .A,
      by decide +kernel⟩⟩

/-- States and operands that meet the hypotheses of CopiesGoThroughTheirPhases, clause by clause. -/
theorem witness_CopiesGoThroughTheirPhases :
    (∃ (s : State), s.arb.runs = true ∧ s.arb.phase = 1 ∧ (s.lane s.arb.joiner).rj = 3) ∧
    (∃ (s : State), s.arb.runs = true ∧ s.arb.phase = 2 ∧ (s.lane s.arb.joiner).rj = 3) ∧
    (∃ (s : State) (marked : Nat), s.arb.runs = true ∧ s.arb.phase = 3 ∧ (s.lane s.arb.joiner).rj = 4 ∧ marked ≤ 50331648) ∧
    (∃ (s : State) (delta : Nat) (t0 : Nat), s.arb.runs = true ∧ s.arb.phase = 3 ∧ (s.lane s.arb.joiner).rj = 4 ∧ 1 ≤ (s.lane
      s.arb.joiner).copy.passes ∧ delta ≤ 98304 ∧ s.arb.dramDone = some t0 ∧ s.arb.ticks ≤ t0 + 20000 ∧ (s.lane
      s.arb.donor).handoverReady = true) :=
  ⟨⟨joinSt 1 3 id, by decide +kernel⟩,
    ⟨joinSt 2 3 id, by decide +kernel⟩,
    ⟨joinSt 3 4 id, 50331648, by decide +kernel⟩,
    ⟨joinSt 3 4 (fun l => { l with copy := { l.copy with passes := 1 } }), 98304, 3, by decide +kernel⟩⟩

/-- States and operands that meet the hypotheses of RejoinsFailAndBeginAgain, clause by clause. -/
theorem witness_RejoinsFailAndBeginAgain :
    (∃ (s : State) (delta : Nat) (t0 : Nat), s.arb.runs = true ∧ s.arb.phase = 3 ∧ (s.lane s.arb.joiner).rj = 4 ∧ 1 ≤ (s.lane
      s.arb.joiner).copy.passes ∧ delta ≤ 98304 ∧ s.arb.dramDone = some t0 ∧ s.arb.ticks ≤ t0 + 20000 ∧ (s.lane
      s.arb.donor).handoverReady = true ∧ LaneId.A ≠ s.arb.joiner ∧ LaneId.B ≠ s.arb.joiner) ∧
    (∃ (s : State), s.arb.runs = true ∧ s.arb.phase = 3 ∧ (∀ (t0 : Nat), s.arb.dramDone = some t0 → t0 + 20000 < s.arb.ticks) ∧
      LaneId.A ≠ s.arb.joiner ∧ LaneId.B ≠ s.arb.joiner) ∧
    (∃ (s : State) (d : LaneId), s.arb.runs = true ∧ s.arb.joining = true ∧ (s.arb.nextMask.has s.arb.donor = false ∧
      s.arb.nextMask.toList.head? = some d) ∧ 1 ≤ s.arb.phase ∧ s.arb.phase ≤ 3 ∧ ((List.filter (fun x => decide (x ≠
      s.arb.donor)) s.arb.nextMask.toList).head? = some d)) ∧
    (∃ (s : State) (d : LaneId), s.arb.runs = true ∧ s.arb.joining = true ∧ (List.filter (fun x => decide (x ≠ s.arb.donor))
      s.arb.nextMask.toList = [])) ∧
    (∃ (s : State) (x : LaneId), (s.lane x).copy.factor = true ∧ s.arb.mask.has x = true) ∧
    (∃ (s : State) (x : LaneId) (d : LaneId), (s.lane x).copy.trailing = true ∧ s.arb.mask.has x = true ∧ (List.find? (fun (y :
      LaneId) ↦ decide (y ≠ x) && !(s.lane y).copy.trailing) s.arb.mask.toList = some d) ∧ 3 < (s.lane x).leng.traces.length ∧
      3 < (s.lane d).leng.traces.length) :=
  ⟨⟨joinSt 3 4 (fun l => { l with copy := { l.copy with passes := 1 } }), 98304, 3, by decide +kernel⟩,
    ⟨{ joinSt 3 4 id with arb := { (joinSt 3 4 id).arb with ticks := 20004 } }, by decide +kernel⟩,
    ⟨{ joinSt 3 4 id with arb := { (joinSt 3 4 id).arb with nextMask := ⟨false, true, false⟩ } }, .B, by decide +kernel⟩,
    ⟨{ joinSt 3 4 id with arb := { (joinSt 3 4 id).arb with nextMask := ⟨true, false, false⟩ } }, .B, by decide +kernel⟩,
    ⟨wLane (fun l => { l with copy := { l.copy with factor := true } }), .A, by decide +kernel⟩,
    ⟨wLane (fun l => { l with copy := { l.copy with trailing := true } }), .A, .B, by decide +kernel⟩⟩

/-- States and operands that meet the hypotheses of ReleasesStartArbiterAndLanes, clause by clause. -/
theorem witness_ReleasesStartArbiterAndLanes :
    (∃ (s : State), s.arb.inReset = true ∧ s.bak.holdFrom = none) ∧
    (∃ (s : State) (x : LaneId) (item : Nat), s.canRelease x = true ∧ s.bak.active = true ∧ s.bak.policy ≠ 0) ∧
    (∃ (s : State) (x : LaneId) (item : Nat), s.canRelease x = true ∧ (s.bak.active = false ∨ s.bak.policy = 0) ∧ ((s.lane
      x).fusesLoaded x s.arb.ticks).loadStored.imageOk 1 = true ∧ ((s.lane x).fusesLoaded x s.arb.ticks).loadStored.imageOk 2 =
      true) :=
  ⟨⟨{ State.reset with bak := { backupReset with wasReset := true, holds := 15, holdSec := 9 } }, by decide +kernel⟩,
    ⟨{ st0 with a := laneReset, bak := { backupReset with active := true, policy := 2 } }, .A, 0, by decide +kernel⟩,
    ⟨{ st0 with a := laneReset, bak := { backupReset with active := true } }, .A, 0, by decide +kernel⟩⟩

/-- States and operands that meet the hypotheses of StartAgreesBeforeRunning, clause by clause. -/
theorem witness_StartAgreesBeforeRunning :
    (∃ (s : State), s.arb.starting = true ∧ s.arb.ticks % 20 = 0 ∧ (s.lane LaneId.C).life = LaneLife.held ∧ (s.lane
      LaneId.A).life ≠ LaneLife.held ∧ (s.lane LaneId.B).life ≠ LaneLife.held) ∧
    (∃ (s : State) (t0 : Nat), s.arb.starting = true ∧ s.arb.window = some t0 ∧ s.arb.windowClosed = false ∧
      (s.arb.readySet.count = 3 ∨ t0 + 10000 ≤ s.arb.ticks) ∧ s.arb.readySet.count ≠ 0) ∧
    (∃ (s : State), s.arb.starting = true ∧ s.arb.windowClosed = true ∧ 0 < s.stillReady.count ∧ s.stillReady.has LaneId.C =
      false ∧ s.stillReady.has LaneId.A = true ∧ s.stillReady.has LaneId.B = true) ∧
    (∃ (s : State), s.arb.runs = true ∧ s.arb.strobe.first = true ∧ s.arb.agreed = false ∧ 0 < s.firstLanes.count ∧
      s.firstLanes.has LaneId.A = true ∧ s.firstLanes.has LaneId.B = true ∧ s.firstLanes.has LaneId.C = false ∧ (∀ (x :
      LaneId), s.firstLanes.has x = true → (s.lane x).rtc.noTime = true)) :=
  ⟨⟨{ startSt id with b := { waitLane with nvm := { nvm0 with gens := { gens0 with dev := 3 } } } , c := laneReset },
      by decide +kernel⟩,
    ⟨startSt (fun a => { a with window := some 10 }), 10, by decide +kernel⟩,
    ⟨startSt (fun a => { a with windowClosed := true, ready := ⟨true, true, false⟩ }), by decide +kernel⟩,
    ⟨startSt (fun a => { a with strobe := { a.strobe with first := true }, mask := ⟨true, true, false⟩, agreeNext := false }),
      by decide +kernel, by decide +kernel, by decide +kernel, by decide +kernel, by decide +kernel, by decide +kernel,
      by decide +kernel, fun x => by cases x <;> decide +kernel⟩⟩

/-- States and operands that meet the hypotheses of CommitsLeaveTheOlderImage, clause by clause. -/
theorem witness_CommitsLeaveTheOlderImage :
    (∃ (s : State) (x : LaneId), (s.lane x).mask.has x = true ∧ (s.lane x).inRun = true ∧ (s.lane x).trip = none ∧ (s.lane
      x).nvm.dict.busy = none) ∧
    (∃ (s : State) (x : LaneId), (s.lane x).mask.has x = true ∧ (s.lane x).inRun = true ∧ (s.lane x).trip = none ∧ (s.lane
      x).nvm.dict.busy ≠ none) ∧
    (∃ (s : State) (x : LaneId) (c : Nat) (ms : Nat) (b : CommitRun), (c = 1 ∨ c = 2) ∧ ((s.lane x).nvm.cls c).busy = some b ∧
      (s.lane x).nvm.retag = none ∧ (s.lane x).trip = none ∧ ((s.lane x).nvm.cls c).cseq.toNat + 1 < 2 ^ 32) ∧
    (∃ (s : State) (x : LaneId) (r : Retag), (s.lane x).nvm.retag = some r ∧ (s.lane x).tamperActs = false ∧ r.dict = true) :=
  ⟨⟨st0, .B, by decide +kernel⟩,
    ⟨wLane (fun l => { l with nvm := { l.nvm with dict := { l.nvm.dict with busy := some ⟨1, [1], 1⟩ } } }), .A,
      by decide +kernel⟩,
    ⟨wLane (fun l =>
      { l with nvm := { l.nvm with dict := { l.nvm.dict with busy := some ⟨1, [1], 1⟩, rec0 := some rec1, bankA := [5, 6] } } }),
      .A, 1, 3, ⟨1, [1], 1⟩, by decide +kernel⟩,
    ⟨wLane (fun l =>
      { l with nvm := { l.nvm with retag := some ⟨true, false, { gens0 with sto := 2 }⟩, dict := { l.nvm.dict with rec0 := some rec1, bankA := [5, 6] } } }),
      .A, ⟨true, false, { gens0 with sto := 2 }⟩, by decide +kernel⟩⟩

/-- States and operands that meet the hypotheses of LanesTripAndReset, clause by clause. -/
theorem witness_LanesTripAndReset :
    (∃ (s : State) (x : LaneId) (p : Instr × Nat), s.arb.runs = true ∧ (s.lane x).life ≠ LaneLife.held ∧ (s.lane x).trip = none
      ∧ (p = (Instr.powerFailNFall x, 1) ∨ p = (Instr.inputMonitorTrip x, 2)) ∧ (s.lane x).meters = false) ∧
    (∃ (s : State) (x : LaneId), ((s.lane x).life = LaneLife.held ∨ (s.lane x).trip ≠ none)) ∧
    (∃ (s : State) (x : LaneId), (s.lane x).trip ≠ none ∧ LaneId.A ≠ x ∧ LaneId.B ≠ x ∧ s.arb.joining = true ∧ s.arb.joiner =
      x) ∧
    (∃ (s : State) (x : LaneId), (s.lane x).trip ≠ none ∧ LaneId.C ≠ x ∧ s.arb.joining = false) ∧
    (∃ (s : State) (x : LaneId), (s.lane x).life ≠ LaneLife.held ∧ LaneId.B ≠ x ∧ LaneId.C ≠ x ∧ (s.lane x).meters = true) ∧
    (∃ (s : State) (x : LaneId), (s.lane x).life ≠ LaneLife.held ∧ LaneId.A ≠ x) ∧
    (∃ (s : State) (x : LaneId) (corr : Bool) (site : EccSite) (addr : Nat), (s.lane x).life ≠ LaneLife.held ∧ corr = true ∧
      site ≠ EccSite.tile ∧ site ≠ EccSite.dram) ∧
    (∃ (s : State) (x : LaneId) (corr : Bool) (site : EccSite) (addr : Nat), (s.lane x).life ≠ LaneLife.held ∧ corr = false ∧
      site = EccSite.dram) ∧
    (∃ (s : State) (x : LaneId) (corr : Bool) (site : EccSite) (addr : Nat), (s.lane x).life ≠ LaneLife.held ∧ site =
      EccSite.tile) :=
  ⟨⟨st0, .A, (.powerFailNFall .A, 1), by decide +kernel⟩,
    ⟨State.reset, .A, by decide +kernel⟩,
    ⟨{ joinSt 3 4 id with c := { (lane0.setRj 4) with trip := some ⟨3, true⟩ } }, .C, by decide +kernel⟩,
    ⟨wLane (fun l => { l with trip := some ⟨3, true⟩ }), .A, by decide +kernel⟩,
    ⟨wLane (fun l => { l with leng := { l.leng with active := true } }), .A, by decide +kernel⟩,
    ⟨st0, .B, by decide +kernel⟩,
    ⟨st0, .B, true, .sram, 4294967295, by decide +kernel⟩,
    ⟨st0, .B, false, .dram, 4294967295, by decide +kernel⟩,
    ⟨st0, .B, true, .tile, 4294967295, by decide +kernel⟩⟩

/-- States and operands that meet the hypotheses of DeviceResetsKeepTheirRecords, clause by clause. -/
theorem witness_DeviceResetsKeepTheirRecords :
    (∃ (s : State), s.bak.holdFrom = none ∧ s.rtcLead = some LaneId.B) ∧
    (∃ (s : State) (h : Nat), s.bak.holdFrom = some h ∧ s.rtcLead = some LaneId.B) :=
  ⟨⟨{ st0 with b := { lane0 with rtc := { rtcReset with run := true, sec := 100 } }, a := { lane0 with rtc := { rtcReset with run := false } }, bak := { backupReset with holdFrom := none } },
      by decide +kernel⟩,
    ⟨{ st0 with b := { lane0 with rtc := { rtcReset with run := true, sec := 100 } }, a := { lane0 with rtc := { rtcReset with run := false } }, bak := { backupReset with holdFrom := some (90 * 2 ^ 32) } },
      90 * 2 ^ 32, by decide +kernel⟩⟩

set_option maxRecDepth 100000 in
/-- States and operands that meet the hypotheses of TheIslandIsConfiguredOnce, clause by clause. -/
theorem witness_TheIslandIsConfiguredOnce :
    (∃ (s : State) (b : Bytes) (w : Word), s.configOut = some (b, w) ∧ s.arb.mask.has LaneId.A = true ∧ s.arb.mask.has LaneId.B
      = true ∧ s.arb.mask.has LaneId.C = true ∧ s.isl.locked = false ∧ crc32 b = w) ∧
    (∃ (s : State) (b : Bytes) (w : Word), s.configOut = some (b, w) ∧ s.isl.locked = true) ∧
    (∃ (s : State) (b : Bytes) (w : Word), s.configOut = some (b, w) ∧ crc32 b ≠ w) ∧
    (∃ (s : State), s.configOut = none) :=
  ⟨⟨{ wLane (fun l => { l with cfgOut := some (block0, crc32 block0) }) with isl := { islandReset with locked := false } },
      block0, crc32 block0, by decide +kernel⟩,
    ⟨{ wLane (fun l => { l with cfgOut := some (block0, crc32 block0) }) with isl := { islandReset with locked := true } },
      block0, crc32 block0, by decide +kernel⟩,
    ⟨{ wLane (fun l => { l with cfgOut := some (block0, 7) }) with isl := { islandReset with locked := false } }, block0, 7,
      by decide +kernel⟩,
    ⟨st0, by decide +kernel⟩⟩

set_option maxRecDepth 100000 in
/-- States and operands that meet the hypotheses of ChannelsStopOnRequestsAndFaults, clause by clause. -/
theorem witness_ChannelsStopOnRequestsAndFaults :
    (∃ (s : State) (samples : List ChannelSample), (s.isl.faults = 0 ∧ (s.isl.locked = true → crc32 s.isl.block = s.isl.crc)) ∧
      s.isl.locked = true) ∧
    (∃ (s : State) (samples : List ChannelSample), crc32 s.isl.block ≠ s.isl.crc) :=
  ⟨⟨wIsl (run0) (id), [⟨16000, 5000, true, true⟩], by decide +kernel⟩,
    ⟨wIsl (run0) (fun i => { i with crc := 1 }), [⟨0, 5, true, true⟩], by decide +kernel⟩⟩

set_option maxRecDepth 100000 in
/-- States and operands that meet the hypotheses of ValidPulsesRestartStoppedChannels, clause by clause. -/
theorem witness_ValidPulsesRestartStoppedChannels :
    (∃ (s : State) (us : Nat) (samples : List ChannelSample), 50000 ≤ us ∧ us ≤ 3000000 ∧ s.isl.armed = true ∧ s.isl.stuck =
      false ∧ s.isl.faults = 0 ∧ (s.isl.locked = true → crc32 s.isl.block = s.isl.crc)) ∧
    (∃ (s : State) (us : Nat) (samples : List ChannelSample), (us < 50000 ∨ 3000000 < us ∨ s.isl.armed = false ∨ s.isl.stuck =
      true)) :=
  ⟨⟨wIsl { run0 with st := 3, gate := false } (fun i => { i with armed := true }), 50000, [⟨0, 0, false, false⟩],
      by decide +kernel⟩,
    ⟨wIsl { run0 with st := 3, gate := false } (fun i => { i with armed := true }), 49999, [⟨0, 0, false, false⟩],
      by decide +kernel⟩⟩

/-- States and operands that meet the hypotheses of IslandTestsLatchTheirFaults, clause by clause. -/
theorem witness_IslandTestsLatchTheirFaults :
    (∃ (s : State) (c : Instr) (b : Nat), s.arb.runs = true ∧ ((∃ (ppm : Int), c = Instr.clockCheck ppm ∧ 20000 < ppm.natAbs ∧
      b = 0) ∨ c = Instr.ramMarch false ∧ b = 1 ∨ (∃ (mv : Nat), c = Instr.vddSafeFault mv ∧ (mv < 1620 ∨ 1980 < mv) ∧ b = 3) ∨
      ∃ (us : Nat), c = Instr.cycleWatchdog us ∧ 300 ≤ us ∧ b = 4) ∧ s.isl.faults = 0) ∧
    (∃ (s : State) (ppm : Int), ppm.natAbs ≤ 20000) ∧
    (∃ (s : State) (mv : Nat), 1620 ≤ mv ∧ mv ≤ 1980) ∧
    (∃ (s : State) (us : Nat), us < 300) ∧
    (∃ (s : State) (n : Nat) (x : IslChannel) (fell : Bool) (rose : Bool), s.isl.ch[n]? = some x ∧ (x.st = 1 ∨ x.st = 2) ∧ fell
      = true) ∧
    (∃ (s : State) (src : Nat) (high : BitVec 16) (seen : BitVec 16), ((islCfg s.isl.block 3).mode = 0 ∨ (islCfg s.isl.block
      3).tpsrc ≠ src)) ∧
    (∃ (s : State) (w : BitVec 16), s.arb.runs = true ∧ s.arb.gateOpen = true ∧ 0 < s.arb.mask.count ∧ s.arb.stop = some w ∧
      s.arb.ticks ≠ s.isl.wordSeq) ∧
    (∃ (s : State), s.isl.newWord = none ∧ 3 ≤ s.isl.sinceWord) :=
  ⟨⟨wIsl run0 id, .clockCheck (-20001), 0, by decide +kernel, .inl ⟨_, rfl, by decide +kernel, rfl⟩, by decide +kernel⟩,
    ⟨st0, -20000, by decide +kernel⟩,
    ⟨st0, 1980, by decide +kernel⟩,
    ⟨st0, 299, by decide +kernel⟩,
    ⟨wIsl run0 id, 0, run0, true, false, by decide +kernel⟩,
    ⟨wIsl run0 id, 0, 0xFFFF, 0, by decide +kernel⟩,
    ⟨wArb (fun a => { openGate a with stop := some 3 }), 3, by decide +kernel⟩,
    ⟨{ st0 with isl := { islandReset with sinceWord := 3, newWord := none } }, by decide +kernel⟩⟩

/-- States and operands that meet the hypotheses of HostKeyJobsEndWithTheirStatus, clause by clause. -/
theorem witness_HostKeyJobsEndWithTheirStatus :
    (∃ (s : State) (x : LaneId) (len : Nat), (∀ (j : Nat × Nat), (s.lane x).key.job = some j → j.fst = 3) ∧ (s.lane
      x).tamperActs = false ∧ (s.lane x).key.ready = true ∧ (∀ (j : Nat × Nat), (s.lane x).key.job = some j → j.fst = 1) ∧
      leafOk (fget (s.lane x).regs f_KEY_PATH_DOMAIN) (fget (s.lane x).regs f_KEY_PATH_NUMBER) = true ∧ (∀ (j : Nat × Nat),
      (s.lane x).key.job = some j → j.fst = 2) ∧ 1 ≤ len ∧ len ≤ 64 ∧ (∀ (j : Nat × Nat), (s.lane x).key.job = some j → j.fst =
      4)) ∧
    (∃ (s : State) (x : LaneId) (len : Nat), leafOk (fget (s.lane x).regs f_KEY_PATH_DOMAIN) (fget (s.lane x).regs
      f_KEY_PATH_NUMBER) = false ∧ (s.lane x).key.host = none) ∧
    (∃ (s : State) (x : LaneId) (len : Nat), (s.lane x).key.ready = false) ∧
    (∃ (s : State) (x : LaneId) (len : Nat), (s.lane x).tamperActs = true) :=
  ⟨⟨keySt 4 2 (fun l =>
      { l with key := { l.key with host := some { dom := 4, num := 2, gDev := 0, gDom := 0, gLeaf := 0 } } }), .A, 64,
      by decide +kernel⟩,
    ⟨keySt 4 3 id, .A, 64, by decide +kernel⟩,
    ⟨st0, .A, 64, by decide +kernel⟩,
    ⟨wLane (fun l => { l with word := { l.word with tamper := true }, dict := l.dict.put 0x1400 1 [1] }), .A, 64,
      by decide +kernel⟩⟩

/-- States and operands that meet the hypotheses of RequestsBindAndReadTheirField, clause by clause. -/
theorem witness_RequestsBindAndReadTheirField :
    (∃ (s : State) (x : LaneId) (r : ExecReq) (m : Lane) (c : Instr) (k : Nat), (c, k) ∈ [(Instr.txRead x, 1), (Instr.txWrite
      x, 2), (Instr.txWriteStaged x, 3), (Instr.txCommit x, 4), (Instr.txAbort x, 5), (Instr.txSubscribe x, 6),
      (Instr.txUnsubscribe x, 7), (Instr.txSegmentRead x, 10), (Instr.txSegmentWrite x, 11), (Instr.txEcho x, 12),
      (Instr.txEnrol x, 13)] ∧ (s.lane x).Request x k r m ∧ m.OpenFor r ∧ (m.sess r.sess).st = 2 ∧ (m.sess r.sess).port =
      r.port ∧ k = 1 ∧ m.BoundFor r ∧ (natAt r.body 1 1).testBit 1 = false ∧ List.length (m.objRead (natAt (List.drop 4 r.body)
      0 2) (natAt (List.drop 4 r.body) 2 1)) ≤ 1320) ∧
    (∃ (s : State) (x : LaneId) (r : ExecReq) (m : Lane) (c : Instr) (k : Nat), (c, k) ∈ [(Instr.txRead x, 1), (Instr.txWrite
      x, 2), (Instr.txWriteStaged x, 3), (Instr.txCommit x, 4), (Instr.txAbort x, 5), (Instr.txSubscribe x, 6),
      (Instr.txUnsubscribe x, 7), (Instr.txSegmentRead x, 10), (Instr.txSegmentWrite x, 11), (Instr.txEcho x, 12),
      (Instr.txEnrol x, 13)] ∧ (s.lane x).Request x k r m ∧ (m.sess r.sess).st = 1 ∧ (m.dict.nat (4608 + r.sess) 4).testBit (if
      r.port = 255 then 63 else r.port) = true ∧ (k = 1 ∨ k = 12)) ∧
    (∃ (s : State) (x : LaneId) (r : ExecReq) (m : Lane) (c : Instr) (k : Nat), (c, k) ∈ [(Instr.txRead x, 1), (Instr.txWrite
      x, 2), (Instr.txWriteStaged x, 3), (Instr.txCommit x, 4), (Instr.txAbort x, 5), (Instr.txSubscribe x, 6),
      (Instr.txUnsubscribe x, 7), (Instr.txSegmentRead x, 10), (Instr.txSegmentWrite x, 11), (Instr.txEcho x, 12),
      (Instr.txEnrol x, 13)] ∧ (s.lane x).Request x k r m ∧ objDesc? (natAt (List.drop 4 r.body) 0 2) (natAt (List.drop 4
      r.body) 2 1) = none) ∧
    (∃ (s : State) (x : LaneId) (r : ExecReq) (m : Lane) (c : Instr) (k : Nat), (c, k) ∈ [(Instr.txRead x, 1), (Instr.txWrite
      x, 2), (Instr.txWriteStaged x, 3), (Instr.txCommit x, 4), (Instr.txAbort x, 5), (Instr.txSubscribe x, 6),
      (Instr.txUnsubscribe x, 7), (Instr.txSegmentRead x, 10), (Instr.txSegmentWrite x, 11), (Instr.txEcho x, 12),
      (Instr.txEnrol x, 13)] ∧ (s.lane x).Request x k r m ∧ (natAt r.body 1 1).testBit 1 = true) ∧
    (∃ (s : State) (x : LaneId) (r : ExecReq) (m : Lane) (c : Instr) (k : Nat), (c, k) ∈ [(Instr.txRead x, 1), (Instr.txWrite
      x, 2), (Instr.txWriteStaged x, 3), (Instr.txCommit x, 4), (Instr.txAbort x, 5), (Instr.txSubscribe x, 6),
      (Instr.txUnsubscribe x, 7), (Instr.txSegmentRead x, 10), (Instr.txSegmentWrite x, 11), (Instr.txEcho x, 12),
      (Instr.txEnrol x, 13)] ∧ (s.lane x).Request x k r m ∧ (¬m.OpenFor r)) ∧
    (∃ (s : State) (x : LaneId) (r : ExecReq) (m : Lane) (c : Instr) (k : Nat), (c, k) ∈ [(Instr.txRead x, 1), (Instr.txWrite
      x, 2), (Instr.txWriteStaged x, 3), (Instr.txCommit x, 4), (Instr.txAbort x, 5), (Instr.txSubscribe x, 6),
      (Instr.txUnsubscribe x, 7), (Instr.txSegmentRead x, 10), (Instr.txSegmentWrite x, 11), (Instr.txEcho x, 12),
      (Instr.txEnrol x, 13)] ∧ (s.lane x).Request x k r m ∧ k = 12) ∧
    (∃ (s : State) (x : LaneId) (r : ExecReq) (m : Lane) (c : Instr) (k : Nat), (c, k) ∈ [(Instr.txRead x, 1), (Instr.txWrite
      x, 2), (Instr.txWriteStaged x, 3), (Instr.txCommit x, 4), (Instr.txAbort x, 5), (Instr.txSubscribe x, 6),
      (Instr.txUnsubscribe x, 7), (Instr.txSegmentRead x, 10), (Instr.txSegmentWrite x, 11), (Instr.txEcho x, 12),
      (Instr.txEnrol x, 13)] ∧ (s.lane x).Request x k r m ∧ (List.find? (fun y => y.fst == k && y.snd.fst == natAt r.body 2 2)
      (m.sess r.sess).retry = some (1, 7, [1, 2]))) ∧
    (∃ (s : State) (x : LaneId) (r : ExecReq) (m : Lane) (c : Instr) (k : Nat), (c, k) ∈ [(Instr.txRead x, 1), (Instr.txWrite
      x, 2), (Instr.txWriteStaged x, 3), (Instr.txCommit x, 4), (Instr.txAbort x, 5), (Instr.txSubscribe x, 6),
      (Instr.txUnsubscribe x, 7), (Instr.txSegmentRead x, 10), (Instr.txSegmentWrite x, 11), (Instr.txEcho x, 12),
      (Instr.txEnrol x, 13)] ∧ (s.lane x).Request x k r m ∧ (m.dict.nat (4608 + r.sess) 4).testBit (if r.port = 255 then 63
      else r.port) = false) :=
  ⟨⟨reqSt (bdy 1 [0, 0x12, 3, 0]) (id), .A, req0 (bdy 1 [0, 0x12, 3, 0]), took (reqLane (bdy 1 [0, 0x12, 3, 0]) (id)), .txRead
      .A, 1, by decide +kernel, ⟨by decide +kernel, by decide +kernel, by decide +kernel, _, rfl, rfl, by decide +kernel⟩,
      by unfold Lane.OpenFor; decide +kernel, by decide +kernel, by decide +kernel, by decide +kernel,
      by unfold Lane.BoundFor Lane.OpenFor; decide +kernel, by decide +kernel, by decide +kernel⟩,
    ⟨reqSt (bdy 1 [0, 0x12, 3, 0]) (fun y => { y with st := 1 }), .A, req0 (bdy 1 [0, 0x12, 3, 0]), took (reqLane (bdy 1 [0,
      0x12, 3, 0]) (fun y => { y with st := 1 })), .txRead .A, 1, by decide +kernel, ⟨by decide +kernel, by decide +kernel,
      by decide +kernel, _, rfl, rfl, by decide +kernel⟩, by decide +kernel, by decide +kernel, by decide +kernel⟩,
    ⟨reqSt (bdy 1 [0x30, 0, 1, 0]) (id), .A, req0 (bdy 1 [0x30, 0, 1, 0]), took (reqLane (bdy 1 [0x30, 0, 1, 0]) (id)), .txRead
      .A, 1, by decide +kernel, ⟨by decide +kernel, by decide +kernel, by decide +kernel, _, rfl, rfl, by decide +kernel⟩,
      by decide +kernel⟩,
    ⟨reqSt ([1, 2, 7, 0, 0, 0x12, 3, 0]) (id), .A, req0 ([1, 2, 7, 0, 0, 0x12, 3, 0]), took (reqLane ([1, 2, 7, 0, 0, 0x12, 3,
      0]) (id)), .txRead .A, 1, by decide +kernel, ⟨by decide +kernel, by decide +kernel, by decide +kernel, _, rfl, rfl,
      by decide +kernel⟩, by decide +kernel⟩,
    ⟨reqSt (bdy 1 [0, 0x12, 3, 0]) (fun y => { y with epoch := 2 }), .A, req0 (bdy 1 [0, 0x12, 3, 0]), took (reqLane (bdy 1 [0,
      0x12, 3, 0]) (fun y => { y with epoch := 2 })), .txRead .A, 1, by decide +kernel, ⟨by decide +kernel, by decide +kernel,
      by decide +kernel, _, rfl, rfl, by decide +kernel⟩, by unfold Lane.OpenFor; decide +kernel⟩,
    ⟨reqSt (bdy 0xC [1, 2, 3]) (id), .A, req0 (bdy 0xC [1, 2, 3]), took (reqLane (bdy 0xC [1, 2, 3]) (id)), .txEcho .A, 0xC,
      by decide +kernel, ⟨by decide +kernel, by decide +kernel, by decide +kernel, _, rfl, rfl, by decide +kernel⟩,
      by decide +kernel⟩,
    ⟨reqSt (bdy 1 [0, 0x12, 3, 0]) (fun y => { y with retry := [(1, 7, [1, 2])] }), .A, req0 (bdy 1 [0, 0x12, 3, 0]), took
      (reqLane (bdy 1 [0, 0x12, 3, 0]) (fun y => { y with retry := [(1, 7, [1, 2])] })), .txRead .A, 1, by decide +kernel,
      ⟨by decide +kernel, by decide +kernel, by decide +kernel, _, rfl, rfl, by decide +kernel⟩, by decide +kernel⟩,
    ⟨{ st0 with a := { reqLane (bdy 1 [0, 0x12, 3, 0]) (fun y => { y with st := 1 }) with dict := (reqLane (bdy 1 [0, 0x12, 3, 0]) (fun y => { y with st := 1 })).dict.put 0x1200 4 (zeros 8) } },
      .A, req0 (bdy 1 [0, 0x12, 3, 0]), took
      { reqLane (bdy 1 [0, 0x12, 3, 0]) (fun y => { y with st := 1 }) with dict := (reqLane (bdy 1 [0, 0x12, 3, 0]) (fun y => { y with st := 1 })).dict.put 0x1200 4 (zeros 8) },
      .txRead .A, 1, by decide +kernel, ⟨by decide +kernel, by decide +kernel, by decide +kernel, _, rfl, rfl,
      by decide +kernel⟩, by decide +kernel⟩⟩

/-- States and operands that meet the hypotheses of WritesAreStagedAndWaitForTheirSlot, clause by clause. -/
theorem witness_WritesAreStagedAndWaitForTheirSlot :
    (∃ (s : State) (x : LaneId) (r : ExecReq) (m : Lane), m.BoundFor r ∧ (s.lane x).Request x 3 r m) ∧
    (∃ (s : State) (x : LaneId) (r : ExecReq) (m : Lane), m.BoundFor r ∧ (s.lane x).Request x 2 r m) ∧
    (∃ (s : State) (x : LaneId) (r : ExecReq) (m : Lane), m.BoundFor r ∧ (s.lane x).Request x 4 r m) ∧
    (∃ (s : State) (x : LaneId) (r : ExecReq) (m : Lane), m.BoundFor r ∧ (s.lane x).Request x 5 r m) ∧
    (∃ (s : State) (x : LaneId) (n : Nat), n < (s.lane x).dict.sessions.length ∧ ((s.lane x).sess n).staged ≠ [] ∧ (s.lane
      x).dict.nat (4608 + n) 7 * 20000 ≤ ((s.lane x).slot - ((s.lane x).sess n).stagedAt).toNat) ∧
    (∃ (s : State) (x : LaneId) (n : Nat), (((s.lane x).sess n).staged = [] ∨ ((s.lane x).slot - ((s.lane x).sess
      n).stagedAt).toNat < (s.lane x).dict.nat (4608 + n) 7 * 20000)) :=
  ⟨⟨reqSt (bdy 3 [0, 0x12, 3, 3, 2, 0, 5, 0]) (id), .A, req0 (bdy 3 [0, 0x12, 3, 3, 2, 0, 5, 0]), took (reqLane (bdy 3 [0,
      0x12, 3, 3, 2, 0, 5, 0]) (id)), by unfold Lane.BoundFor Lane.OpenFor; decide +kernel, ⟨by decide +kernel,
      by decide +kernel, by decide +kernel, _, rfl, rfl, by decide +kernel⟩⟩,
    ⟨reqSt (bdy 2 [0, 0x12, 3, 3, 2, 0, 5, 0]) (id), .A, req0 (bdy 2 [0, 0x12, 3, 3, 2, 0, 5, 0]), took (reqLane (bdy 2 [0,
      0x12, 3, 3, 2, 0, 5, 0]) (id)), by unfold Lane.BoundFor Lane.OpenFor; decide +kernel, ⟨by decide +kernel,
      by decide +kernel, by decide +kernel, _, rfl, rfl, by decide +kernel⟩⟩,
    ⟨reqSt (bdy 4 []) (id), .A, req0 (bdy 4 []), took (reqLane (bdy 4 []) (id)),
      by unfold Lane.BoundFor Lane.OpenFor; decide +kernel, ⟨by decide +kernel, by decide +kernel, by decide +kernel, _, rfl,
      rfl, by decide +kernel⟩⟩,
    ⟨reqSt (bdy 5 []) (id), .A, req0 (bdy 5 []), took (reqLane (bdy 5 []) (id)),
      by unfold Lane.BoundFor Lane.OpenFor; decide +kernel, ⟨by decide +kernel, by decide +kernel, by decide +kernel, _, rfl,
      rfl, by decide +kernel⟩⟩,
    ⟨wLane (fun l =>
      { l with slot := 12000001, dict := { l.dict with sessions := lmod l.dict.sessions 0 (fun y => { y with staged := [⟨0x1200, 3, [5, 0]⟩], stagedAt := 1 }) } }),
      .A, 0, by decide +kernel⟩,
    ⟨wLane (fun l =>
      { l with slot := 12000001, dict := { l.dict with sessions := lmod l.dict.sessions 0 (fun y => { y with staged := [⟨0x1200, 3, [5, 0]⟩], stagedAt := 2 }) } }),
      .A, 0, by decide +kernel⟩⟩

/-- States and operands that meet the hypotheses of SubscriptionsPublishWhenDue, clause by clause. -/
theorem witness_SubscriptionsPublishWhenDue :
    (∃ (s : State) (x : LaneId) (r : ExecReq) (m : Lane), m.BoundFor r ∧ (s.lane x).Request x 6 r m ∧ List.length (m.objRead
      (natAt (List.drop 4 r.body) 0 2) (natAt (List.drop 4 r.body) 2 1)) ≤ 1320 ∧ (m.sess r.sess).subs.length < 32 ∧ ((List.map
      (fun y => y.subs.length) m.dict.sessions).sum < 128)) ∧
    (∃ (s : State) (x : LaneId) (r : ExecReq) (m : Lane), m.BoundFor r ∧ (s.lane x).Request x 7 r m) ∧
    (∃ (s : State) (x : LaneId) (n : Nat), (s.lane x).working = true ∧ n < ((s.lane x).loopsRun x).dict.sessions.length ∧
      (((s.lane x).loopsRun x).sess n).st = 2 ∧ (((s.lane x).loopsRun x).sess n).published = false) ∧
    (∃ (s : State) (x : LaneId) (n : Nat), (s.lane x).working = true ∧ (((s.lane x).loopsRun x).sess n).published = true) :=
  ⟨⟨reqSt (bdy 6 [0, 0x12, 3, 0, 0, 0, 0, 0]) (id), .A, req0 (bdy 6 [0, 0x12, 3, 0, 0, 0, 0, 0]), took (reqLane (bdy 6 [0,
      0x12, 3, 0, 0, 0, 0, 0]) (id)), by unfold Lane.BoundFor Lane.OpenFor; decide +kernel, ⟨by decide +kernel,
      by decide +kernel, by decide +kernel, _, rfl, rfl, by decide +kernel⟩, by decide +kernel, by decide +kernel,
      by decide +kernel⟩,
    ⟨reqSt (bdy 7 [0xFF]) (fun y =>
      { y with subs := [{ id := 0, idx := 0x1200, sub := 3, onChange := false, period := 200, last := 39800, lastVal := [], sent := false }] }),
      .A, req0 (bdy 7 [0xFF]), took (reqLane (bdy 7 [0xFF]) (fun y =>
      { y with subs := [{ id := 0, idx := 0x1200, sub := 3, onChange := false, period := 200, last := 39800, lastVal := [], sent := false }] })),
      by unfold Lane.BoundFor Lane.OpenFor; decide +kernel, ⟨by decide +kernel, by decide +kernel, by decide +kernel, _, rfl,
      rfl, by decide +kernel⟩⟩,
    ⟨wLane (fun l =>
      { l with dict := { l.dict with sessions := lmod l.dict.sessions 0 (fun y => { y with st := 2, port := 0xFF, published := false, subs := [{ id := 0, idx := 0x1200, sub := 3, onChange := false, period := 200, last := 39800, lastVal := [], sent := false }, { id := 1, idx := 0x1200, sub := 3, onChange := true, period := 200, last := 39801, lastVal := [], sent := false }] }) } }),
      .A, 0, by decide +kernel⟩,
    ⟨wLane (fun l =>
      { l with dict := { l.dict with sessions := lmod l.dict.sessions 0 (fun y => { y with st := 2, port := 0xFF, published := true, subs := [{ id := 0, idx := 0x1200, sub := 3, onChange := false, period := 200, last := 39800, lastVal := [], sent := false }, { id := 1, idx := 0x1200, sub := 3, onChange := true, period := 200, last := 39801, lastVal := [], sent := false }] }) } }),
      .A, 0, by decide +kernel⟩⟩

/-- States and operands that meet the hypotheses of SegmentsCarryLongFields, clause by clause. -/
theorem witness_SegmentsCarryLongFields :
    (∃ (s : State) (x : LaneId) (r : ExecReq) (m : Lane), m.BoundFor r ∧ (s.lane x).Request x 10 r m ∧ natAt (List.drop 4
      r.body) 8 2 ≤ 1320 ∧ natAt (List.drop 4 r.body) 4 4 ≠ 0) ∧
    (∃ (s : State) (x : LaneId) (r : ExecReq) (m : Lane), m.BoundFor r ∧ (s.lane x).Request x 11 r m ∧ (m.sess r.sess).wx =
      none ∧ natAt (List.drop 4 r.body) 4 4 = 0 ∧ (List.drop 12 (List.drop 4 r.body)).length < natAt (List.drop 4 r.body) 8 4) ∧
    (∃ (s : State) (x : LaneId) (r : ExecReq) (m : Lane), m.BoundFor r ∧ List.length (m.objRead (natAt (List.drop 4 r.body) 0
      2) (natAt (List.drop 4 r.body) 2 1)) ≤ 16777216) ∧
    (∃ (s : State) (x : LaneId) (r : ExecReq) (m : Lane), m.BoundFor r ∧ 1320 < natAt (List.drop 4 r.body) 8 2) ∧
    (∃ (s : State) (x : LaneId) (r : ExecReq) (m : Lane), m.BoundFor r ∧ (m.sess r.sess).rs = none) ∧
    (∃ (s : State) (x : LaneId) (r : ExecReq) (m : Lane), m.BoundFor r ∧ objDesc? (natAt (List.drop 4 r.body) 0 2) (natAt
      (List.drop 4 r.body) 2 1) = none) ∧
    (∃ (s : State) (x : LaneId) (n : Nat) (q : ReadSnap), ((s.lane x).sess n).rs = some q) ∧
    (∃ (s : State) (x : LaneId) (n : Nat) (w : WriteXfer), ((s.lane x).sess n).wx = some w) :=
  ⟨⟨reqSt (bdy 0xA [0, 0x12, 3, 0, 1, 0, 0, 0, 2, 0]) (fun y =>
      { y with rs := some { idx := 0x1200, sub := 3, data := [1, 2, 3], snapSlot := 5, slot := 6 } }), .A, req0 (bdy 0xA [0,
      0x12, 3, 0, 1, 0, 0, 0, 2, 0]), took (reqLane (bdy 0xA [0, 0x12, 3, 0, 1, 0, 0, 0, 2, 0]) (fun y =>
      { y with rs := some { idx := 0x1200, sub := 3, data := [1, 2, 3], snapSlot := 5, slot := 6 } })),
      by unfold Lane.BoundFor Lane.OpenFor; decide +kernel, ⟨by decide +kernel, by decide +kernel, by decide +kernel, _, rfl,
      rfl, by decide +kernel⟩, by decide +kernel, by decide +kernel⟩,
    ⟨reqSt (bdy 0xB [0, 0x12, 5, 0xE, 0, 0, 0, 0, 16, 0, 0, 0, 8, 9]) (id), .A, req0 (bdy 0xB [0, 0x12, 5, 0xE, 0, 0, 0, 0, 16,
      0, 0, 0, 8, 9]), took (reqLane (bdy 0xB [0, 0x12, 5, 0xE, 0, 0, 0, 0, 16, 0, 0, 0, 8, 9]) (id)),
      by unfold Lane.BoundFor Lane.OpenFor; decide +kernel, ⟨by decide +kernel, by decide +kernel, by decide +kernel, _, rfl,
      rfl, by decide +kernel⟩, by decide +kernel, by decide +kernel, by decide +kernel⟩,
    ⟨reqSt (bdy 0xA [0, 0x12, 3, 0, 0, 0, 0, 0, 4, 0]) (id), .A, req0 (bdy 0xA [0, 0x12, 3, 0, 0, 0, 0, 0, 4, 0]), took
      (reqLane (bdy 0xA [0, 0x12, 3, 0, 0, 0, 0, 0, 4, 0]) (id)), by unfold Lane.BoundFor Lane.OpenFor; decide +kernel,
      by decide +kernel⟩,
    ⟨reqSt (bdy 0xA [0, 0x12, 3, 0, 0, 0, 0, 0, 0x29, 5]) (id), .A, req0 (bdy 0xA [0, 0x12, 3, 0, 0, 0, 0, 0, 0x29, 5]), took
      (reqLane (bdy 0xA [0, 0x12, 3, 0, 0, 0, 0, 0, 0x29, 5]) (id)), by unfold Lane.BoundFor Lane.OpenFor; decide +kernel,
      by decide +kernel⟩,
    ⟨reqSt (bdy 0xA [0, 0x12, 3, 0, 1, 0, 0, 0, 2, 0]) (id), .A, req0 (bdy 0xA [0, 0x12, 3, 0, 1, 0, 0, 0, 2, 0]), took
      (reqLane (bdy 0xA [0, 0x12, 3, 0, 1, 0, 0, 0, 2, 0]) (id)), by unfold Lane.BoundFor Lane.OpenFor; decide +kernel,
      by decide +kernel⟩,
    ⟨reqSt (bdy 0xB [0, 0x12, 119, 0xE, 0, 0, 0, 0, 16, 0, 0, 0, 8, 9]) (id), .A, req0 (bdy 0xB [0, 0x12, 119, 0xE, 0, 0, 0, 0,
      16, 0, 0, 0, 8, 9]), took (reqLane (bdy 0xB [0, 0x12, 119, 0xE, 0, 0, 0, 0, 16, 0, 0, 0, 8, 9]) (id)),
      by unfold Lane.BoundFor Lane.OpenFor; decide +kernel, by decide +kernel⟩,
    ⟨wLane (fun l =>
      { l with slot := 1200006, dict := { l.dict with sessions := lmod l.dict.sessions 7 (fun y => { y with rs := some { idx := 0x1200, sub := 3, data := [1, 2, 3], snapSlot := 5, slot := 6 } }) } }),
      .A, 7, { idx := 0x1200, sub := 3, data := [1, 2, 3], snapSlot := 5, slot := 6 }, by decide +kernel⟩,
    ⟨wLane (fun l =>
      { l with slot := 1200006, dict := { l.dict with sessions := lmod l.dict.sessions 7 (fun y => { y with wx := some { idx := 0x1200, sub := 5, type := 0xE, total := 16, data := [1, 2], slot := 6 } }) } }),
      .A, 7, { idx := 0x1200, sub := 5, type := 0xE, total := 16, data := [1, 2], slot := 6 }, by decide +kernel⟩⟩

/-- States and operands that meet the hypotheses of EnrolmentsAndAuthenticationFollowTheirRules, clause by clause. -/
theorem witness_EnrolmentsAndAuthenticationFollowTheirRules :
    (∃ (s : State) (x : LaneId) (r : ExecReq) (m : Lane), m.BoundFor r ∧ (s.lane x).Request x 13 r m ∧ (r.port == 255 ||
      m.dict.nat (4608 + r.sess) 2 == 0) = true ∧ m.keyA.enrols.length < 9 ∧ m.keyA.enrols = [] ∧ m.keyA.enrolEnd ≠ some
      m.slot) ∧
    (∃ (s : State) (x : LaneId) (r : ExecReq) (m : Lane), m.BoundFor r ∧ (s.lane x).Request x 13 r m ∧ 9 ≤
      m.keyA.enrols.length) ∧
    (∃ (s : State) (x : LaneId) (j : EnrolJob) (js : List EnrolJob) (t0 : BitVec 64), (s.lane x).keyA.enrols = j :: js ∧
      j.start = some t0 ∧ t0 + 199 = (s.lane x).slot ∧ j.sess < (s.lane x).dict.sessions.length ∧ ((s.lane x).sess j.sess).st =
      2) ∧
    (∃ (s : State) (x : LaneId) (j : EnrolJob) (js : List EnrolJob) (t0 : BitVec 64), (s.lane x).keyA.enrols = j :: js ∧
      j.start = some t0 ∧ t0 + 199 = (s.lane x).slot ∧ 3 < (s.lane x).dict.sessions.length) ∧
    (∃ (s : State) (x : LaneId) (n : Nat), n < (s.lane x).dict.sessions.length ∧ ((s.lane x).sess n).spent = false ∧ ((s.lane
      x).sess n).epoch < 65535 ∧ (2 ^ 31 ≤ ((s.lane x).sess n).txCount ∨ 2 ^ 31 ≤ ((s.lane x).sess n).rxCount)) ∧
    (∃ (s : State) (x : LaneId) (f : RxFrame) (fs : List RxFrame), (s.lane x).agree.rxq = f :: fs ∧ (s.lane x).agree.held =
      false ∧ (s.lane x).agree.taken = false ∧ f.substation = false ∧ ((s.lane x).statRoom + offerBytes (s.lane x).agree.offer
      + 12 + if f.substation = true then 128 else List.length f.bytes - 40) ≤ 4696 ∧ natAt f.bytes 10 2 = List.length f.bytes ∧
      44 ≤ List.length f.bytes ∧ List.length f.bytes ≤ 1400 ∧ natAt f.bytes 0 1 = 1 ∧ natAt f.bytes 2 2 = 0 ∧ natAt f.bytes 13
      1 = 0 ∧ (s.lane x).tamperActs = false ∧ (s.lane x).key.ready = true ∧ natAt f.bytes 1 1 = 3 ∧ ((s.lane x).sess 3).st ≠ 0
      ∧ natAt f.bytes 8 2 = ((s.lane x).sess 3).epoch) ∧
    (∃ (s : State) (x : LaneId) (f : RxFrame) (fs : List RxFrame), (s.lane x).agree.rxq = f :: fs ∧ (s.lane x).agree.held =
      false ∧ (s.lane x).agree.taken = false ∧ f.substation = true ∧ List.length f.bytes = 128 ∧ natAt f.bytes 1 1 = 1 ∧ natAt
      f.bytes 0 1 = 81 ∧ natAt f.bytes 8 4 = (s.lane x).keyA.gens.leafGen 2 (natAt f.bytes 2 2 % 4096)) ∧
    (∃ (s : State) (x : LaneId) (f : RxFrame) (fs : List RxFrame), (s.lane x).agree.rxq = f :: fs ∧ (s.lane x).agree.held =
      false ∧ (s.lane x).agree.taken = false ∧ List.length f.bytes ≠ 128) ∧
    (∃ (s : State) (x : LaneId) (f : RxFrame) (fs : List RxFrame), (s.lane x).agree.rxq = f :: fs ∧ (s.lane x).agree.held =
      false ∧ (s.lane x).agree.taken = false) ∧
    (∃ (s : State) (x : LaneId) (f : RxFrame) (fs : List RxFrame), (s.lane x).agree.rxq = f :: fs ∧ (s.lane x).agree.held =
      false ∧ (s.lane x).agree.taken = false ∧ ((s.lane x).sess (natAt f.bytes 1 1 % 8)).st = 0) ∧
    (∃ (s : State) (x : LaneId) (f : RxFrame) (fs : List RxFrame), (s.lane x).agree.rxq = f :: fs ∧ (s.lane x).agree.held =
      false ∧ (s.lane x).agree.taken = false ∧ 4696 < (s.lane x).statRoom + offerBytes (s.lane x).agree.offer + 12 + if
      f.substation = true then 128 else List.length f.bytes - 40) :=
  ⟨⟨reqSt (bdy 0xD ([4, 0, 2, 0] ++ zeros 97)) id, .A, req0 (bdy 0xD ([4, 0, 2, 0] ++ zeros 97)), took (reqLane (bdy 0xD ([4,
      0, 2, 0] ++ zeros 97)) id), by unfold Lane.BoundFor Lane.OpenFor; decide +kernel, ⟨by decide +kernel, by decide +kernel,
      by decide +kernel, [], by decide +kernel, by decide +kernel, by decide +kernel⟩, by decide +kernel, by decide +kernel,
      by decide +kernel, by decide +kernel⟩,
    ⟨{ st0 with a := { reqLane (bdy 0xD ([4, 0, 2, 0] ++ zeros 97)) id with keyA := { lane0.keyA with enrols := List.replicate 9 { sess := 0, mailbox := true, tid := 9, body := [], start := none, tamper := false } } } },
      .A, req0 (bdy 0xD ([4, 0, 2, 0] ++ zeros 97)), took
      ({ reqLane (bdy 0xD ([4, 0, 2, 0] ++ zeros 97)) id with keyA := { lane0.keyA with enrols := List.replicate 9 { sess := 0, mailbox := true, tid := 9, body := [], start := none, tamper := false } } }),
      by unfold Lane.BoundFor Lane.OpenFor; decide +kernel, ⟨by decide +kernel, by decide +kernel, by decide +kernel, [],
      by decide +kernel, by decide +kernel, by decide +kernel⟩, by decide +kernel⟩,
    ⟨wLane (fun l =>
      { l with keyA := { l.keyA with enrols := [{ sess := 0, mailbox := true, tid := 7, body := [9], start := some 39801, tamper := false }] }, dict := { l.dict with sessions := lmod l.dict.sessions 0 (fun y => { y with st := 2, port := 0xFF }) } }),
      .A, { sess := 0, mailbox := true, tid := 7, body := [9], start := some 39801, tamper := false }, [], 39801,
      by decide +kernel⟩,
    ⟨wLane (fun l =>
      { l with keyA := { l.keyA with enrols := [{ sess := 0, mailbox := true, tid := 7, body := [1, 0, 2, 0] ++ ecEncode g384, start := some 39801, tamper := false }] }, dict := { ((l.dict.put 0x1200 3 [2, 0]).put 0x1201 3 [2, 0]).put 0x1200 1 [1] with sessions := lmod (lmod l.dict.sessions 0 (fun y => { y with st := 2, port := 0xFF, keyClosed := true, epoch := 4 })) 1 (fun y => { y with keyClosed := true, epoch := 65535 }) } }),
      .A,
      { sess := 0, mailbox := true, tid := 7, body := [1, 0, 2, 0] ++ ecEncode g384, start := some 39801, tamper := false },
      [], 39801, by decide +kernel⟩,
    ⟨wLane (fun l =>
      { l with dict := { l.dict with sessions := lmod l.dict.sessions 0 (fun y => { y with st := 2, txCount := 2147483648, epoch := 65534 }) } }),
      .A, 0, by decide +kernel⟩,
    ⟨wLane (fun l =>
      { l with key := { l.key with ready := true }, dict := { l.dict with sessions := lmod l.dict.sessions 3 (fun y => { y with st := 2, epoch := 7 }) }, agree := { l.agree with rxq := [{ port := 3, addr := 0, uport := 0, substation := false, bytes := ([1, 3, 0, 0, 9, 0, 0, 0, 7, 0, 48, 0, 0, 0] ++ zeros 10) ++ zeros 8 ++ zeros 16 }] } }),
      .A,
      { port := 3, addr := 0, uport := 0, substation := false, bytes := ([1, 3, 0, 0, 9, 0, 0, 0, 7, 0, 48, 0, 0, 0] ++ zeros 10) ++ zeros 8 ++ zeros 16 },
      [], by decide +kernel⟩,
    ⟨wLane (fun l =>
      { l with key := { l.key with ready := true }, agree := { l.agree with rxq := [{ port := 3, addr := 0, uport := 0, substation := true, bytes := [0x51, 1, 4, 0] ++ zeros 124 }] } }),
      .A, { port := 3, addr := 0, uport := 0, substation := true, bytes := [0x51, 1, 4, 0] ++ zeros 124 }, [],
      by decide +kernel⟩,
    ⟨wLane (fun l =>
      { l with key := { l.key with ready := true }, agree := { l.agree with rxq := [{ port := 3, addr := 0, uport := 0, substation := true, bytes := List.replicate 127 0 }] } }),
      .A, { port := 3, addr := 0, uport := 0, substation := true, bytes := List.replicate 127 0 }, [], by decide +kernel⟩,
    ⟨wLane (fun l =>
      { l with key := { l.key with ready := true }, agree := { l.agree with rxq := [{ port := 3, addr := 0, uport := 0, substation := true, bytes := [0x51, 1, 4, 0] ++ zeros 116 ++ ((cmac (lane0.keyA.gens.path 2 4).key ([0x51, 1, 4, 0] ++ zeros 116)).take 8) }] } }),
      .A,
      { port := 3, addr := 0, uport := 0, substation := true, bytes := [0x51, 1, 4, 0] ++ zeros 116 ++ ((cmac (lane0.keyA.gens.path 2 4).key ([0x51, 1, 4, 0] ++ zeros 116)).take 8) },
      [], rfl, by decide +kernel, by decide +kernel⟩,
    ⟨wLane (fun l =>
      { l with agree := { l.agree with rxq := [{ port := 3, addr := 0, uport := 0, substation := false, bytes := zeros 100 }] } }),
      .A, { port := 3, addr := 0, uport := 0, substation := false, bytes := zeros 100 }, [], by decide +kernel⟩,
    ⟨wLane (fun l =>
      { l with agree := { l.agree with rxq := [{ port := 3, addr := 0, uport := 0, substation := false, bytes := zeros 100 }], offer := List.replicate 1 ⟨0, 0, 0, 0, zeros 4613⟩ } }),
      .A, { port := 3, addr := 0, uport := 0, substation := false, bytes := zeros 100 }, [], by decide +kernel⟩⟩

/-- States and operands that meet the hypotheses of EdgesAdvanceAndSetTheClock, clause by clause. -/
theorem witness_EdgesAdvanceAndSetTheClock :
    (∃ (s : State) (x : LaneId) (n : Nat) (e : Nat) (mv : Nat), s.arb.stall = none ∧ s.arb.delayed = [] ∧ s.arb.cmds = [] ∧
      (s.lane x).rtc.acts = [] ∧ LaneId.B ≠ x ∧ LaneId.C ≠ x ∧ (decide ((s.lane x).life ≠ LaneLife.held) && decide ((s.lane
      x).rj ≠ 1)) = true ∧ (s.lane x).rtc.slewLeft ≠ 1) ∧
    (∃ (s : State) (x : LaneId) (n : Nat) (e : Nat) (mv : Nat), s.arb.stall = none ∧ s.arb.delayed = [] ∧ s.arb.cmds = [] ∧
      (s.lane x).rtc.slewLeft = 1) ∧
    (∃ (s : State) (x : LaneId) (n : Nat) (e : Nat) (mv : Nat), s.arb.stall = none ∧ s.arb.delayed = [] ∧ s.arb.cmds = [] ∧
      (decide ((s.lane x).life ≠ LaneLife.held) && decide ((s.lane x).rj ≠ 1)) = false) ∧
    (∃ (s : State) (x : LaneId) (n : Nat) (e : Nat) (mv : Nat), s.arb.stall = none ∧ s.arb.delayed = [] ∧ s.arb.cmds = [] ∧
      (s.lane x).rtc.acts = [RtcAct.align 5]) ∧
    (∃ (s : State) (x : LaneId) (n : Nat) (e : Nat) (mv : Nat), s.arb.stall = none ∧ s.arb.delayed = [] ∧ s.arb.cmds = [] ∧
      (s.lane x).rtc.acts = [RtcAct.align (-2)]) ∧
    (∃ (s : State) (x : LaneId) (n : Nat) (e : Nat) (mv : Nat), s.arb.stall = none ∧ s.arb.delayed = [] ∧ s.arb.cmds = [] ∧
      (s.lane x).rtc.acts = [RtcAct.zero]) ∧
    (∃ (s : State) (x : LaneId) (n : Nat) (e : Nat) (mv : Nat), s.arb.stall = none ∧ s.arb.delayed = [] ∧ s.arb.cmds = [] ∧
      (s.lane x).rtc.acts = [RtcAct.step (2 ^ 33)]) ∧
    (∃ (s : State) (x : LaneId) (n : Nat) (e : Nat) (mv : Nat), s.arb.stall = none ∧ s.arb.delayed = [] ∧ s.arb.cmds = [] ∧
      (s.lane x).rtc.acts = [RtcAct.timeset (7 * 2 ^ 33)]) ∧
    (∃ (s : State) (x : LaneId) (n : Nat) (e : Nat) (mv : Nat), s.arb.stall = none ∧ s.arb.delayed = [] ∧ s.arb.cmds = [] ∧
      (s.lane x).rtc.acts = [RtcAct.wday 4]) ∧
    (∃ (s : State) (x : LaneId) (n : Nat) (e : Nat) (mv : Nat), s.arb.stall = none ∧ s.arb.delayed = [] ∧ s.arb.cmds = [] ∧
      (s.lane x).rtc.acts = [RtcAct.phase 86401]) :=
  ⟨⟨rtcSt id, .A, 800000000, 0, 2900, by decide +kernel⟩,
    ⟨rtcSt (fun r => { r with slewLeft := 1, delta := -5, phase := 60, wday := 3 }), .A, 800000000, 0, 2900, by decide +kernel⟩,
    ⟨{ rtcSt id with a := { (rtcSt id).a with life := .held } }, .A, 800000000, 0, 2900, by decide +kernel⟩,
    ⟨rtcSt (fun r => { r with acts := [.align 5] }), .A, 800000000, 65536, 2900, by decide +kernel⟩,
    ⟨rtcSt (fun r => { r with acts := [.align (-2)] }), .A, 800000000, 65536, 2900, by decide +kernel⟩,
    ⟨rtcSt (fun r => { r with acts := [.zero] }), .A, 800000000, 65536, 2900, by decide +kernel⟩,
    ⟨rtcSt (fun r => { r with acts := [.step (2 ^ 33)] }), .A, 800000000, 65536, 2900, by decide +kernel⟩,
    ⟨rtcSt (fun r => { r with acts := [.timeset (7 * 2 ^ 33)] }), .A, 800000000, 65536, 2900, by decide +kernel⟩,
    ⟨rtcSt (fun r => { r with acts := [.wday 4] }), .A, 800000000, 65536, 2900, by decide +kernel⟩,
    ⟨rtcSt (fun r => { r with acts := [.phase 86401] }), .A, 800000000, 65536, 2900, by decide +kernel⟩⟩

/-- States and operands that meet the hypotheses of TheBackupDomainKeepsTimeAndTamper, clause by clause. -/
theorem witness_TheBackupDomainKeepsTimeAndTamper :
    (∃ (s : State) (x : LaneId) (sub : Int), (s.lane x).followDue x = true ∧ 10 * (((s.lane x).rtc.ticks : Int) + sub -
      (((s.lane x).img.dtNsTotal * 2 ^ 32 / 1000000000 : Nat) : Int)).natAbs ≤ 2 ^ 32) ∧
    (∃ (s : State) (x : LaneId) (sub : Int), (s.lane x).followDue x = true ∧ 2 ^ 32 < 10 * (((s.lane x).rtc.ticks : Int) + sub
      - (((s.lane x).img.dtNsTotal * 2 ^ 32 / 1000000000 : Nat) : Int)).natAbs) ∧
    (∃ (s : State) (x : LaneId) (sub : Int), (s.lane x).followDue x = false) ∧
    (∃ (s : State) (x : LaneId), (s.lane x).working = true ∧ (s.lane x).step1 = false ∧ (s.lane x).leapDue = true ∧ (s.lane
      x).dict.reqs = [] ∧ (s.lane x).vw = [] ∧ (s.lane x).tamperNew = false) ∧
    (∃ (s : State) (x : LaneId), ((s.lane x).working = false ∨ (s.lane x).step1 = true ∨ (s.lane x).leapDue = false)) ∧
    (∃ (s : State), s.bak.active = true) ∧
    (∃ (s : State) (i : Nat), s.bak.active = false ∧ s.arb.runs = true ∧ s.bak.log[i]? = some none ∧ (∀ (j : Nat), j < i → ∃ (e
      : TamperEntry), s.bak.log[j]? = some (some e)) ∧ s.rtcLead = some LaneId.A) ∧
    (∃ (s : State), s.bak.active = false ∧ (∀ (e : Option TamperEntry), e ∈ s.bak.log → e ≠ none)) ∧
    (∃ (s : State), s.arb.runs = true ∧ s.bak.log[3]? = some none) ∧
    (∃ (s : State), s.arb.runs = false) ∧
    (∃ (s : State) (mv : Nat), s.arb.runs = true ∧ s.bak.chEnable = true ∧ s.bak.atLimit = false ∧ s.bak.chVlimit ≤ mv ∧
      (s.bak.atLimit = false ∨ s.bak.chVlimit < mv + 50)) ∧
    (∃ (s : State) (mv : Nat), (s.arb.runs = false ∨ s.bak.chEnable = false ∨ s.bak.atLimit = true ∨ mv < s.bak.chVlimit) ∧
      s.bak.atLimit = true ∧ mv + 50 ≤ s.bak.chVlimit) :=
  ⟨⟨wLane (fun l =>
      { l with slot := 40000, rtc := { rtcReset with run := true, sec := 1000, frac := 5 }, mask := LaneSet.full, word := { l.word with sync := true }, img := { l.img with dtSec := 1000, dtNs := 0 } }),
      .A, 0, by decide +kernel⟩,
    ⟨wLane (fun l =>
      { l with slot := 40000, rtc := { rtcReset with run := true, sec := 1000, frac := 5 }, mask := LaneSet.full, word := { l.word with sync := true }, img := { l.img with dtSec := 1001, dtNs := 0 } }),
      .A, 0, by decide +kernel⟩,
    ⟨State.reset, .A, 0, by decide +kernel⟩,
    ⟨wLane (fun l =>
      { l with img := { l.img with dtSec := 3000 }, dict := (l.dict.put 0x1320 2 [0xFF]).put 0x1320 3 (leBytes 10 2000) }), .A,
      by decide +kernel⟩,
    ⟨st0, .A, by decide +kernel⟩,
    ⟨{ st0 with bak := { backupReset with active := true } }, by decide +kernel⟩,
    ⟨{ st0 with b := { lane0 with rtc := { rtcReset with run := true, sec := 9 } }, bak := { backupReset with log := [some (ent true), none, none, none] } },
      1, by decide +kernel, by decide +kernel, by decide +kernel, fun j h => ⟨ent true,
      by have h0 : j = 0 := (by omega); subst h0; rfl⟩, by decide +kernel⟩,
    ⟨{ st0 with bak := { backupReset with log := List.replicate 4 (some (ent false)), lost := 15 } }, by decide +kernel⟩,
    ⟨{ st0 with bak := { backupReset with log := [some (ent true), some (ent false), none, none] } }, by decide +kernel⟩,
    ⟨State.reset, by decide +kernel⟩,
    ⟨{ st0 with bak := { backupReset with chEnable := true, atLimit := false } }, 3000, by decide +kernel⟩,
    ⟨{ st0 with bak := { backupReset with chEnable := true, atLimit := true } }, 2950, by decide +kernel⟩⟩

/-- States and operands that meet the hypotheses of SetsApplyAtTheirCommitSlot, clause by clause. -/
theorem witness_SetsApplyAtTheirCommitSlot :
    (∃ (s : State) (x : LaneId), (s.lane x).working = true ∧ (s.lane x).step1 = false ∧ (s.lane x).tamperNew = false ∧ (s.lane
      x).leapDue = false ∧ (s.lane x).vw = [] ∧ (s.lane x).solver.held = []) ∧
    (∃ (s : State) (x : LaneId), ((s.lane x).working = false ∨ (s.lane x).step1 = true)) ∧
    (∃ (s : State) (x : LaneId), (s.lane x).dict.reqs = []) :=
  ⟨⟨commitSt (creq ⟨0x5000, 5, [100, 0, 0, 0]⟩ 4) (id), .A, by decide +kernel⟩,
    ⟨State.reset, .A, by decide +kernel⟩,
    ⟨st0, .A, by decide +kernel⟩⟩

/-- States and operands that meet the hypotheses of LoopsSwapBanksAndTracesObey, clause by clause. -/
theorem witness_LoopsSwapBanksAndTracesObey :
    (∃ (s : State) (x : LaneId) (n : Nat), (s.lane x).dict.flag (16384 + n) 1 = true ∧ ((s.lane x).dict.flag (16384 + n) 1 =
      false ∨ ((s.lane x).loop n).pend = true) ∧ (s.lane x).dict.enabledLoops.Nodup ∧ (s.lane x).agree.stage = SlotStage.imaged
      ∧ ((s.lane x).dict.flag (16384 + n) 1 && decide ((s.lane x).slot.toNat % rateD ((s.lane x).dict.nat (16384 + n) 2) =
      (s.lane x).dict.nat (16384 + n) 3)) = true ∧ ((s.lane x).loop n).pend = true ∧ n < (s.lane x).leng.traces.length) ∧
    (∃ (s : State) (x : LaneId) (n : Nat), ((s.lane x).loop n).pend = false ∧ (∀ (k : Nat), k ∈ (s.lane x).dict.enabledLoops →
      (s.lane x).dict.flag (16384 + k) 1 = true ∧ ((s.lane x).loop k).pend = false)) :=
  ⟨⟨wLane (fun l =>
      { l with dict := ((l.dict.put 0x4003 1 [1]).put 0x4003 2 [8]).put 0x4003 0x1B [0x21], leng := { l.leng with loops := [(3, { running := true, bank := false, pend := true, clamp := 0, nonfin := false, rawOut := 0, out := 0, err := 0, nfcnt := 0 })], secs := [(0, 1, 2), (1, 3, 4)] } }),
      .A, 3, by decide +kernel⟩,
    ⟨wLane (fun l =>
      { l with dict := ((l.dict.put 0x4003 1 [1]).put 0x4003 2 [8]).put 0x4003 0x1B [0x21], leng := { l.leng with loops := [(3, { running := true, bank := false, pend := false, clamp := 0, nonfin := false, rawOut := 0, out := 0, err := 0, nfcnt := 0 })], secs := [(0, 1, 2), (1, 3, 4)] } }),
      .A, 3, by decide +kernel⟩⟩

/-- States and operands that meet the hypotheses of InstructionsDoWhatTheirTableSays, clause by clause. -/
theorem witness_InstructionsDoWhatTheirTableSays :
    (∃ (s : State) (x : LaneId) (im : LImage) (w : Word) (a : Nat) (area : Nat), (s.lane x).lseq.exec.running = true ∧ (s.lane
      x).lseq.image = some im ∧ im.prog[(s.lane x).lseq.exec.idx]? = some w ∧ (BitVec.toNat w / 2 ^ 24 = 8 ∧ BitVec.toNat w / 2
      ^ 20 % 16 = area ∧ BitVec.toNat w % 2 ^ 20 = a ∧ (s.lane x).lseq.exec.clocks + 2 ≤ (s.lane x).lseq.exec.budget) ∧ (¬(area
      = 1 ∧ a ≤ 63 ∧ (s.lane x).dict.loopOwned 2 a = true)) ∧ (s.lane x).lseq.exec.stack = [(false, true), (true, false)] ∧
      (s.lane x).lseq.run ≠ 2) ∧
    (∃ (s : State) (x : LaneId) (im : LImage) (w : Word) (a : Nat) (area : Nat), (s.lane x).lseq.exec.running = true ∧ (s.lane
      x).lseq.image = some im ∧ im.prog[(s.lane x).lseq.exec.idx]? = some w ∧ (BitVec.toNat w / 2 ^ 24 = 10 ∧ BitVec.toNat w /
      2 ^ 20 % 16 = area ∧ BitVec.toNat w % 2 ^ 20 = a ∧ (s.lane x).lseq.exec.clocks + 2 ≤ (s.lane x).lseq.exec.budget) ∧
      (¬((area = 1 ∧ a ≤ 63 ∧ (s.lane x).dict.loopOwned 2 a = true) ∧ (s.lane x).lseq.exec.acc = true))) ∧
    (∃ (s : State) (x : LaneId) (im : LImage) (w : Word) (a : Nat) (area : Nat), (s.lane x).lseq.exec.running = true ∧ (s.lane
      x).lseq.image = some im ∧ im.prog[(s.lane x).lseq.exec.idx]? = some w ∧ (s.lane x).lseq.exec.stack = [(true, false)] ∧
      (BitVec.toNat w / 2 ^ 24 = 18 ∧ BitVec.toNat w / 2 ^ 20 % 16 = 0 ∧ BitVec.toNat w % 2 ^ 20 = 0 ∧ (s.lane
      x).lseq.exec.clocks + 2 ≤ (s.lane x).lseq.exec.budget)) ∧
    (∃ (s : State) (x : LaneId) (im : LImage) (w : Word) (a : Nat) (area : Nat), (s.lane x).lseq.exec.running = true ∧ (s.lane
      x).lseq.image = some im ∧ im.prog[(s.lane x).lseq.exec.idx]? = some w ∧ (BitVec.toNat w / 2 ^ 24 = 57 ∧ BitVec.toNat w /
      2 ^ 20 % 16 = area ∧ BitVec.toNat w % 2 ^ 20 = a ∧ (s.lane x).lseq.exec.clocks + 3 ≤ (s.lane x).lseq.exec.budget) ∧
      (¬(36864 ≤ a ∧ (s.lane x).dict.loopOwned 1 (a - 36864) = true))) ∧
    (∃ (s : State) (x : LaneId) (im : LImage) (w : Word) (a : Nat) (area : Nat), (s.lane x).lseq.exec.running = true ∧ (s.lane
      x).lseq.image = some im ∧ im.prog[(s.lane x).lseq.exec.idx]? = some w ∧ (BitVec.toNat w / 2 ^ 24 = 9 ∧ BitVec.toNat w / 2
      ^ 20 % 16 = area ∧ BitVec.toNat w % 2 ^ 20 = a ∧ (s.lane x).lseq.exec.clocks + 2 ≤ (s.lane x).lseq.exec.budget)) ∧
    (∃ (s : State) (x : LaneId) (im : LImage) (w : Word) (a : Nat) (area : Nat), (s.lane x).lseq.exec.running = true ∧ (s.lane
      x).lseq.image = some im ∧ im.prog[(s.lane x).lseq.exec.idx]? = some w ∧ (BitVec.toNat w / 2 ^ 24 = 11 ∧ BitVec.toNat w /
      2 ^ 20 % 16 = area ∧ BitVec.toNat w % 2 ^ 20 = a ∧ (s.lane x).lseq.exec.clocks + 2 ≤ (s.lane x).lseq.exec.budget)) ∧
    (∃ (s : State) (x : LaneId) (im : LImage) (w : Word) (a : Nat) (area : Nat), (s.lane x).lseq.exec.running = true ∧ (s.lane
      x).lseq.image = some im ∧ im.prog[(s.lane x).lseq.exec.idx]? = some w ∧ (BitVec.toNat w / 2 ^ 24 = 16 ∧ BitVec.toNat w /
      2 ^ 20 % 16 = 0 ∧ BitVec.toNat w % 2 ^ 20 = 0 ∧ (s.lane x).lseq.exec.clocks + 2 ≤ (s.lane x).lseq.exec.budget)) ∧
    (∃ (s : State) (x : LaneId) (im : LImage) (w : Word) (a : Nat) (area : Nat), (s.lane x).lseq.exec.running = true ∧ (s.lane
      x).lseq.image = some im ∧ im.prog[(s.lane x).lseq.exec.idx]? = some w ∧ (BitVec.toNat w / 2 ^ 24 = 17 ∧ BitVec.toNat w /
      2 ^ 20 % 16 = 0 ∧ BitVec.toNat w % 2 ^ 20 = 0 ∧ (s.lane x).lseq.exec.clocks + 2 ≤ (s.lane x).lseq.exec.budget)) ∧
    (∃ (s : State) (x : LaneId) (im : LImage) (w : Word) (a : Nat) (area : Nat), (s.lane x).lseq.exec.running = true ∧ (s.lane
      x).lseq.image = some im ∧ im.prog[(s.lane x).lseq.exec.idx]? = some w ∧ (BitVec.toNat w / 2 ^ 24 = 56 ∧ BitVec.toNat w /
      2 ^ 20 % 16 = area ∧ BitVec.toNat w % 2 ^ 20 = a ∧ (s.lane x).lseq.exec.clocks + 3 ≤ (s.lane x).lseq.exec.budget)) ∧
    (∃ (s : State) (x : LaneId) (im : LImage) (w : Word) (a : Nat) (area : Nat), (s.lane x).lseq.exec.running = true ∧ (s.lane
      x).lseq.image = some im ∧ im.prog[(s.lane x).lseq.exec.idx]? = some w ∧ (BitVec.toNat w / 2 ^ 24 = 58 ∧ BitVec.toNat w /
      2 ^ 20 % 16 = area ∧ BitVec.toNat w % 2 ^ 20 = a ∧ (s.lane x).lseq.exec.clocks + 2 ≤ (s.lane x).lseq.exec.budget)) ∧
    (∃ (s : State) (x : LaneId) (im : LImage) (w : Word) (a : Nat) (area : Nat), (s.lane x).lseq.exec.running = true ∧ (s.lane
      x).lseq.image = some im ∧ im.prog[(s.lane x).lseq.exec.idx]? = some w ∧ (BitVec.toNat w / 2 ^ 24 = 59 ∧ BitVec.toNat w /
      2 ^ 20 % 16 = 0 ∧ BitVec.toNat w % 2 ^ 20 = 0 ∧ (s.lane x).lseq.exec.clocks + 1 ≤ (s.lane x).lseq.exec.budget)) ∧
    (∃ (s : State) (x : LaneId) (im : LImage) (w : Word) (a : Nat) (area : Nat), (s.lane x).lseq.exec.running = true ∧ (s.lane
      x).lseq.image = some im ∧ im.prog[(s.lane x).lseq.exec.idx]? = some w ∧ (BitVec.toNat w / 2 ^ 24 = 80 ∧ BitVec.toNat w /
      2 ^ 20 % 16 = 0 ∧ BitVec.toNat w % 2 ^ 20 = a ∧ (s.lane x).lseq.exec.clocks + 2 ≤ (s.lane x).lseq.exec.budget)) ∧
    (∃ (s : State) (x : LaneId) (im : LImage) (w : Word) (a : Nat) (area : Nat), (s.lane x).lseq.exec.running = true ∧ (s.lane
      x).lseq.image = some im ∧ im.prog[(s.lane x).lseq.exec.idx]? = some w ∧ (BitVec.toNat w / 2 ^ 24 = 81 ∧ BitVec.toNat w /
      2 ^ 20 % 16 = 0 ∧ BitVec.toNat w % 2 ^ 20 = a ∧ (s.lane x).lseq.exec.clocks + 2 ≤ (s.lane x).lseq.exec.budget)) ∧
    (∃ (s : State) (x : LaneId) (im : LImage) (w : Word) (a : Nat) (area : Nat), (s.lane x).lseq.exec.running = true ∧ (s.lane
      x).lseq.image = some im ∧ im.prog[(s.lane x).lseq.exec.idx]? = some w ∧ (BitVec.toNat w / 2 ^ 24 = 255 ∧ BitVec.toNat w /
      2 ^ 20 % 16 = 0 ∧ BitVec.toNat w % 2 ^ 20 = 0 ∧ (s.lane x).lseq.exec.clocks + 4 ≤ (s.lane x).lseq.exec.budget)) ∧
    (∃ (s : State) (x : LaneId) (im : LImage) (w : Word) (a : Nat) (area : Nat), (s.lane x).lseq.exec.running = true ∧ (s.lane
      x).lseq.image = some im ∧ im.prog[(s.lane x).lseq.exec.idx]? = some w ∧ (area = 1 ∧ a ≤ 63 ∧ (s.lane x).dict.loopOwned 2
      a = true)) ∧
    (∃ (s : State) (x : LaneId) (op : Nat) (area : Nat) (a : Nat) (c : Instr), (c, op, area, a) ∈ [(Instr.seqLd x area a, 1,
      area, a), (Instr.seqSt x area a, 8, area, a), (Instr.seqLw x area a, 56, area, a), (Instr.seqCeq x area a, 64, area, a),
      (Instr.seqJmp x a, 80, 0, a), (Instr.seqEnd x, 255, 0, 0)] ∧ ((s.lane x).lseq.exec.running = false ∨ ∃ (im : LImage), ∃
      (w : Word), (s.lane x).lseq.image = some im ∧ im.prog[(s.lane x).lseq.exec.idx]? = some w ∧ ¬(BitVec.toNat w / 2 ^ 24 =
      op ∧ BitVec.toNat w / 2 ^ 20 % 16 = area ∧ BitVec.toNat w % 2 ^ 20 = a))) :=
  ⟨⟨seqSt (opw 8 1 63) (fun q =>
      { q with inI := [(5, true)], work := { q.work with q := [(5, true)] }, flags := [(5, true)], counters := [(0, ⟨2, none, none⟩)] }),
      .A, im0 [opw 8 1 63], opw 8 1 63, 63, 1, by decide +kernel⟩,
    ⟨seqSt (opw 10 1 63) (fun q =>
      { q with inI := [(5, true)], work := { q.work with q := [(5, true)] }, flags := [(5, true)], counters := [(0, ⟨2, none, none⟩)] }),
      .A, im0 [opw 10 1 63], opw 10 1 63, 63, 1, by decide +kernel⟩,
    ⟨seqSt (opw 18 0 0) (fun q => { q with exec := { q.exec with stack := [(true, false)] } }), .A, im0 [opw 18 0 0], opw 18 0
      0, 0, 0, by decide +kernel⟩,
    ⟨seqSt (opw 57 6 36879) (id), .A, im0 [opw 57 6 36879], opw 57 6 36879, 36879, 6, by decide +kernel⟩,
    ⟨seqSt (opw 9 1 63) (fun q =>
      { q with inI := [(5, true)], work := { q.work with q := [(5, true)] }, flags := [(5, true)], counters := [(0, ⟨2, none, none⟩)] }),
      .A, im0 [opw 9 1 63], opw 9 1 63, 63, 1, by decide +kernel⟩,
    ⟨seqSt (opw 11 1 63) (fun q =>
      { q with inI := [(5, true)], work := { q.work with q := [(5, true)] }, flags := [(5, true)], counters := [(0, ⟨2, none, none⟩)] }),
      .A, im0 [opw 11 1 63], opw 11 1 63, 63, 1, by decide +kernel⟩,
    ⟨seqSt (opw 16 0 0) (id), .A, im0 [opw 16 0 0], opw 16 0 0, 0, 0, by decide +kernel⟩,
    ⟨seqSt (opw 17 0 0) (id), .A, im0 [opw 17 0 0], opw 17 0 0, 0, 0, by decide +kernel⟩,
    ⟨seqSt (opw 56 7 0) (id), .A, im0 [opw 56 7 0], opw 56 7 0, 0, 7, by decide +kernel⟩,
    ⟨seqSt (opw 58 7 0) (id), .A, im0 [opw 58 7 0], opw 58 7 0, 0, 7, by decide +kernel⟩,
    ⟨seqSt (opw 59 0 0) (id), .A, im0 [opw 59 0 0], opw 59 0 0, 0, 0, by decide +kernel⟩,
    ⟨seqSt (opw 80 0 3) (id), .A, im0 [opw 80 0 3], opw 80 0 3, 3, 0, by decide +kernel⟩,
    ⟨seqSt (opw 81 0 3) (id), .A, im0 [opw 81 0 3], opw 81 0 3, 3, 0, by decide +kernel⟩,
    ⟨seqSt (opw 255 0 0) (id), .A, im0 [opw 255 0 0], opw 255 0 0, 0, 0, by decide +kernel⟩,
    ⟨wLane (fun l =>
      { seqLane (opw 8 1 5) id with dict := ((l.dict.put 0x4003 1 [1]).put 0x4003 0x14 [2]).put 0x4003 0x15 [5] }), .A, im0
      [opw 8 1 5], opw 8 1 5, 5, 1, by decide +kernel⟩,
    ⟨seqSt (opw 1 0 5) id, .A, 1, 0, 6, .seqLd .A 0 6, by decide +kernel, .inr ⟨_, _, rfl, rfl, by decide +kernel⟩⟩⟩

/-- States and operands that meet the hypotheses of TimersCountersAndEdgesRemember, clause by clause. -/
theorem witness_TimersCountersAndEdgesRemember :
    (∃ (s : State) (x : LaneId) (im : LImage) (w : Word) (n : Nat), (s.lane x).lseq.exec.running = true ∧ (s.lane x).lseq.image
      = some im ∧ im.prog[(s.lane x).lseq.exec.idx]? = some w ∧ (BitVec.toNat w / 2 ^ 24 = 33 ∧ BitVec.toNat w / 2 ^ 20 % 16 =
      3 ∧ BitVec.toNat w % 2 ^ 20 = n ∧ (s.lane x).lseq.exec.clocks + 6 ≤ (s.lane x).lseq.exec.budget) ∧ (s.lane
      x).lseq.exec.acc = false ∧ ((mget (fun x => timer0) (s.lane x).lseq.timers n).prev ≠ some true) ∧ ((mget (fun x =>
      timer0) (s.lane x).lseq.timers n).timing = true)) ∧
    (∃ (s : State) (x : LaneId) (im : LImage) (w : Word) (n : Nat), (s.lane x).lseq.exec.running = true ∧ (s.lane x).lseq.image
      = some im ∧ im.prog[(s.lane x).lseq.exec.idx]? = some w ∧ (BitVec.toNat w / 2 ^ 24 = 34 ∧ BitVec.toNat w / 2 ^ 20 % 16 =
      3 ∧ BitVec.toNat w % 2 ^ 20 = n ∧ (s.lane x).lseq.exec.clocks + 6 ≤ (s.lane x).lseq.exec.budget) ∧ ((mget (fun x =>
      timer0) (s.lane x).lseq.timers n).timing = false) ∧ (s.lane x).lseq.exec.acc = true ∧ ((s.lane x).lseq.exec.acc = false ∨
      (mget (fun x => timer0) (s.lane x).lseq.timers n).prev ≠ some false)) ∧
    (∃ (s : State) (x : LaneId) (im : LImage) (w : Word) (n : Nat), (s.lane x).lseq.exec.running = true ∧ (s.lane x).lseq.image
      = some im ∧ im.prog[(s.lane x).lseq.exec.idx]? = some w ∧ (BitVec.toNat w / 2 ^ 24 = 40 ∧ BitVec.toNat w / 2 ^ 20 % 16 =
      4 ∧ BitVec.toNat w % 2 ^ 20 = n ∧ (s.lane x).lseq.exec.clocks + 5 ≤ (s.lane x).lseq.exec.budget) ∧ (-2147483648 ≤ (mget
      (fun x => counter0) (s.lane x).lseq.counters n).cv) ∧ ((mget (fun x => counter0) (s.lane x).lseq.counters n).cv ≤
      2147483647)) ∧
    (∃ (s : State) (x : LaneId) (im : LImage) (w : Word) (n : Nat), (s.lane x).lseq.exec.running = true ∧ (s.lane x).lseq.image
      = some im ∧ im.prog[(s.lane x).lseq.exec.idx]? = some w ∧ (BitVec.toNat w / 2 ^ 24 = 32 ∧ BitVec.toNat w / 2 ^ 20 % 16 =
      3 ∧ BitVec.toNat w % 2 ^ 20 = n ∧ (s.lane x).lseq.exec.clocks + 6 ≤ (s.lane x).lseq.exec.budget) ∧ ((mget (fun x =>
      timer0) (s.lane x).lseq.timers n).prev = some true)) ∧
    (∃ (s : State) (x : LaneId) (im : LImage) (w : Word) (n : Nat), (s.lane x).lseq.exec.running = true ∧ (s.lane x).lseq.image
      = some im ∧ im.prog[(s.lane x).lseq.exec.idx]? = some w ∧ ((mget (fun x => timer0) (s.lane x).lseq.timers n).prev = some
      false)) ∧
    (∃ (s : State) (x : LaneId) (im : LImage) (w : Word) (n : Nat), (s.lane x).lseq.exec.running = true ∧ (s.lane x).lseq.image
      = some im ∧ im.prog[(s.lane x).lseq.exec.idx]? = some w ∧ (BitVec.toNat w / 2 ^ 24 = 41 ∧ BitVec.toNat w / 2 ^ 20 % 16 =
      4 ∧ BitVec.toNat w % 2 ^ 20 = n ∧ (s.lane x).lseq.exec.clocks + 5 ≤ (s.lane x).lseq.exec.budget)) ∧
    (∃ (s : State) (x : LaneId) (im : LImage) (w : Word) (n : Nat), (s.lane x).lseq.exec.running = true ∧ (s.lane x).lseq.image
      = some im ∧ im.prog[(s.lane x).lseq.exec.idx]? = some w ∧ (BitVec.toNat w / 2 ^ 24 = 42 ∧ BitVec.toNat w / 2 ^ 20 % 16 =
      4 ∧ BitVec.toNat w % 2 ^ 20 = n ∧ (s.lane x).lseq.exec.clocks + 5 ≤ (s.lane x).lseq.exec.budget)) ∧
    (∃ (s : State) (x : LaneId) (im : LImage) (w : Word) (n : Nat), (s.lane x).lseq.exec.running = true ∧ (s.lane x).lseq.image
      = some im ∧ im.prog[(s.lane x).lseq.exec.idx]? = some w ∧ (BitVec.toNat w / 2 ^ 24 = 48 ∧ BitVec.toNat w / 2 ^ 20 % 16 =
      5 ∧ BitVec.toNat w % 2 ^ 20 = n ∧ (s.lane x).lseq.exec.clocks + 3 ≤ (s.lane x).lseq.exec.budget)) ∧
    (∃ (s : State) (x : LaneId) (im : LImage) (w : Word) (n : Nat), (s.lane x).lseq.exec.running = true ∧ (s.lane x).lseq.image
      = some im ∧ im.prog[(s.lane x).lseq.exec.idx]? = some w ∧ (BitVec.toNat w / 2 ^ 24 = 49 ∧ BitVec.toNat w / 2 ^ 20 % 16 =
      5 ∧ BitVec.toNat w % 2 ^ 20 = n ∧ (s.lane x).lseq.exec.clocks + 3 ≤ (s.lane x).lseq.exec.budget)) :=
  ⟨⟨seqSt (opw 33 3 0) (fun q =>
      { q with exec := { q.exec with acc := false }, timers := [(0, ⟨some false, 5, true, true⟩)] }), .A, im0 [opw 33 3 0], opw
      33 3 0, 0, by decide +kernel⟩,
    ⟨seqSt (opw 34 3 0) (fun q =>
      { q with exec := { q.exec with acc := true }, timers := [(0, ⟨some true, 5, false, true⟩)] }), .A, im0 [opw 34 3 0], opw
      34 3 0, 0, by decide +kernel⟩,
    ⟨seqSt (opw 40 4 0) (fun q =>
      { q with exec := { q.exec with acc := true }, counters := [(0, ⟨2147483647, some false, some false⟩)] }), .A, im0 [opw 40
      4 0], opw 40 4 0, 0, by decide +kernel⟩,
    ⟨seqSt (opw 32 3 0) (fun q => { q with exec := { q.exec with acc := true }, timers := [(0, ⟨some true, 5, true, true⟩)] }),
      .A, im0 [opw 32 3 0], opw 32 3 0, 0, by decide +kernel⟩,
    ⟨seqSt (opw 34 3 0) (fun q =>
      { q with exec := { q.exec with acc := true }, timers := [(0, ⟨some false, 5, false, true⟩)] }), .A, im0 [opw 34 3 0], opw
      34 3 0, 0, by decide +kernel⟩,
    ⟨seqSt (opw 41 4 0) (fun q =>
      { q with exec := { q.exec with acc := true }, counters := [(0, ⟨2147483647, some false, some false⟩)] }), .A, im0 [opw 41
      4 0], opw 41 4 0, 0, by decide +kernel⟩,
    ⟨seqSt (opw 42 4 0) (fun q =>
      { q with exec := { q.exec with acc := true }, counters := [(0, ⟨2147483647, some false, some false⟩)] }), .A, im0 [opw 42
      4 0], opw 42 4 0, 0, by decide +kernel⟩,
    ⟨seqSt (opw 48 5 0) (fun q => { q with exec := { q.exec with acc := true }, edges := [(0, none)] }), .A, im0 [opw 48 5 0],
      opw 48 5 0, 0, by decide +kernel⟩,
    ⟨seqSt (opw 49 5 0) (fun q => { q with exec := { q.exec with acc := true }, edges := [(0, none)] }), .A, im0 [opw 49 5 0],
      opw 49 5 0, 0, by decide +kernel⟩⟩

/-- States and operands that meet the hypotheses of CyclesBeginStopAndRestart, clause by clause. -/
theorem witness_CyclesBeginStopAndRestart :
    (∃ (s : State) (x : LaneId) (im : LImage), (s.lane x).agree.stage = SlotStage.imaged ∧ (s.lane x).step1 = true ∧ (s.lane
      x).step3 = true ∧ (s.lane x).step4 = true ∧ (s.lane x).step5 = true ∧ (s.lane x).step6 = false ∧ (s.lane x).solver.asked
      = true ∧ (s.lane x).leng.active = true ∧ (s.lane x).lseq.image = some im ∧ (s.lane x).lseq.blanketDue = false ∧ (s.lane
      x).lseq.nextFirst.testBit 3 = false ∧ (s.lane x).lseq.restart = none ∧ (s.lane x).lseq.run ≠ 2 ∧ ((s.lane x).slot -
      (s.lane x).lseq.cycle).toNat = im.len ∧ (s.lane x).lseq.due = false) ∧
    (∃ (s : State) (x : LaneId) (im : LImage), (s.lane x).agree.stage = SlotStage.imaged ∧ (s.lane x).step1 = true ∧ (s.lane
      x).step3 = true ∧ (s.lane x).step4 = true ∧ (s.lane x).step5 = true ∧ (s.lane x).step6 = false ∧ (s.lane x).solver.asked
      = true ∧ (s.lane x).leng.active = true ∧ (s.lane x).lseq.image = some im ∧ (s.lane x).lseq.blanketDue = false ∧ (s.lane
      x).lseq.nextFirst.testBit 3 = false ∧ (s.lane x).lseq.due = true) ∧
    (∃ (s : State) (x : LaneId) (im : LImage), (s.lane x).agree.stage = SlotStage.imaged ∧ (s.lane x).step1 = true ∧ (s.lane
      x).step3 = true ∧ (s.lane x).step4 = true ∧ (s.lane x).step5 = true ∧ (s.lane x).step6 = false ∧ (s.lane x).solver.asked
      = true ∧ (s.lane x).leng.active = true ∧ (s.lane x).lseq.image = some im ∧ (s.lane x).lseq.blanketDue = false ∧ (s.lane
      x).lseq.nextFirst.testBit 3 = false ∧ (s.lane x).lseq.restart = some false) ∧
    (∃ (s : State) (x : LaneId) (im : LImage), (s.lane x).agree.stage = SlotStage.imaged ∧ (s.lane x).step1 = true ∧ (s.lane
      x).step3 = true ∧ (s.lane x).step4 = true ∧ (s.lane x).step5 = true ∧ (s.lane x).step6 = false ∧ (s.lane x).solver.asked
      = true ∧ (s.lane x).leng.active = true ∧ (s.lane x).lseq.image = some im ∧ (s.lane x).lseq.blanketDue = false ∧ (s.lane
      x).lseq.nextFirst.testBit 3 = false ∧ (s.lane x).lseq.restart = some true) ∧
    (∃ (s : State) (x : LaneId) (im : LImage) (w : Word), (s.lane x).lseq.exec.running = true ∧ (s.lane x).lseq.image = some im
      ∧ im.prog[(s.lane x).lseq.exec.idx]? = some w ∧ (s.lane x).lseq.exec.clocks + opClocks (BitVec.toNat w / 2 ^ 24) ≤
      (s.lane x).lseq.exec.budget) ∧
    (∃ (s : State) (x : LaneId) (im : LImage) (w : Word), (s.lane x).lseq.exec.running = true ∧ (s.lane x).lseq.image = some im
      ∧ im.prog[(s.lane x).lseq.exec.idx]? = some w ∧ (s.lane x).lseq.exec.budget < (s.lane x).lseq.exec.clocks + opClocks
      (BitVec.toNat w / 2 ^ 24)) ∧
    (∃ (s : State) (x : LaneId) (im : LImage), (s.lane x).lseq.image = some im ∧ (s.lane x).lseq.exec.running = true ∧ im.len ≤
      ((s.lane x).slot - (s.lane x).lseq.cycle).toNat) ∧
    (∃ (s : State) (x : LaneId) (im : LImage), (s.lane x).lseq.image = some im ∧ ((s.lane x).lseq.exec.running = false ∨
      ((s.lane x).slot - (s.lane x).lseq.cycle).toNat < im.len)) :=
  ⟨⟨{ st0 with a := cycLane (id) }, .A, im0 [opw 1 0 5, opw 0x38 6 3], by decide +kernel⟩,
    ⟨{ st0 with a := cycLane (fun q => { q with due := true, own := { q.own with q := [(0x1003, true)], w := [(4, -5)] } }) },
      .A, im0 [opw 1 0 5, opw 0x38 6 3], by decide +kernel⟩,
    ⟨{ st0 with a := cycLane (fun q => { q with restart := some false, stopTl := 3, timers := [(0, ⟨some true, 5, true, false⟩)], run := 2 }) },
      .A, im0 [opw 1 0 5, opw 0x38 6 3], by decide +kernel⟩,
    ⟨{ st0 with a := cycLane (fun q => { q with restart := some true, flags := [(1, true)], counters := [(0, ⟨5, none, none⟩)] }) },
      .A, im0 [opw 1 0 5, opw 0x38 6 3], by decide +kernel⟩,
    ⟨seqSt (opw 1 0 5) (fun q => { q with exec := { q.exec with clocks := 90, budget := 100 } }), .A, im0 [opw 1 0 5], opw 1 0
      5, by decide +kernel⟩,
    ⟨seqSt (opw 1 0 5) (fun q => { q with exec := { q.exec with clocks := 99, budget := 100 } }), .A, im0 [opw 1 0 5], opw 1 0
      5, by decide +kernel⟩,
    ⟨seqSt (opw 1 0 5) (fun q => { q with cycle := 39979 }), .A, im0 [opw 1 0 5], by decide +kernel⟩,
    ⟨seqSt (opw 1 0 5) (fun q => { q with cycle := 39981 }), .A, im0 [opw 1 0 5], by decide +kernel⟩⟩

/-- States and operands that meet the hypotheses of ImagesAreCheckedSwappedAndRetained, clause by clause. -/
theorem witness_ImagesAreCheckedSwappedAndRetained :
    (∃ (s : State) (x : LaneId) (bs : Bytes) (c : BitVec 64), (s.lane x).lseq.checking = some (bs, c)) ∧
    (∃ (s : State) (x : LaneId), (s.lane x).lseq.checking = none) ∧
    (∃ (s : State) (x : LaneId) (im : LImage) (c : BitVec 64), (s.lane x).agree.stage = SlotStage.imaged ∧ (s.lane x).step3 =
      false ∧ (s.lane x).lseq.pendImg = some (im, c) ∧ (s.lane x).cycleStarts = true ∧ c.toNat + 100 ≤ (s.lane x).slot.toNat ∧
      (s.lane x).lseq.restart ≠ some true) ∧
    (∃ (s : State) (x : LaneId) (im : LImage) (c : BitVec 64), (s.lane x).agree.stage = SlotStage.imaged ∧ (s.lane x).step3 =
      false ∧ (s.lane x).lseq.pendImg = some (im, c) ∧ ((s.lane x).cycleStarts = false ∨ (s.lane x).slot.toNat < c.toNat +
      100)) ∧
    (∃ (s : State) (x : LaneId) (im : LImage) (c : BitVec 64), (s.lane x).agree.stage = SlotStage.imaged ∧ (s.lane x).step3 =
      false ∧ (s.lane x).lseq.pendImg = some (im, c) ∧ (s.lane x).lseq.restart = some true) ∧
    (∃ (s : State) (x : LaneId) (bs : Bytes) (c : BitVec 64), (s.lane x).agree.stage = SlotStage.imaged ∧ (s.lane
      x).lseq.checking = some (bs, c) ∧ (s.lane x).cycleStarts = true ∧ c.toNat + 100 ≤ (s.lane x).slot.toNat) ∧
    (∃ (s : State) (x : LaneId) (bs : Bytes) (c : BitVec 64), (s.lane x).agree.stage = SlotStage.imaged ∧ (s.lane
      x).lseq.checking = some (bs, c) ∧ ((s.lane x).cycleStarts = false ∨ (s.lane x).slot.toNat < c.toNat + 100)) ∧
    (∃ (s : State) (x : LaneId) (im : LImage), (s.lane x).lseq.run = 1 ∧ (s.lane x).lseq.image = some im ∧ (s.lane x).lseq.due
      = true ∧ (s.lane x).lseq.tl / (1000 * max 1 ((s.lane x).dict.nat 20480 5)) ≠ (s.lane x).lseq.lastRetain) ∧
    (∃ (s : State) (x : LaneId) (im : LImage), (s.lane x).lseq.run = 1 ∧ (s.lane x).lseq.image = some im ∧ (s.lane x).lseq.due
      = true ∧ (s.lane x).lseq.tl / (1000 * max 1 ((s.lane x).dict.nat 20480 5)) = (s.lane x).lseq.lastRetain) :=
  ⟨⟨{ st0 with a := cycLane (fun q => { q with checking := some (zeros 100, 5) }) }, .A, zeros 100, 5, by decide +kernel⟩,
    ⟨st0, .A, by decide +kernel⟩,
    ⟨{ st0 with a := { cycLane (fun q => { q with pendImg := some (im0 [], 39900), timers := [(0, ⟨some true, 5, true, false⟩), (1, ⟨none, 3, true, true⟩)], counters := [(0, ⟨7, none, none⟩)], edges := [(0, some true), (1, some true)], flags := [(3, true)], restart := none }) with step3 := false } },
      .A, im0 [], 39900, by decide +kernel⟩,
    ⟨{ st0 with a := { cycLane (fun q => { q with pendImg := some (im0 [], 39901), timers := [(0, ⟨some true, 5, true, false⟩), (1, ⟨none, 3, true, true⟩)], counters := [(0, ⟨7, none, none⟩)], edges := [(0, some true), (1, some true)], flags := [(3, true)], restart := none }) with step3 := false } },
      .A, im0 [], 39901, by decide +kernel⟩,
    ⟨{ st0 with a := { cycLane (fun q => { q with pendImg := some (im0 [], 39900), timers := [(0, ⟨some true, 5, true, false⟩), (1, ⟨none, 3, true, true⟩)], counters := [(0, ⟨7, none, none⟩)], edges := [(0, some true), (1, some true)], flags := [(3, true)], restart := some true }) with step3 := false } },
      .A, im0 [], 39900, by decide +kernel⟩,
    ⟨{ st0 with a := cycLane (fun q => { q with checking := some ([1], 39900) }) }, .A, [1], 39900, by decide +kernel⟩,
    ⟨{ st0 with a := cycLane (fun q => { q with checking := some ([1], 39901) }) }, .A, [1], 39901, by decide +kernel⟩,
    ⟨{ st0 with a := cycLane (fun q => { q with due := true, tl := 1000000000, timers := [(0, ⟨some true, 5, true, false⟩)], flags := [(3, true)], lastRetain := 0, retainSeq := 4 }) },
      .A, im0 [opw 1 0 5, opw 0x38 6 3], by decide +kernel⟩,
    ⟨{ st0 with a := cycLane (fun q => { q with due := true, tl := 5, timers := [(0, ⟨some true, 5, true, false⟩)], flags := [(3, true)], lastRetain := 0, retainSeq := 4 }) },
      .A, im0 [opw 1 0 5, opw 0x38 6 3], by decide +kernel⟩⟩

/-- States and operands that meet the hypotheses of FeedersCloseLatchAndSense, clause by clause. -/
theorem witness_FeedersCloseLatchAndSense :
    (∃ (s : State) (x : LaneId) (f : Nat), ((s.lane x).working = false ∨ (s.lane x).meters = false)) ∧
    (∃ (s : State) (x : LaneId) (f : Nat), (s.lane x).working = true ∧ (s.lane x).meters = true ∧ f < 4 ∧ f < ((s.lane
      x).loopsRun x).feeders.length ∧ ((s.lane x).loopsRun x).feeder f = (s.lane x).feeder f ∧ (((s.lane x).loopsRun
      x).dict.feederCfg f).enable = true ∧ (((s.lane x).loopsRun x).feeder f).stage = 0 ∧ feederLate (((s.lane x).loopsRun
      x).dict.feederCfg f) = false ∧ (((s.lane x).loopsRun x).feeder f).held = none ∧ flt fmt64 0 ((((s.lane x).loopsRun
      x).mtrSample (((s.lane x).loopsRun x).dict.feederCfg f) f).x.getD (((s.lane x).loopsRun x).dict.feederCfg f).refPhase 0)
      = false ∧ (((s.lane x).loopsRun x).feeder f).mode = FeederMode.nozc ∧ (((s.lane x).loopsRun x).feeder f).tOpen +
      ↑(((s.lane x).loopsRun x).dict.feederCfg f).pnom ≤ tSlot ((s.lane x).loopsRun x).slot.toNat ∧ tSlot ((s.lane x).loopsRun
      x).slot.toNat < (((s.lane x).loopsRun x).feeder f).tOpen + 2 * ↑(((s.lane x).loopsRun x).dict.feederCfg f).pnom ∧
      ((((s.lane x).loopsRun x).feederCloses f).feeder f).stage = 1 ∧ ((((s.lane x).loopsRun x).feederCloses f).feeder
      f).acc.cycles < (((s.lane x).loopsRun x).dict.feederCfg f).latchN ∧ ((((s.lane x).loopsRun x).feederCloses f).feeder
      f).seq = (((s.lane x).loopsRun x).feeder f).seq) ∧
    (∃ (s : State) (x : LaneId) (f : Nat), (s.lane x).working = true ∧ (s.lane x).meters = true ∧ f < 4 ∧ f < ((s.lane
      x).loopsRun x).feeders.length ∧ ((s.lane x).loopsRun x).feeder f = (s.lane x).feeder f ∧ (((s.lane x).loopsRun
      x).dict.feederCfg f).enable = true ∧ ((((s.lane x).loopsRun x).feeder f).mode = FeederMode.acquire ∨ (((s.lane
      x).loopsRun x).feeder f).mode = FeederMode.track) ∧ (((s.lane x).loopsRun x).feeder f).lastCross + ↑(((s.lane x).loopsRun
      x).dict.feederCfg f).zcTimeout * 100000 ≤ tSlot ((s.lane x).loopsRun x).slot.toNat) ∧
    (∃ (s : State) (x : LaneId) (f : Nat), (s.lane x).working = true ∧ (s.lane x).meters = true ∧ f < 4 ∧ f < ((s.lane
      x).loopsRun x).feeders.length ∧ ((s.lane x).loopsRun x).feeder f = (s.lane x).feeder f ∧ (((s.lane x).loopsRun
      x).dict.feederCfg f).enable = true ∧ (((s.lane x).loopsRun x).dict.feederCfg f).latchN ≤ ((((s.lane x).loopsRun
      x).feederCloses f).feeder f).acc.cycles) ∧
    (∃ (s : State) (x : LaneId) (ch : Nat) (v : RtdSense), ch < (s.lane x).rtdOwn.length ∧ 2000 ≤ (s.lane x).slot.toNat ∧ (∀ (p
      : Nat × Nat), ((s.lane x).rtdOwn.getD ch { last := none, prev := none }).last = some p → p.fst < (s.lane x).slot.toNat /
      2000 - 1) ∧ v = RtdSense.opened) ∧
    (∃ (s : State) (x : LaneId) (ch : Nat) (v : RtdSense), v = RtdSense.shorted) ∧
    (∃ (s : State) (x : LaneId) (ch : Nat) (v : RtdSense), ((s.lane x).slot.toNat < 2000 ∨ ∃ p, ((s.lane x).rtdOwn.getD ch
      { last := none, prev := none }).last = some p ∧ (s.lane x).slot.toNat / 2000 - 1 ≤ p.fst)) ∧
    (∃ (s : State) (x : LaneId) (n : Nat) (low : Nat) (high : Nat) (since : Nat) (level : Bool), n < (s.lane x).pulseOwn.length
      ∧ [0, 1000, 10000, 100000, 1000000, 10000000].getD ((s.lane x).dict.nat (12352 + n) 1) 10000000 ≤ low ∧ [0, 1000, 10000,
      100000, 1000000, 10000000].getD ((s.lane x).dict.nat (12352 + n) 1) 10000000 ≤ high ∧ 512 ≤ since ∧ (s.lane
      x).dict.pulseMode n = 3 ∧ n % 2 = 0 ∧ (s.lane x).dict.pulseMode n ≠ 2) ∧
    (∃ (s : State) (x : LaneId) (n : Nat) (low : Nat) (high : Nat) (since : Nat) (level : Bool), (s.lane x).dict.pulseMode n ≠
      3) ∧
    (∃ (s : State) (x : LaneId) (n : Nat) (low : Nat) (high : Nat) (since : Nat) (level : Bool), (s.lane x).dict.pulseMode n =
      2) ∧
    (∃ (s : State) (x : LaneId) (n : Nat) (low : Nat) (high : Nat) (since : Nat) (level : Bool), n % 2 = 1) ∧
    (∃ (s : State) (x : LaneId) (n : Nat), n < (s.lane x).pulseOwn.length ∧ (s.lane x).dict.pulseMode n ≠ 2) ∧
    (∃ (s : State) (x : LaneId) (n : Nat), (s.lane x).dict.pulseMode n = 2) :=
  ⟨⟨st0, .A, 2, by decide +kernel⟩,
    ⟨{ st0 with a := mtrLane (fun u => { u with mode := .nozc, tOpen := 197500000 }) }, .A, 2, by decide +kernel⟩,
    ⟨{ st0 with a := mtrLane (fun u => { u with lastCross := 189500000 }) }, .A, 2, by decide +kernel⟩,
    ⟨{ st0 with a := mtrLane (fun u => { u with stage := 1, seq := 300, acc := { u.acc with cycles := 50 } }) }, .A, 2,
      by decide +kernel⟩,
    ⟨st0, .A, 15, .opened, by decide +kernel⟩,
    ⟨st0, .A, 15, .shorted, by decide +kernel⟩,
    ⟨wLane (fun l => { l with rtdOwn := l.rtdOwn.set 3 { last := some (19, 5), prev := none } }), .A, 3, .opened,
      by decide +kernel⟩,
    ⟨wLane (fun l => putAll l [(0x3011, 1, [1]), (0x3011, 5, [3]), (0x3011, 6, [4])]), .A, 4, 5000000, 5000000, 512, true,
      by decide +kernel⟩,
    ⟨wLane (fun l => putAll l [(0x3011, 1, [1]), (0x3011, 5, [0]), (0x3011, 6, [4])]), .A, 4, 5000000, 5000000, 512, true,
      by decide +kernel⟩,
    ⟨wLane (fun l => putAll l [(0x3011, 1, [1]), (0x3011, 5, [2]), (0x3011, 6, [4])]), .A, 4, 5000000, 5000000, 512, true,
      by decide +kernel⟩,
    ⟨wLane (fun l => putAll l [(0x3011, 1, [1]), (0x3011, 5, [3]), (0x3011, 6, [4])]), .A, 5, 5000000, 5000000, 512, true,
      by decide +kernel⟩,
    ⟨wLane (fun l => putAll l [(0x3011, 1, [1]), (0x3011, 5, [0]), (0x3011, 6, [4])]), .A, 4, by decide +kernel⟩,
    ⟨wLane (fun l => putAll l [(0x3011, 1, [1]), (0x3011, 5, [2]), (0x3011, 6, [4])]), .A, 4, by decide +kernel⟩⟩

/-- States and operands that meet the hypotheses of CircuitsPulsesAndTotalsPersist, clause by clause. -/
theorem witness_CircuitsPulsesAndTotalsPersist :
    (∃ (s : State) (x : LaneId) (c : Nat), ((s.lane x).working = false ∨ (s.lane x).meters = false)) ∧
    (∃ (s : State) (x : LaneId), (s.lane x).working = true ∧ (s.lane x).meters = true ∧ ((s.lane x).loopsRun x).thm = (s.lane
      x).thm ∧ ((s.lane x).loopsRun x).meters = true ∧ ((s.lane x).loopsRun x).thm.stage = 0 ∧ 3 < ((s.lane x).loopsRun
      x).thm.circs.length ∧ ((s.lane x).loopsRun x).thm.merge = none ∧ ((s.lane x).loopsRun x).thm.tbPrev = some 999999 ∧
      (((s.lane x).loopsRun x).dict.circCfg 3).enable = true ∧ 0 < ((s.lane x).loopsRun x).thm.circs.length ∧ 5 < ((s.lane
      x).loopsRun x).thm.circs.length ∧ 7 < ((s.lane x).loopsRun x).thm.circs.length ∧ 3 < ((s.lane x).loopsRun
      x).thm.vpo.length ∧ 0 < ((s.lane x).loopsRun x).thm.vpo.length ∧ 5 < ((s.lane x).loopsRun x).thm.vpo.length ∧ (((s.lane
      x).loopsRun x).dict.vpoCfg 5).enable = true ∧ ((s.lane x).loopsRun x).word.arbFault = false ∧ (((s.lane x).loopsRun
      x).thm.vpo.getD 5 vpoOut0).active = none ∧ 1 ≤ (((s.lane x).loopsRun x).thm.vpo.getD 5 vpoOut0).owed ∧ 7 < ((s.lane
      x).loopsRun x).thm.vpo.length ∧ (((s.lane x).loopsRun x).thm.merge = none ∨ ((s.lane x).loopsRun x).slot = ((s.lane
      x).loopsRun x).firstSlot)) ∧
    (∃ (s : State) (x : LaneId), (s.lane x).nvm.totBusy = none ∧ (s.lane x).meters = true ∧ (s.lane x).mask.has x = true ∧
      ((s.lane x).thm.want = none ∨ (s.lane x).nvm.totBusy ≠ none ∨ (s.lane x).meters = false ∨ (s.lane x).mask.has x = false ∨
      (s.lane x).thm.metered ≠ (s.lane x).slot) ∧ (s.lane x).nvm.flaskBusy = none) :=
  ⟨⟨st0, .A, 2, by decide +kernel⟩,
    ⟨{ st0 with a := thmLane (fun t => { t with vpo := t.vpo.set 5 { t.vpo.getD 5 vpoOut0 with owed := 3 } }) }, .A,
      by decide +kernel⟩,
    ⟨wLane (fun l =>
      { l with leng := { l.leng with active := true }, mask := LaneSet.full, thm := { l.thm with want := some 40000, merging := false, lastFlask := 3 }, nvm := { l.nvm with totBusy := none, totNextB := true, flaskBusy := none } }),
      .A, by decide +kernel⟩⟩

/-- States and operands that meet the hypotheses of PortsDiscoverSendAndFilter, clause by clause. -/
theorem witness_PortsDiscoverSendAndFilter :
    (∃ (s : State) (x : LaneId) (p : Nat), (p < 16 ∧ p < (s.lane x).ports.length ∧ ((s.lane x).port p).up = true ∧ ((s.lane
      x).portCfg x p).enable = true) ∧ (∀ (e : NdEntry), e ∈ ((s.lane x).port p).nd → e.addr ≠ 5) ∧ ((s.lane x).port
      p).nd.length < 64 ∧ (¬5 ∈ ((s.lane x).portCfg x p).addrs) ∧ (∀ (e : NdEntry), e ∈ ((s.lane x).port p).nd → e.addr = 5 →
      e.wait = []) ∧ (if ((s.lane x).port p).echoSec = (s.lane x).slot.toNat / 20000 then ((s.lane x).port p).echoCnt else 0) <
      100 ∧ p < 16 ∧ p < (s.lane x).ports.length ∧ (16 ≤ p ∨ ((s.lane x).port p).up = true ∨ ((s.lane x).portCfg x p).enable =
      false ∨ modeOk p ((s.lane x).portCfg x p).mode 3 = false) ∧ ((s.lane x).port p).up = true ∧ ((s.lane x).port p).addr.getD
      3 0 ≠ 1 ∧ ((s.lane x).port p).oper = none ∧ (s.lane x).mask.has x = true ∧ (∀ (n : Nat), n < 8 → (((s.lane x).port
      p).gates ((s.lane x).portCfg x p)).testBit n = true → (((s.lane x).port p).gateDrops ((s.lane x).portCfg x
      p)).fst.queues.getD n [] = [])) ∧
    (∃ (s : State) (x : LaneId) (p : Nat), (16 ≤ p ∨ ((s.lane x).port p).up = false ∨ ((s.lane x).portCfg x p).enable = false)
      ∧ ((s.lane x).port p).up = false ∧ ((s.lane x).portCfg x p).enable = true) ∧
    (∃ (s : State) (x : LaneId) (p : Nat), (s.lane x).mask.has x = false) :=
  ⟨⟨prtSt [] (id), .A, 3, by decide +kernel⟩,
    ⟨prtSt [] (fun q => { q with up := false, mode := 0 }), .A, 3, by decide +kernel⟩,
    ⟨{ st0 with a := { prtLane [] (fun q => { q with queues := q.queues.set 3 [(mldFrame q ((prtLane [] id).portCfg .A 3))] }) with mask := LaneSet.empty, slot := 39999 } },
      .A, 3, by decide +kernel⟩⟩

/-- States and operands that meet the hypotheses of TimeFollowsTheParent, clause by clause. -/
theorem witness_TimeFollowsTheParent :
    (∃ (s : State) (x : LaneId) (p : Nat), p < 16 ∧ p < (s.lane x).ports.length ∧ ((s.lane x).port p).up = true ∧ ((s.lane
      x).portCfg x p).enable = true ∧ (¬(((s.lane x).port p).ptp.st = 3 ∧ ∃ a, ((s.lane x).port p).ptp.foreign = some a ∧
      a.ident = 77)) ∧ (((s.lane x).portCfg x p).peer = false ∨ ((s.lane x).port p).ptp.tReq = none) ∧ (((s.lane x).port
      p).ptp.st ≠ 2 ∨ ((s.lane x).portCfg x p).peer = true) ∧ (((s.lane x).portCfg x p).role = 0 ∨ ((s.lane x).portCfg x
      p).peer = false) ∧ (((s.lane x).portCfg x p).role = 0 ∨ ann0.ident = ((s.lane x).timeCfg x).ident) ∧ ((s.lane x).port
      p).ptp.st ≠ 2 ∧ (((s.lane x).port p).ptp.st ≠ 3 ∨ ((s.lane x).portCfg x p).peer = true) ∧ (((s.lane x).portCfg x p).role
      = 0 ∨ ((s.lane x).portCfg x p).peer = false ∨ ((s.lane x).port p).up = false) ∧ (((s.lane x).port p).ptp.st ≠ 3 ∨ (s.lane
      x).time.locked = false) ∧ ((s.lane x).wmk x 3).mode = 2 ∧ ((s.lane x).wmk x 3).start ≤ (s.lane x).clk 3 ∧ (((s.lane
      x).wmk x 3).unlocked ≠ 1 ∨ (s.lane x).time.locked = true)) ∧
    (∃ (s : State) (x : LaneId) (p : Nat), ((s.lane x).wmk x 3).mode = 1 ∧ (s.lane x).time.fifo.length < 64) ∧
    (∃ (s : State) (x : LaneId) (p : Nat), (((s.lane x).wmk x 3).unlocked = 1 ∧ (s.lane x).time.locked = false)) ∧
    (∃ (s : State) (x : LaneId) (p : Nat), p < 16 ∧ p < (s.lane x).ports.length ∧ ((s.lane x).port p).up = true ∧ ((s.lane
      x).portCfg x p).enable = true ∧ ((((s.lane x).port p).ptp.st = 3 ∧ ∃ a, ((s.lane x).port p).ptp.foreign = some a ∧
      a.ident = 77)) ∧ ((s.lane x).portCfg x p).peer = false ∧ ((s.lane x).port p).ptp.sync = some (3, 5000 * 65536, 7) ∧
      ((s.lane x).port p).ptp.tReq = some (2, 500) ∧ ((s.lane x).port p).ptp.d21 = some 900 ∧ (s.lane x).time.locked = false ∧
      15 ≤ (s.lane x).time.inRun) ∧
    (∃ (s : State) (x : LaneId) (p : Nat), p < 16 ∧ p < (s.lane x).ports.length ∧ ((s.lane x).port p).up = true ∧ ((s.lane
      x).portCfg x p).enable = true ∧ ((s.lane x).port p).ptp.st = 2 ∧ ((s.lane x).portCfg x p).peer = false ∧ ((s.lane
      x).portCfg x p).role ≠ 0) ∧
    (∃ (s : State) (x : LaneId) (p : Nat), p < 16 ∧ p < (s.lane x).ports.length ∧ ((s.lane x).port p).up = true ∧ ((s.lane
      x).portCfg x p).enable = true ∧ ((s.lane x).portCfg x p).role ≠ 0 ∧ ((s.lane x).portCfg x p).peer = true ∧ ((s.lane
      x).port p).ptp.tReq = some (2, 500) ∧ ((s.lane x).port p).ptp.st = 3 ∧ (s.lane x).time.locked = true) :=
  ⟨⟨{ st0 with a := { prtLane ([(0x1313, 1, [2]), (0x1313, 4, leBytes 4 1000000), (0x1313, 5, leBytes 4 1000)]) (id) with time := (fun t => { t with clock := 10 ^ 12 * 65536 } : TimeUnit → TimeUnit) timeReset } },
      .A, 3, by decide +kernel⟩,
    ⟨{ st0 with a := { prtLane ([(0x1313, 1, [1]), (0x1313, 2, [1])]) (id) with time := (fun t => { t with clock := 10 ^ 12 * 65536 } : TimeUnit → TimeUnit) timeReset } },
      .A, 3, by decide +kernel⟩,
    ⟨{ st0 with a := { prtLane ([(0x1313, 1, [2]), (0x1313, 4, leBytes 4 1000000), (0x1313, 5, leBytes 4 1000), (0x1313, 6, [1])]) (id) with time := (fun t => { t with clock := 10 ^ 12 * 65536 } : TimeUnit → TimeUnit) timeReset } },
      .A, 3, by decide +kernel⟩,
    ⟨{ st0 with a := { prtLane [(0x8003, 0xC, [1]), (0x8003, 0xE, [0])] (fun q => { q with ptp := { q.ptp with st := 3, foreign := some ann0, seen := 2, sync := some (3, 5000 * 65536, 7), tReq := some (2, 500), d21 := some 900, delay := some 40 } }) with time := { timeReset with clock := 5000 * 65536, locked := false, parent := some 3, offs := [5 * 65536, 5 * 65536], inRun := 15 } } },
      .A, 3, by decide +kernel⟩,
    ⟨{ st0 with a := { prtLane [(0x8003, 0xC, [1]), (0x8003, 0xE, [0])] (fun q => { q with ptp := { q.ptp with st := 2, foreign := some ann0, seen := 2, sync := some (3, 5000 * 65536, 7), tReq := some (2, 500), d21 := some 900, delay := some 40 } }) with time := { timeReset with clock := 5000 * 65536, locked := false, parent := some 3, offs := [5 * 65536, 5 * 65536], inRun := 15 } } },
      .A, 3, by decide +kernel⟩,
    ⟨{ st0 with a := { prtLane [(0x8003, 0xC, [1]), (0x8003, 0xE, [1])] (fun q => { q with ptp := { q.ptp with st := 3, foreign := some ann0, seen := 2, sync := some (3, 5000 * 65536, 7), tReq := some (2, 500), d21 := some 900, delay := some 40 } }) with time := { timeReset with clock := 5000 * 65536, locked := true, parent := some 3, offs := [5 * 65536, 5 * 65536], inRun := 15 } } },
      .A, 3, by decide +kernel⟩⟩

/-- States and operands that meet the hypotheses of SolvesTakeTheModeOfTheirSize, clause by clause. -/
theorem witness_SolvesTakeTheModeOfTheirSize :
    ∃ (s : State) (x : LaneId) (i : Instr), (s.lane x).working = true ∧ (s.lane x).step1 = true ∧ (s.lane x).solver.asked =
      false ∧ (s.lane x).solver.cancel = false ∧ (s.lane x).word.arbFault = false ∧ (s.lane x).solver.run = none ∧ (s.lane
      x).dict.nat 24576 1 = 1 ∧ ((s.lane x).solver.active = true ∨ (s.lane x).solver.mstate = 3 ∧ (s.lane
      x).solver.commitAt.toNat + 40000 ≤ (s.lane x).slot.toNat) ∧ (i = Instr.solveNow x ∨ i = Instr.snapshotSlot x ∧ (s.lane
      x).solver.now = 0 ∧ (s.lane x).slot.toNat % ((s.lane x).dict.nat 24576 3 * 20000) = (s.lane x).dict.nat 24576 4) :=
  ⟨{ st0 with a := slvLane (none) (fun l => { (fun l => { l with dict := ((((l.dict.put 0x6000 1 [1]).put 0x6000 2 [0]).put 0x6000 3 (leBytes 2 1)).put 0x6000 4 (leBytes 4 0)).put 0x6000 5 (leBytes 4 5000) } : Lane → Lane) l with step1 := true }) },
      .A, .snapshotSlot .A, by decide +kernel⟩

/-- States and operands that meet the hypotheses of SolvesRunFromSnapshotToPublication, clause by clause. -/
theorem witness_SolvesRunFromSnapshotToPublication :
    (∃ (s : State) (x : LaneId), (s.lane x).solver.mstate ≠ 1 ∧ (s.lane x).solver.mstate ≠ 2 ∧ ((s.lane x).solver.mstate ≠ 1 ∧
      (s.lane x).solver.mstate ≠ 2 ∨ (s.lane x).slot.toNat < (s.lane x).solver.commitAt.toNat + 40000) ∧ ((s.lane x).working =
      false ∨ (s.lane x).step1 = true ∧ (s.lane x).solver.asked = true) ∧ (s.lane x).working = true ∧ (s.lane x).step1 = true ∧
      ((s.lane x).solver.run = none ∨ (s.lane x).solv.phase ≠ 1 ∨ (s.lane x).solv.catchup = true) ∧ ((s.lane x).solver.run =
      none ∨ (s.lane x).solv.phase ≠ 2) ∧ ((s.lane x).solver.run = none ∨ (s.lane x).solv.phase ≠ 3) ∧ (s.lane x).word.arbFault
      = false ∧ ((s.lane x).solv.phase = 0 ∨ 4 ≤ (s.lane x).solv.phase ∧ (s.lane x).solv.phase ≠ 7) ∧ (s.lane x).solv.fetching
      = true ∧ LaneId.B ≠ x ∧ s.arb.mask.has LaneId.B = true ∧ (s.lane x).step3 = true ∧ (s.lane x).step4 = false ∧ (s.lane
      x).solver.asked = true ∧ (s.lane x).solver.last.pubSlot ≠ (s.lane x).slot ∧ (s.lane x).solv.catchup = false) ∧
    (∃ (s : State) (x : LaneId), (s.lane x).solver.asked = false ∧ (s.lane x).solver.cancel = false ∧ (s.lane x).solver.now = 0
      ∧ (s.lane x).periodic = true ∧ (s.lane x).solver.run = none ∧ (¬((s.lane x).solver.active = true ∨ (s.lane
      x).solver.mstate = 3 ∧ (s.lane x).solver.commitAt.toNat + 40000 ≤ (s.lane x).slot.toNat)) ∧ (s.lane x).dict.nat 24576 1 =
      1) ∧
    (∃ (s : State) (x : LaneId), (s.lane x).solv.phase = 1 ∧ (s.lane x).solver.run = some run1 ∧ (s.lane x).solv.catchup = true
      ∧ (s.lane x).solv.phase ≠ 7) ∧
    (∃ (s : State) (x : LaneId), (s.lane x).solver.run.isSome = true ∧ ((s.lane x).solver.active = true ∨ (s.lane
      x).solver.mstate = 3 ∧ (s.lane x).solver.commitAt.toNat + 40000 ≤ (s.lane x).slot.toNat)) ∧
    (∃ (s : State) (x : LaneId), (s.lane x).word.arbFault = true) ∧
    (∃ (s : State) (x : LaneId), (s.lane x).solv.phase = 2) ∧
    (∃ (s : State) (x : LaneId), (s.lane x).solv.phase = 3) ∧
    (∃ (s : State) (x : LaneId), (s.lane x).solv.phase = 7) :=
  ⟨⟨{ st0 with a := slvLane (some { run1 with verdict := some (39500, 3, .B), pub := some 40000 }) (fun l => { l with step1 := true, dict := l.dict.put 0x6000 1 [1] |>.put 0x6000 2 [0] |>.put 0x6000 3 (leBytes 2 1) |>.put 0x6000 4 (leBytes 4 0) |>.put 0x6000 5 (leBytes 4 5000), solver := { l.solver with asked := true }, solv := { l.solv with last := 3, fetching := true } , step3 := true, step4 := false }) },
      .A, by decide +kernel⟩,
    ⟨{ st0 with a := slvLane (none) (fun l => { l with step1 := true, dict := l.dict.put 0x6000 1 [1] |>.put 0x6000 2 [0] |>.put 0x6000 3 (leBytes 2 1) |>.put 0x6000 4 (leBytes 4 0) |>.put 0x6000 5 (leBytes 4 5000), solver := { l.solver with active := false }, solv := { l.solv with built := 0 }  }) },
      .A, by decide +kernel⟩,
    ⟨{ st0 with a := slvLane (some run1) (fun l => { l with step1 := true, dict := l.dict.put 0x6000 1 [1] |>.put 0x6000 2 [0] |>.put 0x6000 3 (leBytes 2 1) |>.put 0x6000 4 (leBytes 4 0) |>.put 0x6000 5 (leBytes 4 5000), solver := { l.solver with asked := true }, solv := { l.solv with phase := 1, built := 0, last := 0, catchup := true } , step3 := true, step4 := false }) },
      .A, by decide +kernel⟩,
    ⟨{ st0 with a := slvLane (some run1) (fun l => { l with step1 := true, dict := l.dict.put 0x6000 1 [1] |>.put 0x6000 2 [0] |>.put 0x6000 3 (leBytes 2 1) |>.put 0x6000 4 (leBytes 4 0) |>.put 0x6000 5 (leBytes 4 5000), solver := { l.solver with asked := false }, solv := { l.solv with built := 0 }  }) },
      .A, by decide +kernel⟩,
    ⟨{ st0 with a := slvLane (some run1) (fun l => { l with step1 := true, dict := l.dict.put 0x6000 1 [1] |>.put 0x6000 2 [0] |>.put 0x6000 3 (leBytes 2 1) |>.put 0x6000 4 (leBytes 4 0) |>.put 0x6000 5 (leBytes 4 5000), solver := { l.solver with asked := false }, solv := { l.solv with built := 0 } , word := { l.word with arbFault := true } }) },
      .A, by decide +kernel⟩,
    ⟨{ st0 with a := slvLane (some run1) (fun l => { l with step1 := true, dict := l.dict.put 0x6000 1 [1] |>.put 0x6000 2 [0] |>.put 0x6000 3 (leBytes 2 1) |>.put 0x6000 4 (leBytes 4 0) |>.put 0x6000 5 (leBytes 4 5000), solver := { l.solver with asked := true }, solv := { l.solv with phase := 2, built := 0, last := 0, catchup := false } , step3 := true, step4 := false }) },
      .A, by decide +kernel⟩,
    ⟨{ st0 with a := slvLane (some run1) (fun l => { l with step1 := true, dict := l.dict.put 0x6000 1 [1] |>.put 0x6000 2 [0] |>.put 0x6000 3 (leBytes 2 1) |>.put 0x6000 4 (leBytes 4 0) |>.put 0x6000 5 (leBytes 4 5000), solver := { l.solver with asked := true }, solv := { l.solv with phase := 3, built := 0, last := 0, catchup := false } , step3 := true, step4 := false }) },
      .A, by decide +kernel⟩,
    ⟨{ st0 with a := slvLane (some run1) (fun l => { l with step1 := true, dict := l.dict.put 0x6000 1 [1] |>.put 0x6000 2 [0] |>.put 0x6000 3 (leBytes 2 1) |>.put 0x6000 4 (leBytes 4 0) |>.put 0x6000 5 (leBytes 4 5000), solver := { l.solver with asked := true }, solv := { l.solv with phase := 7, built := 0, last := 0, catchup := true } , step3 := true, step4 := false }) },
      .A, by decide +kernel⟩⟩

end Sys2Proof.Tests
end

section
/-! Where a write of the host goes (R10, R66, R67, R380, R438): what a request that nothing delays does, which lanes a
write of a lane unit is for, and which bits of a register a write changes. -/
namespace Sys2Proof

/-! ### Lanes and their sets -/

theorem LaneId.ofNum?_num (x : LaneId) : LaneId.ofNum? x.num = some x := by cases x <;> rfl

theorem LaneSet.mem_toList (m : LaneSet) (x : LaneId) : x ∈ m.toList ↔ m.has x = true := by
  cases x <;> simp [LaneSet.toList]

theorem LaneSet.nodup_toList (m : LaneSet) : m.toList.Nodup :=
  List.Nodup.filter _ (by decide)

end Sys2Proof

namespace Sys2Proof.Machine

/-! ### A request at a ready endpoint -/

/-- With no access stalled there is nothing to settle. -/
theorem State.settleStall_of_no_stall {s : State} (h : s.arb.stall = none) : s.settleStall = s := by
  unfold State.settleStall; rw [h]

/-- With nothing stalled and nothing waiting the arbiter turns to the request at once. -/
theorem State.hostSettle_of_ready {s : State} (h : s.HostReady) : s.hostSettle = s := by
  obtain ⟨-, -, -, hstall, hdelayed⟩ := h
  have hnone : (s.onArb fun a => { a with delayed := [] }) = s := by rw [← hdelayed]; rfl
  rw [State.hostSettle, State.settleStall_of_no_stall hstall, State.serveDelayed, hnone, hstall, hdelayed]
  rfl

theorem State.hostAccess_of_ready {s : State} {r : HostReq} {write : Bool} (fab : Nat) (h : s.HostReady)
    (hfits : reqFits r write = true) : s.hostAccess r write fab = s.serve r write fab := by
  have hsettle := State.hostSettle_of_ready h
  obtain ⟨hreset, hperst, hd3, hstall, -⟩ := h
  simp [State.hostAccess, State.serveOrWait, hsettle, hreset, hperst, hd3, hstall, hfits]

/-- A write that is no bus error and leaves no access open is done when its request has been carried out. -/
theorem State.hostAccess_write {s : State} {r : HostReq} (fab : Nat) (h : s.HostReady) (hfits : reqFits r true = true)
    (hok : s.arb.busError r true = none) (hopen : (s.writeReq r).arb.stall = none) :
    s.hostAccess r true fab = s.writeReq r := by
  rw [State.hostAccess_of_ready fab h hfits]
  simp [State.serve, hok, State.settleStall_of_no_stall hopen]

theorem hostRow_pos {ok : Place → Bool} {r : HostReq} (write : Bool) (fab : Nat) (s : State) (h : ok (reqPlace r 0) = true) :
    hostRow ok r write fab s = .next (s.hostAccess r write fab) := by
  simp [hostRow, h]

theorem exec_registerWrite (r : HostReq) (s : State) : exec (.registerWrite r) s = .next (s.hostAccess r true 0) :=
  hostRow_pos (ok := fun _ => true) true 0 s rfl

/-- HOSTREQ_WRITE occurs at SAFE_HOSTREQ (R380). -/
theorem exec_hostreqWrite {r : HostReq} (s : State) (h : reqPlace r 0 = .safe f_SAFE_HOSTREQ_REQ.key) :
    exec (.hostreqWrite r) s = .next (s.hostAccess r true 0) :=
  hostRow_pos (ok := fun p => p == .safe f_SAFE_HOSTREQ_REQ.key) true 0 s (by simp [h])

/-- LANE_VIEW_WRITE occurs in the view of a lane (R67). -/
theorem exec_laneViewWrite {r : HostReq} {v k : Nat} (s : State) (h : reqPlace r 0 = .laneReg (v + 1) k) :
    exec (.laneViewWrite r) s = .next (s.hostAccess r true 0) := by
  change execLaneViewWrite r s = _
  unfold execLaneViewWrite
  exact hostRow_pos true 0 s (by rw [h]; rfl)

/-- VOTED_WRITE occurs in the voted view (R66). -/
theorem exec_votedWrite {r : HostReq} {k : Nat} (s : State) (h : reqPlace r 0 = .laneReg 0 k) :
    exec (.votedWrite r) s = .next (s.hostAccess r true 0) := by
  change execVotedWrite r s = _
  unfold execVotedWrite
  exact hostRow_pos true 0 s (by rw [h]; rfl)

/-- The one doubleword of a request of length 1. -/
theorem reqPlaces_of_one {r : HostReq} (h : r.dws = 1) : reqPlaces r = [(reqPlace r 0, r.fbe)] := by
  simp [reqPlaces, h, reqBe]

/-! ### The bits that a register write changes (R10, R438) -/

theorem beMask_bit (be : BitVec 4) {i : Nat} (hi : i < 32) : (beMask be).getLsbD i = be.getLsbD (i / 8) := by
  have bits (j : Nat) (m : Word) (hj : j < 4) : (if be.getLsbD j then m ||| bitMask (8 * j + 7) (8 * j) else m).getLsbD i =
      (m.getLsbD i || (decide (i / 8 = j) && be.getLsbD j)) := by
    have lane : (bitMask (8 * j + 7) (8 * j)).getLsbD i = decide (i / 8 = j) := by
      rw [bitMask_bit _ _ _ (by omega) (by omega)]; congr 1; apply propext; omega
    cases be.getLsbD j <;> simp [lane]
  have hlane : i / 8 = 0 ∨ i / 8 = 1 ∨ i / 8 = 2 ∨ i / 8 = 3 := by omega
  simp only [beMask, show List.range 4 = [0, 1, 2, 3] from rfl, List.foldl, bits 0 _ (by omega), bits 1 _ (by omega),
    bits 2 _ (by omega), bits 3 _ (by omega)]
  rcases hlane with h | h | h | h <;> simp [h]

/-- Where the mask is set a merge takes the new word's bit, elsewhere the old one's. -/
theorem merge_bit (old new mask : Word) {i : Nat} (hi : i < 32) :
    ((old &&& ~~~mask) ||| (new &&& mask)).getLsbD i = if mask.getLsbD i then new.getLsbD i else old.getLsbD i := by
  rw [BitVec.getLsbD_or, BitVec.getLsbD_and, BitVec.getLsbD_and, BitVec.getLsbD_not]
  cases mask.getLsbD i <;> simp [hi]

theorem rget_regMerge_bit (m : RegMap) (k : Nat) (w : Word) (be : BitVec 4) {i : Nat} (hi : i < 32) :
    (rget (regMerge m k w be) k).getLsbD i =
      if (rwMask k).getLsbD i = true ∧ be.getLsbD (i / 8) = true then w.getLsbD i else (rget m k).getLsbD i := by
  simp only [regMerge, rget_rset_same, merge_bit _ _ _ hi, BitVec.getLsbD_and, beMask_bit be hi, Bool.and_eq_true]

theorem rget_regMerge_other (m : RegMap) {k j : Nat} (w : Word) (be : BitVec 4) (h : j ≠ k) :
    rget (regMerge m k w be) j = rget m j := rget_rset_other m _ h

/-! ### Writes outside the lanes -/

/-- An arbiter register that neither enables interrupts nor starts a command that stalls takes the enabled bytes. -/
theorem State.arbWrite_plain (s : State) {k : Nat} (w : Word) (be : BitVec 4) (hirq : k ≠ f_ARB_IRQEN_EN.key)
    (hcmd : arbStalls k = false) : s.arbWrite k w be = s.onArb fun a => a.reg fun m => regMerge m k w be := by
  simp [State.arbWrite, hirq, hcmd]

/-- A register outside the lanes that no command hangs on. -/
def Place.PlainOuter (p : Place) (k : Nat) : Prop :=
  (p = .arbReg k ∧ k ≠ f_ARB_IRQEN_EN.key ∧ arbStalls k = false) ∨ p = .safe k

theorem State.writePlace_plainOuter (s : State) {p : Place} {k : Nat} (be : BitVec 4) (w : Word) (h : p.PlainOuter k) :
    s.writePlace p be w = s.onArb fun a => a.reg fun m => regMerge m k w be := by
  rcases h with ⟨rfl, hirq, hcmd⟩ | rfl
  · exact s.arbWrite_plain w be hirq hcmd
  · rfl

/-- A request to such a register waits for no command of the arbiter. -/
theorem Arb.waits_plainOuter (a : Arb) {r : HostReq} {k : Nat} (hone : r.dws = 1) (h : (reqPlace r 0).PlainOuter k) :
    a.waits r = false := by
  have hkeys : reqCmdKeys r = [] := by
    rw [reqCmdKeys, reqPlaces_of_one hone]
    rcases h with ⟨e, -, hcmd⟩ | e
    · simp [e, hcmd]
    · simp [e]
  simp [Arb.waits, hkeys]

theorem State.writeReq_plainOuter (s : State) {r : HostReq} {k : Nat} {w : Word} (hone : r.dws = 1) (hdata : r.data = [w])
    (h : (reqPlace r 0).PlainOuter k) : s.writeReq r = s.onArb fun a => a.reg fun m => regMerge m k w r.fbe := by
  have houter : s.writeReq r = s.writeOuter r := by
    unfold State.writeReq
    rcases h with ⟨e, -⟩ | e <;> rw [e]
  rw [houter, State.writeOuter]
  simp [Arb.waits_plainOuter _ hone h, reqPlaces_of_one hone, hdata, State.writePlace_plainOuter s _ _ h]

/-- A write of a register outside the lanes without a command: of the whole device, that register alone changes. -/
theorem State.hostAccess_write_plainOuter {s : State} {r : HostReq} {k : Nat} {w : Word} (fab : Nat) (h : s.HostReady)
    (hfits : reqFits r true = true) (hok : s.arb.busError r true = none) (hone : r.dws = 1) (hdata : r.data = [w])
    (hplace : (reqPlace r 0).PlainOuter k) :
    s.hostAccess r true fab = { s with arb := { s.arb with regs := regMerge s.arb.regs k w r.fbe } } := by
  have hwrite := s.writeReq_plainOuter hone hdata hplace
  have hopen : (s.writeReq r).arb.stall = none := by
    obtain ⟨-, -, -, hstall, -⟩ := h
    rw [hwrite]; exact hstall
  rw [State.hostAccess_write fab h hfits hok hopen, hwrite]
  rfl

/-! ### Writes at the lanes (R66, R67) -/

/-- A lane's own view writes the register at once. -/
theorem Lane.hostWrite_own (l : Lane) (v k : Nat) (be : BitVec 4) (w : Word) :
    l.hostWrite false [((.laneReg v k, be), w)] = l.regWrite k w be := rfl

/-- The voted view appends to the waiting writes, except for a command of the lane's RTC domain. -/
theorem Lane.hostWrite_voted (l : Lane) (v : Nat) {k : Nat} (be : BitVec 4) (w : Word) (h : rtcCommand k = false) :
    l.hostWrite true [((.laneReg v k, be), w)] =
      { l with vw := l.vw ++ [{ key := k, data := w, be := be, due := false }] } := by
  simp [Lane.hostWrite, h]

theorem rtcCommand_of_not_stalls {k : Nat} (h : stalls k = false) : rtcCommand k = false := by
  simp only [stalls, Bool.or_eq_false_iff] at h
  obtain ⟨⟨hrtc, -⟩, -⟩ := h
  exact hrtc

/-- A lane view's write is for its lane, when it answers. -/
theorem State.writeLanes_view {s : State} {x : LaneId} {ps : List (Place × BitVec 4)} (h : (s.lane x).answers ps = true) :
    s.writeLanes (x.num + 1) ps = [x] := by
  simp [State.writeLanes, LaneId.ofNum?_num, h]

/-- A voted write is for the lanes taking part that answer. -/
theorem State.mem_writeLanes_voted (s : State) (ps : List (Place × BitVec 4)) (y : LaneId) :
    y ∈ s.writeLanes 0 ps ↔ s.arb.mask.has y = true ∧ (s.lane y).answers ps = true := by
  simp [State.writeLanes, LaneSet.mem_toList]

theorem State.nodup_writeLanes_voted (s : State) (ps : List (Place × BitVec 4)) : (s.writeLanes 0 ps).Nodup :=
  (LaneSet.nodup_toList _).filter _

/-- The same change made in turn in several lanes is made once in each of them. -/
theorem State.lane_foldl_onLane (f : Lane → Lane) {xs : List LaneId} (hxs : xs.Nodup) (s : State) (y : LaneId) :
    (xs.foldl (fun s x => s.onLane x f) s).lane y = if y ∈ xs then f (s.lane y) else s.lane y := by
  induction xs generalizing s with
  | nil => simp
  | cons x xs ih =>
    obtain ⟨hx, hxs⟩ := List.nodup_cons.mp hxs
    rw [List.foldl_cons, ih hxs]
    by_cases e : y = x
    · subst e; simp [hx]
    · simp [State.lane_onLane_other s f e, e]

/-- Changes of lanes leave the rest of the device. -/
theorem State.foldl_onLane_frame (f : Lane → Lane) (xs : List LaneId) (s : State) :
    { xs.foldl (fun s x => s.onLane x f) s with a := s.a, b := s.b, c := s.c } = s :=
  foldl_keeps (fun s x => s.onLane x f) (fun t => { t with a := s.a, b := s.b, c := s.c })
    (fun t x => by cases x <;> rfl) xs s

/-- A write of a lane register that does not stall reaches each lane it is for, and no access stays open. -/
theorem State.writeReq_lane (s : State) {r : HostReq} {v k : Nat} {w : Word} (hone : r.dws = 1) (hdata : r.data = [w])
    (hplace : reqPlace r 0 = .laneReg v k) (hstalls : stalls k = false) (hsome : s.writeLanes v (reqPlaces r) ≠ []) :
    s.writeReq r = (s.writeLanes v (reqPlaces r)).foldl
      (fun s x => s.onLane x fun l => l.hostWrite (v == 0) [((.laneReg v k, r.fbe), w)]) s := by
  have hkeys : (reqKeys r).any stalls = false := by simp [reqKeys, reqPlaces_of_one hone, hplace, hstalls]
  have hzip : (reqPlaces r).zip r.data = [((.laneReg v k, r.fbe), w)] := by simp [reqPlaces_of_one hone, hplace, hdata]
  simp [State.writeReq, hplace, State.writeUnits, hsome, hkeys, hzip]

theorem State.hostAccess_write_lane {s : State} {r : HostReq} {v k : Nat} {w : Word} (fab : Nat) (h : s.HostReady)
    (hfits : reqFits r true = true) (hok : s.arb.busError r true = none) (hone : r.dws = 1) (hdata : r.data = [w])
    (hplace : reqPlace r 0 = .laneReg v k) (hstalls : stalls k = false) (hsome : s.writeLanes v (reqPlaces r) ≠ []) :
    s.hostAccess r true fab = (s.writeLanes v (reqPlaces r)).foldl
      (fun s x => s.onLane x fun l => l.hostWrite (v == 0) [((.laneReg v k, r.fbe), w)]) s := by
  have hwrite := s.writeReq_lane hone hdata hplace hstalls hsome
  have hopen : (s.writeReq r).arb.stall = none := by
    obtain ⟨-, -, -, hstall, -⟩ := h
    rw [hwrite, foldl_keeps _ State.arb (fun _ _ => State.onLane_arb _ _ _), hstall]
  rw [State.hostAccess_write fab h hfits hok hopen, hwrite]

/-! ### The obligation -/

/-- Settles O18: outside the lanes by `State.hostAccess_write_plainOuter`, at the lanes by `State.hostAccess_write_lane`. -/
theorem writesReachTheirRegister : Obligations.WritesReachTheirRegister := by
  unfold Obligations.WritesReachTheirRegister
  refine ⟨?outer, ?ownView, ?voted⟩
  case outer =>
    intro s r k w hready hfits hok hone hdata hplace
    have hplain : (reqPlace r 0).PlainOuter k := by
      rcases hplace with ⟨e, hirq, hexclude, hrejoin, htamper⟩ | ⟨e, -⟩
      · exact .inl ⟨e, hirq, by simp [arbStalls, hexclude, hrejoin, htamper]⟩
      · exact .inr e
    have hwrite := State.hostAccess_write_plainOuter 0 hready hfits hok hone hdata hplain
    refine ⟨regMerge s.arb.regs k w r.fbe, ?_, ?_, ?_, ?_⟩
    · rw [← hwrite]; exact exec_registerWrite r s
    · intro hsafe
      have hkey : k = f_SAFE_HOSTREQ_REQ.key := by
        rcases hplace with ⟨e, -⟩ | ⟨-, hkey⟩
        · simp [e] at hsafe
        · exact hkey
      rw [← hwrite]; exact exec_hostreqWrite s (hkey ▸ hsafe)
    · exact fun i hi => rget_regMerge_bit _ _ _ _ hi
    · exact fun j hj => rget_regMerge_other _ _ _ hj
  case ownView =>
    intro s r x k w hready hfits hok hone hdata hplace hstalls hanswers
    have hlanes := State.writeLanes_view hanswers
    have hwrite := State.hostAccess_write_lane 0 hready hfits hok hone hdata hplace hstalls (by simp [hlanes])
    calc exec (.laneViewWrite r) s
        = .next (s.hostAccess r true 0) := exec_laneViewWrite s hplace
      _ = .next (s.setLane x ((s.lane x).regWrite k w r.fbe)) := by rw [hwrite, hlanes]; rfl
  case voted =>
    intro s r k w hready hfits hok hone hdata hplace hstalls ⟨y, hy⟩
    have hsome := List.ne_nil_of_mem ((s.mem_writeLanes_voted (reqPlaces r) y).mpr hy)
    have hwrite := State.hostAccess_write_lane 0 hready hfits hok hone hdata hplace hstalls hsome
    refine ⟨s.hostAccess r true 0, exec_votedWrite s hplace, ?_, fun y => ?_⟩
    · rw [hwrite]; exact State.foldl_onLane_frame _ _ s
    · rw [hwrite, State.lane_foldl_onLane _ (s.nodup_writeLanes_voted _), beq_self_eq_true,
        Lane.hostWrite_voted _ _ _ _ (rtcCommand_of_not_stalls hstalls)]
      simp only [State.mem_writeLanes_voted]

end Sys2Proof.Machine
end

section
/-! What every command does to the voted outputs and to what guards them (R16, R458, R464): commands of one lane and accesses
of the host leave them, and the others keep the guard, unless the arbiter's reset begins or ends. -/
namespace Sys2Proof.Machine

/-! ### Commands of one lane -/

/-- A command that laneEvent names changes that lane and nothing else. -/
theorem exec_of_laneEvent {c : Instr} {x : LaneId} (h : laneEvent c = some x) (s : State) :
    ∃ l, exec c s = .next (s.setLane x l) := by
  have idle : (.next s : Host.Outcome State Fault Refusal) = .next (s.setLane x (s.lane x)) := by simp
  cases c
  all_goals cases h
  case strobeResumed =>
    simp only [exec, execStrobeResumed]
    split
    · exact ⟨_, rfl⟩
    · exact ⟨_, idle⟩
  case roundFetchDone =>
    simp only [exec, execRoundFetchDone, State.fetchRound]
    split
    · exact ⟨_, idle⟩
    · split
      · exact ⟨_, idle⟩
      · split
        · exact ⟨_, idle⟩
        · exact ⟨_, rfl⟩
  case journalCopyDone =>
    simp only [exec, execJournalCopyDone]
    split
    · split <;> exact ⟨_, rfl⟩
    · exact ⟨_, idle⟩
  case laneRelease =>
    simp only [exec, execLaneRelease]
    split
    · exact ⟨_, idle⟩
    · exact ⟨_, rfl⟩
  -- every other one is laneNext or laneWhen of its lane
  all_goals exact ⟨_, rfl⟩

/-! ### Host accesses leave the voted outputs -/

@[simp] theorem State.arbWrite_outv (s : State) (k w be) : (s.arbWrite k w be).arb.outv = s.arb.outv := by
  unfold State.arbWrite
  split
  · simp
  · split
    · split <;> rfl
    · exact Arb.reg_outv _ _ (gateBit_regMerge _ _ _ _)

@[simp] theorem State.writePlace_outv (s : State) (p be w) : (s.writePlace p be w).arb.outv = s.arb.outv := by
  unfold State.writePlace
  split
  · simp
  · simp
  · exact Arb.reg_outv _ _ (gateBit_regMerge _ _ _ _)
  · rfl
  · split
    · simp
    · split <;> simp
  · rfl

theorem State.writeOuter_outv (s : State) (r) : (s.writeOuter r).arb.outv = s.arb.outv := by
  have h := foldl_keeps (fun s (w : (Place × BitVec 4) × Word) => s.writePlace w.1.1 w.1.2 w.2) (fun s => s.arb.outv)
    (fun s w => s.writePlace_outv _ _ _) ((reqPlaces r).zip r.data) s
  unfold State.writeOuter
  dsimp only
  split <;> exact h

@[simp] theorem State.writeReq_outv (s : State) (r) : (s.writeReq r).arb.outv = s.arb.outv := by
  unfold State.writeReq
  split
  · exact State.writeUnits_outv _ _ _
  · exact State.writeOuter_outv _ _

@[simp] theorem State.serve_outv (s : State) (r w fab) : (s.serve r w fab).arb.outv = s.arb.outv := by
  unfold State.serve
  split
  · split <;> exact Arb.countError_outv _ _ _ _
  · split
    · simp
    · exact State.readReq_outv _ _ _

@[simp] theorem State.serveOrWait_outv (s : State) (q) : (s.serveOrWait q).arb.outv = s.arb.outv := by
  unfold State.serveOrWait
  split
  · rfl
  · simp

@[simp] theorem State.serveDelayed_outv (s : State) : s.serveDelayed.arb.outv = s.arb.outv := by
  unfold State.serveDelayed
  split
  · rfl
  · exact foldl_keeps State.serveOrWait (fun s => s.arb.outv) (fun s q => s.serveOrWait_outv q) _ _

@[simp] theorem State.hostSettle_outv (s : State) : s.hostSettle.arb.outv = s.arb.outv := by simp [State.hostSettle]

@[simp] theorem State.hostAccess_outv (s : State) (r w fab) : (s.hostAccess r w fab).arb.outv = s.arb.outv := by
  unfold State.hostAccess
  split
  · rfl
  · split
    · split <;> rfl
    · simp

/-! ### Further operations of the arbiter -/

theorem Arb.fault_of_runs {a : Arb} (h : a.runs = true) : a.fault = false := by
  simp only [Arb.runs, Bool.and_eq_true, Bool.not_eq_true'] at h
  exact h.2

@[simp] theorem Arb.takeReport_outv (a : Arb) (x r ok) : (a.takeReport x r ok).outv = a.outv := by
  simp only [Arb.takeReport, apply_ite Arb.outv, Arb.irq_outv, Arb.modJudge_outv, ite_self]

@[simp] theorem Arb.openWindow_outv (a : Arb) : a.openWindow.outv = a.outv := by
  unfold Arb.openWindow
  split <;> rfl

/-- LONGHOLD lies beside the gate bit in its register. -/
theorem gateBit_longHold (m : RegMap) (b : Bool) : gateBit (fbool m f_ARB_RSTCAUSE_LONGHOLD b) = gateBit m :=
  fget_fset_apart m _ _ _ (by decide) (by decide) (by decide)

@[simp] theorem Arb.firstAgree_outv (a : Arb) (g) : (a.firstAgree g).outv = a.outv := by
  have h : gateBit (a.firstAgree g).regs = gateBit a.regs := by
    simp only [Arb.firstAgree]
    rw [gateBit_longHold, gateBit_fset _ _ _ (by decide)]
  exact (Arb.outv_regs a _ h).trans rfl

/-- The first roll call of a start (R461) ends the polls and polls anew. -/
theorem State.startPoll_outv (s : State) :
    (s.onArb fun a => [LaneId.A, .B, .C].foldl Arb.endPoll a).poll.arb.outv = s.arb.outv :=
  (State.poll_outv _).trans (Arb.foldl_outv _ Arb.endPoll_outv _ _)

/-- A change of a pulse output that leaves an idle one idle keeps the guard. -/
theorem Arb.modVpo_guarded {a : Arb} (i : Nat) {f : VpoQ → VpoQ}
    (hf : ∀ q, q.queue = [] ∧ q.high = false → (f q).queue = [] ∧ (f q).high = false) (h : a.Grd) :
    ({ a with vpo := lmod a.vpo i f } : Arb).Grd := by
  intro hg
  obtain ⟨hvdo, hvao, hvpo⟩ := h hg
  refine ⟨hvdo, hvao, fun q hq => ?_⟩
  obtain ⟨j, hj⟩ := List.mem_iff_getElem?.mp hq
  change (a.vpo.modify i f)[j]? = some q at hj
  rw [List.getElem?_modify] at hj
  obtain ⟨r, hr, rfl⟩ := Option.map_eq_some_iff.mp hj
  have hidle := hvpo r (List.mem_of_getElem? hr)
  split
  · exact hf r hidle
  · exact hidle

/-! ### What a command does to the voted outputs -/

/-- The commands that put the arbiter in reset. -/
def resetsArb (c : Instr) : Prop :=
  (∃ m, c = .arbSupplyReset m) ∨ c = .backupPowerLoss ∨ c = .arbiterResetEntry ∨ c = .resetNRise

/-- What command c can do to the voted outputs and their guard on the way from arbiter a to arbiter b. -/
inductive Arb.OutputStep (c : Instr) (a b : Arb) : Prop where
  /-- Outputs and guard stay. -/
  | same (h : b.outv = a.outv)
  /-- The arbiter is not in its fault state, and the guard is kept. -/
  | works (h : a.fault = false) (k : a.Grd → b.Grd)
  /-- The arbiter enters reset. -/
  | resets (h : resetsArb c) (k : b.Grd)
  /-- The arbiter leaves reset. -/
  | released (h : a.inReset = true) (k : b.Grd)

theorem Arb.OutputStep.guarded {c : Instr} {a b : Arb} (h : Arb.OutputStep c a b) (ha : a.Grd) : b.Grd := by
  cases h
  case same h => exact ha.of_eq h
  case works k => exact k ha
  case resets k => exact k
  case released k => exact k

/-- A change made under a condition after which outputs and guard are as before. -/
theorem Arb.OutputStep.same_ite {c : Instr} {s t : State} {p : Prop} [Decidable p] (h : t.arb.outv = s.arb.outv) :
    Arb.OutputStep c s.arb (if p then t else s).arb := by
  split
  · exact .same h
  · exact .same rfl

/-- A change that keeps the guard, made only by an arbiter that runs. -/
theorem Arb.OutputStep.works_ite {c : Instr} {s t : State} {p : Prop} [Decidable p] (hp : p → s.arb.runs = true)
    (k : s.arb.runs = true → s.arb.Grd → t.arb.Grd) : Arb.OutputStep c s.arb (if p then t else s).arb := by
  split
  case isTrue h => exact .works (Arb.fault_of_runs (hp h)) (k (hp h))
  case isFalse => exact .same rfl

/-- The strobe of an arbiter outside its fault state keeps the guard; in it the voted outputs stay. -/
theorem execSlotStrobe_step {c : Instr} {s t : State} (e : execSlotStrobe s = .next t) : Arb.OutputStep c s.arb t.arb := by
  obtain rfl := Host.Outcome.next.inj e
  split
  case isTrue => exact .same rfl
  case isFalse =>
    cases h : s.arb.fault
    · exact .works h fun g => (s.issueStrobe_guarded g).of_eq (by simp)
    · exact .same (by simp [State.issueStrobe, h]; rfl)

theorem execOutputFrame_step {c : Instr} {x f} {s t : State} (e : execOutputFrame x f s = .next t) :
    Arb.OutputStep c s.arb t.arb := by
  obtain rfl := Host.Outcome.next.inj e
  by_cases h : s.arb.runs = true
  · exact .works (Arb.fault_of_runs h) (s.arb.takeFrame_guarded x f)
  · exact .same (by simp [Arb.takeFrame, h])

theorem execVpoQueuePulseStart_step {c : Instr} {i} {s t : State} (e : execVpoQueuePulseStart i s = .next t) :
    Arb.OutputStep c s.arb t.arb := by
  obtain rfl := Host.Outcome.next.inj e
  rw [State.onArb_arb]
  split
  case isTrue h =>
    have hr : s.arb.runs = true := by simp_all
    exact .works (Arb.fault_of_runs hr) (Arb.modVpo_guarded i fun q hq => by simp [VpoQ.ready, hq])
  case isFalse => exact .same rfl

theorem execVpoQueuePulseEnd_step {c : Instr} {i} {s t : State} (e : execVpoQueuePulseEnd i s = .next t) :
    Arb.OutputStep c s.arb t.arb := by
  obtain rfl := Host.Outcome.next.inj e
  rw [State.onArb_arb]
  split
  case isTrue h => exact .works (Arb.fault_of_runs h) (Arb.modVpo_guarded i fun q hq => by simp [VpoQ.ends, hq])
  case isFalse => exact .same rfl

theorem execRollCall_step {c : Instr} {v} {s t : State} (e : execRollCall v s = .next t) : Arb.OutputStep c s.arb t.arb := by
  obtain rfl := Host.Outcome.next.inj e
  split
  case isTrue => exact .same rfl
  case isFalse h =>
    split
    · have hr : s.arb.runs = true := by simp_all [Arb.rollDue]
      exact .works (Arb.fault_of_runs hr) s.rollVerdict_guarded
    · exact .same (State.poll_outv _)

theorem execRollCallReport_outv {x v ok} {s t : State} (e : execRollCallReport x v ok s = .next t) :
    t.arb.outv = s.arb.outv := by
  obtain rfl := Host.Outcome.next.inj e
  split
  · dsimp only
    split <;> simp
  · rfl

theorem execDonorPathTimeout_outv {s t : State} (e : execDonorPathTimeout s = .next t) : t.arb.outv = s.arb.outv := by
  obtain rfl := Host.Outcome.next.inj e
  split
  · split
    · exact State.donorFails_outv _ _
    · rw [State.onLane_arb]
      refine Arb.regJoin_outv s.arb _ _ _ ?_
      rw [gateBit_fset _ _ _ (by decide), gateBit_fset _ _ _ (by decide), gateBit_fbump _ _ _ (by decide)]
  · rfl

theorem execStartupRollCall_outv {s t : State} (e : execStartupRollCall s = .next t) : t.arb.outv = s.arb.outv := by
  obtain rfl := Host.Outcome.next.inj e
  split
  · have h := State.startPoll_outv s
    generalize (s.onArb fun a => [LaneId.A, .B, .C].foldl Arb.endPoll a).poll = z at h ⊢
    exact h
  · rfl

theorem execStartWindowClose_outv {s t : State} (e : execStartWindowClose s = .next t) : t.arb.outv = s.arb.outv := by
  obtain rfl := Host.Outcome.next.inj e
  split
  · rw [State.onArb_arb]
    split
    · rfl
    · exact (Arb.window_outv _ _ _).trans (Arb.foldl_outv _ (fun a x => Arb.modJudge_outv a x _) _ _)
  · rfl

/-- What each command does to the voted outputs and their guard. -/
theorem exec_outputStep {c : Instr} {s t : State} (e : exec c s = .next t) : Arb.OutputStep c s.arb t.arb := by
  cases hl : laneEvent c
  case some x =>
    obtain ⟨l, h⟩ := exec_of_laneEvent hl s
    obtain rfl := Host.Outcome.next.inj (h.symm.trans e)
    exact .same (by simp)
  case none =>
    cases c
    all_goals cases hl
    -- commands with a lemma of their own
    case slotStrobe => exact execSlotStrobe_step e
    case outputFrame => exact execOutputFrame_step e
    case vpoQueuePulseStart => exact execVpoQueuePulseStart_step e
    case vpoQueuePulseEnd => exact execVpoQueuePulseEnd_step e
    case rollCall => exact execRollCall_step e
    case rollCallReport => exact .same (execRollCallReport_outv e)
    case donorPathTimeout => exact .same (execDonorPathTimeout_outv e)
    case startupRollCall => exact .same (execStartupRollCall_outv e)
    case startWindowClose => exact .same (execStartWindowClose_outv e)
    case laneSlot x phase =>
      cases phase
      all_goals obtain rfl := Host.Outcome.next.inj e
      case strobe | work => exact .same_ite (by simp)
      case round1 | image => exact .same (by simp)
    all_goals obtain rfl := Host.Outcome.next.inj e
    -- voting, the comparator and the start gate
    case outputSlotClose => exact .works_ite (by simp +contextual) fun _ => s.closeSlot_guarded
    case arbiterComparatorTrip => exact .works_ite id fun _ _ => Arb.guarded_default rfl rfl rfl
    case startGateOpen => exact .works_ite (by simp +contextual [Arb.gateDue]) fun hr _ => Arb.openGate_guarded _ hr
    -- the host port and the mailbox
    case votedRead | votedWrite | laneViewWrite | hostreqWrite | registerRead | registerWrite | pairLowRead | rcRead
        | mbxH2dProducerWrite | mbxD2hConsumerWrite | irqEnableWrite =>
      exact .same_ite (by simp)
    case stallTimeout => exact .same (by simp)
    case functionLevelReset =>
      split
      · exact .same rfl
      · exact .same (Arb.functionReset_outv _)
    case perstRelease => exact .same rfl
    case perstNFall => exact .same (Arb.endpointReset_outv s.arb)
    case powerStateWrite => split <;> exact .same rfl
    case mailboxD2hCopy =>
      split
      · exact .same_ite (by simp)
      · exact .same rfl
    case mailboxD2hTimeout => exact .same_ite (by simp)
    -- clocks, supplies and resets
    case oscillatorEdge | weekdayStep | slewEnd | rtcWriteApply | rtcSnap | rtcSettime | rtcSetwday | rtcSetph =>
      exact .same_ite (by simp [State.oscEdge_outv])
    case powerFailNFall | inputMonitorTrip => exact .same (State.tripLane_outv _ _ _)
    case laneSelfReset => exact .same_ite (State.resetLane_outv _ _ _)
    case laneRailReset =>
      split
      · exact .same rfl
      · exact .same (by rw [State.resetLane_outv, State.tripLane_outv])
    case arbSupplyReset mains =>
      refine .resets (.inl ⟨mains, rfl⟩) ?_
      split <;> exact Arb.held_guarded s.arb
    case backupPowerLoss => exact .resets (.inr (.inl rfl)) (Arb.held_guarded s.arb)
    case resetNFall =>
      split
      · exact .same rfl
      · exact .same (by dsimp only; split <;> simp)
    case arbiterResetEntry =>
      split
      · exact .resets (.inr (.inr (.inl rfl))) (Arb.held_guarded s.arb)
      · exact .same rfl
    case resetNRise =>
      split
      · exact .same rfl
      · exact .resets (.inr (.inr (.inr rfl))) (Arb.held_guarded s.arb)
    case arbiterRelease =>
      split
      case isTrue h => exact .released (by simp_all) (Arb.guarded_default rfl rfl rfl)
      case isFalse => exact .same rfl
    -- tamper and the charger
    case tamperEvent =>
      split
      · exact .same rfl
      · exact .same (State.tamperEvent_outv _)
    case tamperInactive => exact .same rfl
    case tamperLogClear => exact .same_ite (by simp)
    case chargerStop | chargerRestart => exact .same_ite rfl
    -- the island
    case evaluationCycle | sresetRise => exact .same (State.evaluate_outv _ _ _ _)
    case stopWord =>
      split
      · exact .same (State.onIsl_outv _ _)
      · exact .same rfl
    case configConfirm =>
      split
      · exact .same (by simp [State.lockEvent, State.onIsl_outv])
      · exact .same rfl
    case stopWordLoss | switchTest | testPulse | clockCheck | ramMarch | vddSafeFault | cycleWatchdog | sresetStuck
        | sresetArm =>
      exact .same (State.onIsl_outv _ _)
    case islandPowerOn => exact .same rfl
    -- exclusion and rejoin
    case reportTimeout => exact .same_ite (by simp)
    case snapRollCallDecision => exact .works_ite (by simp +contextual [Arb.snapDue]) fun _ => s.snapDecide_guarded
    case bulkCopyDone =>
      exact .same_ite ((Arb.reg_outv _ _ (gateBit_fset _ _ _ (by decide))).trans (State.joinPhase_outv _ _ _))
    case dramPartDone => exact .same_ite (State.joinPhase_outv _ _ _)
    case deltaPass | handoverTimeout | donorFail => exact .same_ite (by simp)
    case handoverSlot => exact .same_ite (State.handover_outv _ _)
    case excludeCommand => exact .works_ite id fun _ g => (s.manualExclude_guarded _ g).of_eq rfl
    case rejoinCommand => exact .same_ite (s.manualRejoin_outv _)
    -- the start
    case settlementDone => exact .same_ite rfl
    case firstAgreement => exact .same_ite (by simp)

/-! ### The obligation -/

/-- Settles O4: every command keeps the guard, by `exec_outputStep`. -/
theorem outputsStayGuarded : Obligations.OutputsStayGuarded := by
  unfold Obligations.OutputsStayGuarded
  intro s t h e
  rw [Arb.guarded_iff] at h ⊢
  unfold step at e
  split at e
  case h_1 =>
    obtain rfl := Host.Outcome.next.inj e
    exact h
  case h_2 => exact (exec_outputStep e).guarded h

end Sys2Proof.Machine
end

section
/-! The monitors of links and clocks (R38, R55), and the state right after reset (R14, R377, R458). -/
namespace Sys2Proof.Machine

/-! ### Links -/

theorem LinkView.fails_iff (v : LinkView) : v.fails = true ↔ v.down = false ∧ (2 ≤ v.silent ∨ 8 ≤ v.errs.length) := by
  simp [LinkView.fails]

theorem LinkView.heals_iff (v : LinkView) : v.heals = true ↔ v.down = true ∧ 1000 ≤ v.clean := by
  simp [LinkView.heals]

theorem LinkView.mark_of_fails {v : LinkView} (h : v.fails = true) : v.mark = { v with down := true, clean := 0 } := by
  simp [LinkView.mark, h]

theorem LinkView.mark_of_heals {v : LinkView} (h : v.heals = true) :
    v.mark = { v with down := false, silent := 0, errs := [] } := by
  have hup : v.fails = false := by
    have hdown := (v.heals_iff.mp h).1
    simp [LinkView.fails, hdown]
  simp [LinkView.mark, h, hup]

/-- A link is marked when a condition of it holds. -/
theorem Agree.modLink_ite (a : Agree) (link1 : Bool) (p : LinkView → Bool) (f : LinkView → LinkView) :
    a.modLink link1 (fun v => if p v = true then f v else v) =
      if p (if link1 = true then a.link1 else a.link0) = true then
        (if link1 = true then { a with link1 := f a.link1 } else { a with link0 := f a.link0 })
      else a := by
  cases link1
  all_goals
    simp only [Agree.modLink, if_true, Bool.false_eq_true, if_false]
    split <;> rfl

/-! ### Clocks -/

/-- The lock bits that a monitor names, at their places in LCTL_CLKSTAT. -/
theorem lockMask_bit (locks : BitVec 7) {i : Nat} (hi : i < 32) :
    (BitVec.ofNat 32 (locks.toNat * 2)).getLsbD i = (decide (1 ≤ i) && locks.getLsbD (i - 1)) := by
  rw [BitVec.getLsbD_ofNat, ← Nat.pow_one 2, Nat.testBit_mul_two_pow]
  simp [hi, BitVec.getLsbD]

/-! ### The obligations -/

/-- Settles O12: link marks by `Agree.modLink_ite`, lock bits by `lockMask_bit`. -/
theorem monitorsMarkLinksAndClocks : Obligations.MonitorsMarkLinksAndClocks := by
  unfold Obligations.MonitorsMarkLinksAndClocks
  refine ⟨fun s x link1 => ?links, fun s x locks hlife hlocks => ?clocks⟩
  case links =>
    intro l v
    refine ⟨l.agree.modLink link1 fun v => if v.fails then v.mark else v,
      l.agree.modLink link1 fun v => if v.heals then v.mark else v, rfl, ?down, rfl, ?up⟩
    case down =>
      rw [Agree.modLink_ite]
      by_cases h : v.fails = true
      · rw [if_pos h, if_pos (v.fails_iff.mp h), ← LinkView.mark_of_fails h]
        cases link1 <;> rfl
      · rw [if_neg h, if_neg (mt v.fails_iff.mpr h)]
    case up =>
      rw [Agree.modLink_ite]
      by_cases h : v.heals = true
      · rw [if_pos h, if_pos (v.heals_iff.mp h), ← LinkView.mark_of_heals h]
        cases link1 <;> rfl
      · rw [if_neg h, if_neg (mt v.heals_iff.mpr h)]
  case clocks =>
    refine ⟨_, laneWhen_pos (by simpa [hlife] using hlocks), rfl, rfl, fun i hi => ?_, fun k hk => rget_rset_other _ _ hk⟩
    rw [rget_rset_same, BitVec.getLsbD_and, BitVec.getLsbD_not, lockMask_bit locks hi]
    simp [hi]

/-- Settles O31: the reset values as they stand, and the guard by `Arb.guarded_default`. -/
theorem resetHoldsEverythingAtItsStart : Obligations.ResetHoldsEverythingAtItsStart := by
  unfold Obligations.ResetHoldsEverythingAtItsStart
  have hguard : State.reset.arb.Grd := Arb.guarded_default rfl rfl rfl
  have hdefaults : State.reset.arb.AtDefaults := hguard (.inl rfl)
  have hbounded : State.reset.Bounded := by
    refine ⟨fun q hq => ?_, Nat.zero_le _, rfl⟩
    rw [List.eq_of_mem_replicate hq]
    exact Nat.zero_le _
  refine ⟨fun x => ?_, rfl, rfl, hdefaults, fun k => rfl, fun x k => ?_, rfl, rfl, rfl, (Arb.guarded_iff _).mpr hguard,
    ⟨rfl, rfl, rfl⟩, hbounded⟩
  · cases x <;> rfl
  · cases x <;> rfl

end Sys2Proof.Machine
end

section
/-! The comparator trip and the arbiter's fault state (R16, R403, R457). -/
namespace Sys2Proof.Machine

/-! ### Causes of interrupts -/

theorem Arb.signal_frame (a : Arb) (v) : { a.signal v with msix := a.msix, msi := a.msi } = a := by
  unfold Arb.signal
  split <;> rfl

@[simp] theorem Arb.signal_regs (a : Arb) (v) : (a.signal v).regs = a.regs := by
  unfold Arb.signal
  split <;> rfl

/-- A cause changes its bit and what is signalled, nothing else. -/
theorem Arb.irq_frame (a : Arb) (v) : { a.irq v with regs := a.regs, msix := a.msix, msi := a.msi } = a := by
  unfold Arb.irq
  split
  · rfl
  · dsimp only
    split
    · exact congrArg (fun b : Arb => { b with regs := a.regs }) (Arb.signal_frame { a with regs := _ } v)
    · rfl

theorem Arb.irq_regs (a : Arb) (v) :
    (a.irq v).regs = if a.runs = true then forBits a.regs f_ARB_IRQSTAT_CAUSE (2 ^ v) else a.regs := by
  unfold Arb.irq Arb.runs
  cases a.fault <;> cases a.inReset <;> simp [apply_ite Arb.regs]

@[simp] theorem Arb.irq_mask (a : Arb) (v) : (a.irq v).mask = a.mask :=
  (congrArg Arb.mask (a.irq_frame v) :)
@[simp] theorem Arb.irq_nextMask (a : Arb) (v) : (a.irq v).nextMask = a.nextMask :=
  (congrArg Arb.nextMask (a.irq_frame v) :)
@[simp] theorem Arb.irq_strobe (a : Arb) (v) : (a.irq v).strobe = a.strobe :=
  (congrArg Arb.strobe (a.irq_frame v) :)
@[simp] theorem Arb.irq_ticks (a : Arb) (v) : (a.irq v).ticks = a.ticks :=
  (congrArg Arb.ticks (a.irq_frame v) :)
@[simp] theorem Arb.irq_slot (a : Arb) (v) : (a.irq v).slot = a.slot :=
  (congrArg Arb.slot (a.irq_frame v) :)
@[simp] theorem Arb.irq_agreed (a : Arb) (v) : (a.irq v).agreed = a.agreed :=
  (congrArg Arb.agreed (a.irq_frame v) :)
@[simp] theorem Arb.irq_mbx (a : Arb) (v) : (a.irq v).mbx = a.mbx :=
  (congrArg Arb.mbx (a.irq_frame v) :)
@[simp] theorem Arb.irq_inReset (a : Arb) (v) : (a.irq v).inReset = a.inReset :=
  (congrArg Arb.inReset (a.irq_frame v) :)

/-- A bit written by OR into a field reads as set. -/
theorem fget_forBits_bit (m : RegMap) (f : Fld) (v : Nat) (hlo : f.lo ≤ f.hi) (hhi : f.hi < 32) (hv : v < f.hi + 1 - f.lo) :
    (fget (forBits m f (2 ^ v)) f).testBit v = true := by
  rw [forBits, fget_fset_same m f _ hlo hhi, Nat.testBit_mod_two_pow, Nat.testBit_or, Nat.testBit_two_pow_self]
  simp [hv]

/-! ### The fault state -/

theorem Arb.runs_iff (a : Arb) : a.runs = true ↔ a.inReset = false ∧ a.fault = false := by
  simp [Arb.runs]

theorem Arb.not_runs_of_fault {a : Arb} (h : a.fault = true) : a.runs = false := by
  simp [Arb.runs, h]

theorem Arb.atDefaults_of_eq {a : Arb} (hvdo : a.vdo = 0) (hvao : a.vao = List.replicate 16 0)
    (hvpo : a.vpo = List.replicate 16 vpoQ0) : a.AtDefaults := by
  refine ⟨hvdo, hvao, fun q hq => ?_⟩
  rw [hvpo] at hq
  rw [List.eq_of_mem_replicate hq]
  exact ⟨rfl, rfl⟩

/-- A write to an arbiter in its fault state is a bus error that is not even counted (R457). -/
theorem State.hostAccess_write_of_fault {s : State} {r : HostReq} (fab : Nat) (hready : s.HostReady) (h : s.arb.fault = true) :
    s.hostAccess r true fab = s := by
  cases hfits : reqFits r true
  · simp [State.hostAccess, hfits]
  · rw [State.hostAccess_of_ready fab hready hfits]
    simp [State.serve, Arb.busError, Arb.countError, h, State.onArb]

theorem hostRow_write_of_fault {ok : Place → Bool} {s : State} {r : HostReq} (hready : s.HostReady) (h : s.arb.fault = true) :
    hostRow ok r true 0 s = .next s := by
  simp [hostRow, State.hostAccess_write_of_fault 0 hready h]

/-- Every write of the host occurs as a row of the host port. -/
theorem exec_hostWrite {r : HostReq} {c : Instr}
    (hc : c ∈ [Instr.registerWrite r, .votedWrite r, .laneViewWrite r, .hostreqWrite r, .irqEnableWrite r,
      .mbxH2dProducerWrite r, .mbxD2hConsumerWrite r]) (s : State) :
    ∃ ok, exec c s = hostRow ok r true 0 s := by
  simp only [List.mem_cons, List.not_mem_nil, or_false] at hc
  rcases hc with rfl | rfl | rfl | rfl | rfl | rfl | rfl
  all_goals
    dsimp only [exec]
    exact ⟨_, rfl⟩

/-- Of all commands only those that put the arbiter in reset end its fault state. -/
theorem resetsArb_of_fault_ends {c : Instr} {s t : State} (hfault : s.arb.fault = true) (hreset : s.arb.inReset = false)
    (e : exec c s = .next t) (h : t.arb.fault = false) : resetsArb c := by
  cases exec_outputStep e
  case same k =>
    have hkept : t.arb.fault = s.arb.fault := congrArg OutView.fault k
    simp [hkept, hfault] at h
  case works hworks k => simp [hfault] at hworks
  case resets hc k => exact hc
  case released hin k => simp [hreset] at hin

/-! ### The obligation -/

/-- The arbiter after a comparator trip. -/
def Arb.tripped (a : Arb) : Arb :=
  { (a.irq 4).outputsDefault with fault := true, out := { a.out with isOpen := false }, joining := false, rolling := false }

theorem exec_arbiterComparatorTrip {s : State} (h : s.arb.runs = true) :
    exec .arbiterComparatorTrip s = .next { s with arb := s.arb.tripped, bak := { s.bak with wasFault := true } } :=
  congrArg Host.Outcome.next (if_pos h)

theorem Arb.tripped_regs {a : Arb} (h : a.runs = true) : a.tripped.regs = forBits a.regs f_ARB_IRQSTAT_CAUSE (2 ^ 4) :=
  (a.irq_regs 4).trans (if_pos h)

/-- Settles O13: the trip by `Arb.tripped`, the end of the fault state by `resetsArb_of_fault_ends`. -/
theorem comparatorTripForcesDefaults : Obligations.ComparatorTripForcesDefaults := by
  unfold Obligations.ComparatorTripForcesDefaults
  refine ⟨fun s h => ?trip, fun s x f h => ?frames, fun s r c h hready hc => ?writes, fun s h => ?flr,
    fun s t c hfault hreset e hend => resetsArb_of_fault_ends hfault hreset e hend, fun s c hc => ?resets⟩
  case trip =>
    obtain ⟨hreset, -⟩ := s.arb.runs_iff.mp h
    refine ⟨s.arb.tripped, exec_arbiterComparatorTrip h, rfl, (Arb.irq_inReset _ _).trans hreset,
      Arb.atDefaults_of_eq rfl rfl rfl, rfl, ?_, Arb.irq_mask _ _, Arb.irq_nextMask _ _, Arb.irq_strobe _ _, Arb.irq_ticks _ _,
      Arb.irq_slot _ _, Arb.irq_agreed _ _, Arb.irq_mbx _ _, fun k hk => ?_⟩
    · rw [Arb.tripped_regs h]
      exact fget_forBits_bit _ _ _ (by decide) (by decide) (by decide)
    · rw [Arb.tripped_regs h]
      exact rget_fset_other _ _ _ hk
  case frames =>
    have hkept : s.arb.takeFrame x f = s.arb := by simp [Arb.takeFrame, Arb.not_runs_of_fault h]
    exact congrArg (fun a => Host.Outcome.next { s with arb := a }) hkept
  case writes =>
    obtain ⟨ok, hrow⟩ := exec_hostWrite hc s
    rw [hrow, hostRow_write_of_fault hready h]
  case flr =>
    refine ⟨_, rfl, ?_⟩
    split
    · exact ⟨h, rfl, rfl, rfl⟩
    · exact ⟨h, rfl, rfl, rfl⟩
  case resets =>
    rcases hc with ⟨m, rfl⟩ | rfl | ⟨hheld, rfl | rfl⟩
    · refine ⟨_, rfl, ?_⟩
      split <;> exact ⟨rfl, rfl⟩
    · exact ⟨_, rfl, rfl, rfl⟩
    · exact ⟨_, congrArg Host.Outcome.next (if_pos hheld), rfl, rfl⟩
    · obtain ⟨at0, h0⟩ := Option.isSome_iff_exists.mp hheld
      refine ⟨_, rfl, ?_⟩
      rw [h0]
      exact ⟨rfl, rfl⟩

end Sys2Proof.Machine
end

section
/-! Output frames that take no part in a vote, and the close of an output slot (R61, R16, R390). -/
namespace Sys2Proof.Machine

/-! ### Frames outside a vote -/

theorem Arb.takeFrame_of_stopped {a : Arb} {x : LaneId} (f : BitVec 64)
    (h : a.runs = false ∨ (a.mask.has x = false ∧ a.listener x = false)) : a.takeFrame x f = a := by
  rcases h with h | ⟨hmember, hlistens⟩
  · simp [Arb.takeFrame, h]
  · simp [Arb.takeFrame, hmember, hlistens]

/-- A member's frame outside the open slot sets LATEFRAME (R61). -/
theorem Arb.takeFrame_late {a : Arb} {x : LaneId} {f : BitVec 64} (hruns : a.runs = true) (hmember : a.mask.has x = true)
    (hlate : a.out.isOpen = false ∨ frameSlot f ≠ a.out.slot.toNat) :
    a.takeFrame x f = { a with regs := fflag a.regs f_ARB_OSTAT_LATEFRAME } := by
  rcases hlate with h | h
  · simp [Arb.takeFrame, hruns, hmember, h, Arb.reg]
  · simp [Arb.takeFrame, hruns, hmember, h, Arb.reg]

/-- A member's END frame in its slot is recorded (R60). -/
theorem Arb.takeFrame_end {a : Arb} {x : LaneId} {f : BitVec 64} (hruns : a.runs = true) (hmember : a.mask.has x = true)
    (hopen : a.out.isOpen = true) (hslot : frameSlot f = a.out.slot.toNat) (hend : isEnd f = true) :
    a.takeFrame x f = { a with out := { a.out with frames := a.out.frames ++ [(x, f)] } } := by
  simp [Arb.takeFrame, hruns, hmember, hopen, hslot, hend]

/-- A flag of one bit reads as set. -/
theorem fget_fflag_same (m : RegMap) {f : Fld} (h : f.lo = f.hi) (hhi : f.hi < 32) : fget (fflag m f) f = 1 := by
  rw [fflag, fget_fset_same m f _ h.le hhi, h]
  simp

/-- A field in another register, or apart in the same one, is left by a field write. -/
theorem fget_fset_off (m : RegMap) {f g : Fld} (v : Nat) (hlo : f.lo ≤ f.hi) (hhi : f.hi < 32)
    (h : g.key ≠ f.key ∨ g.hi < f.lo ∨ f.hi < g.lo) : fget (fset m f v) g = fget m g := by
  rcases h with h | h
  · exact fget_fset_other m f g v h
  · exact fget_fset_apart m f g v hlo hhi h

/-! ### Counters of the lanes -/

/-- The registers that the arbiter holds for each lane are distinct. -/
theorem laneFld_key_inj (f : Fld) {x y : LaneId} (h : (laneFld f x).key = (laneFld f y).key) : x = y := by
  have hkey : f.key + 4 * x.num = f.key + 4 * y.num := h
  have hnum : LaneId.ofNum? x.num = LaneId.ofNum? y.num := congrArg LaneId.ofNum? (by omega)
  simpa [LaneId.ofNum?_num] using hnum

/-- The disagreement total of a lane, one higher, saturating. -/
def totalPlus (m : RegMap) (x : LaneId) : Nat :=
  satAdd (2 ^ (f_ARB_ODISA_TOTAL.hi + 1 - f_ARB_ODISA_TOTAL.lo) - 1) (fget m (laneFld f_ARB_ODISA_TOTAL x)) 1

/-- A counter that saturates reads as its sum. -/
theorem fget_fbump_same (m : RegMap) {f : Fld} (hlo : f.lo ≤ f.hi) (hhi : f.hi < 32) :
    fget (fbump m f) f = satAdd (2 ^ (f.hi + 1 - f.lo) - 1) (fget m f) 1 := by
  have hpos : 0 < 2 ^ (f.hi + 1 - f.lo) := Nat.two_pow_pos _
  rw [fbump, fget_fset_same m f _ hlo hhi, Nat.mod_eq_of_lt]
  unfold satAdd
  omega

/-- Each lane of a list without repetition is counted once, and no other lane. -/
theorem fget_total_foldl {xs : List LaneId} (hxs : xs.Nodup) (a : Arb) (y : LaneId) :
    fget (xs.foldl Arb.noteDisagree a).regs (laneFld f_ARB_ODISA_TOTAL y) =
      if y ∈ xs then totalPlus a.regs y else fget a.regs (laneFld f_ARB_ODISA_TOTAL y) := by
  induction xs generalizing a with
  | nil => rfl
  | cons x xs ih =>
    obtain ⟨hx, hxs⟩ := List.nodup_cons.mp hxs
    have hregs : (a.noteDisagree x).regs = fbump a.regs (laneFld f_ARB_ODISA_TOTAL x) := rfl
    rw [List.foldl_cons, ih hxs]
    by_cases e : y = x
    · subst e
      simp only [hx, if_false, List.mem_cons_self, if_true, hregs]
      exact fget_fbump_same _ (show f_ARB_ODISA_TOTAL.lo ≤ f_ARB_ODISA_TOTAL.hi by decide)
        (show f_ARB_ODISA_TOTAL.hi < 32 by decide)
    · have hother : fget (a.noteDisagree x).regs (laneFld f_ARB_ODISA_TOTAL y) = fget a.regs (laneFld f_ARB_ODISA_TOTAL y) :=
        fget_fset_other _ _ _ _ (mt (laneFld_key_inj _) e)
      simp [e, totalPlus, hother]

/-- Counting disagreement leaves every register but those of the totals. -/
theorem rget_foldl_noteDisagree (xs : List LaneId) (a : Arb) {k : Nat} (h : ∀ x, k ≠ (laneFld f_ARB_ODISA_TOTAL x).key) :
    rget (xs.foldl Arb.noteDisagree a).regs k = rget a.regs k :=
  foldl_keeps Arb.noteDisagree (fun a => rget a.regs k) (fun _ x => rget_fset_other _ _ _ (h x)) xs a

/-! ### The close -/

@[simp] theorem Arb.irq_out (a : Arb) (v) : (a.irq v).out = a.out :=
  (congrArg Arb.out (a.irq_frame v) :)


theorem Arb.foldl_noteDisagree_mask (xs : List LaneId) (a : Arb) : (xs.foldl Arb.noteDisagree a).mask = a.mask :=
  foldl_keeps Arb.noteDisagree Arb.mask (fun _ _ => rfl) xs a

@[simp] theorem Arb.noteBad_mask (a : Arb) : a.noteBad.mask = a.mask := by
  have h := Arb.foldl_noteDisagree_mask a.bad a
  unfold Arb.noteBad
  dsimp only
  split <;> exact h

/-- Changes of the lanes' records leave the rest of the arbiter. -/
theorem Arb.foldl_modJudge_frame (f : LaneId → LaneJudge → LaneJudge) (xs : List LaneId) (a : Arb) :
    { xs.foldl (fun a x => a.modJudge x (f x)) a with lanes := a.lanes } = a :=
  foldl_keeps (fun (a : Arb) x => a.modJudge x (f x)) (fun b => { b with lanes := a.lanes }) (fun _ _ => rfl) xs a

/-- The first mismatch changes the hold and the lanes' records. -/
theorem Arb.startHold_frame (a : Arb) : { a.startHold with hold := a.hold, lanes := a.lanes } = a := by
  unfold Arb.startHold
  split
  · rfl
  · exact congrArg (fun b : Arb => { b with hold := a.hold }) (Arb.foldl_modJudge_frame _ a.mask.toList { a with hold := _ })

@[simp] theorem Arb.startHold_mask (a : Arb) : a.startHold.mask = a.mask :=
  (congrArg Arb.mask a.startHold_frame :)
@[simp] theorem Arb.startHold_regs (a : Arb) : a.startHold.regs = a.regs :=
  (congrArg Arb.regs a.startHold_frame :)

@[simp] theorem Arb.holdAtClose_mask (a : Arb) : a.holdAtClose.mask = a.mask := by
  simp only [Arb.holdAtClose, apply_ite Arb.mask, Arb.startHold_mask, ite_self]

@[simp] theorem Arb.holdAtClose_regs (a : Arb) : a.holdAtClose.regs = a.regs := by
  simp only [Arb.holdAtClose, apply_ite Arb.regs, Arb.startHold_regs, ite_self]

theorem Arb.countBad_frame (a : Arb) (l) : { a.countBad l with lanes := a.lanes } = a :=
  Arb.foldl_modJudge_frame _ a.mask.toList a

@[simp] theorem Arb.countBad_mask (a : Arb) (l) : (a.countBad l).mask = a.mask :=
  (congrArg Arb.mask (a.countBad_frame l) :)
@[simp] theorem Arb.countBad_regs (a : Arb) (l) : (a.countBad l).regs = a.regs :=
  (congrArg Arb.regs (a.countBad_frame l) :)

/-- A rejoin that ends writes a counter, the phase and the progress. -/
theorem rget_joinEnd (m : RegMap) {f : Fld} {k : Nat} (hf : k ≠ f.key) (hjoin : k ≠ f_ARB_JOIN_PHASE.key) :
    rget (fset (fset (fbump m f) f_ARB_JOIN_PHASE 0) f_ARB_JOIN_PROGRESS 0) k = rget m k := by
  rw [rget_fset_other _ f_ARB_JOIN_PROGRESS _ hjoin, rget_fset_other _ _ _ hjoin]
  exact rget_fset_other _ _ _ hf

theorem State.failJoin_regs (s : State) (x n) : (s.failJoin x n).arb.regs =
    fset (fset (fbump s.arb.regs f_ARB_JOIN_FAILS) f_ARB_JOIN_PHASE 0) f_ARB_JOIN_PROGRESS 0 := by
  rw [State.failJoin, State.onLane_arb]
  rfl

/-- The check of the handover slot writes registers of exclusion and rejoin only. -/
theorem State.handoverCheck_rget (s : State) {k : Nat} (h : k < f_ARB_LANESTAT_CAUSE.key) :
    rget s.handoverCheck.arb.regs k = rget s.arb.regs k := by
  have hcause (x : LaneId) : k ≠ (laneFld f_ARB_LANESTAT_CAUSE x).key :=
    (h.trans_le (Nat.le_add_right _ _)).ne
  have hjoin : k ≠ f_ARB_JOIN_PHASE.key := (h.trans (by decide)).ne
  have hcnt : k ≠ f_ARB_EXCNT_ENTRYCNT.key := (h.trans (by decide)).ne
  unfold State.handoverCheck
  dsimp only
  split
  · rfl
  · split
    · exact rget_joinEnd s.arb.regs hcnt hjoin
    · rw [State.failJoin_regs, rget_joinEnd _ (f := f_ARB_JOIN_FAILS) hjoin hjoin]
      exact rget_fset_other _ _ _ (hcause _)

/-- An exclusion opens no output slot. -/
theorem State.excludeLanes_closed {s : State} (xs) (h : s.arb.out.isOpen = false) :
    (s.excludeLanes xs).arb.out.isOpen = false := by
  have hkept : (xs.foldl (fun a x => a.exclude x.1 x.2) s.arb).out = s.arb.out := 
    foldl_keeps (fun (a : Arb) (x : LaneId × Nat) => a.exclude x.1 x.2) Arb.out (fun _ _ => rfl) xs _
  have hempty (t : State) : t.emptyMask.arb.out.isOpen = false := by
    simp only [State.emptyMask, State.onArb_arb, Arb.irq_out, apply_ite Arb.out, ite_self]
    rfl
  unfold State.excludeLanes
  split
  · exact h
  · dsimp only
    split
    · exact hempty _
    · exact (congrArg OutSlot.isOpen hkept).trans h

theorem State.closeSlot_closed (s : State) : s.closeSlot.arb.out.isOpen = false := by
  unfold State.closeSlot
  exact State.excludeLanes_closed _ rfl

/-- With two or three lanes taking part, or none, no lane is excluded at the close; below the registers of exclusion and rejoin
only the counts of disagreement change. -/
theorem State.closeSlot_rget {s : State} (hcount : s.arb.mask.count ≠ 1) {k : Nat} (h : k < f_ARB_LANESTAT_CAUSE.key) :
    rget s.closeSlot.arb.regs k = rget s.arb.noteBad.regs k := by
  have hnone : (s.arb.noteBad.holdAtClose.countBad s.arb.bad).badAlone = [] := by
    simp [Arb.badAlone, hcount]
  unfold State.closeSlot
  dsimp only
  rw [hnone]
  refine (State.handoverCheck_rget _ h).trans ?_
  simp

theorem State.closeSlot_fget {s : State} (hcount : s.arb.mask.count ≠ 1) {f : Fld} (h : f.key < f_ARB_LANESTAT_CAUSE.key) :
    fget s.closeSlot.arb.regs f = fget s.arb.noteBad.regs f := by
  unfold fget
  rw [State.closeSlot_rget hcount h]

theorem Arb.mem_bad (a : Arb) (x : LaneId) : x ∈ a.bad ↔ a.mask.has x = true ∧ a.disagrees x = true := by
  simp [Arb.bad, LaneSet.mem_toList]

theorem Arb.noteBad_regs (a : Arb) : a.noteBad.regs =
    if a.hold.active = true then fbump (a.bad.foldl Arb.noteDisagree a).regs f_ARB_OSTAT_HELDCNT
    else (a.bad.foldl Arb.noteDisagree a).regs := by
  unfold Arb.noteBad
  split <;> rfl

/-- The close counts each member that disagrees once. -/
theorem Arb.noteBad_total (a : Arb) (x : LaneId) : fget a.noteBad.regs (laneFld f_ARB_ODISA_TOTAL x) =
    if a.mask.has x = true ∧ a.disagrees x = true then totalPlus a.regs x
    else fget a.regs (laneFld f_ARB_ODISA_TOTAL x) := by
  have hkey : (laneFld f_ARB_ODISA_TOTAL x).key ≠ f_ARB_OSTAT_HELDCNT.key := by cases x <;> decide
  have hcount := fget_total_foldl ((LaneSet.nodup_toList a.mask).filter a.disagrees) a x
  simp only [← Arb.mem_bad]
  rw [Arb.noteBad_regs]
  split
  · exact (fget_fset_other _ _ _ _ hkey).trans hcount
  · exact hcount

/-- A held slot is counted. -/
theorem Arb.noteBad_held (a : Arb) : fget a.noteBad.regs f_ARB_OSTAT_HELDCNT =
    if a.hold.active = true then
      satAdd (2 ^ (f_ARB_OSTAT_HELDCNT.hi + 1 - f_ARB_OSTAT_HELDCNT.lo) - 1) (fget a.regs f_ARB_OSTAT_HELDCNT) 1
    else fget a.regs f_ARB_OSTAT_HELDCNT := by
  have hkept : fget (a.bad.foldl Arb.noteDisagree a).regs f_ARB_OSTAT_HELDCNT = fget a.regs f_ARB_OSTAT_HELDCNT := by
    unfold fget
    rw [rget_foldl_noteDisagree _ _ fun x => by cases x <;> decide]
  rw [Arb.noteBad_regs]
  split
  · rw [fget_fbump_same _ (by decide) (by decide), hkept]
  · exact hkept

/-! ### The obligation -/

/-- Settles O6: frames outside a vote by the equations of `Arb.takeFrame`, the counts of the close by `Arb.noteBad_total` and
`Arb.noteBad_held`. -/
theorem framesOutsideTheSlotAreDiscarded : Obligations.FramesOutsideTheSlotAreDiscarded := by
  unfold Obligations.FramesOutsideTheSlotAreDiscarded
  have hframe (s : State) (x : LaneId) (f : BitVec 64) :
      exec (.outputFrame x f) s = .next { s with arb := s.arb.takeFrame x f } := rfl
  refine ⟨fun s x f hruns hmember hlate => ?late, fun s x f hstopped => ?stopped,
    fun s x f hruns hmember hopen hslot hend => ?ends, fun s hruns hopen => ?close⟩
  case late =>
    refine ⟨fflag s.arb.regs f_ARB_OSTAT_LATEFRAME, ?_, fget_fflag_same _ (by decide) (by decide),
      fun g hg => fget_fset_off _ _ (by decide) (by decide) hg⟩
    rw [hframe, Arb.takeFrame_late hruns hmember hlate]
  case stopped => rw [hframe, Arb.takeFrame_of_stopped f hstopped]
  case ends => rw [hframe, Arb.takeFrame_end hruns hmember hopen hslot hend]
  case close =>
    have hdue : (s.arb.runs && s.arb.out.isOpen) = true := by simp [hruns, hopen]
    refine ⟨s.closeSlot, congrArg Host.Outcome.next (if_pos hdue), s.closeSlot_closed, fun hcount => ⟨fun x => ?_, ?_⟩⟩
    · rw [State.closeSlot_fget hcount (by cases x <;> decide)]
      exact s.arb.noteBad_total x
    · rw [State.closeSlot_fget hcount (by decide)]
      exact s.arb.noteBad_held

end Sys2Proof.Machine
end

section
/-! The slot strobe in the arbiter (R22, R40, R403): what comes before the new slot's mask leaves the count, the slot number and
the state of the start, and what the strobe word carries. -/
namespace Sys2Proof.Machine

/-! ### What the arbiter does before the new mask -/

/-- From s to t only what the lanes' commands, settings and causes and a lost donor change has changed, of the arbiter and of the
tamper state. -/
structure State.Prepared (s t : State) : Prop where
  arb : { t.arb with regs := s.arb.regs, msix := s.arb.msix, msi := s.arb.msi, lanes := s.arb.lanes, dramDone := s.arb.dramDone,
                     nextMask := s.arb.nextMask, cmds := s.arb.cmds } = s.arb
  active : t.bak.active = s.bak.active

theorem State.Prepared.refl (s : State) : s.Prepared s := ⟨rfl, rfl⟩

theorem State.Prepared.trans {s t u : State} (h : s.Prepared t) (k : t.Prepared u) : s.Prepared u where
  arb := (congrArg (fun a : Arb => { a with
    regs := s.arb.regs, msix := s.arb.msix, msi := s.arb.msi, lanes := s.arb.lanes, dramDone := s.arb.dramDone,
    nextMask := s.arb.nextMask, cmds := s.arb.cmds }) k.arb).trans h.arb
  active := k.active.trans h.active

theorem State.Prepared.foldl {α : Type} {f : State → α → State} (h : ∀ (s : State) x, s.Prepared (f s x)) (xs : List α)
    (s : State) : s.Prepared (xs.foldl f s) := by
  induction xs generalizing s with
  | nil => exact .refl s
  | cons x xs ih => exact (h s x).trans (ih (f s x))

theorem State.prepared_reg (s : State) (f : RegMap → RegMap) : s.Prepared (s.onArb fun a => a.reg f) := ⟨rfl, rfl⟩

theorem State.prepared_onLane (s : State) (x : LaneId) (f : Lane → Lane) : s.Prepared (s.onLane x f) := by
  constructor <;> simp

/-- A lane that leaves with others still taking part. -/
theorem State.excludeLanes_one (s : State) {x : LaneId} {n : Nat} (h : (s.arb.nextMask.put x false).count ≠ 0) :
    s.excludeLanes [(x, n)] = s.onArb fun a => a.exclude x n :=
  if_neg h

/-- A lane that leaves by command does not empty the mask (R402). -/
theorem State.manualExclude_prepared (s : State) (x : LaneId) : s.Prepared (s.manualExclude x) := by
  unfold State.manualExclude
  split
  case isTrue => exact s.prepared_reg _
  case isFalse h =>
    have hleft : (s.arb.nextMask.put x false).count ≠ 0 := by simp_all
    rw [State.excludeLanes_one]
    · exact ⟨rfl, rfl⟩
    · exact hleft

theorem State.manualRejoin_prepared (s : State) (x : LaneId) : s.Prepared (s.manualRejoin x) := by
  unfold State.manualRejoin
  split <;> exact ⟨rfl, rfl⟩

theorem State.laneCommand_prepared (s : State) (c : Nat × Word) : s.Prepared (s.laneCommand c) := by
  unfold State.laneCommand
  split
  · split
    · exact s.manualExclude_prepared _
    · exact s.prepared_reg _
  · split
    · split
      · exact s.manualRejoin_prepared _
      · exact s.prepared_reg _
    · exact .refl s

theorem State.hostCommands_prepared (s : State) : s.Prepared s.hostCommands :=
  (State.Prepared.foldl State.laneCommand_prepared s.arb.cmds s).trans ⟨rfl, rfl⟩

theorem State.dictCommands_prepared (s : State) : s.Prepared s.dictCommands := by
  have hex (s : State) (o : Option LaneId) : s.Prepared (match o with | some y => s.manualExclude y | none => s) := by
    cases o
    · exact .refl s
    · exact s.manualExclude_prepared _
  have hre (s : State) (o : Option LaneId) : s.Prepared (match o with | some y => s.manualRejoin y | none => s) := by
    cases o
    · exact .refl s
    · exact s.manualRejoin_prepared _
  unfold State.dictCommands
  split
  · exact .refl s
  · dsimp only
    split
    · exact (hex s _).trans (hre _ _)
    · exact ((hex s _).trans (hre _ _)).trans ⟨rfl, rfl⟩

theorem State.restarts_prepared (s : State) : s.Prepared s.restarts := by
  refine State.Prepared.foldl (fun s x => ?_) _ s
  split
  · exact (s.prepared_onLane x _).trans ⟨rfl, rfl⟩
  · exact .refl s

theorem State.copySettings_prepared (s : State) : s.Prepared s.copySettings := by
  unfold State.copySettings
  split
  · exact .refl s
  · exact ⟨rfl, rfl⟩

/-- Several causes change what one cause changes. -/
theorem Arb.irqs_frame (a : Arb) (n : Nat) : { a.irqs n with regs := a.regs, msix := a.msix, msi := a.msi } = a := by
  refine foldl_keeps _ (fun b : Arb => { b with regs := a.regs, msix := a.msix, msi := a.msi }) (fun b v => ?_) (List.range 13) a
  split
  · exact congrArg (fun b : Arb => { b with regs := a.regs, msix := a.msix, msi := a.msi }) (b.irq_frame v)
  · rfl

theorem State.collectIrqs_prepared (s : State) : s.Prepared s.collectIrqs where
  arb := congrArg (fun a : Arb => { a with
    lanes := s.arb.lanes, dramDone := s.arb.dramDone, nextMask := s.arb.nextMask, cmds := s.arb.cmds }) (s.arb.irqs_frame _)
  active := rfl

theorem State.replaceDonor_prepared (s : State) : s.Prepared s.replaceDonor := by
  unfold State.replaceDonor
  split
  · exact (s.prepared_onLane s.arb.joiner _).trans ⟨rfl, rfl⟩
  · exact .refl s

theorem State.beforeStrobe_prepared (s : State) : s.Prepared s.beforeStrobe :=
  s.hostCommands_prepared.trans <| (State.dictCommands_prepared _).trans <| (State.restarts_prepared _).trans <|
    (State.copySettings_prepared _).trans <| (State.collectIrqs_prepared _).trans <| State.replaceDonor_prepared _

/-! ### The mask that was decided before the strobe -/

/-- The commands of the host that act at a strobe, when it has written none. -/
theorem State.hostCommands_of_no_cmds {s : State} (h : s.arb.cmds = []) : s.hostCommands = s := by
  have hdrop : (s.arb.dropCmds f_ARB_EXCLUDE_GO.key).dropCmds f_ARB_REJOIN_GO.key = s.arb := by
    simp only [Arb.dropCmds, h, List.filter_nil]
    rw [← h]
  simp only [State.hostCommands, h, List.foldl_nil]
  exact congrArg (fun a => { s with arb := a }) hdrop

/-- Object 0x1100 names no lane. -/
theorem State.dictCommands_of_none {s : State}
    (h : ∀ x, s.lead = some x → (s.lane x).dict.nat 0x1100 5 = 0xFF ∧ (s.lane x).dict.nat 0x1100 6 = 0xFF) :
    s.dictCommands = s := by
  unfold State.dictCommands
  split
  case h_1 => rfl
  case h_2 x hlead =>
    obtain ⟨hex, hre⟩ := h x hlead
    simp [hex, hre, LaneId.ofNum?]

@[simp] theorem State.restarts_nextMask (s : State) : s.restarts.arb.nextMask = s.arb.nextMask := by
  refine foldl_keeps _ (fun s => s.arb.nextMask) (fun s x => ?_) _ s
  split
  · simp [Arb.modJudge]
  · rfl

@[simp] theorem State.copySettings_nextMask (s : State) : s.copySettings.arb.nextMask = s.arb.nextMask := by
  unfold State.copySettings
  split <;> rfl

@[simp] theorem State.collectIrqs_nextMask (s : State) : s.collectIrqs.arb.nextMask = s.arb.nextMask :=
  (congrArg Arb.nextMask (s.arb.irqs_frame _) :)

@[simp] theorem State.replaceDonor_nextMask (s : State) : s.replaceDonor.arb.nextMask = s.arb.nextMask := by
  unfold State.replaceDonor State.donorFails
  split <;> simp

/-- With no command on a lane the next mask is the one decided before. -/
theorem State.beforeStrobe_nextMask {s : State} (hcmds : s.arb.cmds = [])
    (hdict : ∀ x, s.lead = some x → (s.lane x).dict.nat 0x1100 5 = 0xFF ∧ (s.lane x).dict.nat 0x1100 6 = 0xFF) :
    s.beforeStrobe.arb.nextMask = s.arb.nextMask := by
  rw [State.beforeStrobe, State.hostCommands_of_no_cmds hcmds, State.dictCommands_of_none hdict]
  simp

/-! ### The new slot -/

/-- The slot number of the next slot: it counts once lanes have agreed. -/
def Arb.slotAfter (a : Arb) : BitVec 64 := if a.agreed = true then a.slot + 1 else a.slot

theorem Arb.nextSlot_ticks (a : Arb) : a.nextSlot.ticks = a.ticks + 1 := by
  simp [Arb.nextSlot, apply_ite Arb.ticks]

theorem Arb.nextSlot_slot (a : Arb) : a.nextSlot.slot = a.slotAfter := by
  simp [Arb.nextSlot, apply_ite Arb.slot, Arb.slotAfter]

theorem Arb.nextSlot_mask (a : Arb) : a.nextSlot.mask = if a.agreeNext = true then a.ready else a.nextMask := by
  simp [Arb.nextSlot, apply_ite Arb.mask]

theorem Arb.nextSlot_nextMask (a : Arb) : a.nextSlot.nextMask = a.nextSlot.mask := by
  simp [Arb.nextSlot, apply_ite Arb.mask, apply_ite Arb.nextMask]

theorem Arb.nextSlot_out (a : Arb) : a.nextSlot.out =
    { slot := a.nextSlot.slot.setWidth 16, isOpen := a.agreed && decide (0 < a.nextSlot.mask.count), frames := []
      passed := [] } := by
  rw [Arb.nextSlot_slot, Arb.nextSlot_mask]
  simp [Arb.nextSlot, apply_ite Arb.out, Arb.slotAfter]

/-- The arbiter once it has sent the word w. -/
theorem State.sendStrobe_arb (s : State) (w : StrobeWord) : (s.sendStrobe w).arb =
    ({ s.arb with strobe := w, agreeNext := false, solve := { s.arb.solve with next := none } } : Arb).refresh := by
  unfold State.sendStrobe
  dsimp only
  split <;> rfl

/-- The arbiter in the new slot. -/
theorem State.newSlot_arb (s : State) (first : Bool) : (s.newSlot first).arb =
    ({ s.arb.nextSlot with
        strobe := (s.onArb Arb.nextSlot).strobeWord first, agreeNext := false
        solve := { s.arb.nextSlot.solve with next := none } } : Arb).refresh :=
  State.sendStrobe_arb _ _

/-! ### The fault state -/

/-- The strobe word in the fault state (R403). -/
def State.faultWord (s : State) : StrobeWord :=
  { s.arb.strobe with arbFault := true, tamper := s.bak.active, first := false, joinPhase := 0, island := s.arb.islWord }

theorem State.issueStrobe_of_fault {s : State} (h : s.arb.fault = true) : s.issueStrobe =
    { s with arb := { s.arb with ticks := s.arb.ticks + 1, slot := s.arb.slotAfter, strobe := s.faultWord } } :=
  if_pos h

theorem State.takeSlots_of_fault {s : State} (h : s.arb.fault = true) : s.takeSlots = s := by
  simp [State.takeSlots, Arb.not_runs_of_fault h]

/-! ### The obligation -/

/-- With nothing stalled and nothing waiting there is nothing to settle. -/
theorem State.hostSettle_of_idle {s : State} (hstall : s.arb.stall = none) (hdelayed : s.arb.delayed = []) : s.hostSettle = s := by
  have hnone : (s.onArb fun a => { a with delayed := [] }) = s := by rw [← hdelayed]; rfl
  rw [State.hostSettle, State.settleStall_of_no_stall hstall, State.serveDelayed, hnone, hstall, hdelayed]
  rfl

theorem exec_slotStrobe {s : State} (h : s.arb.inReset = false) :
    exec .slotStrobe s = .next s.issueStrobe.takeSlots.hostSettle :=
  congrArg Host.Outcome.next (if_neg (by simp [h]))

/-- Settles O10: what comes before the new mask by `State.beforeStrobe_prepared`, the new slot by the lemmas of `Arb.nextSlot`. -/
theorem theStrobeNamesTheMembers : Obligations.TheStrobeNamesTheMembers := by
  unfold Obligations.TheStrobeNamesTheMembers
  refine ⟨fun s hreset => congrArg Host.Outcome.next (if_pos hreset), fun s hreset hfault => ?fault,
    fun s hreset hfault => ?strobe, fun s hstall hdelayed => State.hostSettle_of_idle hstall hdelayed⟩
  case fault =>
    refine ⟨s.faultWord, ?_, rfl, rfl, rfl, rfl, rfl⟩
    rw [exec_slotStrobe hreset, State.takeSlots_of_fault (by rw [State.issueStrobe_of_fault hfault]; exact hfault),
      State.issueStrobe_of_fault hfault]
    rfl
  case strobe =>
    have hissue : s.issueStrobe = s.beforeStrobe.newSlot s.beforeStrobe.arb.agreeNext := if_neg (by simp [hfault])
    obtain ⟨hkept, hactive⟩ := s.beforeStrobe_prepared
    have hticks : s.beforeStrobe.arb.ticks = s.arb.ticks := (congrArg Arb.ticks hkept :)
    have hslot : s.beforeStrobe.arb.slotAfter = s.arb.slotAfter := (congrArg Arb.slotAfter hkept :)
    have hagreed : s.beforeStrobe.arb.agreed = s.arb.agreed := (congrArg Arb.agreed hkept :)
    have hfirst : s.beforeStrobe.arb.agreeNext = s.arb.agreeNext := (congrArg Arb.agreeNext hkept :)
    have hready : s.beforeStrobe.arb.ready = s.arb.ready := (congrArg Arb.ready hkept :)
    refine ⟨s.beforeStrobe.newSlot s.beforeStrobe.arb.agreeNext, ?_, ?_⟩
    · rw [exec_slotStrobe hreset, hissue]
    · rw [State.newSlot_arb]
      refine ⟨?ticks, ?slot, rfl, rfl, hactive, hfirst, rfl, ?out, fun hcmds hdict => ⟨?mask, Arb.nextSlot_nextMask _⟩⟩
      case ticks => exact (Arb.nextSlot_ticks _).trans (congrArg (· + 1) hticks)
      case slot => exact (Arb.nextSlot_slot _).trans hslot
      case out =>
        rw [← hagreed]
        exact Arb.nextSlot_out _
      case mask =>
        rw [← hfirst, ← hready, ← State.beforeStrobe_nextMask hcmds hdict]
        exact Arb.nextSlot_mask _

end Sys2Proof.Machine
end

section
/-! The agreed image of a slot and the end of its work (R27, R48, R53, R60): what the actions at t1 and the sending of the slot's
messages leave. -/
namespace Sys2Proof.Machine

/-! ### The admission of frames -/

/-- An entry that is admitted acts on the dictionary. -/
theorem Lane.takeEntry_frame (l : Lane) (e : FrameEntry) (r : Bool) : { l.takeEntry e r with dict := l.dict } = l := by
  unfold Lane.takeEntry
  dsimp only
  split
  · split <;> rfl
  · split <;> rfl
  · rfl
  · rfl

/-- An admitted entry joins the frames of the image and the history of its source. -/
theorem Image.admitOne_frame (g : Image) (e : FrameEntry) : { (g.admitOne e).1 with adm := g.adm, frames := g.frames } = g := by
  unfold Image.admitOne
  dsimp only
  split <;> rfl

/-- Admission leaves the agreed values of the image, and agreement itself. -/
theorem Lane.admitAll_kept (l : Lane) (es : List FrameEntry) :
    ({ (l.admitAll es).img with adm := l.img.adm, frames := l.img.frames }, (l.admitAll es).agree) = (l.img, l.agree) := by
  refine foldl_keeps _ (fun m : Lane => (({ m.img with adm := l.img.adm, frames := l.img.frames } : Image), m.agree))
    (fun m e => ?_) es l
  dsimp only
  split
  · have hentry := Lane.takeEntry_frame { m with img := (m.img.admitOne e).1 } e (m.img.admitOne e).2.2
    have himg := (congrArg Lane.img hentry :)
    have hagree := (congrArg Lane.agree hentry :)
    have hadmit := congrArg (fun g : Image => { g with adm := l.img.adm, frames := l.img.frames }) (m.img.admitOne_frame e)
    exact Prod.ext ((congrArg (fun g : Image => { g with adm := l.img.adm, frames := l.img.frames }) himg).trans hadmit) hagree
  · rfl

/-! ### The actions at t1 -/

/-- The image and the agreement of a lane. -/
def Lane.imageView (l : Lane) : Image × Agree := (l.img, l.agree)

@[simp] theorem Lane.reg_imageView (l : Lane) (f) : (l.reg f).imageView = l.imageView := rfl
@[simp] theorem Lane.slv_imageView (l : Lane) (f) : (l.slv f).imageView = l.imageView := rfl
@[simp] theorem Lane.sown_imageView (l : Lane) (f) : (l.sown f).imageView = l.imageView := rfl
@[simp] theorem Lane.modelEvent_imageView (l : Lane) : l.modelEvent.imageView = l.imageView := rfl
@[simp] theorem Lane.solveEvent_imageView (l : Lane) : l.solveEvent.imageView = l.imageView := rfl
@[simp] theorem Lane.meterBegin_imageView (l : Lane) : l.meterBegin.imageView = l.imageView := rfl

@[simp] theorem Lane.enrolStart_imageView (l : Lane) : l.enrolStart.imageView = l.imageView := by
  unfold Lane.enrolStart
  split
  · split <;> rfl
  · rfl

@[simp] theorem Lane.modelIdle_imageView (l : Lane) : l.modelIdle.imageView = l.imageView := by
  unfold Lane.modelIdle
  split
  · simp
  · rfl

@[simp] theorem Lane.solveEnds_imageView (l : Lane) (n : Nat) : (l.solveEnds n).imageView = l.imageView := by
  unfold Lane.solveEnds
  split
  · rfl
  · simp

@[simp] theorem Lane.verdict_imageView (l : Lane) : l.verdict.imageView = l.imageView := by
  unfold Lane.verdict
  dsimp only
  split
  · rfl
  · simp only [apply_ite Lane.imageView, Lane.solveEnds_imageView, Lane.reg_imageView, Lane.sown_imageView, Lane.slv_imageView,
      ite_self]

@[simp] theorem Lane.fetchLate_imageView (l : Lane) : l.fetchLate.imageView = l.imageView := by
  unfold Lane.fetchLate
  split <;> rfl

/-- The lane at t1 with the agreed values of the sets present, before the admission of their frames. -/
def Lane.withSelected (l : Lane) : Lane :=
  let sets := l.agree.sets.map (·.2)
  { l with img := { l.img.select l.slot sets with pulse := l.selectPulses sets }
           agree := { l.agree with downNext := linksDown l.agree.sets, stage := .imaged } }

/-- What the units do at t1 leaves the image. -/
theorem Lane.units_imageView (l : Lane) (f : RegMap → RegMap) :
    (l.reg f).enrolStart.meterBegin.modelIdle.verdict.fetchLate.imageView = l.imageView := by simp

/-- After t1 the lane has the selected image, with the frames admitted. -/
theorem Lane.takeImage_imageView (l : Lane) (lat : Nat) :
    ∃ es, (l.takeImage lat).imageView = (l.withSelected.admitAll es).imageView := by
  unfold Lane.takeImage
  dsimp only
  generalize hm : Lane.fetchLate _ = m
  have hview : ∃ es, m.imageView = (l.withSelected.admitAll es).imageView := ⟨_, hm ▸ Lane.units_imageView _ _⟩
  split <;> exact hview

/-- The agreed values at t1 are those selected (R48), and the lane is ready for its work. -/
theorem Lane.takeImage_selected (l : Lane) (lat : Nat) :
    { (l.takeImage lat).img with adm := l.withSelected.img.adm, frames := l.withSelected.img.frames } = l.withSelected.img ∧
      (l.takeImage lat).agree = l.withSelected.agree := by
  obtain ⟨es, hview⟩ := l.takeImage_imageView lat
  obtain ⟨himg, hagree⟩ := Prod.ext_iff.mp hview
  obtain ⟨himg', hagree'⟩ := Prod.ext_iff.mp (l.withSelected.admitAll_kept es)
  have hkept := congrArg
    (fun g : Image => { g with adm := l.withSelected.img.adm, frames := l.withSelected.img.frames }) himg
  exact ⟨hkept.trans himg', hagree.trans hagree'⟩

/-- The age of the inputs starts anew with a set, and grows without one (R53). -/
theorem Image.select_age (g : Image) (slot : BitVec 64) (sets : List InputSet) :
    (g.select slot sets).age = if sets = [] then min 16777215 (g.age + 1) else 0 := by
  cases sets <;> simp [Image.select, ageNext]

theorem Lane.takeImage_steps (l : Lane) (lat : Nat) :
    (l.takeImage lat).step1 = false ∧ (l.takeImage lat).step3 = false ∧ (l.takeImage lat).step4 = false ∧
      (l.takeImage lat).step5 = false ∧ (l.takeImage lat).step6 = false ∧ (l.takeImage lat).stepL = false := by
  unfold Lane.takeImage
  dsimp only
  split <;> exact ⟨rfl, rfl, rfl, rfl, rfl, rfl⟩

/-! ### The end of the work -/

/-- The output frames that a lane has sent in its slot, and whether it has tripped. -/
def Lane.sentView (l : Lane) : List (BitVec 64) × BitVec 64 × Option Trip := (l.sent, l.slot, l.trip)

theorem Lane.portSend_sentView (l : Lane) (me p f) : (l.portSend me p f).sentView = l.sentView := by
  unfold Lane.portSend
  dsimp only
  split <;> rfl

theorem Lane.sendUdp_sentView (l : Lane) (me p cls dst dport stamp body) :
    (l.sendUdp me p cls dst dport stamp body).sentView = l.sentView := by
  unfold Lane.sendUdp
  dsimp only
  split
  · rfl
  · exact Lane.portSend_sentView _ _ _ _

theorem Lane.flushTx_sentView (l : Lane) (me) : (l.flushTx me).sentView = l.sentView := by
  unfold Lane.flushTx
  refine (foldl_keeps _ Lane.sentView (fun m x => ?_) _ _).trans rfl
  split
  · exact Lane.sendUdp_sentView _ _ _ _ _ _ _ _
  · rfl

theorem Lane.statEntry_sentView (l : Lane) (me n) : (l.statEntry me n).sentView = l.sentView := by
  unfold Lane.statEntry
  split <;> rfl

/-- Unless the lane has tripped, the last frame it has sent at the end of its work is the END frame of those before (R60). -/
theorem Lane.slotWork_sent {l : Lane} {me : LaneId} (h : (l.slotWork me).trip = none) :
    ∃ fs, (l.slotWork me).sent = fs ++ [endFrame (l.slotWork me).slot me fs] := by
  have hview : ∃ m : Lane, (l.slotWork me).sentView =
      (if m.trip.isSome = true then [] else m.sent ++ [endFrame m.slot me m.sent], m.slot, m.trip) := by
    unfold Lane.slotWork
    dsimp only
    generalize Lane.gensToMram _ = m
    exact ⟨m, (Lane.statEntry_sentView _ _ _).trans (Lane.flushTx_sentView _ _)⟩
  obtain ⟨m, hm⟩ := hview
  have hsent := congrArg (·.1) hm
  have hslot := congrArg (·.2.1) hm
  have htrip := congrArg (·.2.2) hm
  simp only [Lane.sentView] at hsent hslot htrip
  refine ⟨m.sent, ?_⟩
  rw [hsent, hslot, ← htrip, h]
  rfl

/-! ### The obligation -/

theorem Lane.working_iff (l : Lane) : l.working = true ↔ l.agree.stage = .imaged := by
  simp [Lane.working]

/-- Settles O16: the image by `Lane.takeImage_imageView` and `Lane.admitAll_kept`, the end of the work by
`Lane.slotWork_sent`. -/
theorem theImageAndTheWorkOfASlot : Obligations.TheImageAndTheWorkOfASlot := by
  unfold Obligations.TheImageAndTheWorkOfASlot
  refine ⟨fun s x lat h => ?image, fun s x h => ?work, fun s x lat h => laneWhen_neg (by simpa using h), fun s x h => ?idle⟩
  case image =>
    intro l g
    obtain ⟨himg, hagree⟩ := l.takeImage_selected lat
    have hage : (l.takeImage lat).img.age = g.age := (congrArg Image.age himg :)
    refine ⟨l.takeImage lat, laneWhen_pos (by simp [h]), congrArg Agree.stage hagree, (congrArg Image.mtr himg :),
      (congrArg Image.ain himg :), (congrArg Image.din himg :), (congrArg Image.tb himg :), (congrArg Image.dtSec himg :),
      (congrArg Image.dtNs himg :), ?_, l.takeImage_steps lat⟩
    rw [hage, Image.select_age]
    simp
  case work =>
    refine ⟨(s.lane x).slotWork x, congrArg Host.Outcome.next (if_pos ((s.lane x).working_iff.mpr h)), rfl, Lane.slotWork_sent⟩
  case idle => exact congrArg Host.Outcome.next (if_neg (mt (s.lane x).working_iff.mp h))

end Sys2Proof.Machine
end

section
/-! Voting of output frames (R59, R60, R391), what a passed value does at its pin (R61, R390, R464), and the pulse queues. -/
namespace Sys2Proof.Machine

/-! ### Passed values and the pins -/

/-- A driven value changes pins and the stop word only. -/
theorem Arb.drive_frame (a : Arb) (k : Nat) (v : Word) :
    { a.drive k v with vao := a.vao, vdo := a.vdo, vpo := a.vpo, stop := a.stop } = a := by
  unfold Arb.drive
  dsimp only
  split
  case h_3 => split <;> rfl
  all_goals rfl

/-- The arbiter with a value noted as passed. -/
def Arb.notePassed (a : Arb) (k : Nat) (v : Word) : Arb :=
  { a with out := { a.out with passed := (k, v) :: a.out.passed.filter fun p => !(p.1 == k) } }

theorem Arb.pass_eq (a : Arb) (k : Nat) (v : Word) :
    a.pass k v = if a.gateOpen && !a.hold.active then (a.notePassed k v).drive k v else a.notePassed k v := rfl

/-- Passing a value changes the output slot, the pins and the stop word. -/
theorem Arb.pass_frame (a : Arb) (k : Nat) (v : Word) :
    { a.pass k v with vao := a.vao, vdo := a.vdo, vpo := a.vpo, stop := a.stop } = a.notePassed k v := by
  rw [Arb.pass_eq]
  split
  · exact Arb.drive_frame _ _ _
  · rfl

@[simp] theorem Arb.pass_out (a : Arb) (k : Nat) (v : Word) : (a.pass k v).out = (a.notePassed k v).out :=
  (congrArg Arb.out (a.pass_frame k v) :)
@[simp] theorem Arb.pass_hold (a : Arb) (k : Nat) (v : Word) : (a.pass k v).hold = a.hold :=
  (congrArg Arb.hold (a.pass_frame k v) :)

/-- An open gate without a hold lets a passed value through to its pin. -/
theorem Arb.pass_open {a : Arb} (k : Nat) (v : Word) (hgate : a.gateOpen = true) (hhold : a.hold.active = false) :
    a.pass k v = (a.notePassed k v).drive k v := by
  simp [Arb.pass_eq, hgate, hhold]

theorem Arb.pass_shut {a : Arb} (k : Nat) (v : Word) (h : a.gateOpen = false ∨ a.hold.active = true) :
    a.pass k v = a.notePassed k v := by
  rcases h with h | h <;> simp [Arb.pass_eq, h]

@[simp] theorem Arb.passedOf_notePassed (a : Arb) (k : Nat) (v : Word) : (a.notePassed k v).out.passedOf k = some v := by
  simp [Arb.notePassed, OutSlot.passedOf]

theorem Arb.passedOf_notePassed_other (a : Arb) {k j : Nat} (v : Word) (h : j ≠ k) :
    (a.notePassed k v).out.passedOf j = a.out.passedOf j := by
  have hfirst : (k == j) = false := by simpa using h.symm
  have hkept (p : Nat × Word) : decide ((!(p.1 == k)) = true ∧ (p.1 == j) = true) = (p.1 == j) := by
    by_cases e : p.1 = j
    · simp [e, h]
    · simp [e]
  simp only [Arb.notePassed, OutSlot.passedOf, List.find?_cons, hfirst, List.find?_filter, hkept]

/-! ### The vote -/

@[simp] theorem Arb.startHold_out (a : Arb) : a.startHold.out = a.out :=
  (congrArg Arb.out a.startHold_frame :)

theorem Arb.startHold_active (a : Arb) : a.startHold.hold.active = true := by
  unfold Arb.startHold
  split
  case isTrue h => exact h
  case isFalse => exact (congrArg (fun b : Arb => b.hold.active) (Arb.foldl_modJudge_frame _ a.mask.toList { a with hold := _ }) :)

/-- A vote passes the frame's value, or no value at all (R59). -/
theorem Arb.vote_cases (a : Arb) (k : Nat) (v : Word) (others : List Word) :
    a.vote k v others = a.pass k v ∨ (a.vote k v others).out = a.out := by
  unfold Arb.vote
  split
  case h_1 => exact .inl rfl
  case h_2 =>
    split
    · exact .inr rfl
    · split
      · exact .inr rfl
      · split
        · exact .inl rfl
        · exact .inr a.startHold_out
  case h_3 =>
    split
    · exact .inr rfl
    · split
      · exact .inr rfl
      · split
        · exact .inl rfl
        · exact .inr rfl
      · split
        · exact .inl rfl
        · exact .inr rfl

/-- Of three lanes the second to send a value passes it (R59). -/
theorem Arb.vote_three_match {a : Arb} {k : Nat} {v : Word} {others : List Word} (hcount : a.mask.count = 3)
    (hnew : a.out.passedOf k = none) (hlen : others.length ≤ 2) (h : v ∈ others) : a.vote k v others = a.pass k v := by
  match others with
  | [] => simp at h
  | [w] => simp_all [Arb.vote]
  | [w, u] => simp_all [Arb.vote]
  | _ :: _ :: _ :: _ => simp at hlen

/-- Of three lanes a value of its own sets THIRDWAIT when it is the second, and does nothing otherwise (R59). -/
theorem Arb.vote_three_differ {a : Arb} {k : Nat} {v : Word} {others : List Word} (hcount : a.mask.count = 3)
    (hnew : a.out.passedOf k = none) (hlen : others.length ≤ 2) (h : v ∉ others) :
    a.vote k v others = if others.length = 1 then a.reg fun m => fflag m f_ARB_OSTAT_THIRDWAIT else a := by
  match others with
  | [] => simp [Arb.vote, hcount, hnew]
  | [w] =>
    have hw : w ≠ v := by simpa [eq_comm] using h
    simp [Arb.vote, hcount, hnew, hw]
  | [w, u] => simp_all [Arb.vote]
  | _ :: _ :: _ :: _ => simp at hlen

/-- Two lanes pass a value that both send, and hold the outputs at a mismatch (R60, R389). -/
theorem Arb.vote_two {a : Arb} {k : Nat} {v : Word} {others : List Word} (hcount : a.mask.count = 2)
    (hnew : a.out.passedOf k = none) :
    a.vote k v others = match others.head? with
      | none => a
      | some w => if w = v then a.pass k v else a.startHold := by
  cases others <;> simp [Arb.vote, hcount, hnew]

/-- One lane passes every value (R391). -/
theorem Arb.vote_one {a : Arb} {k : Nat} {v : Word} (others : List Word) (hcount : a.mask.count = 1) :
    a.vote k v others = a.pass k v := by
  simp [Arb.vote, hcount]

/-! ### A member's first frame for an output -/

/-- The arbiter with a frame recorded. -/
def Arb.noteFrame (a : Arb) (x : LaneId) (f : BitVec 64) : Arb :=
  { a with out := { a.out with frames := a.out.frames ++ [(x, f)] } }

/-- The first values that the other members have sent for the output of a frame. -/
def Arb.others (a : Arb) (x : LaneId) (f : BitVec 64) : List Word :=
  (a.mask.toList.filter fun y => decide (y ≠ x)).filterMap fun y => a.out.value y (frameKey f)

/-- A frame of one lane leaves the values of the others. -/
theorem Arb.noteFrame_value {x y : LaneId} (a : Arb) (f : BitVec 64) (k : Nat) (h : y ≠ x) :
    (a.noteFrame x f).out.value y k = a.out.value y k := by
  simp [Arb.noteFrame, OutSlot.value, OutSlot.sent, List.filter_append, h.symm]

theorem Arb.noteFrame_others (a : Arb) (x : LaneId) (f : BitVec 64) : (a.noteFrame x f).others x f = a.others x f := by
  refine List.filterMap_congr fun y hy => a.noteFrame_value f _ ?_
  simpa using (List.mem_filter.mp hy).2

/-- At most two of three lanes are other lanes. -/
theorem Arb.others_length_le (a : Arb) (x : LaneId) (f : BitVec 64) : (a.others x f).length ≤ 2 := by
  have hlanes : (a.mask.toList.filter fun y => decide (y ≠ x)).length ≤ ([LaneId.A, .B, .C].filter fun y => decide (y ≠ x)).length :=
    (List.filter_sublist.filter _).length_le
  have htwo : ([LaneId.A, .B, .C].filter fun y => decide (y ≠ x)).length = 2 := by cases x <;> rfl
  exact (List.length_filterMap_le _ _).trans (htwo ▸ hlanes)

/-- What a member's frame of the open slot must be to count in the vote: its first one for an output not yet passed. -/
structure Arb.Votes (a : Arb) (x : LaneId) (f : BitVec 64) : Prop where
  runs : a.runs = true
  member : a.mask.has x = true
  isOpen : a.out.isOpen = true
  slot : frameSlot f = a.out.slot.toNat
  value : isEnd f = false
  first : a.out.value x (frameKey f) = none
  new : a.out.passedOf (frameKey f) = none

/-- A member's first frame is recorded and voted (R59). -/
theorem Arb.takeFrame_votes {a : Arb} {x : LaneId} {f : BitVec 64} (h : a.Votes x f) :
    a.takeFrame x f = (a.noteFrame x f).vote (frameKey f) (frameValue f) (a.others x f) := by
  rw [← Arb.noteFrame_others, Arb.takeFrame, if_neg (by simp [h.runs, h.member]), if_neg (by simp [h.isOpen, h.slot])]
  exact if_neg (by simp [h.value, h.member, h.first])

theorem exec_outputFrame (x : LaneId) (f : BitVec 64) (s : State) :
    exec (.outputFrame x f) s = .next { s with arb := s.arb.takeFrame x f } := rfl

/-- Settles O5: the frame is voted by `Arb.takeFrame_votes`, and the lemmas of `Arb.vote` say what passes. -/
theorem framesPassByVoteOfTheMembers : Obligations.FramesPassByVoteOfTheMembers := by
  unfold Obligations.FramesPassByVoteOfTheMembers
  intro s x f others hruns hmember hopen hslot hvalue hfirst hnew
  have hvote : s.arb.takeFrame x f = (s.arb.noteFrame x f).vote (frameKey f) (frameValue f) others :=
    Arb.takeFrame_votes ⟨hruns, hmember, hopen, hslot, hvalue, hfirst, hnew⟩
  have hlen : others.length ≤ 2 := s.arb.others_length_le x f
  obtain ⟨a, ha⟩ : ∃ a, a = s.arb.noteFrame x f := ⟨_, rfl⟩
  rw [← ha] at hvote
  have hnew' : a.out.passedOf (frameKey f) = none := ha ▸ hnew
  have hmask : a.mask = s.arb.mask := ha ▸ rfl
  refine ⟨_, exec_outputFrame x f s, ?frames, fun hthree => ?three, fun htwo => ?two, fun hone => ?one, fun k hk => ?others, rfl⟩
  all_goals dsimp only
  all_goals rw [hvote]
  case frames =>
    have hframes : a.out.frames = s.arb.out.frames ++ [(x, f)] := ha ▸ rfl
    rcases a.vote_cases (frameKey f) (frameValue f) others with e | e
    · rw [e, Arb.pass_out]; exact hframes
    · rw [e]; exact hframes
  case three =>
    rw [← hmask] at hthree
    by_cases hmem : frameValue f ∈ others
    · rw [Arb.vote_three_match hthree hnew' hlen hmem, Arb.pass_out, Arb.passedOf_notePassed, if_pos hmem]
      refine ⟨rfl, fun w hw hdiffer => ?_, fun h => absurd hmem h⟩
      exact absurd hmem (by simpa [hw] using hdiffer.symm)
    · rw [Arb.vote_three_differ hthree hnew' hlen hmem, if_neg hmem]
      subst ha
      refine ⟨by split <;> exact hnew', fun w hw _ => ?_, fun _ => by split <;> exact ⟨rfl, rfl, rfl, rfl⟩⟩
      rw [if_pos (by simp [hw])]
      exact fget_fflag_same _ rfl (by decide)
  case two =>
    have hhold : a.hold = s.arb.hold := ha ▸ rfl
    rw [Arb.vote_two (hmask ▸ htwo) hnew', ← hhold]
    cases others.head? with
    | none => exact ⟨hnew', by simp⟩
    | some w =>
      by_cases hw : w = frameValue f
      · simp [hw]
      · simp [hw, Arb.startHold_active, hnew']
  case one => rw [Arb.vote_one _ (hmask ▸ hone), Arb.pass_out, Arb.passedOf_notePassed]
  case others =>
    have hkept : a.out.passedOf k = s.arb.out.passedOf k := ha ▸ rfl
    rcases a.vote_cases (frameKey f) (frameValue f) others with e | e
    · rw [e, Arb.pass_out, Arb.passedOf_notePassed_other _ _ hk, hkept]
    · rw [e, hkept]

/-! ### What a passed value does -/

theorem Arb.drive_vao (a : Arb) (k : Nat) (v : Word) :
    (a.drive k v).vao = if k / 64 = 1 then a.vao.set (k % 64) (v.setWidth 16) else a.vao := by
  unfold Arb.drive
  dsimp only
  split
  case h_3 h => split <;> simp [h]
  all_goals simp_all

theorem Arb.drive_stop (a : Arb) (k : Nat) (v : Word) :
    (a.drive k v).stop = if k / 64 = 4 then some (v.setWidth 16) else a.stop := by
  unfold Arb.drive
  dsimp only
  split
  case h_3 h => split <;> simp [h]
  all_goals simp_all

theorem Arb.drive_vpo (a : Arb) (k : Nat) (v : Word) :
    (a.drive k v).vpo =
      if k / 64 = 5 then a.vpo.modify (k % 64) fun q => q.append (v.toNat / 65536) (v.toNat % 65536) else a.vpo := by
  unfold Arb.drive
  dsimp only
  split
  case h_3 h => split <;> simp [h]
  all_goals simp_all [lmod]

/-- The place of one logic output. -/
theorem outBit_bit (i : Nat) {j : Nat} (hj : j < 64) : (BitVec.ofNat 64 (2 ^ i)).getLsbD j = decide (j = i) := by
  rw [BitVec.getLsbD_ofNat, Nat.testBit_two_pow]
  simp [hj, eq_comm]

/-- The places of a group of 16 logic outputs. -/
theorem outGroup_bit {n : Nat} (i : Nat) {j : Nat} (hn : n < 2 ^ 16) (hj : j < 64) :
    (BitVec.ofNat 64 (n * 2 ^ (16 * i))).getLsbD j = (decide (j / 16 = i) && n.testBit (j % 16)) := by
  rw [BitVec.getLsbD_ofNat, Nat.testBit_mul_two_pow]
  by_cases h : j / 16 = i
  · have hplace : j - 16 * i = j % 16 := by omega
    have hle : 16 * i ≤ j := by omega
    simp [hj, h, hplace, hle]
  · by_cases hle : 16 * i ≤ j
    · have hbig : n.testBit (j - 16 * i) = false :=
        Nat.testBit_lt_two_pow (hn.trans_le (Nat.pow_le_pow_right (by omega) (by omega)))
      simp [h, hbig]
    · simp [h, hle]

theorem Arb.drive_vdo_bit (a : Arb) (k : Nat) (v : Word) {j : Nat} (hj : j < 64) :
    (a.drive k v).vdo.getLsbD j =
      if k / 64 = 2 ∧ j = k % 64 then v.getLsbD 0
      else if k / 64 = 3 ∧ k % 64 < 4 ∧ j / 16 = k % 64 ∧ v.getLsbD (16 + j % 16) = true then v.getLsbD (j % 16)
      else a.vdo.getLsbD j := by
  unfold Arb.drive
  dsimp only
  split
  case h_2 h =>
    have hodd : (v.toNat % 2 = 1) = (v.getLsbD 0 = true) := by
      rw [BitVec.getLsbD, Nat.testBit_zero]; simp
    simp only [h, hodd, apply_ite (BitVec.getLsbD · j), BitVec.getLsbD_or, BitVec.getLsbD_and, BitVec.getLsbD_not, outBit_bit _ hj]
    by_cases e : j = k % 64
    · cases v.getLsbD 0 <;> simp [e]
    · simp [e, hj]
  case h_3 h =>
    have hmask : (v.toNat / 65536).testBit (j % 16) = v.getLsbD (16 + j % 16) := by
      rw [show 65536 = 2 ^ 16 from rfl, Nat.testBit_div_two_pow, Nat.add_comm]; rfl
    have hval : (v.toNat % 65536).testBit (j % 16) = v.getLsbD (j % 16) := by
      rw [show 65536 = 2 ^ 16 from rfl, Nat.testBit_mod_two_pow]
      simp [Nat.mod_lt, BitVec.getLsbD]
    split
    case isTrue hi => simp [h, Nat.not_lt.mpr hi]
    case isFalse hi =>
      rw [BitVec.getLsbD_or, BitVec.getLsbD_and, BitVec.getLsbD_and, BitVec.getLsbD_not,
        outGroup_bit _ (by have := v.isLt; omega) hj, outGroup_bit _ (by omega) hj, hmask, hval]
      by_cases e : j / 16 = k % 64
      · cases hm : v.getLsbD (16 + j % 16) <;> simp_all
      · simp [h, e, hj]
  all_goals simp_all

theorem frameKey_kind (f : BitVec 64) : frameKey f / 64 = frameKind f := by
  unfold frameKey
  omega

/-- Settles O7: the frame passes its value (`Arb.vote_cases`), which the lemmas of `Arb.drive` follow to the pins. -/
theorem passedValuesReachTheirPins : Obligations.PassedValuesReachTheirPins := by
  unfold Obligations.PassedValuesReachTheirPins
  intro s t x f i v hruns hmember hopen hslot hvalue hfirst hnew e hpassed
  obtain rfl := Host.Outcome.next.inj e
  have hvote := Arb.takeFrame_votes ⟨hruns, hmember, hopen, hslot, hvalue, hfirst, hnew⟩
  have hpass : s.arb.takeFrame x f = (s.arb.noteFrame x f).pass (frameKey f) v := by
    rcases (s.arb.noteFrame x f).vote_cases (frameKey f) (frameValue f) (s.arb.others x f) with h | h
    · exact hvote.trans h
    · rw [State.onArb_arb, hvote, h] at hpassed
      exact absurd (hnew.symm.trans hpassed) (by simp)
  rw [State.onArb_arb, hpass]
  refine ⟨fun hgate hhold => ?_, fun h => ?_⟩
  · have hdrive := Arb.pass_open (a := s.arb.noteFrame x f) (frameKey f) v hgate hhold
    rw [hdrive]
    refine ⟨?_, ?_, ?_, fun j hj => ?_⟩
    · rw [Arb.drive_vao, frameKey_kind]; rfl
    · rw [Arb.drive_stop, frameKey_kind]; rfl
    · rw [Arb.drive_vpo, frameKey_kind]; rfl
    · rw [Arb.drive_vdo_bit _ _ _ hj, frameKey_kind]; rfl
  · have hshut := Arb.pass_shut (a := s.arb.noteFrame x f) (frameKey f) v h
    rw [hshut]
    exact ⟨rfl, rfl, rfl, rfl⟩

/-! ### The pulse queues -/

/-- An entry that is changed, and the others as they were. -/
theorem getElem?_lmod {α : Type} {v : List α} {o : Nat} {q : α} (f : α → α) (h : v[o]? = some q) :
    (lmod v o f)[o]? = some (f q) ∧ ∀ j, j ≠ o → (lmod v o f)[j]? = v[j]? := by
  refine ⟨?_, fun j hj => ?_⟩
  · simp [lmod, h]
  · simp [lmod, hj.symm]

theorem exec_vpoQueuePulseStart {s : State} (o : Nat) (hruns : s.arb.runs = true) (hhold : s.arb.hold.active = false) :
    exec (.vpoQueuePulseStart o) s =
      .next { s with arb := { s.arb with vpo := lmod s.arb.vpo o fun q => if q.ready then q.start else q } } := by
  change execVpoQueuePulseStart o s = _
  rw [execVpoQueuePulseStart, State.onArb, if_pos (by simp [hruns, hhold])]

theorem exec_vpoQueuePulseEnd {s : State} (o : Nat) (hruns : s.arb.runs = true) :
    exec (.vpoQueuePulseEnd o) s =
      .next { s with arb := { s.arb with vpo := lmod s.arb.vpo o fun q => if q.ends then q.fall else q } } := by
  change execVpoQueuePulseEnd o s = _
  rw [execVpoQueuePulseEnd, State.onArb, if_pos hruns]

/-- Settles O8: of the queues, `getElem?_lmod` changes the one, whose pulse is due. -/
theorem queuedPulsesStartAndEnd : Obligations.QueuedPulsesStartAndEnd := by
  unfold Obligations.QueuedPulsesStartAndEnd
  refine ⟨fun s o w r q hruns hhold hq hqueue hhigh hdue => ?start, fun s o q hruns hq hhigh hlasted => ?fall⟩
  case start =>
    obtain ⟨hsame, hothers⟩ := getElem?_lmod (fun q => if q.ready then q.start else q) hq
    refine ⟨_, exec_vpoQueuePulseStart o hruns hhold, ?_, hothers⟩
    have hready : q.ready = true := by
      cases hran : q.ran <;> simp_all [VpoQ.ready]
    have hstart : q.start = { queue := r, high := true, width := w, since := 0, ran := true } := by
      simp [VpoQ.start, hqueue]
    simp [hsame, hready, hstart]
  case fall =>
    obtain ⟨hsame, hothers⟩ := getElem?_lmod (fun q => if q.ends then q.fall else q) hq
    refine ⟨_, exec_vpoQueuePulseEnd o hruns, ?_, hothers⟩
    have hends : q.ends = true := by simp [VpoQ.ends, hhigh, hlasted]
    simp [hsame, hends]
    rfl

end Sys2Proof.Machine
end

section
/-! The exchange of a slot (R44, R46, R55, R56): a frame on a link, one copy of a message, an echo, and the close of round 2. -/
namespace Sys2Proof.Machine

/-! ### Frames on a link -/

/-- A change of a link's view leaves the rest of agreement. -/
theorem Agree.modLink_frame (a : Agree) (link1 : Bool) (f : LinkView → LinkView) :
    { a.modLink link1 f with link0 := a.link0, link1 := a.link1 } = a := by
  cases link1 <;> rfl

/-- What a good frame on a link leaves of agreement: the link has shown itself alive (R55). -/
def Agree.alive (a : Agree) (link1 : Bool) : Agree := a.modLink link1 fun v => { v with got := true }

/-- A frame with a bad link CRC is an error of the link (R55). -/
theorem Lane.linkFrame_bad (l : Lane) (link1 : Bool) : l.linkFrame link1 false =
    { l with agree := l.agree.modLink link1 fun v => { v with err := true, errs := 0 :: v.errs }
             regs := linkCount l.regs link1 f_XLNK_ERR0_CRCERR } := rfl

/-- Relaying goes by the links agreed down and the member mask (R56), which a frame on a link leaves. -/
theorem Lane.relayDest_alive (l : Lane) (link1 : Bool) (me y : LaneId) :
    ({ l with agree := l.agree.alive link1 } : Lane).relayDest me y = l.relayDest me y := by
  cases link1 <;> rfl

/-- Messages join those to forward, where the lane relays (R56). -/
def Agree.relays (a : Agree) (dest : Option LaneId) (echo : Bool) (msgs : List Bytes) : Agree :=
  match dest with
  | some y => { a with relay := a.relay ++ [(y, echo, msgs)] }
  | none => a

theorem Lane.forward_eq (l : Lane) (dest : Option LaneId) (echo : Bool) (msgs : List Bytes) :
    l.forward dest echo msgs = { l with agree := l.agree.relays dest echo msgs } := by
  cases dest <;> rfl

/-! ### One copy of a round-1 message (R46, R47) -/

/-- A message comes outside the exchange, directly after the close of round 1, or is of an earlier slot. -/
def Lane.tooLate (l : Lane) (echo : Bool) (bs : Bytes) : Bool :=
  !l.exchanging || (!echo && l.agree.round1Closed) || l.staleRound1 bs

theorem Lane.takeCopy_late {l : Lane} {echo : Bool} {bs : Bytes} (me : LaneId) (link1 : Bool) (h : l.tooLate echo bs = true) :
    l.takeCopy me link1 echo bs = { l with regs := linkCount l.regs link1 f_XLNK_ERR0_LATE } := if_pos h

theorem Lane.takeCopy_forged {l : Lane} {echo : Bool} {bs : Bytes} (me : LaneId) (link1 : Bool) (h : l.tooLate echo bs = false)
    (hforged : l.genuine bs = false) :
    l.takeCopy me link1 echo bs = { l with regs := linkCount l.regs link1 f_XLNK_ERR0_TAGFAIL } :=
  (if_neg (mt h.symm.trans (by decide))).trans (if_pos (by simp [hforged]))

theorem Lane.takeCopy_otherSlot {l : Lane} {echo : Bool} {bs : Bytes} (me : LaneId) (link1 : Bool) (h : l.tooLate echo bs = false)
    (hgenuine : l.genuine bs = true) (hslot : l.verifyRound1 bs = false) : l.takeCopy me link1 echo bs = l :=
  (if_neg (mt h.symm.trans (by decide))).trans ((if_neg (by simp [hgenuine])).trans (if_pos (by simp [hslot])))

theorem Lane.genuine_of_verify {l : Lane} {bs : Bytes} (h : l.verifyRound1 bs = true) : l.genuine bs = true := by
  unfold Lane.verifyRound1 at h
  exact (Bool.and_eq_true_iff.mp h).1

/-- A genuine message of the slot is kept as a copy of its source's set, unless the source is the receiver. -/
theorem Lane.takeCopy_verified {l : Lane} {echo : Bool} {bs : Bytes} {src : LaneId} (me : LaneId) (link1 : Bool)
    (h : l.tooLate echo bs = false) (hverify : l.verifyRound1 bs = true) (hsrc : msgSource bs = some src) :
    l.takeCopy me link1 echo bs =
      if src = me then l
      else if echo then { l with agree := { l.agree with echoed := l.agree.echoed ++ [(src, bs)] } }
      else { l with agree := { l.agree with direct := l.agree.direct ++ [(src, bs)] } } := by
  have hlate : ¬(!l.exchanging || (!echo && l.agree.round1Closed) || l.staleRound1 bs) = true := mt h.symm.trans (by decide)
  rw [Lane.takeCopy, if_neg hlate, if_neg (by simp [Lane.genuine_of_verify hverify]), if_neg (by simp [hverify]), hsrc]

/-- A message with a genuine tag names its source, and is not empty. -/
theorem Lane.genuine_named {l : Lane} {bs : Bytes} (h : l.genuine bs = true) : bs ≠ [] ∧ ∃ src, msgSource bs = some src := by
  cases hsrc : msgSource bs with
  | none => simp [Lane.genuine, hsrc] at h
  | some src =>
    refine ⟨?_, src, rfl⟩
    rintro rfl
    simp [Lane.genuine, hsrc] at h

/-! ### A round-1 message on a link (R44) -/

/-- A message on a link is a copy to take and, at the relay lane, one to forward. -/
theorem Lane.round1Receive_message (l : Lane) (me : LaneId) (link1 : Bool) {msg : Bytes} (h : msg ≠ []) :
    l.round1Receive me link1 true msg =
      (({ l with agree := l.agree.alive link1 } : Lane).takeCopy me link1 false msg).forward
        ((msgSource msg).bind (l.relayDest me)) false [msg] := by
  have hdest : ({ l with agree := l.agree.alive link1 } : Lane).relayDest me = l.relayDest me :=
    funext fun y => l.relayDest_alive link1 me y
  rw [← hdest]
  exact if_neg (by simpa using h)

/-- A copy changes counters and agreement. -/
theorem Lane.takeCopy_frame (l : Lane) (me : LaneId) (link1 echo : Bool) (bs : Bytes) :
    { l.takeCopy me link1 echo bs with regs := l.regs, agree := l.agree } = l := by
  unfold Lane.takeCopy
  split
  · rfl
  · split
    · rfl
    · split
      · rfl
      · split
        · rfl
        · split
          · rfl
          · split <;> rfl

theorem Lane.round1Receive_frame (l : Lane) (me : LaneId) (link1 : Bool) (msg : Bytes) :
    { l.round1Receive me link1 true msg with regs := l.regs, agree := l.agree } = l := by
  by_cases h : msg = []
  · subst h; rfl
  · rw [Lane.round1Receive_message _ _ _ h, Lane.forward_eq]
    have hcopy := Lane.takeCopy_frame { l with agree := l.agree.alive link1 } me link1 false msg
    exact congrArg (fun m : Lane => { m with agree := l.agree }) hcopy

theorem exec_round1Receive {s : State} {x : LaneId} (link1 crcOk : Bool) (msg : Bytes) (h : (s.lane x).life ≠ .held) :
    exec (.round1Receive x link1 crcOk msg) s = .next (s.setLane x ((s.lane x).round1Receive x link1 crcOk msg)) :=
  laneWhen_pos (by simpa using h)

/-- Whether a direct message is late is decided by the stage, the close of round 1 and the message (R47). -/
theorem Lane.tooLate_alive (l : Lane) (link1 : Bool) (msg : Bytes) :
    ({ l with agree := l.agree.alive link1 } : Lane).tooLate false msg = true ↔
      l.agree.stage ≠ .exchange ∨ l.agree.round1Closed = true ∨ l.staleRound1 msg = true := by
  have hstage : (l.agree.alive link1).stage = l.agree.stage := (congrArg Agree.stage (l.agree.modLink_frame link1 _) :)
  have hclosed : (l.agree.alive link1).round1Closed = l.agree.round1Closed :=
    (congrArg Agree.round1Closed (l.agree.modLink_frame link1 _) :)
  have hstale : ({ l with agree := l.agree.alive link1 } : Lane).staleRound1 msg = l.staleRound1 msg := rfl
  simp [Lane.tooLate, Lane.exchanging, hstage, hclosed, hstale, or_assoc]

/-! ### The close of round 2 (R46) -/

/-- The copies of a source's set. -/
def Lane.copiesOf (l : Lane) (me src : LaneId) : List Bytes :=
  if src = me then [l.agree.own]
  else (l.agree.direct ++ l.agree.echoed).filterMap fun p => if p.1 = src then some p.2 else none

/-- The set of a source that the close keeps: one whose copies agree. -/
def Lane.keptSet (l : Lane) (me src : LaneId) : List (LaneId × InputSet) :=
  match l.copiesOf me src with
  | [] => []
  | c :: cs => if cs.any (· != c) then [] else [(src, decRound1 c)]

theorem Lane.mem_keptSet (l : Lane) (me src y : LaneId) (i : InputSet) :
    (y, i) ∈ l.keptSet me src ↔ y = src ∧ ∃ c cs, l.copiesOf me src = c :: cs ∧ (∀ d ∈ cs, d = c) ∧ i = decRound1 c := by
  unfold Lane.keptSet
  cases l.copiesOf me src with
  | nil => simp
  | cons c cs =>
    by_cases hall : ∀ d ∈ cs, d = c
    · have hany : cs.any (· != c) = false := by simpa using hall
      simpa [hany] using fun _ _ => hall
    · have hany : cs.any (· != c) = true := by simpa using hall
      simpa [hany] using fun _ h => absurd h hall

/-- The decision of a source's set adds the kept set, or counts an absent one. -/
theorem Lane.decideSet_eq (l : Lane) (me src : LaneId) :
    ∃ r p, l.decideSet me src =
      { l with regs := r, rep := p, agree := { l.agree with sets := l.agree.sets ++ l.keptSet me src } } := by
  unfold Lane.decideSet Lane.keptSet Lane.copiesOf
  dsimp only
  generalize (if src = me then [l.agree.own] else _) = copies
  cases copies with
  | nil => exact ⟨_, _, by rw [List.append_nil]; rfl⟩
  | cons c cs =>
    dsimp only
    split
    · exact ⟨_, _, by rw [List.append_nil]; rfl⟩
    · exact ⟨_, _, rfl⟩

theorem Lane.foldl_decideSet (me : LaneId) (xs : List LaneId) (l : Lane) :
    ∃ r p, xs.foldl (fun l x => l.decideSet me x) l =
      { l with regs := r, rep := p, agree := { l.agree with sets := l.agree.sets ++ xs.flatMap (l.keptSet me) } } := by
  induction xs generalizing l with
  | nil => exact ⟨l.regs, l.rep, by simp⟩
  | cons x xs ih =>
    obtain ⟨r, p, hstep⟩ := l.decideSet_eq me x
    obtain ⟨r', p', hrest⟩ := ih (l.decideSet me x)
    refine ⟨r', p', ?_⟩
    rw [List.foldl_cons, hrest, hstep, List.flatMap_cons, ← List.append_assoc]
    rfl

/-- The close keeps, of every member, the set whose copies agree. -/
theorem Lane.round2Close_eq {l : Lane} (me : LaneId) (h : l.agree.stage = .exchange) :
    ∃ r p, l.round2Close me =
      { l with regs := r, rep := p, agree := { l.agree with stage := .closed, sets := l.mask.toList.flatMap (l.keptSet me) } } := by
  obtain ⟨r, p, hfold⟩ := Lane.foldl_decideSet me l.mask.toList { l with agree := { l.agree with sets := [] } }
  refine ⟨r, p, ?_⟩
  rw [Lane.round2Close, if_pos (by simp [Lane.exchanging, h])]
  dsimp only
  rw [hfold]
  rfl

/-- Settles O14: one copy by the lemmas of `Lane.takeCopy`, the close by `Lane.round2Close_eq`. -/
theorem exchangeKeepsVerifiedCopies : Obligations.ExchangeKeepsVerifiedCopies := by
  unfold Obligations.ExchangeKeepsVerifiedCopies
  refine ⟨fun s x link1 msg hlife => ?bad, fun s x link1 msg hlife => ?good, fun s x hstage => ?close⟩
  case bad => exact ⟨_, exec_round1Receive link1 false msg hlife, rfl, rfl, rfl⟩
  case good =>
    intro l a relayed late
    have hrelayed (b : Agree) : relayed b = b.relays ((msgSource msg).bind (l.relayDest x)) false [msg] := rfl
    have hlate := l.tooLate_alive link1 msg
    refine ⟨_, exec_round1Receive link1 true msg hlife, l.round1Receive_frame x link1 msg, ?_, fun hmsg hl => ?_,
      fun hmsg hl hg => ?_, fun src hl hv hsrc => ?_, fun hmsg hl hg hv => ?_⟩
    · rintro rfl
      exact ⟨rfl, rfl⟩
    · rw [Lane.round1Receive_message _ _ _ hmsg, Lane.takeCopy_late x link1 (hlate.mpr hl), hrelayed, Lane.forward_eq]
      exact ⟨rfl, rfl⟩
    · rw [Lane.round1Receive_message _ _ _ hmsg, Lane.takeCopy_forged x link1 (Bool.eq_false_iff.mpr (mt hlate.mp hl)) hg, hrelayed,
        Lane.forward_eq]
      exact ⟨rfl, rfl⟩
    · obtain ⟨hmsg, -⟩ := Lane.genuine_named (Lane.genuine_of_verify hv)
      rw [Lane.round1Receive_message _ _ _ hmsg, Lane.takeCopy_verified x link1 (Bool.eq_false_iff.mpr (mt hlate.mp hl)) hv hsrc,
        hrelayed, Lane.forward_eq]
      split <;> exact ⟨rfl, rfl⟩
    · rw [Lane.round1Receive_message _ _ _ hmsg, Lane.takeCopy_otherSlot x link1 (Bool.eq_false_iff.mpr (mt hlate.mp hl)) hg hv,
        hrelayed, Lane.forward_eq]
      exact ⟨rfl, rfl⟩
  case close =>
    intro l copies
    obtain ⟨r, p, hclose⟩ := l.round2Close_eq x hstage
    refine ⟨l.round2Close x, laneNext_eq _ _ _, ?_⟩
    rw [hclose]
    refine ⟨rfl, rfl, fun src i => List.mem_flatMap.trans ⟨?_, ?_⟩⟩
    · rintro ⟨y, hy, hkept⟩
      obtain ⟨rfl, hcopies⟩ := (l.mem_keptSet x y src i).mp hkept
      exact ⟨(LaneSet.mem_toList _ _).mp hy, hcopies⟩
    · rintro ⟨hmember, hcopies⟩
      exact ⟨src, (LaneSet.mem_toList _ _).mpr hmember, (l.mem_keptSet x src src i).mpr ⟨rfl, hcopies⟩⟩

/-! ### Echoes (R44, R46) -/

/-- The copies that the messages of an echo add. -/
def Lane.echoCopies (l : Lane) (me : LaneId) (msgs : List Bytes) : List (LaneId × Bytes) :=
  (msgs.filter fun m => l.verifyRound1 m && msgSource m != some me).filterMap fun m => (msgSource m).map fun y => (y, m)

/-- One echoed message in an open exchange. -/
theorem Lane.takeCopy_echo {l : Lane} (me : LaneId) (link1 : Bool) (bs : Bytes) (h : l.agree.stage = .exchange) :
    ∃ r, l.takeCopy me link1 true bs =
      { l with regs := r, agree := { l.agree with echoed := l.agree.echoed ++ l.echoCopies me [bs] } } := by
  by_cases hv : l.verifyRound1 bs = true
  · obtain ⟨-, src, hsrc⟩ := Lane.genuine_named (Lane.genuine_of_verify hv)
    have hopen : l.tooLate true bs = false := by
      have hslot : natAt bs 4 8 = l.slot.toNat := by simp_all [Lane.verifyRound1]
      simp [Lane.tooLate, Lane.exchanging, h, Lane.staleRound1, hslot]
    refine ⟨l.regs, ?_⟩
    rw [Lane.takeCopy_verified me link1 hopen hv hsrc]
    by_cases e : src = me
    · simp [e, Lane.echoCopies, hv, hsrc]
    · simp [e, Lane.echoCopies, hv, hsrc]
  · rw [Bool.not_eq_true] at hv
    have hnone : l.echoCopies me [bs] = [] := by simp [Lane.echoCopies, hv]
    rw [hnone, List.append_nil]
    cases hlate : l.tooLate true bs
    · cases hg : l.genuine bs
      · exact ⟨_, Lane.takeCopy_forged me link1 hlate hg⟩
      · exact ⟨_, Lane.takeCopy_otherSlot me link1 hlate hg hv⟩
    · exact ⟨_, Lane.takeCopy_late me link1 hlate⟩

theorem Lane.foldl_takeCopy_echo (me : LaneId) (link1 : Bool) (msgs : List Bytes) {l : Lane} (h : l.agree.stage = .exchange) :
    ∃ r, msgs.foldl (fun l m => l.takeCopy me link1 true m) l =
      { l with regs := r, agree := { l.agree with echoed := l.agree.echoed ++ l.echoCopies me msgs } } := by
  induction msgs generalizing l with
  | nil => exact ⟨l.regs, by simp [Lane.echoCopies]⟩
  | cons m msgs ih =>
    obtain ⟨r, hstep⟩ := Lane.takeCopy_echo me link1 m h
    obtain ⟨r', hrest⟩ := ih (l := l.takeCopy me link1 true m) (by rw [hstep]; exact h)
    have hsplit : l.echoCopies me (m :: msgs) = l.echoCopies me [m] ++ l.echoCopies me msgs := by
      rw [Lane.echoCopies, ← List.singleton_append, List.filter_append, List.filterMap_append]
      rfl
    refine ⟨r', ?_⟩
    rw [List.foldl_cons, hrest, hstep, hsplit, ← List.append_assoc]
    rfl

/-- What an echo does before its messages are taken leaves the copies. -/
theorem Lane.echoReceive_good {l : Lane} (me : LaneId) (link1 : Bool) (sender : LaneId) (msgs : List Bytes)
    (h : l.agree.stage = .exchange) :
    ∃ b, b.stage = .exchange ∧ b.echoed = l.agree.echoed ∧ b.direct = l.agree.direct ∧
      l.echoReceive me link1 true sender msgs = (msgs.filter fun m => msgSource m != some sender).foldl
        (fun l m => l.takeCopy me link1 true m) { l with agree := b } := by
  have hkept := l.agree.modLink_frame link1 fun v => { v with got := true }
  have hstage : (l.agree.alive link1).stage = .exchange := (congrArg Agree.stage hkept).trans h
  have hechoed : (l.agree.alive link1).echoed = l.agree.echoed := (congrArg Agree.echoed hkept :)
  have hdirect : (l.agree.alive link1).direct = l.agree.direct := (congrArg Agree.direct hkept :)
  have hclose : (l.linkFrame link1 true).round1Close = { l with agree := { l.agree.alive link1 with round1Closed := true } } :=
    if_pos (beq_iff_eq.mpr hstage)
  simp only [Lane.echoReceive, hclose, Lane.forward_eq, if_true]
  split
  · refine ⟨_, ?_, ?_, ?_, rfl⟩
    all_goals unfold Agree.relays; split <;> assumption
  · exact ⟨{ l.agree.alive link1 with round1Closed := true }, hstage, hechoed, hdirect, rfl⟩

/-- Settles O15: the messages of an echo one by one, by `Lane.foldl_takeCopy_echo`. -/
theorem echoedCopiesCount : Obligations.EchoedCopiesCount := by
  unfold Obligations.EchoedCopiesCount
  intro s x link1 crcOk sender msgs hlife hstage
  refine ⟨(s.lane x).echoReceive x link1 crcOk sender msgs, laneWhen_pos (by simpa using hlife), ?_⟩
  cases crcOk with
  | false =>
    have hbad : (s.lane x).echoReceive x link1 false sender msgs = (s.lane x).linkFrame link1 false := rfl
    rw [hbad, Lane.linkFrame_bad]
    have hkept := (s.lane x).agree.modLink_frame link1 fun v => { v with err := true, errs := 0 :: v.errs }
    exact ⟨by simpa using (congrArg Agree.echoed hkept :), (congrArg Agree.direct hkept :),
      (congrArg Agree.stage hkept).trans hstage, rfl⟩
  | true =>
    obtain ⟨b, hb, hechoed, hdirect, hecho⟩ := Lane.echoReceive_good x link1 sender msgs hstage
    obtain ⟨r, hfold⟩ := Lane.foldl_takeCopy_echo x link1 (msgs.filter fun m => msgSource m != some sender)
      (l := { s.lane x with agree := b }) hb
    rw [hecho, hfold]
    refine ⟨?_, hdirect, hb, rfl⟩
    dsimp only
    rw [hechoed, if_pos rfl, Lane.echoCopies, List.filter_filter]
    refine congrArg (fun p => _ ++ List.filterMap _ (msgs.filter p)) (funext fun m => ?_)
    exact (Bool.and_right_comm _ _ _ :)

end Sys2Proof.Machine
end

section
/-! Voted reads (R64, R442, R444): what the lanes taking part return, and what the vote makes of it. -/
namespace Sys2Proof.Machine

/-! ### The lanes taking part -/

/-- What a lane returns to a voted read; none where it does not answer. -/
def State.answer (s : State) (fab : Nat) (ps : List (Place × BitVec 4)) (x : LaneId) : Option (List Word) :=
  if (s.lane x).answers ps then some (identMerge ps (maskData ps ((s.lane x).hostRead x fab ps).2)) else none
/-- A lane after a read of it, which it has answered or not. -/
def State.readLane (s : State) (fab : Nat) (ps : List (Place × BitVec 4)) (x : LaneId) : Lane :=
  if (s.lane x).answers ps then ((s.lane x).hostRead x fab ps).1 else s.lane x

theorem State.voteRead_eq (s : State) (x : LaneId) (fab : Nat) (ps : List (Place × BitVec 4)) :
    s.voteRead x fab ps = (s.setLane x (s.readLane fab ps x), s.answer fab ps x) := by
  unfold State.voteRead State.readLane State.answer
  split
  · rfl
  · rw [State.setLane_lane]

/-- Lanes are read one after the other, and the read of one is nothing to the others. -/
theorem State.voteReads_eq (fab : Nat) (ps : List (Place × BitVec 4)) {xs : List LaneId} (hxs : xs.Nodup) (s : State) :
    (s.voteReads fab ps xs).2 = (xs.map fun x => (x, s.answer fab ps x)) ∧
    (∀ y, (s.voteReads fab ps xs).1.lane y = if y ∈ xs then s.readLane fab ps y else s.lane y) ∧
    { (s.voteReads fab ps xs).1 with a := s.a, b := s.b, c := s.c } = s := by
  induction xs generalizing s with
  | nil => exact ⟨rfl, fun y => by simp [State.voteReads], rfl⟩
  | cons x xs ih =>
    obtain ⟨hx, hxs⟩ := List.nodup_cons.mp hxs
    have hstep := s.voteRead_eq x fab ps
    obtain ⟨hvalues, hlanes, hframe⟩ := ih hxs (s.voteRead x fab ps).1
    have hother (y : LaneId) (hy : y ≠ x) : (s.voteRead x fab ps).1.lane y = s.lane y := by
      rw [hstep]; exact s.lane_setLane_other _ hy
    refine ⟨?_, fun y => ?_, ?_⟩
    · rw [State.voteReads, hvalues, List.map_cons, hstep]
      refine congrArg (List.cons _) (List.map_congr_left fun y hy => ?_)
      have hne : y ≠ x := fun e => hx (e ▸ hy)
      rw [hstep] at hother
      simp only [State.answer, hother y hne]
    · rw [State.voteReads, hlanes]
      by_cases e : y = x
      · subst e
        simp [hx, hstep]
      · simp [e, State.readLane, hother y e]
    · rw [State.voteReads]
      have hone : { (s.voteRead x fab ps).1 with a := s.a, b := s.b, c := s.c } = s := by
        rw [hstep]; cases x <;> rfl
      exact (congrArg (fun t : State => { t with a := s.a, b := s.b, c := s.c }) hframe).trans hone

/-! ### The vote over the values -/

theorem voteValue_of_none {n : Nat} {vs : List (LaneId × Option (List Word))} (h : ∀ p ∈ vs, p.2 = none) :
    voteValue n vs = none := by
  have hgot : vs.filterMap (·.2) = [] := List.filterMap_eq_nil_iff.mpr h
  unfold voteValue
  rw [hgot]
  simp

theorem voteValue_of_all {n : Nat} {vs : List (LaneId × Option (List Word))} {v : List Word} (hne : vs ≠ [])
    (h : ∀ p ∈ vs, p.2 = some v) : voteValue n vs = some v := by
  have hgot : ∀ w ∈ vs.filterMap (·.2), w = v := by
    intro w hw
    obtain ⟨p, hp, hpw⟩ := List.mem_filterMap.mp hw
    exact (Option.some.inj ((h p hp).symm.trans hpw)).symm
  have hhead : (vs.filterMap (·.2)).head? = some v := by
    obtain ⟨p, ps, rfl⟩ := List.exists_cons_of_ne_nil hne
    simp [h p List.mem_cons_self]
  unfold voteValue
  dsimp only
  split
  case h_1 w hw =>
    split at hw
    · exact congrArg some (hgot w (List.mem_of_find?_eq_some hw))
    · cases hw
  case h_2 => exact hhead

/-- Two different values together are no more than all. -/
theorem count_add_count_le {α : Type} [BEq α] [LawfulBEq α] {v w : α} (h : v ≠ w) (l : List α) :
    l.count v + l.count w ≤ l.length := by
  induction l with
  | nil => simp
  | cons a l ih =>
    by_cases ha : a = v
    · subst ha
      simp [h]
      omega
    · simp [List.count_cons, ha]
      split <;> omega

/-- A value that two of at most three lanes return is the one found. -/
theorem voteValue_of_two {vs : List (LaneId × Option (List Word))} {v : List Word} (hlen : vs.length ≤ 3)
    (h : 2 ≤ (vs.filterMap (·.2)).count v) : voteValue 3 vs = some v := by
  have hgot : (vs.filterMap (·.2)).length ≤ 3 := (List.length_filterMap_le _ _).trans hlen
  have hmem : v ∈ vs.filterMap (·.2) := List.count_pos_iff.mp (by omega)
  unfold voteValue
  dsimp only
  rw [if_pos rfl]
  cases hfound : (vs.filterMap (·.2)).find? fun v => decide (2 ≤ (vs.filterMap (·.2)).count v) with
  | none => exact absurd (by simpa using h) (List.find?_eq_none.mp hfound v hmem)
  | some w =>
    have hw : 2 ≤ (vs.filterMap (·.2)).count w := by simpa using List.find?_some hfound
    by_contra hne
    have hle := count_add_count_le (fun e : w = v => hne (congrArg some e)) (vs.filterMap (·.2))
    omega

theorem LaneSet.toList_of_count_three {m : LaneSet} (h : m.count = 3) : m.toList = [.A, .B, .C] := by
  obtain ⟨a, b, c⟩ := m
  revert h
  cases a <;> cases b <;> cases c <;> decide

/-- Two of three lanes stand in the list of the three, in one order or the other. -/
theorem pair_sublist_lanes {x y : LaneId} (h : x ≠ y) :
    [x, y].Sublist [LaneId.A, .B, .C] ∨ [y, x].Sublist [LaneId.A, .B, .C] := by
  revert h
  cases x <;> cases y <;> decide

/-- With three lanes the value that two of them return is returned (R64). -/
theorem State.voteValue_three {s : State} {fab : Nat} {ps : List (Place × BitVec 4)} {v : List Word} {x y : LaneId}
    (hne : x ≠ y) (hx : s.answer fab ps x = some v) (hy : s.answer fab ps y = some v) :
    voteValue 3 ([LaneId.A, .B, .C].map fun x => (x, s.answer fab ps x)) = some v := by
  refine voteValue_of_two (by simp) (List.replicate_sublist_iff.mp ?_)
  have hgot (l : List LaneId) : (l.map fun x => (x, s.answer fab ps x)).filterMap (·.2) = l.filterMap (s.answer fab ps) := by
    rw [List.filterMap_map]; rfl
  rw [hgot]
  rcases pair_sublist_lanes hne with h | h
  · simpa [hx, hy] using h.filterMap (s.answer fab ps)
  · simpa [hx, hy] using h.filterMap (s.answer fab ps)

/-! ### The read -/

theorem Arb.mismatch_frame (a : Arb) (addr : Nat) (bad : List LaneId) :
    { a.mismatch addr bad with regs := a.regs } = a := by
  unfold Arb.mismatch
  split <;> rfl

theorem Arb.countDefault_frame (a : Arb) : { a.countDefault with regs := a.regs } = a := by
  unfold Arb.countDefault
  split <;> rfl

/-- The device after the lanes taking part have been read. -/
def State.readMembers (s : State) (fab : Nat) (ps : List (Place × BitVec 4)) : State :=
  (s.voteReads fab ps s.arb.mask.toList).1
/-- What the lanes taking part return. -/
def State.votes (s : State) (fab : Nat) (ps : List (Place × BitVec 4)) : List (LaneId × Option (List Word)) :=
  s.arb.mask.toList.map fun x => (x, s.answer fab ps x)

theorem State.lane_readMembers (s : State) (fab : Nat) (ps : List (Place × BitVec 4)) (x : LaneId) :
    (s.readMembers fab ps).lane x = if s.arb.mask.has x = true ∧ (s.lane x).answers ps = true then
      ((s.lane x).hostRead x fab ps).1 else s.lane x := by
  obtain ⟨-, hlanes, -⟩ := s.voteReads_eq fab ps (LaneSet.nodup_toList s.arb.mask)
  rw [State.readMembers, hlanes, State.readLane]
  by_cases hmember : s.arb.mask.has x = true
  · simp [hmember, LaneSet.mem_toList]
  · simp [hmember, LaneSet.mem_toList]

theorem State.readMembers_frame (s : State) (fab : Nat) (ps : List (Place × BitVec 4)) :
    { s.readMembers fab ps with a := s.a, b := s.b, c := s.c } = s := by
  obtain ⟨-, -, hframe⟩ := s.voteReads_eq fab ps (LaneSet.nodup_toList s.arb.mask)
  exact hframe

/-- A voted read without a value is served by the default completion (R444). -/
theorem State.votedRead_none {s : State} {addr fab : Nat} {ps : List (Place × BitVec 4)} (hfault : s.arb.fault = false)
    (h : voteValue s.arb.mask.count (s.votes fab ps) = none) :
    s.votedRead addr fab ps = ((s.readMembers fab ps).onArb Arb.countDefault, defaultData ps) := by
  obtain ⟨hvalues, -, -⟩ := s.voteReads_eq fab ps (LaneSet.nodup_toList s.arb.mask)
  unfold State.votedRead
  simp only [hfault, Bool.false_eq_true, if_false, hvalues]
  rw [State.votes, LaneSet.count] at h
  rw [h]
  rfl

/-- A voted value is returned, and the lanes that returned another one are noted (R64). -/
theorem State.votedRead_some {s : State} {addr fab : Nat} {ps : List (Place × BitVec 4)} {v : List Word}
    (hfault : s.arb.fault = false) (h : voteValue s.arb.mask.count (s.votes fab ps) = some v) :
    s.votedRead addr fab ps = ((s.readMembers fab ps).onArb fun a =>
      a.mismatch addr (((s.votes fab ps).filter fun p => p.2 != some v).map (·.1)), v) := by
  obtain ⟨hvalues, -, -⟩ := s.voteReads_eq fab ps (LaneSet.nodup_toList s.arb.mask)
  unfold State.votedRead
  simp only [hfault, Bool.false_eq_true, if_false, hvalues]
  rw [State.votes, LaneSet.count] at h
  rw [h]
  rfl

/-- A voted read reads the lanes taking part, and changes registers of the arbiter. -/
theorem State.votedRead_frame {s : State} {addr fab : Nat} {ps : List (Place × BitVec 4)} (hfault : s.arb.fault = false) :
    ∃ m, (s.votedRead addr fab ps).1 = (s.readMembers fab ps).onArb fun a => { a with regs := m } := by
  cases hvote : voteValue s.arb.mask.count (s.votes fab ps) with
  | none =>
    refine ⟨(s.readMembers fab ps).arb.countDefault.regs, ?_⟩
    rw [State.votedRead_none hfault hvote]
    exact congrArg (fun a => (s.readMembers fab ps).onArb fun _ => { a with regs := (s.readMembers fab ps).arb.countDefault.regs })
      (s.readMembers fab ps).arb.countDefault_frame
  | some v =>
    rw [State.votedRead_some hfault hvote]
    generalize ((s.votes fab ps).filter fun p => p.2 != some v).map (·.1) = bad
    exact ⟨((s.readMembers fab ps).arb.mismatch addr bad).regs,
      congrArg (fun a => (s.readMembers fab ps).onArb fun _ => { a with regs := ((s.readMembers fab ps).arb.mismatch addr bad).regs })
        ((s.readMembers fab ps).arb.mismatch_frame addr bad)⟩

/-- VOTED_READ of a lane register, no bus error, at a ready endpoint. -/
theorem exec_votedRead {s : State} {r : HostReq} {fab k : Nat} (hready : s.HostReady) (hfits : reqFits r false = true)
    (hok : s.arb.busError r false = none) (hplace : reqPlace r 0 = .laneReg 0 k) :
    exec (.votedRead r fab) s = .next ((s.votedRead r.addr fab (reqPlaces r)).1.onArb fun a =>
      { a with last := .success (s.votedRead r.addr fab (reqPlaces r)).2 }) := by
  have hread : s.readReq r fab = s.votedRead r.addr fab (reqPlaces r) := by
    unfold State.readReq
    rw [hplace]
    rfl
  have hserve : s.hostAccess r false fab = (s.votedRead r.addr fab (reqPlaces r)).1.onArb fun a =>
      { a with last := .success (s.votedRead r.addr fab (reqPlaces r)).2 } := by
    rw [State.hostAccess_of_ready fab hready hfits, State.serve, hok, ← hread]
    rfl
  rw [← hserve]
  change execVotedRead r fab s = _
  unfold execVotedRead
  exact hostRow_pos false fab s (by rw [hplace]; rfl)

/-- Settles O19: the lanes by `State.voteReads_eq`, the value by the lemmas of `voteValue`. -/
theorem votedReadsReturnWhatTwoLanesHold : Obligations.VotedReadsReturnWhatTwoLanesHold := by
  unfold Obligations.VotedReadsReturnWhatTwoLanesHold
  intro s r fab k hready hfits hfault hok hplace ps ans
  have hframe := s.readMembers_frame fab ps
  have harb : (s.readMembers fab ps).arb = s.arb := (congrArg State.arb hframe :)
  have hisl : (s.readMembers fab ps).isl = s.isl := (congrArg State.isl hframe :)
  have hbak : (s.readMembers fab ps).bak = s.bak := (congrArg State.bak hframe :)
  have hmem (p : LaneId × Option (List Word)) (hp : p ∈ s.votes fab ps) : s.arb.mask.has p.1 = true ∧ p.2 = ans p.1 := by
    obtain ⟨x, hx, rfl⟩ := List.mem_map.mp hp
    exact ⟨(LaneSet.mem_toList _ _).mp hx, rfl⟩
  obtain ⟨m, hkept⟩ := s.votedRead_frame (addr := r.addr) (fab := fab) (ps := ps) hfault
  refine ⟨_, exec_votedRead hready hfits hok hplace, ?_, ?_, ?_, fun x => ?_, fun v hcount htwo => ?two, fun v hcount hall => ?all,
    fun hnone => ?none⟩
  · rw [hkept]; exact hisl
  · rw [hkept]; exact hbak
  · rw [hkept]; exact congrArg (fun a : Arb => { a with regs := s.arb.regs, last := s.arb.last }) harb
  · rw [State.lane_onArb, hkept, State.lane_onArb]
    exact s.lane_readMembers fab ps x
  case two =>
    obtain ⟨x, y, hne, hx, hy⟩ := htwo
    have hvote : voteValue s.arb.mask.count (s.votes fab ps) = some v := by
      rw [hcount, State.votes, LaneSet.toList_of_count_three hcount]
      exact State.voteValue_three hne hx hy
    rw [State.votedRead_some hfault hvote]
    rfl
  case all =>
    have hvotes (p) (hp : p ∈ s.votes fab ps) : p.2 = some v :=
      (hmem p hp).2.trans (hall p.1 (hmem p hp).1)
    have hsome : s.votes fab ps ≠ [] := by
      intro h
      have hlen := congrArg List.length h
      rw [State.votes, List.length_map] at hlen
      exact hcount.ne' hlen
    have hagree : (s.votes fab ps).filter (fun p => p.2 != some v) = [] :=
      List.filter_eq_nil_iff.mpr fun p hp => by simp [hvotes p hp]
    rw [State.votedRead_some hfault (voteValue_of_all hsome hvotes), hagree]
    exact ⟨rfl, (congrArg Arb.regs harb :)⟩
  case none =>
    have hvotes (p) (hp : p ∈ s.votes fab ps) : p.2 = none := (hmem p hp).2.trans (hnone p.1 (hmem p hp).1)
    rw [State.votedRead_none hfault (voteValue_of_none hvotes)]
    exact ⟨rfl, congrArg (fun a : Arb => a.countDefault.regs) harb⟩

end Sys2Proof.Machine
end

section
/-! Sessions, their responses and their epochs (R308, R309, R314, R315): what an operation does to the one session it is for. -/
namespace Sys2Proof.Machine

/-! ### Sessions -/

/-- A change of a session, where there is one. -/
theorem Lane.sess_modSess (l : Lane) (n k : Nat) (f : Session → Session) :
    (l.modSess n f).sess k = if k = n ∧ n < l.dict.sessions.length then f (l.sess n) else l.sess k := by
  simp only [Lane.sess, Lane.modSess, lmod, List.getD_eq_getElem?_getD, List.getElem?_modify]
  by_cases e : k = n
  · subst e
    by_cases h : k < l.dict.sessions.length
    · simp [h]
    · simp [h]
  · simp [e, Ne.symm e]

theorem Lane.sess_modSess_same {l : Lane} {n : Nat} (f : Session → Session) (h : n < l.dict.sessions.length) :
    (l.modSess n f).sess n = f (l.sess n) := by
  simp [Lane.sess_modSess, h]

theorem Lane.sess_modSess_other (l : Lane) {n k : Nat} (f : Session → Session) (h : k ≠ n) :
    (l.modSess n f).sess k = l.sess k := by
  simp [Lane.sess_modSess, h]

@[simp] theorem Lane.modSess_sessions_length (l : Lane) (n : Nat) (f : Session → Session) :
    (l.modSess n f).dict.sessions.length = l.dict.sessions.length := by
  simp [Lane.modSess, lmod]

/-- Two changes of a session are one. -/
theorem Lane.modSess_modSess (l : Lane) (n : Nat) (f g : Session → Session) :
    (l.modSess n f).modSess n g = l.modSess n (g ∘ f) := by
  simp [Lane.modSess, lmod, List.modify_modify_eq]

/-! ### Responses (R314, R315) -/

/-- The payload of a response. -/
def responsePayload (code st tid : Nat) (body : Bytes) : Bytes := leBytes 1 code ++ leBytes 1 st ++ leBytes 2 tid ++ body
/-- A session that remembers a response. -/
def Session.remember (x : Session) (code tid : Nat) (pay : Bytes) : Session :=
  { x with retry := ((code, tid, pay) :: x.retry).take 16 }
/-- A session that has sent one message more. -/
def Session.sends (x : Session) : Session := { x with txseq := x.txseq + 1, txCount := x.txCount + 1 }

/-- A message leaves by its port, and only there. -/
theorem Lane.sendVia_eq (l : Lane) (me : LaneId) (n port : Nat) (addr : BitVec 128) (uport : Nat) (bytes : Bytes) (cls : Nat) :
    ∃ tx, l.sendVia me n port addr uport bytes cls = { l with tx := tx } ∧
      (port = 0xFF → ∃ u, tx = l.tx ++ [u] ∧ u.sess = n ∧ u.port = 0xFF) := by
  unfold Lane.sendVia
  split
  · exact ⟨_, rfl, fun h => ⟨_, rfl, rfl, h⟩⟩
  case isFalse h => exact ⟨l.tx, rfl, fun hp => absurd (.inl hp) h⟩

/-- What a bound session sends is counted; the tamper policy refuses what is not in PLAIN form (R353). -/
theorem Lane.sendPayload_bound {l : Lane} {n : Nat} (me : LaneId) (plain : Bool) (pay : Bytes) (h : (l.sess n).st = 2) :
    ∃ tx regs, l.sendPayload me n plain pay = { l.modSess n Session.sends with tx := tx, regs := regs } ∧
      (l.tamperActs = false → regs = l.regs ∧
        ((l.sess n).port = 0xFF → ∃ u, tx = l.tx ++ [u] ∧ u.sess = n ∧ u.port = 0xFF)) := by
  have hmod : l.modSess n (fun x => { x with txseq := (l.sess n).txseq + 1, txCount := x.txCount + 1 }) =
      l.modSess n Session.sends := by
    simp only [Lane.modSess, lmod]
    refine congrArg (fun ss => ({ l with dict := { l.dict with sessions := ss } } : Lane)) (List.ext_getElem? fun k => ?_)
    simp only [List.getElem?_modify, Lane.sess, List.getD_eq_getElem?_getD]
    by_cases e : n = k
    · subst e
      cases l.dict.sessions[n]? <;> simp [Session.sends]
    · simp [e]
  unfold Lane.sendPayload
  simp only [h, ne_eq, not_true_eq_false, if_false, hmod]
  split
  case isTrue hrefused => exact ⟨_, _, rfl, fun ht => absurd (ht.symm.trans (Bool.and_eq_true_iff.mp hrefused).1) (by decide)⟩
  case isFalse =>
    obtain ⟨tx, htx, hport⟩ := Lane.sendVia_eq (l.modSess n Session.sends) me n (l.sess n).port
      ((l.modSess n Session.sends).peer n).1 ((l.modSess n Session.sends).peer n).2
      ((l.modSess n Session.sends).deviceMsg me n ((l.sess n).txseq + 1).toNat (l.sess n).port plain pay)
      (if natAt pay 0 1 = 8 then 4 else 3)
    exact ⟨tx, l.regs, htx, fun _ => ⟨rfl, hport⟩⟩

/-- A response of a bound session. -/
theorem Lane.respond_bound {l : Lane} {n : Nat} (me : LaneId) (code st tid : Nat) (body : Bytes) (plain : Bool)
    (hn : n < l.dict.sessions.length) (h : (l.sess n).st = 2) :
    ∃ tx regs, l.respond me n code st tid body plain =
        { l.modSess n (Session.sends ∘ fun x => x.remember code tid (responsePayload code st tid body)) with tx := tx, regs := regs } ∧
      (l.tamperActs = false → regs = l.regs ∧
        ((l.sess n).port = 0xFF → ∃ u, tx = l.tx ++ [u] ∧ u.sess = n ∧ u.port = 0xFF)) := by
  let m := l.modSess n fun x => x.remember code tid (responsePayload code st tid body)
  have hm : m.sess n = (l.sess n).remember code tid (responsePayload code st tid body) := Lane.sess_modSess_same _ hn
  obtain ⟨tx, regs, hsend, hsent⟩ := Lane.sendPayload_bound (l := m) me plain (responsePayload code st tid body)
    ((congrArg Session.st hm).trans h)
  refine ⟨tx, regs, ?_, fun ht => ?_⟩
  · rw [← Lane.modSess_modSess]
    exact hsend
  · obtain ⟨hregs, hport⟩ := hsent ht
    exact ⟨hregs, fun hp => hport ((congrArg Session.port hm).trans hp)⟩

/-- A bound session answers (R314). -/
theorem Lane.respond_answers {l : Lane} {n : Nat} (me : LaneId) (code st tid : Nat) (body : Bytes) (plain : Bool)
    (hn : n < l.dict.sessions.length) (h : (l.sess n).st = 2) :
    l.Answers (l.respond me n code st tid body plain) n code st tid body := by
  obtain ⟨tx, regs, hresp, hsent⟩ := Lane.respond_bound me code st tid body plain hn h
  have hsame := Lane.sess_modSess_same (Session.sends ∘ fun x => x.remember code tid (responsePayload code st tid body)) hn
  rw [hresp]
  refine ⟨rfl, rfl, fun k hk => Lane.sess_modSess_other l _ hk, ?_, ?_, ?_, ?_, hsent⟩
  · exact congrArg (fun x : Session => { x with retry := (l.sess n).retry, txseq := (l.sess n).txseq, txCount := (l.sess n).txCount }) hsame
  · exact (congrArg Session.retry hsame :)
  · exact (congrArg Session.txseq hsame :)
  · exact (congrArg Session.txCount hsame :)

/-- A session apart from what it has sent. -/
def Session.unsent (x : Session) : Session := { x with retry := [], txseq := 0, txCount := 0 }

/-- A change of what a session has sent is no other change of any session. -/
theorem Lane.modSess_unsent (l : Lane) (n k : Nat) {f : Session → Session} (hf : ∀ x, (f x).unsent = x.unsent) :
    ((l.modSess n f).sess k).unsent = (l.sess k).unsent := by
  rw [Lane.sess_modSess]
  split
  case isTrue h => rw [hf, h.1]
  case isFalse => rfl

theorem Lane.sendPayload_frame (l : Lane) (me : LaneId) (n : Nat) (plain : Bool) (pay : Bytes) :
    { l.sendPayload me n plain pay with dict := l.dict, tx := l.tx, regs := l.regs } = l ∧
    { (l.sendPayload me n plain pay).dict with sessions := l.dict.sessions } = l.dict ∧
    (l.sendPayload me n plain pay).dict.sessions.length = l.dict.sessions.length ∧
    ∀ k, ((l.sendPayload me n plain pay).sess k).unsent = (l.sess k).unsent := by
  by_cases hst : (l.sess n).st = 2
  · obtain ⟨tx, regs, hsend, -⟩ := Lane.sendPayload_bound me plain pay hst
    rw [hsend]
    exact ⟨rfl, rfl, l.modSess_sessions_length n _, fun k => l.modSess_unsent n k (f := Session.sends) fun _ => rfl⟩
  · have hnone : l.sendPayload me n plain pay = l := if_pos hst
    rw [hnone]
    exact ⟨rfl, rfl, rfl, fun _ => rfl⟩

/-- A response changes of the lane what it sends and counts, and of a session what it has sent. -/
theorem Lane.respond_frame (l : Lane) (me : LaneId) (n code st tid : Nat) (body : Bytes) (plain : Bool) :
    { l.respond me n code st tid body plain with dict := l.dict, tx := l.tx, regs := l.regs } = l ∧
    { (l.respond me n code st tid body plain).dict with sessions := l.dict.sessions } = l.dict ∧
    (l.respond me n code st tid body plain).dict.sessions.length = l.dict.sessions.length ∧
    ∀ k, ((l.respond me n code st tid body plain).sess k).unsent = (l.sess k).unsent := by
  obtain ⟨hframe, hdict, hlen, hsame⟩ := Lane.sendPayload_frame
    (l.modSess n fun x => x.remember code tid (responsePayload code st tid body)) me n plain (responsePayload code st tid body)
  exact ⟨congrArg (fun m : Lane => { m with dict := l.dict }) hframe, congrArg (fun d : Dict => { d with sessions := l.dict.sessions }) hdict,
    hlen.trans (l.modSess_sessions_length n _), fun k => (hsame k).trans (l.modSess_unsent n k fun _ => rfl)⟩

/-! ### Epochs (R308) -/

/-- A session at the start of an epoch. -/
def Session.renewed (x : Session) (opened : Bool) : Session :=
  { x with st := if opened then 1 else 0, port := 0xFE, txseq := 0, rxseq := 0, txCount := 0, rxCount := 0, staged := [], wx := none
           rs := none, retry := [], subs := [], defer := [] }

/-- What a change of epoch is about: sessions, object values and the agreed state of the key unit. -/
def Lane.sessView (l : Lane) : List Session × NMap Bytes × KeyAgreed := (l.dict.sessions, l.dict.vals, l.keyA)

theorem Lane.restartSource_sessView (l : Lane) (kind n : Nat) : (l.restartSource kind n).sessView = l.sessView := by
  unfold Lane.restartSource
  dsimp only
  split <;> rfl

theorem Lane.sessNote_sessView (l : Lane) (n src : Nat) : (l.sessNote n src).sessView = l.sessView := by
  unfold Lane.sessNote
  dsimp only
  split <;> rfl

/-- The session after the number of its epoch has been written. -/
def Session.atEpoch (x : Session) (e : Nat) : Session := if 65535 < e then { x with spent := true } else { x with epoch := e }

/-- A new epoch renews its session. -/
theorem Lane.setEpoch_sessView (l : Lane) (n e src : Nat) :
    (l.setEpoch n e src).sessView =
      (l.modSess n fun x => (x.atEpoch e).renewed ((l.modSess n fun x => x.atEpoch e).sessOpen n)).sessView := by
  have hwrite : (if 65535 < e then l.modSess n fun x => { x with spent := true } else l.modSess n fun x => { x with epoch := e }) =
      l.modSess n fun x => x.atEpoch e := by
    unfold Session.atEpoch
    split <;> rfl
  unfold Lane.setEpoch
  dsimp only
  rw [Lane.sessNote_sessView, Lane.restartSource_sessView, hwrite]
  exact (congrArg Lane.sessView (l.modSess_modSess n (fun x => x.atEpoch e) fun x =>
    x.renewed ((l.modSess n fun x => x.atEpoch e).sessOpen n)) :)

theorem Lane.sess_of_sessView {l m : Lane} (h : l.sessView = m.sessView) (n : Nat) : l.sess n = m.sess n :=
  congrArg (fun v => v.1.getD n session0) h

theorem Lane.setEpoch_vals (l : Lane) (n e src : Nat) : (l.setEpoch n e src).dict.vals = l.dict.vals :=
  congrArg (fun (_, vals, _) => vals) (l.setEpoch_sessView n e src)
theorem Lane.setEpoch_keyA (l : Lane) (n e src : Nat) : (l.setEpoch n e src).keyA = l.keyA :=
  congrArg (fun (_, _, keyA) => keyA) (l.setEpoch_sessView n e src)
theorem Lane.setEpoch_sessions_length (l : Lane) (n e src : Nat) :
    (l.setEpoch n e src).dict.sessions.length = l.dict.sessions.length :=
  (congrArg (fun v => v.1.length) (l.setEpoch_sessView n e src)).trans (l.modSess_sessions_length n _)

theorem Lane.setEpoch_sess_other (l : Lane) {n k : Nat} (e src : Nat) (h : k ≠ n) : (l.setEpoch n e src).sess k = l.sess k :=
  (Lane.sess_of_sessView (l.setEpoch_sessView n e src) k).trans (l.sess_modSess_other _ h)

theorem Lane.setEpoch_sess_same {l : Lane} {n : Nat} (e src : Nat) (hn : n < l.dict.sessions.length) :
    (l.setEpoch n e src).sess n = ((l.sess n).atEpoch e).renewed ((l.modSess n fun x => x.atEpoch e).sessOpen n) :=
  (Lane.sess_of_sessView (l.setEpoch_sessView n e src) n).trans (Lane.sess_modSess_same _ hn)

/-- A session's epoch number has no part in whether the session may be open. -/
theorem Lane.sessOpen_atEpoch {l : Lane} {n e : Nat} (hn : n < l.dict.sessions.length) (he : e ≤ 65535) :
    (l.modSess n fun x => x.atEpoch e).sessOpen n = l.sessOpen n := by
  have hsame := Lane.sess_modSess_same (fun x : Session => x.atEpoch e) hn
  have hepoch : (l.sess n).atEpoch e = { l.sess n with epoch := e } := if_neg (by omega)
  unfold Lane.sessOpen
  rw [hsame, hepoch]
  rfl

/-- The next epoch of a session that has one (R308). -/
theorem Lane.advanceEpoch_sess_same {l : Lane} {n : Nat} (src : Nat) (hn : n < l.dict.sessions.length)
    (hspent : (l.sess n).spent = false) (he : (l.sess n).epoch < 65535) :
    (l.advanceEpoch n src).sess n = ({ l.sess n with epoch := (l.sess n).epoch + 1 } : Session).renewed (l.sessOpen n) := by
  have hepoch : (l.sess n).atEpoch ((l.sess n).epoch + 1) = { l.sess n with epoch := (l.sess n).epoch + 1 } := if_neg (by omega)
  rw [Lane.advanceEpoch, if_neg (by simp [hspent]), Lane.setEpoch_sess_same _ _ hn, Lane.sessOpen_atEpoch hn (by omega), hepoch]

theorem Lane.advanceEpoch_eq_setEpoch (l : Lane) (n src : Nat) : ∃ e, l.advanceEpoch n src = l.setEpoch n e src := by
  unfold Lane.advanceEpoch
  split <;> exact ⟨_, rfl⟩

/-- A change of epoch lifts no key-closed mark, and sets none. -/
theorem Lane.setEpoch_keyClosed (l : Lane) (n e src : Nat) : ((l.setEpoch n e src).sess n).keyClosed = (l.sess n).keyClosed := by
  have hkept : ((l.sess n).atEpoch e).keyClosed = (l.sess n).keyClosed := by
    unfold Session.atEpoch
    split <;> rfl
  by_cases hn : n < l.dict.sessions.length
  · rw [Lane.setEpoch_sess_same e src hn]
    exact hkept
  · have hout := (Lane.sess_of_sessView (l.setEpoch_sessView n e src) n).trans (l.sess_modSess n n _)
    rw [hout, if_neg (by simp [hn])]

/-- At 2³¹ messages in a direction the epoch advances. -/
theorem Lane.messageLimit_reached {l : Lane} {n : Nat} (h : 2 ^ 31 ≤ (l.sess n).txCount ∨ 2 ^ 31 ≤ (l.sess n).rxCount) :
    l.messageLimit n = l.advanceEpoch n 0xFF := if_pos h

end Sys2Proof.Machine
end

section
/-! Requests of ENROL and the ends of enrolments (R344 to R347). -/
namespace Sys2Proof.Machine

/-! ### Requests of a bound session (R309, R314, R506) -/

/-- The request at the head of a working lane's queue is executed after the boundary actions of the slot. -/
theorem Lane.execCode_of_request {l m : Lane} {me : LaneId} {code : Nat} {r : ExecReq} (h : l.Request me code r m) :
    l.execCode me code = m.execReq me r := by
  obtain ⟨hworking, hnext, -, rest, htodo, rfl, -⟩ := h
  rw [Lane.execCode, if_pos (by simp [hworking, hnext]), Lane.execNext, htodo]

/-- A request through the port that its session is bound to needs no binding. -/
theorem Lane.bindReq_of_bound {m : Lane} {r : ExecReq} (h : m.BoundFor r) (opts : Nat) : m.bindReq r opts = (m, true) := by
  obtain ⟨-, hst, hport, -, -⟩ := h
  simp [Lane.bindReq, hst, hport]

theorem Lane.execReq_enrol {m : Lane} {r : ExecReq} (me : LaneId) (h : m.BoundFor r) (hcode : natAt r.body 0 1 = 0xD) :
    m.execReq me r = m.reqEnrol me r (r.port == 0xFF) (natAt r.body 2 2) (r.body.drop 4) := by
  have hbind := Lane.bindReq_of_bound h (natAt r.body 1 1)
  obtain ⟨⟨hopen, hepoch⟩, -, -, hretry, hpending⟩ := h
  have hnew : ((m.sess r.sess).retry.find? fun y => y.1 == natAt r.body 0 1 && y.2.1 == natAt r.body 2 2) = none :=
    List.find?_eq_none.mpr fun y hy => by simpa using hretry y hy
  unfold Lane.execReq
  simp only [hopen, hepoch, ne_eq, not_true_eq_false, or_self, if_false, hbind, Bool.not_true, Bool.false_eq_true, hnew, hpending]
  rw [hcode]
  rfl

/-! ### ENROL (R344, R345) -/

/-- An enrolment that comes with a request, before its start. -/
def ExecReq.enrolJob (r : ExecReq) : EnrolJob :=
  { sess := r.sess, mailbox := r.port == 0xFF, tid := natAt r.body 2 2, body := r.body.drop 4, start := none, tamper := false }
/-- The lane with a job at the end of those that wait. -/
def Lane.enqueueEnrol (l : Lane) (j : EnrolJob) : Lane := { l with keyA := { l.keyA with enrols := l.keyA.enrols ++ [j] } }

/-- Starting a job keeps their number. -/
theorem Lane.enrolStart_frame (l : Lane) : { l.enrolStart with keyA := l.keyA } = l ∧ l.enrolStart.keyA.gens = l.keyA.gens ∧
    l.enrolStart.keyA.enrols.length = l.keyA.enrols.length := by
  unfold Lane.enrolStart
  split
  case h_1 j rest h =>
    split
    · exact ⟨rfl, rfl, by rw [h]; rfl⟩
    · exact ⟨rfl, rfl, rfl⟩
  case h_2 => exact ⟨rfl, rfl, rfl⟩

/-- A job alone starts in the slot, unless one has ended in it. -/
theorem Lane.enrolStart_alone {l : Lane} {j : EnrolJob} (h : l.keyA.enrols = [j]) (hj : j.start = none)
    (hend : l.keyA.enrolEnd ≠ some l.slot) : l.enrolStart.keyA.enrols = [{ j with start := some l.slot }] := by
  unfold Lane.enrolStart
  rw [h]
  simp [hj, hend]

/-- What makes a request for enrolment trusted (R344). -/
def Lane.trusts (m : Lane) (r : ExecReq) : Bool := r.port == 0xFF || m.dict.nat (0x1200 + r.sess) 2 == 0

theorem Lane.reqEnrol_untrusted {m : Lane} {r : ExecReq} (me : LaneId) (tid : Nat) (b : Bytes) (h : m.trusts r = false) :
    m.reqEnrol me r (r.port == 0xFF) tid b = m.respond me r.sess 0xD 0xC tid [] :=
  if_pos (show (!m.trusts r) = true by rw [h]; rfl)

theorem Lane.reqEnrol_full {m : Lane} {r : ExecReq} (me : LaneId) (tid : Nat) (b : Bytes) (h : m.trusts r = true)
    (hfull : 9 ≤ m.keyA.enrols.length) :
    m.reqEnrol me r (r.port == 0xFF) tid b = m.respond me r.sess 0xD 0 tid (m.enrolFail 5 b) (r.port == 0xFF) :=
  (if_neg (show ¬(!m.trusts r) = true by rw [h]; decide)).trans (if_pos hfull)

theorem Lane.reqEnrol_queues {m : Lane} {r : ExecReq} (me : LaneId) (h : m.trusts r = true) (hroom : m.keyA.enrols.length < 9) :
    m.reqEnrol me r (r.port == 0xFF) (natAt r.body 2 2) (r.body.drop 4) = (m.enqueueEnrol r.enrolJob).enrolStart :=
  (if_neg (show ¬(!m.trusts r) = true by rw [h]; decide)).trans (if_neg (by omega))

/-! ### The end of an enrolment (R345, R347) -/

/-- The lane when the job at the head has ended. -/
def Lane.enrolDone (l : Lane) (js : List EnrolJob) : Lane :=
  { l with keyA := { l.keyA with enrols := js, enrolEnd := some l.slot } }

theorem Lane.enrolComplete_due {l : Lane} {j : EnrolJob} {js : List EnrolJob} {t0 : BitVec 64} (me : LaneId)
    (h : l.keyA.enrols = j :: js) (hstart : j.start = some t0) (hdue : t0 + 199 = l.slot) :
    l.enrolComplete me =
      let body := l.enrolBody j t0
      let m := (l.enrolDone js).respond me j.sess 0xD 0 j.tid body j.mailbox
      if natAt body 0 1 = 0 ∧ natAt body 1 1 = 1 then m.enrolLift (natAt body 2 2) j.sess else m := by
  have hjob : l.enrolDue = some (j, t0) := by rw [Lane.enrolDue, h]; dsimp only; rw [hstart]; exact if_pos hdue
  rw [Lane.enrolComplete, hjob, h]
  rfl

/-- A key-closed mark of one session is lifted, on the session's next epoch (R347). -/
def Lane.liftOne (l : Lane) (src n : Nat) : Lane :=
  if (l.sess n).keyClosed then (l.modSess n fun x => { x with keyClosed := false }).advanceEpoch n src else l

/-- Lifting a mark leaves the other sessions, the objects and the agreed state of the key unit. -/
theorem Lane.liftOne_frame (l : Lane) (src n : Nat) : (l.liftOne src n).dict.vals = l.dict.vals ∧ (l.liftOne src n).keyA = l.keyA ∧
    (l.liftOne src n).dict.sessions.length = l.dict.sessions.length ∧ ∀ k, k ≠ n → (l.liftOne src n).sess k = l.sess k := by
  unfold Lane.liftOne
  split
  · obtain ⟨e, he⟩ := (l.modSess n fun x => { x with keyClosed := false }).advanceEpoch_eq_setEpoch n src
    rw [he]
    exact ⟨Lane.setEpoch_vals _ _ _ _, Lane.setEpoch_keyA _ _ _ _,
      (Lane.setEpoch_sessions_length _ _ _ _).trans (Lane.modSess_sessions_length _ _ _),
      fun k hk => (Lane.setEpoch_sess_other _ _ _ hk).trans (Lane.sess_modSess_other _ _ hk)⟩
  · exact ⟨rfl, rfl, rfl, fun _ _ => rfl⟩

theorem Lane.liftOne_keyClosed {l : Lane} {n : Nat} (src : Nat) (hn : n < l.dict.sessions.length) :
    ((l.liftOne src n).sess n).keyClosed = false := by
  unfold Lane.liftOne
  split
  case isTrue =>
    obtain ⟨e, he⟩ := (l.modSess n fun x => { x with keyClosed := false }).advanceEpoch_eq_setEpoch n src
    rw [he, Lane.setEpoch_keyClosed, Lane.sess_modSess_same _ hn]
  case isFalse h => simpa using h

/-- What lifting does to a session with a mark and an epoch left: the next epoch, unbound where the session is enabled. -/
theorem Lane.liftOne_sess {l : Lane} {n : Nat} (src : Nat) (hn : n < l.dict.sessions.length) (hclosed : (l.sess n).keyClosed = true)
    (hspent : (l.sess n).spent = false) (he : (l.sess n).epoch < 65535) :
    ((l.liftOne src n).sess n).epoch = (l.sess n).epoch + 1 ∧
      ((l.liftOne src n).sess n).st = if l.dict.flag (0x1200 + n) 1 then 1 else 0 := by
  let m := l.modSess n fun x => { x with keyClosed := false }
  have hm : m.sess n = { l.sess n with keyClosed := false } := Lane.sess_modSess_same _ hn
  have hnext := Lane.advanceEpoch_sess_same (l := m) (n := n) src ((l.modSess_sessions_length n _).symm ▸ hn) (by rw [hm]; exact hspent)
    (by rw [hm]; exact he)
  have hopen : m.sessOpen n = l.dict.flag (0x1200 + n) 1 := by
    unfold Lane.sessOpen
    rw [hm]
    simp [hspent]
    rfl
  rw [Lane.liftOne, if_pos hclosed]
  rw [hnext, hm, hopen]
  exact ⟨rfl, rfl⟩

theorem Lane.mem_partnerSessions (l : Lane) (p n : Nat) : n ∈ l.partnerSessions p ↔ n < 8 ∧ l.dict.nat (0x1200 + n) 3 = p := by
  simp [Lane.partnerSessions]

theorem Lane.nodup_partnerSessions (l : Lane) (p : Nat) : (l.partnerSessions p).Nodup := List.nodup_range.filter _

/-- The sessions of a list are lifted one by one. -/
theorem Lane.foldl_liftOne (src : Nat) {ns : List Nat} (hns : ns.Nodup) (l : Lane) :
    (ns.foldl (fun l n => l.liftOne src n) l).keyA = l.keyA ∧
    ∀ k, (k ∉ ns → (ns.foldl (fun l n => l.liftOne src n) l).sess k = l.sess k) ∧
      (k ∈ ns → k < l.dict.sessions.length → ((ns.foldl (fun l n => l.liftOne src n) l).sess k).keyClosed = false ∧
        ((l.sess k).keyClosed = true → (l.sess k).spent = false → (l.sess k).epoch < 65535 →
          ((ns.foldl (fun l n => l.liftOne src n) l).sess k).epoch = (l.sess k).epoch + 1 ∧
          ((ns.foldl (fun l n => l.liftOne src n) l).sess k).st = if l.dict.flag (0x1200 + k) 1 then 1 else 0)) := by
  induction ns generalizing l with
  | nil => exact ⟨rfl, fun k => ⟨fun _ => rfl, fun h => absurd h List.not_mem_nil⟩⟩
  | cons n ns ih =>
    obtain ⟨hn, hns⟩ := List.nodup_cons.mp hns
    obtain ⟨hvals, hkeyA, hlen, hothers⟩ := l.liftOne_frame src n
    obtain ⟨ihkeyA, ihsess⟩ := ih hns (l.liftOne src n)
    refine ⟨ihkeyA.trans hkeyA, fun k => ?_⟩
    obtain ⟨ihout, ihin⟩ := ihsess k
    rw [List.foldl_cons]
    refine ⟨fun hk => ?_, fun hk hlt => ?_⟩
    · obtain ⟨hkn, hkns⟩ := not_or.mp (mt List.mem_cons.mpr hk)
      exact (ihout hkns).trans (hothers k hkn)
    · by_cases e : k = n
      · subst e
        rw [ihout hn]
        exact ⟨Lane.liftOne_keyClosed src hlt, fun hclosed hspent he => Lane.liftOne_sess src hlt hclosed hspent he⟩
      · have hkns : k ∈ ns := (List.mem_cons.mp hk).resolve_left e
        have hflag : (l.liftOne src n).dict.flag (0x1200 + k) 1 = l.dict.flag (0x1200 + k) 1 := by
          simp only [Dict.flag, Dict.nat, Dict.get, hvals]
        have hin := ihin hkns (hlen ▸ hlt)
        rw [hothers k e, hflag] at hin
        exact hin

/-- The sessions of a partner after its enrolment (R347). -/
theorem Lane.enrolLift_sess (l : Lane) (p src : Nat) {n : Nat} (hn : n < 8) (hlt : n < l.dict.sessions.length)
    (hp : l.dict.nat (0x1200 + n) 3 = p) :
    ((l.enrolLift p src).sess n).keyClosed = false ∧
      ((l.sess n).keyClosed = true → (l.sess n).spent = false → (l.sess n).epoch < 65535 →
        ((l.enrolLift p src).sess n).epoch = (l.sess n).epoch + 1 ∧
          ((l.enrolLift p src).sess n).st = if l.dict.flag (0x1200 + n) 1 then 1 else 0) := by
  obtain ⟨-, hlift⟩ := Lane.foldl_liftOne src (l.nodup_partnerSessions p) l
  exact (hlift n).2 ((l.mem_partnerSessions p n).mpr ⟨hn, hp⟩) hlt

theorem Lane.enrolLift_keyA (l : Lane) (p src : Nat) : (l.enrolLift p src).keyA = l.keyA :=
  (Lane.foldl_liftOne src (l.nodup_partnerSessions p) l).1

/-- The end of an enrolment with RESULT 0 for a partner leaf (R347). -/
theorem Lane.enrolComplete_partner {l : Lane} {j : EnrolJob} {js : List EnrolJob} {t0 : BitVec 64} (me : LaneId)
    (h : l.keyA.enrols = j :: js) (hstart : j.start = some t0) (hdue : t0 + 199 = l.slot)
    (hresult : natAt (l.enrolBody j t0) 0 1 = 0) (hdomain : natAt (l.enrolBody j t0) 1 1 = 1) :
    (l.enrolComplete me).keyA = (l.enrolDone js).keyA ∧
    ∀ n, n < 8 → n < l.dict.sessions.length → l.dict.nat (0x1200 + n) 3 = natAt (l.enrolBody j t0) 2 2 →
      ((l.enrolComplete me).sess n).keyClosed = false ∧
      ((l.sess n).keyClosed = true → (l.sess n).spent = false → (l.sess n).epoch < 65535 →
        ((l.enrolComplete me).sess n).epoch = (l.sess n).epoch + 1 ∧
          ((l.enrolComplete me).sess n).st = if l.dict.flag (0x1200 + n) 1 then 1 else 0) := by
  rw [Lane.enrolComplete_due me h hstart hdue]
  dsimp only
  rw [if_pos ⟨hresult, hdomain⟩]
  obtain ⟨hframe, hdict, hlen, hsame⟩ := (l.enrolDone js).respond_frame me j.sess 0xD 0 j.tid (l.enrolBody j t0) j.mailbox
  generalize (l.enrolDone js).respond me j.sess 0xD 0 j.tid (l.enrolBody j t0) j.mailbox = m at *
  have hkeyA : m.keyA = (l.enrolDone js).keyA := (congrArg Lane.keyA hframe :)
  have hvals : m.dict.vals = l.dict.vals := (congrArg Dict.vals hdict :)
  have hnat (idx sub : Nat) : m.dict.nat idx sub = l.dict.nat idx sub := by simp only [Dict.nat, Dict.get, hvals]
  refine ⟨(m.enrolLift_keyA _ _).trans hkeyA, fun n hn hlt hp => ?_⟩
  have hclosed : (m.sess n).keyClosed = (l.sess n).keyClosed := (congrArg Session.keyClosed (hsame n) :)
  have hspent : (m.sess n).spent = (l.sess n).spent := (congrArg Session.spent (hsame n) :)
  have hepoch : (m.sess n).epoch = (l.sess n).epoch := (congrArg Session.epoch (hsame n) :)
  have hflag : m.dict.flag (0x1200 + n) 1 = l.dict.flag (0x1200 + n) 1 := congrArg (· == 1) (hnat _ _)
  have hlift := m.enrolLift_sess (natAt (l.enrolBody j t0) 2 2) j.sess hn (hlen ▸ hlt) ((hnat _ _).trans hp)
  rw [hclosed, hspent, hepoch, hflag] at hlift
  exact hlift

/-- The end of any other enrolment is its response. -/
theorem Lane.enrolComplete_answers {l : Lane} {j : EnrolJob} {js : List EnrolJob} {t0 : BitVec 64} (me : LaneId)
    (h : l.keyA.enrols = j :: js) (hstart : j.start = some t0) (hdue : t0 + 199 = l.slot)
    (hother : ¬(natAt (l.enrolBody j t0) 0 1 = 0 ∧ natAt (l.enrolBody j t0) 1 1 = 1))
    (hsess : j.sess < l.dict.sessions.length) (hst : (l.sess j.sess).st = 2) :
    (l.enrolDone js).Answers (l.enrolComplete me) j.sess 0xD 0 j.tid (l.enrolBody j t0) := by
  rw [Lane.enrolComplete_due me h hstart hdue]
  dsimp only
  rw [if_neg hother]
  exact Lane.respond_answers (l := l.enrolDone js) me _ _ _ _ _ hsess hst

end Sys2Proof.Machine
end

section
/-! Authentication of frames (R42, R278, R312): what the head of the receive queue becomes. -/
namespace Sys2Proof.Machine

/-- The bytes of the frame area that the frame at the head of the queue needs beside what stands there (R42, R283). -/
def Lane.rxNeed (l : Lane) (f : RxFrame) : Nat :=
  l.statRoom + offerBytes l.agree.offer + 12 + (if f.substation then 128 else f.bytes.length - 40)
/-- The lane with the head of its receive queue taken. -/
def Lane.rxTake (l : Lane) (fs : List RxFrame) : Lane := { l with agree := { l.agree with rxq := fs } }

/-- A frame that does not fit is held (R42). -/
theorem Lane.authenticate_holds {l : Lane} {f : RxFrame} {fs : List RxFrame} (me : LaneId) (hq : l.agree.rxq = f :: fs)
    (hheld : l.agree.held = false) (hfull : 4696 < l.rxNeed f) :
    (l.authenticate me).agree = { l.agree with held := true, taken := true } ∧
      fget (l.authenticate me).regs f_XLNK_STAT_FRAMEHOLD = 1 ∧ (l.authenticate me).dict = l.dict := by
  obtain ⟨m, hm, hfull⟩ : ∃ m : Lane, ({ m with key := l.key } : Lane) = l ∧ l.authenticate me =
      ({ m with agree := { m.agree with held := true, taken := true } } : Lane).reg fun m =>
        fflag (fbump m f_XLNK_FRAMES_HOLDCNT) f_XLNK_STAT_FRAMEHOLD := by
    refine ⟨if l.agree.taken then l else l.ku fun k => { k with rx := some (l.rxPath f) }, by split <;> rfl, ?_⟩
    rw [Lane.authenticate, if_neg (by simp [hheld]), hq]
    exact if_pos hfull
  rw [hfull]
  have hagree : m.agree = l.agree := (congrArg Lane.agree hm :)
  have hdict : m.dict = l.dict := (congrArg Lane.dict hm :)
  exact ⟨congrArg (fun a : Agree => { a with held := true, taken := true }) hagree, fget_fflag_same _ rfl (by decide), hdict⟩

/-- A frame that fits and has not been taken up before is checked. -/
theorem Lane.authenticate_checks {l : Lane} {f : RxFrame} {fs : List RxFrame} (me : LaneId) (hq : l.agree.rxq = f :: fs)
    (hheld : l.agree.held = false) (htaken : l.agree.taken = false) (hroom : l.rxNeed f ≤ 4696) :
    l.authenticate me = if f.substation then (l.rxTake fs).rxSubstation f else (l.rxTake fs).rxAfesh me f := by
  have htake : ({ l with agree := { l.agree with rxq := fs, taken := false } } : Lane) = l.rxTake fs := by
    rw [← htaken]; rfl
  rw [Lane.authenticate, if_neg (by simp [hheld]), hq]
  refine (if_neg (not_lt.mpr hroom)).trans ?_
  rw [htake]
  exact if_neg (by simp [htaken])

/-! ### Substation frames (R278) -/

/-- A check offers entries, and leaves the rest of agreement. -/
theorem Lane.rxSubstation_agree (l : Lane) (f : RxFrame) : { (l.rxSubstation f).agree with offer := l.agree.offer } = l.agree := by
  unfold Lane.rxSubstation
  dsimp only
  split
  · rfl
  · split
    · rfl
    · split
      · rfl
      · split <;> rfl

/-- The substation that a frame names. -/
def RxFrame.station (f : RxFrame) : Nat := natAt f.bytes 2 2 % 4096
/-- A substation frame passes the checks before its tag: form, policy, readiness and generation. -/
structure Lane.StationFrame (l : Lane) (f : RxFrame) : Prop where
  length : f.bytes.length = 128
  version : natAt f.bytes 1 1 = 1
  kind : natAt f.bytes 0 1 = 0x51
  untampered : l.tamperActs = false
  ready : l.key.ready = true
  generation : natAt f.bytes 8 4 = l.keyA.gens.leafGen 2 f.station

theorem Lane.rxSubstation_length {l : Lane} {f : RxFrame} (h : f.bytes.length ≠ 128) : l.rxSubstation f = l.subErr 0 :=
  if_pos (.inl h)

/-- The lane with the key of a path at work for the receipt of a frame. -/
def Lane.rxKeyed (l : Lane) (p : KeyPath) : Lane := l.ku fun k => { k with reg := some p, rx := some p }

/-- The tag decides whether a frame that passes the checks is offered. -/
theorem Lane.rxSubstation_checked {l : Lane} {f : RxFrame} (h : l.StationFrame f) :
    l.rxSubstation f =
      if (cmac (l.keyA.gens.path 2 f.station).key (f.bytes.take 120)).take 8 ≠ f.bytes.drop 120 then
        (l.rxKeyed (l.keyA.gens.path 2 f.station)).subErr 2
      else (l.rxKeyed (l.keyA.gens.path 2 f.station)).offerEntry
        { port := f.port, kind := 1, source := f.station, seq := BitVec.ofNat 32 (natAt f.bytes 4 4), body := f.bytes } := by
  have hgen : natAt f.bytes 8 4 = l.keyA.gens.leafGen 2 (natAt f.bytes 2 2 % 4096) := h.generation
  unfold Lane.rxSubstation
  dsimp only
  rw [if_neg (by simp [h.length, h.version, h.kind]), if_neg (by simp [h.untampered, h.ready]), if_neg (not_not.mpr hgen)]
  rfl

theorem Lane.rxSubstation_genuine {l : Lane} {f : RxFrame} (h : l.StationFrame f)
    (htag : (cmac (l.keyA.gens.path 2 f.station).key (f.bytes.take 120)).take 8 = f.bytes.drop 120) :
    (l.rxSubstation f).agree.offer = l.agree.offer ++
      [{ port := f.port, kind := 1, source := f.station, seq := BitVec.ofNat 32 (natAt f.bytes 4 4), body := f.bytes }] := by
  rw [Lane.rxSubstation_checked h, if_neg (not_not.mpr htag)]
  rfl

theorem Lane.rxSubstation_forged {l : Lane} {f : RxFrame} (h : l.StationFrame f)
    (htag : (cmac (l.keyA.gens.path 2 f.station).key (f.bytes.take 120)).take 8 ≠ f.bytes.drop 120) :
    (l.rxSubstation f).agree.offer = l.agree.offer ∧
      (l.rxSubstation f).ownStats = lmod l.ownStats 2 fun c => satAdd 0xFFFFFFFF c 1 := by
  rw [Lane.rxSubstation_checked h, if_pos htag]
  exact ⟨rfl, rfl⟩

/-! ### Messages (R312) -/

theorem Lane.sendVia_agree (l : Lane) (me : LaneId) (n port : Nat) (addr : BitVec 128) (uport : Nat) (bytes : Bytes) (cls : Nat) :
    (l.sendVia me n port addr uport bytes cls).agree = l.agree := by
  obtain ⟨tx, h, -⟩ := l.sendVia_eq me n port addr uport bytes cls
  rw [h]

theorem Lane.notice_agree (l : Lane) (me : LaneId) (n : Nat) (f : RxFrame) : (l.notice me n f).agree = l.agree := by
  unfold Lane.notice
  dsimp only
  split
  · rfl
  · exact Lane.sendVia_agree _ _ _ _ _ _ _ _

theorem Lane.rxAfesh_agree (l : Lane) (me : LaneId) (f : RxFrame) : { (l.rxAfesh me f).agree with offer := l.agree.offer } = l.agree := by
  unfold Lane.rxAfesh
  dsimp only
  split
  · rfl
  · split
    · rfl
    · split
      · split
        · rw [Lane.notice_agree]; rfl
        · rfl
      · split
        · rfl
        · split
          · rfl
          · split
            · rfl
            · split <;> rfl

/-- A closed session takes no message. -/
theorem Lane.rxAfesh_closed {l : Lane} {f : RxFrame} (me : LaneId) (h : (l.sess (natAt f.bytes 1 1 % 8)).st = 0) :
    (l.rxAfesh me f).agree = l.agree := by
  unfold Lane.rxAfesh
  dsimp only
  split
  · rfl
  · rfl

/-- A message in a session's epoch that passes the checks before its tag, sealed and not in PLAIN form. -/
structure Lane.SealedMsg (l : Lane) (f : RxFrame) (n : Nat) : Prop where
  length : natAt f.bytes 10 2 = f.bytes.length
  least : 44 ≤ f.bytes.length
  most : f.bytes.length ≤ 1400
  version : natAt f.bytes 0 1 = 1
  flags : natAt f.bytes 2 2 = 0
  zero : natAt f.bytes 13 1 = 0
  untampered : l.tamperActs = false
  ready : l.key.ready = true
  session : natAt f.bytes 1 1 = n
  known : n < 8
  isOpen : (l.sess n).st ≠ 0
  epoch : natAt f.bytes 8 2 = (l.sess n).epoch

/-- The tag decides whether a sealed message is offered. -/
theorem Lane.rxAfesh_checked {l : Lane} {f : RxFrame} {n : Nat} (me : LaneId) (h : l.SealedMsg f n) :
    l.rxAfesh me f = match l.openMsg f.bytes with
      | some body => (({ l with peers := l.peers.set n (f.addr, f.uport) } : Lane).offerEntry
          { port := f.port, kind := 2, source := n, seq := BitVec.ofNat 32 (natAt f.bytes 4 4), body := body }).rxKeyed
            (l.keyA.gens.path 1 (l.dict.nat (0x1200 + n) 3))
      | none => (l.rxErr n f_XACT_RXERR_TAGFAIL).rxKeyed (l.keyA.gens.path 1 (l.dict.nat (0x1200 + n) 3)) := by
  have hmod : n % 8 = n := Nat.mod_eq_of_lt h.known
  unfold Lane.rxAfesh
  dsimp only
  rw [h.session, hmod, h.flags]
  rw [if_neg (by simp [h.length, h.least, h.most, h.version, h.zero, h.known]), if_neg h.isOpen, if_neg (not_not.mpr h.epoch),
    if_neg (by simp), if_neg (by simp), if_neg (by simp [h.untampered, h.ready])]
  cases l.openMsg f.bytes <;> rfl

theorem Lane.rxAfesh_genuine {l : Lane} {f : RxFrame} {n : Nat} {body : Bytes} (me : LaneId) (h : l.SealedMsg f n)
    (htag : l.openMsg f.bytes = some body) : (l.rxAfesh me f).agree.offer = l.agree.offer ++
      [{ port := f.port, kind := 2, source := n, seq := BitVec.ofNat 32 (natAt f.bytes 4 4), body := body }] := by
  rw [Lane.rxAfesh_checked me h, htag]
  rfl

theorem Lane.rxAfesh_forged {l : Lane} {f : RxFrame} {n : Nat} (me : LaneId) (h : l.SealedMsg f n)
    (htag : l.openMsg f.bytes = none) : (l.rxAfesh me f).agree.offer = l.agree.offer ∧
      (l.rxAfesh me f).regs = fbump l.regs (f_XACT_RXERR_TAGFAIL.at (4 * n)) := by
  rw [Lane.rxAfesh_checked me h, htag]
  exact ⟨rfl, rfl⟩

/-! ### The obligation -/

/-- AFESH_MESSAGE authenticates the frame at the head of the queue when it is a message, SUBSTATION_REPORT when it is a
substation frame. -/
theorem exec_afeshMessage {s : State} {x : LaneId} {f : RxFrame} {fs : List RxFrame} (hq : (s.lane x).agree.rxq = f :: fs)
    (hkind : f.substation = false) : exec (.afeshMessage x) s = .next (s.setLane x ((s.lane x).authenticate x)) :=
  laneWhen_pos (by rw [hq]; simp [hkind])

theorem exec_substationReport {s : State} {x : LaneId} {f : RxFrame} {fs : List RxFrame} (hq : (s.lane x).agree.rxq = f :: fs)
    (hkind : f.substation = true) : exec (.substationReport x) s = .next (s.setLane x ((s.lane x).authenticate x)) :=
  laneWhen_pos (by rw [hq]; exact hkind)

theorem exec_txEnrol {s : State} {x : LaneId} {r : ExecReq} {m : Lane} (hbound : m.BoundFor r) (h : (s.lane x).Request x 0xD r m) :
    exec (.txEnrol x) s = .next (s.setLane x (m.reqEnrol x r (r.port == 0xFF) (natAt r.body 2 2) (r.body.drop 4))) := by
  have hcode : natAt r.body 0 1 = 0xD := by
    obtain ⟨-, -, hcode, -⟩ := h
    exact hcode
  change execTxEnrol x s = _
  rw [execTxEnrol, laneNext_eq, Lane.execCode_of_request h, Lane.execReq_enrol x hbound hcode]

/-- Settles O46: responses by `Lane.respond_answers`, enrolments by `Lane.foldl_liftOne`, epochs by
`Lane.advanceEpoch_sess_same`, frames by the lemmas of `Lane.authenticate`. -/
theorem enrolmentsAndAuthenticationFollowTheirRules : Obligations.EnrolmentsAndAuthenticationFollowTheirRules := by
  unfold Obligations.EnrolmentsAndAuthenticationFollowTheirRules
  refine ⟨fun s x r m hbound hrequest => ?enrol, fun s x j js t0 hjobs hstart hdue => ?complete,
    fun s x n hn hspent hepoch hlimit => ?limit, fun s x f fs hq hheld htaken => ?frames⟩
  case enrol =>
    intro n tid b trusted
    have hexec := exec_txEnrol hbound hrequest
    obtain ⟨-, hst, -, -, -⟩ := hbound
    obtain ⟨-, -, -, _, -, -, hsess⟩ := hrequest
    refine ⟨fun hno => ?_, fun hyes hfull => ?_, fun hyes hroom => ?_⟩
    · rw [Lane.reqEnrol_untrusted x _ _ hno] at hexec
      exact ⟨_, hexec, Lane.respond_answers x _ _ _ _ _ hsess hst⟩
    · rw [Lane.reqEnrol_full x _ _ hyes hfull] at hexec
      exact ⟨_, hexec, Lane.respond_answers x _ _ _ _ _ hsess hst⟩
    · rw [Lane.reqEnrol_queues x hyes hroom] at hexec
      obtain ⟨hframe, hgens, hlen⟩ := (m.enqueueEnrol r.enrolJob).enrolStart_frame
      refine ⟨_, hexec, ?_, hgens, hlen.trans (List.length_append ..), fun hnone hend => ?_⟩
      · exact congrArg (fun l : Lane => { l with keyA := m.keyA }) hframe
      · have halone : (m.enqueueEnrol r.enrolJob).keyA.enrols = [r.enrolJob] := congrArg (· ++ [r.enrolJob]) hnone
        exact Lane.enrolStart_alone halone rfl hend
  case complete =>
    exact ⟨fun hother hsess hst => ⟨_, rfl, Lane.enrolComplete_answers x hjobs hstart hdue hother hsess hst⟩,
      fun hresult hdomain => ⟨_, rfl, Lane.enrolComplete_partner x hjobs hstart hdue hresult hdomain⟩⟩
  case limit =>
    obtain ⟨e, hset⟩ := (s.lane x).advanceEpoch_eq_setEpoch n 0xFF
    have hexec : exec (.epochMessageLimit x n) s = .next (s.setLane x ((s.lane x).messageLimit n)) := rfl
    rw [Lane.messageLimit_reached hlimit] at hexec
    have hnext := Lane.advanceEpoch_sess_same 0xFF hn hspent hepoch
    refine ⟨_, hexec, ?_⟩
    rw [hnext]
    refine ⟨rfl, rfl, rfl, rfl, rfl, rfl, rfl, fun k hk => ?_⟩
    rw [hset]
    exact Lane.setEpoch_sess_other _ _ _ hk
  case frames =>
    intro l bs need
    refine ⟨l.authenticate x, rfl, fun hkind => exec_afeshMessage hq hkind, fun hkind => exec_substationReport hq hkind,
      fun hfull => Lane.authenticate_holds x hq hheld hfull, fun hroom => ?_⟩
    have hcheck := Lane.authenticate_checks x hq hheld htaken hroom
    have hagree : { (l.authenticate x).agree with offer := l.agree.offer } = { l.agree with rxq := fs } := by
      rw [hcheck]
      split
      · exact (l.rxTake fs).rxSubstation_agree f
      · exact (l.rxTake fs).rxAfesh_agree x f
    refine ⟨(congrArg Agree.rxq hagree :), (congrArg Agree.held hagree).trans hheld, (congrArg Agree.taken hagree).trans htaken,
      fun hkind hlen => ?_, fun hkind hlen hversion hsub htamper hready hgen => ?_, fun hkind hclosed => ?_,
      fun hkind hlen hleast hmost hversion hflags hzero htamper hready n hn hknown hopen hepoch => ?_⟩
    · rw [hcheck, if_pos hkind, Lane.rxSubstation_length hlen]
      rfl
    · have hframe : (l.rxTake fs).StationFrame f := ⟨hlen, hversion, hsub, htamper, hready, hgen⟩
      rw [hcheck, if_pos hkind]
      exact ⟨fun hgood => Lane.rxSubstation_genuine hframe hgood, fun hbad => Lane.rxSubstation_forged hframe hbad⟩
    · rw [hcheck, if_neg (by simp [hkind]), Lane.rxAfesh_closed (l := l.rxTake fs) x hclosed]
      rfl
    · have hmsg : (l.rxTake fs).SealedMsg f n :=
        ⟨hlen, hleast, hmost, hversion, hflags, hzero, htamper, hready, hn, hknown, hopen, hepoch⟩
      rw [hcheck, if_neg (by simp [hkind])]
      exact ⟨fun body hgood => Lane.rxAfesh_genuine x hmsg hgood, fun hbad => Lane.rxAfesh_forged x hmsg hbad⟩

end Sys2Proof.Machine
end

section
/-! The load of a network model (R103 to R108): its check, its refusal, its order, and its lateness. -/
namespace Sys2Proof.Machine

/-! ### How a command on one lane answers -/

theorem laneNext_to {s : State} {x : LaneId} {f : Lane → Lane} {m : Lane} (h : f (s.lane x) = m) :
    laneNext s x f = .next (s.setLane x m) := by
  rw [laneNext_eq, h]

theorem laneWhen_to {s : State} {x : LaneId} {p : Lane → Bool} {f : Lane → Lane} {m : Lane} (hp : p (s.lane x) = true)
    (h : f (s.lane x) = m) : laneWhen s x p f = .next (s.setLane x m) := by
  rw [laneWhen_pos hp, h]

/-! ### The check and the order -/

/-- A key that no write names reads as before. -/
theorem mget_foldl_mset_other {α : Type} [DecidableEq α] (d : Nat → α) {k : Nat} {ps : NMap α} (h : ∀ p ∈ ps, p.1 ≠ k)
    (m : NMap α) : mget d (ps.foldl (fun v p => mset d v p.1 p.2) m) k = mget d m k := by
  induction ps generalizing m with
  | nil => rfl
  | cons p ps ih =>
    rw [List.foldl_cons, ih fun q hq => h q (List.mem_cons_of_mem _ hq),
      mget_mset_other _ _ _ (h p List.mem_cons_self).symm]

/-- A key that all its writes give one value reads as that value. -/
theorem mget_foldl_mset_mem {α : Type} [DecidableEq α] (d : Nat → α) {p : Nat × α} {ps : NMap α} (hp : p ∈ ps)
    (hone : ∀ q ∈ ps, q.1 = p.1 → q = p) (m : NMap α) :
    mget d (ps.foldl (fun v p => mset d v p.1 p.2) m) p.1 = p.2 := by
  induction ps generalizing m with
  | nil => cases hp
  | cons q ps ih =>
    rw [List.foldl_cons]
    by_cases hlater : p ∈ ps
    · exact ih hlater (fun q hq => hone q (List.mem_cons_of_mem _ hq)) _
    · have hq : p = q := (List.mem_cons.mp hp).resolve_right hlater
      have hothers : ∀ q ∈ ps, q.1 ≠ p.1 := fun q hq hkey => hlater (hone q (List.mem_cons_of_mem _ hq) hkey ▸ hq)
      rw [mget_foldl_mset_other d hothers, ← hq, mget_mset_same]

/-- A dictionary with entries added to its clamp report, which keeps the last `n`. -/
def Dict.addClamps (d : Dict) (n : Nat) (es : List ClampEntry) : Dict :=
  { d with clamps := (d.clamps ++ es).drop ((d.clamps ++ es).length - n), clampCount := d.clampCount + es.length }

theorem Dict.addClamps_vals (d : Dict) (n : Nat) (es : List ClampEntry) : (d.addClamps n es).vals = d.vals := rfl

theorem Lane.addClamps_eq (l : Lane) (es : List ClampEntry) : l.addClamps es =
    { l with dict := l.dict.addClamps 4096 es, irq := if es.isEmpty then l.irq else l.irq ||| 2 ^ 11 } := by
  cases es <;> rfl

/-- A clamp report leaves the values of the dictionary. -/
theorem Lane.addClampsEvent_eq (l : Lane) (es : List ClampEntry) : ∃ d evq irq,
    l.addClampsEvent es = { l with dict := d, evq := evq, irq := irq } ∧ d.vals = l.dict.vals := by
  unfold Lane.addClampsEvent
  split
  · exact ⟨_, _, _, rfl, rfl⟩
  · rw [Lane.addClamps_eq]
    exact ⟨_, _, _, rfl, Dict.addClamps_vals _ _ _⟩

theorem Lane.addClampsEvent_frame (l : Lane) (es : List ClampEntry) :
    { l.addClampsEvent es with dict := l.dict, evq := l.evq, irq := l.irq } = l := by
  obtain ⟨d, evq, irq, h, -⟩ := l.addClampsEvent_eq es
  rw [h]

theorem Lane.checkDone_idle {l : Lane} (h : l.solver.mstate ≠ 1) : l.checkDone = l := if_pos h

theorem Lane.checkDone_passes {l : Lane} (h : l.solver.mstate = 1) (hcheck : modelCheck l.pendingObj = none) :
    l.checkDone = { l with
      solver := { l.solver with mstate := 2 }
      evq := l.evq ++ [(4, leBytes 1 2 ++ leBytes 1 l.solver.refCode, 0xFF)] } := by
  rw [Lane.checkDone, if_neg (not_not.mpr h), hcheck]
  simp only [Lane.slv, Lane.modelEvent, Lane.event]

theorem Lane.checkDone_refuses {l : Lane} {f : Finding} (h : l.solver.mstate = 1) (hcheck : modelCheck l.pendingObj = some f) :
    l.checkDone = l.refuseModel f := by
  rw [Lane.checkDone, if_neg (not_not.mpr h), hcheck]

/-- A refusal returns the values held to their objects, and reports (R108). -/
theorem Lane.refuseModel_eq (l : Lane) (f : Finding) : ∃ d nvm evq irq,
      l.refuseModel f = { l with
        solver := { l.solver with
          mstate := 4, held := [], refCode := f.code, refIndex := f.index, refSub := f.sub, refRow := f.row }
        regs := fset l.regs f_ASM_STAT_REFUSED 1
        dict := d, nvm := nvm, evq := evq, irq := irq } ∧ d.vals = l.activeVals := by
  unfold Lane.refuseModel
  dsimp only
  generalize List.map _ l.solver.held = es
  generalize hm : Lane.journal _ 4 0xFF f.index f.sub _ = m
  obtain ⟨d, evq, irq, hadd, hvals⟩ := m.addClampsEvent_eq es
  rw [hadd]
  subst hm
  exact ⟨_, _, _, _, rfl, hvals⟩

theorem Lane.orderDone_idle {l : Lane} (h : l.solver.mstate ≠ 2) : l.orderDone = l := if_pos h

/-- The factor of the pending model in bytes and the part that the workspace holds (R107). -/
def Lane.pendingFactor (l : Lane) : Nat × Nat :=
  factorSplit (factorSizes (netProb l.pendingObj [] 0).graph (netProb l.pendingObj [] 0).ordering) l.wsBytes

theorem Lane.orderDone_ready {l : Lane} (h : l.solver.mstate = 2) : l.orderDone = { l with
    solver := { l.solver with
      mstate := 3, pendOrder := (netProb l.pendingObj [] 0).ordering
      factorBytes := l.pendingFactor.1, factorHeld := l.pendingFactor.2 }
    evq := l.evq ++ [(4, leBytes 1 3 ++ leBytes 1 l.solver.refCode, 0xFF)] } := by
  rw [Lane.orderDone, if_neg (not_not.mpr h)]
  simp only [Lane.slv, Lane.modelEvent, Lane.event, Lane.pendingFactor]

theorem Lane.loadLate_eq (l : Lane) : l.loadLate = { l with
    regs := fset (fset l.regs f_ASM_STAT_LATE 1) f_LCTL_RJSTAT_UCECAUSE 2
    rep := { l.rep with uce := if l.rep.uce = 0 then 2 else l.rep.uce } } := by
  simp only [Lane.loadLate, Lane.reg, Lane.raiseUce]
  rfl

theorem Lane.loadLateDue_iff (l : Lane) : l.loadLateDue = true ↔
    (l.solver.mstate = 1 ∨ l.solver.mstate = 2) ∧ l.solver.commitAt.toNat + 40000 ≤ l.slot.toNat := by
  simp [Lane.loadLateDue]

end Sys2Proof.Machine
end

section
/-! How a solve begins and how it ends without publication (R104, R121 to R130, R138, R148). -/
namespace Sys2Proof.Machine

/-! ### Activation (R104) and the beginning of a solve (R121 to R130) -/

/-- Activation changes the solver, the dictionary, and what reports it. -/
theorem Lane.activate_frame (l : Lane) :
    { l.activate with solver := l.solver, dict := l.dict, regs := l.regs, evq := l.evq, irq := l.irq } = l := by
  unfold Lane.activate
  dsimp only
  generalize hr : Lane.admission _ 0 0xFF = r
  have hframe := congrArg
    (fun m : Lane => { m with solver := l.solver, dict := l.dict, regs := l.regs, evq := l.evq, irq := l.irq })
    (r.1.addClampsEvent_frame r.2)
  refine Eq.trans hframe ?_
  subst hr
  rfl

/-- The admission check decides ADMFAIL, and leaves the rest of the solver (R142). -/
theorem Lane.admission_solver (l : Lane) (commit src : Nat) : ∃ f,
    (l.admission commit src).1.solver = { l.solver with admFail := f } := ⟨_, rfl⟩

/-- What activation leaves of the solver (R104). -/
structure Solver.Activated (z z' : Solver) : Prop where
  mstate : z'.mstate = 0
  held : z'.held = []
  active : z'.active = true
  mver : z'.mver = z.mver + 1
  num : z'.num = z.num
  last : z'.last = z.last
  warm : z'.warm = z.warm
  asked : z'.asked = z.asked

theorem Lane.activate_solver (l : Lane) : l.solver.Activated l.activate.solver := by
  unfold Lane.activate
  dsimp only
  generalize hm : Lane.reg _ _ = m
  obtain ⟨f, hadm⟩ := m.admission_solver 0 0xFF
  have hclamps := congrArg Lane.solver ((m.admission 0 0xFF).1.addClampsEvent_frame (m.admission 0 0xFF).2)
  have hsolver := (hclamps.trans hadm :)
  rw [show (Lane.modelEvent _).solver = _ from hsolver]
  subst hm
  exact ⟨rfl, rfl, rfl, rfl, rfl, rfl, rfl, rfl⟩

/-- A run that begins at the lane's slot (R121, R123, R127, R131). -/
structure Lane.FreshRun (l : Lane) (r : SolveRun) : Prop where
  num : r.num = (l.solver.num + 1) % 65536
  snap : r.snap = l.slot
  verdict : r.verdict = none
  pub : r.pub = none
  tGrid : r.tGrid = l.img.dtNsTotal
  grid : r.inp.grid = l.img.dtNsTotal
  stop : r.stop = l.slot + BitVec.ofNat 64 (l.dict.nat 0x6000 5 * 20 - 101)
  dead : r.dead = l.slot + BitVec.ofNat 64 (l.dict.nat 0x6000 5 * 20)
  vals : r.inp.vals = l.activeVals
  refact : r.refact = (!r.warmMode || r.warmMode && (l.solver.warm.isSome && l.warmNet.isNone)
    || l.solver.warm.all fun w => decide (l.dict.nat 0x6000 0xB ≤ w.age + 1))

/-- The lane's own progress when a run begins: a lane that copies the factor does not compute (R137). -/
structure Lane.FreshWork (l : Lane) (r : SolveRun) (o : SolvOwn) : Prop where
  copying : l.copy.factor = true → o.nocomp = true ∧ (l.solv.catchup = false → o.phase = 0)
  computing : l.copy.factor = false → o.nocomp = false ∧ o.work = some r.inp.net ∧ o.store.recs = []
  last : o.last = 0
  fact : o.fact = false
  fetching : o.fetching = false
  retired : o.retired = l.solv.retired

/-- The factor is computed anew in COLD mode, without a warm start, and when each solve is to do so (R127, log 126). -/
theorem Lane.FreshRun.refactors {l : Lane} {r : SolveRun} (h : l.FreshRun r)
    (hcold : r.warmMode = false ∨ l.solver.warm = none ∨ l.dict.nat 0x6000 0xB ≤ 1) : r.refact = true := by
  rw [h.refact]
  rcases hcold with hmode | hnone | hevery
  · simp [hmode]
  · simp [hnone]
  · cases l.solver.warm with
    | none => simp
    | some w => simp [show l.dict.nat 0x6000 0xB ≤ w.age + 1 by omega]

/-- A warm start of the model's own network lends its factor until it is too old (R127, log 126). -/
theorem Lane.FreshRun.reuses {l : Lane} {r : SolveRun} {w : WarmSet} (h : l.FreshRun r) (hmode : r.warmMode = true)
    (hwarm : l.solver.warm = some w) (hnet : l.warmNet = some w) (hage : w.age + 1 < l.dict.nat 0x6000 0xB) :
    r.refact = false := by
  rw [h.refact, hmode, hwarm, hnet]
  simpa using hage

/-- A solve that begins puts a fresh run in progress, and the lane's own work to its start (R121). -/
theorem Lane.beginSolve_eq (l : Lane) : ∃ r disc,
    l.beginSolve.solver = { l.solver with num := r.num, run := some r, disc := disc } ∧
      l.FreshRun r ∧ l.FreshWork r l.beginSolve.solv := by
  refine ⟨_, _, rfl, ⟨rfl, rfl, rfl, rfl, rfl, rfl, rfl, rfl, rfl, ?refact⟩,
    ⟨fun h => ?copying, fun h => ?computing, rfl, rfl, rfl, rfl⟩⟩
  case refact =>
    change or _ _ = or _ _
    congr 1
    cases l.solver.warm <;> rfl
  case copying => simp +contextual [Lane.beginSolve, h, Lane.sown, Lane.reg, Lane.slv]
  case computing => simp [Lane.beginSolve, h, Lane.sown, Lane.reg, Lane.slv]

theorem Lane.solverUpdates_frame (l : Lane) (d : Dict) (f : Solver → Solver) (g : SolvOwn → SolvOwn) (h : RegMap → RegMap) :
    { ((({ l with dict := d } : Lane).slv f).sown g).reg h with
      solver := l.solver, dict := l.dict, solv := l.solv, regs := l.regs } = l := rfl

theorem Lane.beginSolve_frame (l : Lane) :
    { l.beginSolve with solver := l.solver, dict := l.dict, solv := l.solv, regs := l.regs } = l :=
  l.solverUpdates_frame _ _ _ _

/-! ### The end of a solve without publication (R148) -/

/-- What a solve that ends without publication leaves: its status as the last one, the published set, and EVENT SOLVE. -/
def Lane.SolveEnded (l l' : Lane) (r : SolveRun) (status : Nat) : Prop :=
  (∃ z' o', l'.solver = z' ∧ l'.solv = o' ∧
    { l' with solver := l.solver, solv := l.solv, regs := l.regs, evq := l.evq, irq := l.irq } = l) ∧
  l'.solver.run = none ∧ l'.solver.last.status = status ∧ l'.solver.last.round = 0 ∧ l'.solver.last.num = r.num ∧
  l'.solver.last.result = l.solver.last.result ∧ l'.solver.warm = l.solver.warm ∧
  l'.solv.phase = (if l.solv.catchup = true then 7 else 0) ∧
  l'.evq = l.evq ++ [(5, leBytes 1 status ++ leBytes 1 0 ++ leBytes 2 r.num, 0xFF)] ∧ l'.irq = l.irq ||| 2 ^ 6

theorem Lane.solveEnds_idle {l : Lane} (n : Nat) (h : l.solver.run = none) : l.solveEnds n = l := by
  rw [Lane.solveEnds, h]

theorem Lane.solveEnds_eq {l : Lane} {r : SolveRun} (n : Nat) (h : l.solver.run = some r) : l.solveEnds n = { l with
    solver := l.solver.endWithout r n
    solv := { l.solv with phase := if l.solv.catchup then 7 else 0 }
    evq := l.evq ++ [(5, leBytes 1 n ++ leBytes 1 0 ++ leBytes 2 r.num, 0xFF)]
    irq := l.irq ||| 2 ^ 6 } := by
  rw [Lane.solveEnds, h]
  simp only [Lane.solveEvent, Lane.cause, Lane.event, Lane.sown, Lane.slv, Solver.endWithout]
  rfl

theorem Lane.solveEnds_regs {l : Lane} {r : SolveRun} (n : Nat) (h : l.solver.run = some r) : (l.solveEnds n).regs = l.regs := by
  rw [Lane.solveEnds_eq n h]

/-- A solve ends alike wherever the lane's own work stood, with CANCEL or without. -/
theorem Lane.solveEnds_ended {l m : Lane} {r : SolveRun} {cancel : Bool} {phase : Nat} {regs : RegMap}
    (hm : m = { l with solver := { l.solver with cancel := cancel }, solv := { l.solv with phase := phase }, regs := regs })
    (h : l.solver.run = some r) (n : Nat) : l.SolveEnded (m.solveEnds n) r n := by
  have hrun : m.solver.run = some r := hm ▸ h
  rw [Lane.solveEnds_eq n hrun, hm]
  exact ⟨⟨_, _, rfl, rfl, rfl⟩, rfl, rfl, rfl, rfl, rfl, rfl, rfl, rfl, rfl⟩

theorem Lane.cancelRun_none {l : Lane} (h : l.solver.cancel = false) : l.cancelRun = l := by
  have hkept : (l.slv fun z => { z with cancel := false }) = l := by
    rw [← h]
    rfl
  rw [Lane.cancelRun, if_neg (by simp [h])]
  exact hkept

/-- The lane with CANCEL applied. -/
def Lane.cancelled (l : Lane) : Lane := { l with solver := { l.solver with cancel := true } }

theorem Lane.cancelRun_cancelled (l : Lane) :
    l.cancelled.cancelRun = (l.cancelled.solveEnds 9).slv fun z => { z with cancel := false } := rfl

/-- CANCEL ends the solve in progress (R138). -/
theorem Lane.cancelRun_ended {l : Lane} {r : SolveRun} (h : l.solver.run = some r) :
    l.SolveEnded l.cancelled.cancelRun r 9 ∧ l.cancelled.cancelRun.solver.cancel = false ∧
      l.cancelled.cancelRun.regs = l.regs := by
  have hrun : l.cancelled.solver.run = some r := h
  obtain ⟨⟨_, _, -, -, hframe⟩, hrest⟩ := Lane.solveEnds_ended (m := l.cancelled) (phase := l.solv.phase) rfl h 9
  rw [Lane.cancelRun_cancelled]
  exact ⟨⟨⟨_, _, rfl, rfl, hframe⟩, hrest⟩, rfl, Lane.solveEnds_regs 9 hrun⟩

/-! ### The snapshot decision (R121, R138) -/

theorem Lane.step1Run_done {l : Lane} (me : LaneId) (h : l.step1 = true) : l.step1Run me = l := if_pos h

theorem Lane.snapshotRun_asked {l : Lane} (h : l.solver.asked = true) : l.snapshotRun = l := if_pos h

theorem Lane.modelUsable_iff (l : Lane) : l.modelUsable = true ↔
    l.solver.active = true ∨ l.solver.mstate = 3 ∧ l.solver.commitAt.toNat + 40000 ≤ l.slot.toNat := by
  simp [Lane.modelUsable]

theorem Lane.flag_of_periodic {l : Lane} (h : l.periodic = true) : l.dict.nat 0x6000 1 = 1 := by
  simp only [Lane.periodic, Dict.flag, Bool.and_eq_true, beq_iff_eq] at h
  exact h.1

/-- The lane with the slot's decision taken. -/
def Lane.decided (l : Lane) : Lane := { l with solver := { l.solver with asked := true, now := 0 } }

/-- A model that is due becomes the active one before the solve begins (R104). -/
def Lane.activateDue (l : Lane) : Lane :=
  if l.solver.mstate = 3 ∧ l.solver.commitAt.toNat + 40000 ≤ l.slot.toNat then l.activate else l

/-- The decision, when it is still open and nothing is to be cancelled. -/
theorem Lane.snapshotRun_open {l : Lane} (hasked : l.solver.asked = false) (hcancel : l.solver.cancel = false) :
    l.snapshotRun =
      if l.solver.now = 0 ∧ l.periodic = false then l.decided
      else if l.word.arbFault then l.decided.skip l.solver.now
      else if l.solver.run.isSome then l.decided.skip (l.solver.now + (l.periodic && l.modelUsable).toNat)
      else if !l.dict.flag 0x6000 1 then l.decided.skip l.solver.now
      else if !l.modelUsable then (l.decided.skip l.solver.now).slv fun z =>
        if l.periodic then { z with last := { z.last with status := 8 } } else z
      else l.decided.activateDue.beginSolve := by
  rw [Lane.snapshotRun, if_neg (by simp [hasked]), Lane.cancelRun_none hcancel]
  rfl

theorem Lane.decided_eq {l : Lane} (h : l.solver.now = 0) :
    l.decided = { l with solver := { l.solver with asked := true } } := by
  rw [Lane.decided, ← h]

theorem Lane.skip_zero (l : Lane) : l.skip 0 = l := rfl
theorem Lane.skip_one (l : Lane) : l.skip 1 = { l with regs := fbump l.regs f_SOLV_CNT_SKIPCNT } := rfl

/-- A slot that is not periodic takes no snapshot of itself (R121). -/
theorem Lane.snapshotRun_notDue {l : Lane} (hasked : l.solver.asked = false) (hcancel : l.solver.cancel = false)
    (hnow : l.solver.now = 0) (hdue : l.periodic = false) : l.snapshotRun = l.decided := by
  rw [Lane.snapshotRun_open hasked hcancel, if_pos ⟨hnow, hdue⟩]

theorem Lane.snapshotRun_fault {l : Lane} (hasked : l.solver.asked = false) (hcancel : l.solver.cancel = false)
    (hfault : l.word.arbFault = true) : l.snapshotRun = l.decided.skip l.solver.now := by
  rw [Lane.snapshotRun_open hasked hcancel]
  split
  next hidle => rw [hidle.1, Lane.skip_zero]
  next => rfl

theorem Lane.snapshotRun_busy {l : Lane} (hasked : l.solver.asked = false) (hcancel : l.solver.cancel = false)
    (hfault : l.word.arbFault = false) (hrun : l.solver.run.isSome = true) :
    l.snapshotRun = l.decided.skip (l.solver.now + (l.periodic && l.modelUsable).toNat) := by
  rw [Lane.snapshotRun_open hasked hcancel]
  split
  next hidle =>
    obtain ⟨hnow, hdue⟩ := hidle
    rw [hnow, hdue]
    rfl
  next => exact if_neg (by simp [hfault])

/-- With the solver off, or without a usable model, the commands are ignored; a periodic slot reports NOMODEL. -/
theorem Lane.snapshotRun_noModel {l : Lane} (hasked : l.solver.asked = false) (hcancel : l.solver.cancel = false)
    (hfault : l.word.arbFault = false) (hrun : l.solver.run = none)
    (hnone : l.dict.nat 0x6000 1 ≠ 1 ∨ l.modelUsable = false) :
    l.snapshotRun = (l.decided.skip l.solver.now).slv fun z =>
      if l.periodic then { z with last := { z.last with status := 8 } } else z := by
  have hoff : l.dict.flag 0x6000 1 = false → l.periodic = false := fun h => by simp [Lane.periodic, h]
  rw [Lane.snapshotRun_open hasked hcancel]
  split
  next hidle =>
    obtain ⟨hnow, hdue⟩ := hidle
    rw [hnow, hdue]
    rfl
  next =>
    rw [if_neg (by simp [hfault]), if_neg (by simp [hrun])]
    cases hflag : l.dict.flag 0x6000 1 with
    | false =>
      rw [hoff hflag]
      rfl
    | true =>
      have husable : l.modelUsable = false := hnone.resolve_left (by simpa [Dict.flag] using hflag)
      rw [husable]
      rfl

theorem Lane.snapshotRun_begins {l : Lane} (hasked : l.solver.asked = false) (hcancel : l.solver.cancel = false)
    (hfault : l.word.arbFault = false) (hrun : l.solver.run = none) (hflag : l.dict.nat 0x6000 1 = 1)
    (husable : l.modelUsable = true) (hdue : l.solver.now ≠ 0 ∨ l.periodic = true) :
    l.snapshotRun = l.decided.activateDue.beginSolve := by
  have hnot : ¬(l.solver.now = 0 ∧ l.periodic = false) := fun ⟨hnow, hno⟩ => by simp [hnow, hno] at hdue
  rw [Lane.snapshotRun_open hasked hcancel, if_neg hnot, if_neg (by simp [hfault]), if_neg (by simp [hrun]),
    if_neg (by simp [Dict.flag, hflag]), if_neg (by simp [husable])]

/-! ### A solve that begins -/

/-- A lane in which the slot's decision has been taken and the model to be solved is the active one. -/
structure Lane.SolveReady (l m : Lane) : Prop where
  slot : m.slot = l.slot
  img : m.img = l.img
  copy : m.copy = l.copy
  solv : m.solv = l.solv
  num : m.solver.num = l.solver.num
  active : m.solver.active = true
  asked : m.solver.asked = true
  last : m.solver.last = l.solver.last
  warm : m.solver.warm = l.solver.warm

theorem Lane.decided_ready {l : Lane} (h : l.solver.active = true) : l.SolveReady l.decided :=
  ⟨rfl, rfl, rfl, rfl, rfl, h, rfl, rfl, rfl⟩

theorem Lane.activated_ready {l m : Lane}
    (hframe : { m with solver := l.solver, dict := l.dict, regs := l.regs, evq := l.evq, irq := l.irq } = l)
    (hsolver : l.solver.Activated m.solver) (hasked : l.solver.asked = true) : l.SolveReady m :=
  ⟨(congrArg Lane.slot hframe :), (congrArg Lane.img hframe :), (congrArg Lane.copy hframe :), (congrArg Lane.solv hframe :),
    hsolver.num, hsolver.active, hsolver.asked.trans hasked, hsolver.last, hsolver.warm⟩

theorem Lane.SolveReady.of_decided {l m : Lane} (h : l.decided.SolveReady m) : l.SolveReady m :=
  ⟨h.slot, h.img, h.copy, h.solv, h.num, h.active, h.asked, h.last, h.warm⟩

/-- What a solve that begins leaves: the run of this slot, its inputs and its times, and the lane's own work at its start. -/
def Lane.SolveBegun (l l' : Lane) : Prop :=
  ∃ r, l'.solver.run = some r ∧ l'.solver.num = r.num ∧ l'.solver.active = true ∧ l'.solver.asked = true ∧
    r.num = (l.solver.num + 1) % 65536 ∧ r.snap = l.slot ∧ r.verdict = none ∧ r.pub = none ∧ r.tGrid = l.img.dtNsTotal ∧
    r.inp.grid = l.img.dtNsTotal ∧ l'.solver.last = l.solver.last ∧ l'.solver.warm = l.solver.warm ∧
    (l.solver.mstate ≠ 3 →
      l'.solver.mver = l.solver.mver ∧ l'.solver.held = l.solver.held ∧ l'.evq = l.evq ∧ l'.irq = l.irq ∧
      r.stop = l.slot + BitVec.ofNat 64 (l.dict.nat 0x6000 5 * 20 - 101) ∧
      r.dead = l.slot + BitVec.ofNat 64 (l.dict.nat 0x6000 5 * 20) ∧
      r.inp.vals = l.activeVals ∧
      (r.warmMode = false ∨ l.solver.warm = none ∨ l.dict.nat 0x6000 0xB ≤ 1 → r.refact = true) ∧
      (∀ w, r.warmMode = true → l.solver.warm = some w → l.warmNet = some w → w.age + 1 < l.dict.nat 0x6000 0xB →
        r.refact = false)) ∧
    (l.solver.mstate = 3 → l.solver.commitAt.toNat + 40000 ≤ l.slot.toNat →
      l'.solver.mstate = 0 ∧ l'.solver.held = [] ∧ l'.solver.mver = l.solver.mver + 1) ∧
    (l.copy.factor = true → l'.solv.nocomp = true ∧ (l.solv.catchup = false → l'.solv.phase = 0)) ∧
    (l.copy.factor = false → l'.solv.nocomp = false ∧ l'.solv.work = some r.inp.net ∧ l'.solv.store.recs = []) ∧
    l'.solv.last = 0 ∧ l'.solv.fact = false ∧ l'.solv.fetching = false ∧ l'.solv.retired = l.solv.retired

theorem Lane.beginSolve_begun {l m : Lane} (h : l.SolveReady m) (hkept : l.solver.mstate ≠ 3 → m = l.decided)
    (hloaded : l.solver.mstate = 3 → l.solver.commitAt.toNat + 40000 ≤ l.slot.toNat →
      m.solver.mstate = 0 ∧ m.solver.held = [] ∧ m.solver.mver = l.solver.mver + 1) : l.SolveBegun m.beginSolve := by
  obtain ⟨r, disc, hsolver, hrun, hwork⟩ := m.beginSolve_eq
  have hframe := m.beginSolve_frame
  refine ⟨r, congrArg Solver.run hsolver, congrArg Solver.num hsolver, (congrArg Solver.active hsolver).trans h.active,
    (congrArg Solver.asked hsolver).trans h.asked, h.num ▸ hrun.num, hrun.snap.trans h.slot, hrun.verdict, hrun.pub,
    h.img ▸ hrun.tGrid, h.img ▸ hrun.grid, (congrArg Solver.last hsolver).trans h.last,
    (congrArg Solver.warm hsolver).trans h.warm, fun hstate => ?kept, fun hstate hlate => ?loaded, fun hcopy => ?copying,
    fun hcopy => ?computing, hwork.last, hwork.fact, hwork.fetching, hwork.retired.trans (congrArg SolvOwn.retired h.solv)⟩
  case kept =>
    obtain rfl := hkept hstate
    exact ⟨(congrArg Solver.mver hsolver :), (congrArg Solver.held hsolver :), (congrArg Lane.evq hframe :),
      (congrArg Lane.irq hframe :),
      hrun.stop, hrun.dead, hrun.vals, hrun.refactors, fun w hmode hwarm hnet hage => hrun.reuses hmode hwarm hnet hage⟩
  case loaded =>
    obtain ⟨hidle, hheld, hver⟩ := hloaded hstate hlate
    exact ⟨(congrArg Solver.mstate hsolver).trans hidle, (congrArg Solver.held hsolver).trans hheld,
      (congrArg Solver.mver hsolver).trans hver⟩
  case copying => exact h.solv ▸ hwork.copying (h.copy.symm ▸ hcopy)
  case computing => exact hwork.computing (h.copy.symm ▸ hcopy)

/-- With a usable model a solve begins, of the model that is due when there is one (R104, R121). -/
theorem Lane.activateDue_begun {l : Lane} (h : l.modelUsable = true) : l.SolveBegun l.decided.activateDue.beginSolve := by
  by_cases hdue : l.solver.mstate = 3 ∧ l.solver.commitAt.toNat + 40000 ≤ l.slot.toNat
  · have hactivate : l.decided.activateDue = l.decided.activate := if_pos hdue
    have hsolver := l.decided.activate_solver
    rw [hactivate]
    exact Lane.beginSolve_begun (Lane.activated_ready l.decided.activate_frame hsolver rfl).of_decided
      (fun hstate => absurd hdue.1 hstate)
      fun _ _ => ⟨hsolver.mstate, hsolver.held, hsolver.mver⟩
  · have hkept : l.decided.activateDue = l.decided := if_neg hdue
    rw [hkept]
    exact Lane.beginSolve_begun (Lane.decided_ready ((l.modelUsable_iff.mp h).resolve_right hdue)) (fun _ => rfl)
      fun hstate hlate => absurd ⟨hstate, hlate⟩ hdue

/-! ### The commands of the snapshot decision -/

theorem exec_snapshotSlot {s : State} {x : LaneId} {m : Lane} (hwork : (s.lane x).working = true)
    (hstep : (s.lane x).step1 = true) (h : (s.lane x).snapshotRun = m) : exec (.snapshotSlot x) s = .next (s.setLane x m) := by
  change execSnapshotSlot x s = _
  rw [execSnapshotSlot, laneWhen_pos hwork, Lane.step1Run_done x hstep, h]

/-- The lane with one more SOLVENOW waiting for the decision (R138). -/
def Lane.solveAsked (l : Lane) : Lane := { l with solver := { l.solver with now := l.solver.now + 1 } }

theorem exec_solveNow {s : State} {x : LaneId} {m : Lane} (hwork : (s.lane x).working = true)
    (hstep : (s.lane x).step1 = true) (h : (s.lane x).solveAsked.snapshotRun = m) :
    exec (.solveNow x) s = .next (s.setLane x m) := by
  have hdone : (s.lane x).solveAsked.step1Run x = (s.lane x).solveAsked := Lane.step1Run_done x hstep
  change laneNext s x (fun l => if l.solveAsked.working then (l.solveAsked.step1Run x).snapshotRun else l.solveAsked) = _
  rw [laneNext_eq, if_pos (show (s.lane x).solveAsked.working = true from hwork), hdone, h]

/-- Outside a slot's work the command waits for the next slot's decision. -/
theorem exec_solveNow_waits {s : State} {x : LaneId} (hidle : (s.lane x).working = false) :
    exec (.solveNow x) s = .next (s.setLane x (s.lane x).solveAsked) := by
  change laneNext s x (fun l => if l.solveAsked.working then (l.solveAsked.step1Run x).snapshotRun else l.solveAsked) = _
  rw [laneNext_eq, if_neg (show ¬(s.lane x).solveAsked.working = true from Bool.eq_false_iff.mp hidle)]

section decision
variable {l : Lane} (hasked : l.solver.asked = false) (hcancel : l.solver.cancel = false) (hnow : l.solver.now = 0)
include hasked hcancel hnow

/-- The decision is taken without effect: no periodic slot, ARBFAULT, or no model for the slot that a solve occupies. -/
theorem Lane.snapshotRun_takes
    (h : ¬l.periodic = true ∨ l.word.arbFault = true ∨ l.solver.run.isSome = true ∧ ¬l.modelUsable = true) :
    l.snapshotRun = { l with solver := { l.solver with asked := true } } := by
  refine Eq.trans ?_ (Lane.decided_eq hnow)
  rcases h with hno | hfault | ⟨hrun, hmodel⟩
  · exact Lane.snapshotRun_notDue hasked hcancel hnow (Bool.eq_false_iff.mpr hno)
  · rw [Lane.snapshotRun_fault hasked hcancel hfault, hnow, Lane.skip_zero]
  · cases hfault : l.word.arbFault with
    | true => rw [Lane.snapshotRun_fault hasked hcancel hfault, hnow, Lane.skip_zero]
    | false =>
      rw [Lane.snapshotRun_busy hasked hcancel hfault hrun, hnow, Bool.eq_false_iff.mpr hmodel, Bool.and_false]
      exact Lane.skip_zero _

/-- A periodic slot that a solve occupies counts in SKIPCNT (R121). -/
theorem Lane.snapshotRun_skips (hdue : l.periodic = true) (hfault : l.word.arbFault = false) (hrun : l.solver.run.isSome = true)
    (hmodel : l.modelUsable = true) : l.snapshotRun =
      { l with solver := { l.solver with asked := true }, regs := fbump l.regs f_SOLV_CNT_SKIPCNT } := by
  rw [Lane.snapshotRun_busy hasked hcancel hfault hrun, hnow, hdue, hmodel, Lane.decided_eq hnow]
  exact Lane.skip_one _

/-- A periodic slot without a usable model reports NOMODEL (R121). -/
theorem Lane.snapshotRun_reports (hdue : l.periodic = true) (hfault : l.word.arbFault = false) (hrun : l.solver.run = none)
    (hmodel : ¬l.modelUsable = true) : l.snapshotRun =
      { l with solver := { l.solver with asked := true, last := { l.solver.last with status := 8 } } } := by
  rw [Lane.snapshotRun_noModel hasked hcancel hfault hrun (.inr (Bool.eq_false_iff.mpr hmodel)), hnow, hdue,
    Lane.decided_eq hnow, Lane.skip_zero]
  rfl

omit hnow in
theorem Lane.snapshotRun_begun (hdue : l.periodic = true) (hfault : l.word.arbFault = false) (hrun : l.solver.run = none)
    (hmodel : l.modelUsable = true) : l.SolveBegun l.snapshotRun := by
  rw [Lane.snapshotRun_begins hasked hcancel hfault hrun (Lane.flag_of_periodic hdue) hmodel (.inr hdue)]
  exact Lane.activateDue_begun hmodel

/-- A command that is ignored counts in SKIPCNT (R138). -/
theorem Lane.solveAsked_ignored (h : l.word.arbFault = true ∨
      ¬l.periodic = true ∧ (l.solver.run.isSome = true ∨ l.dict.nat 0x6000 1 ≠ 1 ∨ ¬l.modelUsable = true)) :
    l.solveAsked.snapshotRun =
      { l with solver := { l.solver with asked := true }, regs := fbump l.regs f_SOLV_CNT_SKIPCNT } := by
  have hone : l.solveAsked.solver.now = 1 := congrArg (· + 1) hnow
  have hskip : l.solveAsked.decided.skip 1 =
      { l with solver := { l.solver with asked := true }, regs := fbump l.regs f_SOLV_CNT_SKIPCNT } := by
    rw [show l.solveAsked.decided = l.decided from rfl, Lane.decided_eq hnow]
    exact Lane.skip_one _
  refine Eq.trans ?_ hskip
  cases hfault : l.word.arbFault with
  | true => rw [Lane.snapshotRun_fault (l := l.solveAsked) hasked hcancel hfault, hone]
  | false =>
    obtain ⟨hno, hwhy⟩ := h.resolve_left (by simp [hfault])
    have hperiodic : l.solveAsked.periodic = false := Bool.eq_false_iff.mpr hno
    cases hrun : l.solver.run with
    | some r =>
      rw [Lane.snapshotRun_busy (l := l.solveAsked) hasked hcancel hfault (congrArg Option.isSome hrun), hone, hperiodic]
      rfl
    | none =>
      have hnone : l.dict.nat 0x6000 1 ≠ 1 ∨ l.modelUsable = false :=
        (hwhy.resolve_left (by simp [hrun])).imp_right Bool.eq_false_iff.mpr
      rw [Lane.snapshotRun_noModel (l := l.solveAsked) hasked hcancel hfault hrun hnone, hone, hperiodic]
      rfl

/-- SOLVENOW makes the slot a snapshot slot (R138). -/
theorem Lane.solveAsked_begun (hfault : l.word.arbFault = false) (hrun : l.solver.run = none) (hflag : l.dict.nat 0x6000 1 = 1)
    (hmodel : l.modelUsable = true) : l.SolveBegun l.solveAsked.snapshotRun := by
  have hone : l.solveAsked.solver.now = 1 := congrArg (· + 1) hnow
  rw [Lane.snapshotRun_begins (l := l.solveAsked) hasked hcancel hfault hrun hflag hmodel (.inl (by simp [hone]))]
  exact Lane.activateDue_begun hmodel

end decision

end Sys2Proof.Machine
end

section
/-! A solve in progress (R102, R114, R123, R131, R133, R145), its publication (R135, R147), and the catch-up (R136). -/
namespace Sys2Proof.Machine

/-! ### Hampers, the factor and the rounds (R102, R114, R118, R123) -/

/-- Between a solve's rounds the lane's own work and registers change, and nothing is reported. -/
def Lane.OwnWork (l l' : Lane) (o : SolvOwn) : Prop :=
  (l'.evq = l.evq ∧ l'.irq = l.irq) ∧ l'.solver = l.solver ∧ l'.solv = o ∧
    { l' with solver := l.solver, solv := l.solv, regs := l.regs, evq := l.evq, irq := l.irq } = l

theorem Lane.ownWork_intro (l : Lane) (o : SolvOwn) (m : RegMap) : l.OwnWork { l with solv := o, regs := m } o :=
  ⟨⟨rfl, rfl⟩, rfl, rfl, rfl⟩

theorem Lane.solveDone_eq (l : Lane) (r : SolveRun) : l.solveDone r = { l with
    solv := { l.solv with done := true, phase := 4 }
    regs := fmax (fsat l.regs f_SOLV_TIMING_LASTTIME ((l.slot - r.snap).toNat / 2)) f_SOLV_TIMING_MAXTIME
      ((l.slot - r.snap).toNat / 2) } := by
  simp only [Lane.solveDone, Lane.solveTiming, Lane.sown, Lane.reg]

theorem Lane.startRounds_eq (l : Lane) (r : SolveRun) : l.startRounds r =
    if r.limit = 0 then { l with solv := { l.solv with phase := 3 } : Lane }.solveDone r
    else { l with solv := { l.solv with phase := 3 } } := rfl

/-- The time field of a solve's timing keeps the last time, saturated. -/
theorem fget_solveTiming (m : RegMap) (t : Nat) :
    fget (fmax (fsat m f_SOLV_TIMING_LASTTIME t) f_SOLV_TIMING_MAXTIME t) f_SOLV_TIMING_LASTTIME = min (2 ^ 16 - 1) t := by
  rw [fmax, fget_fset_off _ _ (by decide) (by decide) (by decide), fsat, fget_fset_same _ _ _ (by decide) (by decide)]
  exact Nat.mod_eq_of_lt (by simp [f_SOLV_TIMING_LASTTIME])

/-- The assembler's time field keeps the low bits of the last time. -/
theorem fget_asmTiming (m : RegMap) (t : Nat) :
    fget (fmax (fset m f_ASM_TIME_LASTTIME t) f_ASM_TIME_MAXTIME t) f_ASM_TIME_LASTTIME = t % 2 ^ 16 := by
  rw [fmax, fget_fset_off _ _ (by decide) (by decide) (by decide), fget_fset_same _ _ _ (by decide) (by decide)]
  rfl

/-- The lane's work with the next hamper in the store. -/
def Lane.hamperWork (l : Lane) (r : SolveRun) : SolvOwn :=
  { l.solv with built := l.solv.built + 1, store := l.solv.store.addHamper r.inp r.hampers l.solv.built }

theorem Lane.hamperDone_idle {l : Lane} (me : LaneId)
    (h : l.solver.run = none ∨ l.solv.phase ≠ 1 ∨ l.solv.catchup = true) : l.hamperDone me = l := by
  unfold Lane.hamperDone
  split
  · rfl
  next r hrun => exact if_pos (h.resolve_left (by simp [hrun]))

section hamper
variable {l : Lane} {r : SolveRun} (me : LaneId) (hrun : l.solver.run = some r) (hphase : l.solv.phase = 1)
  (hfree : l.solv.catchup = false)
include hrun hphase hfree

theorem Lane.hamperDone_more (hmore : l.solv.built + 1 < r.hampers.length) :
    l.hamperDone me = { l with solv := l.hamperWork r } := by
  rw [Lane.hamperDone, hrun]
  dsimp only
  rw [if_neg (by simp [hphase, hfree])]
  exact if_pos hmore

/-- The last hamper ends the assembly, whose time is noted. -/
theorem Lane.hamperDone_last (hlast : r.hampers.length ≤ l.solv.built + 1) : ∃ m : RegMap,
    fget m f_ASM_TIME_LASTTIME = (Config.asmTime me r.snap).toNat % 2 ^ 16 ∧
      l.hamperDone me =
        if r.refact && decide (r.limit ≠ 0) then { l with solv := { l.hamperWork r with phase := 2 }, regs := m }
        else ({ l with solv := l.hamperWork r, regs := m } : Lane).startRounds r := by
  refine ⟨_, fget_asmTiming l.regs _, ?_⟩
  rw [Lane.hamperDone, hrun]
  dsimp only
  rw [if_neg (by simp [hphase, hfree])]
  exact if_neg (not_lt.mpr hlast)

/-- With rounds to run, the factor or the rounds follow the assembly. -/
theorem Lane.hamperDone_goesOn (hlast : r.hampers.length ≤ l.solv.built + 1) (hlimit : r.limit ≠ 0) :
    l.OwnWork (l.hamperDone me) { l.hamperWork r with phase := if r.refact = true then 2 else 3 } ∧
      fget (l.hamperDone me).regs f_ASM_TIME_LASTTIME = (Config.asmTime me r.snap).toNat % 2 ^ 16 := by
  obtain ⟨m, htime, hdone⟩ := Lane.hamperDone_last me hrun hphase hfree hlast
  rw [hdone, Lane.startRounds_eq, if_neg hlimit]
  cases r.refact with
  | true =>
    rw [if_pos (by simp [hlimit])]
    exact ⟨Lane.ownWork_intro _ _ _, htime⟩
  | false => exact ⟨Lane.ownWork_intro _ _ _, htime⟩

/-- Without a round to run the lane is done (R123). -/
theorem Lane.hamperDone_ends (hlast : r.hampers.length ≤ l.solv.built + 1) (hlimit : r.limit = 0) :
    l.OwnWork (l.hamperDone me) { l.hamperWork r with phase := 4, done := true } := by
  obtain ⟨m, -, hdone⟩ := Lane.hamperDone_last me hrun hphase hfree hlast
  rw [hdone, Lane.startRounds_eq, if_pos hlimit, Lane.solveDone_eq, if_neg (by simp [hlimit])]
  exact Lane.ownWork_intro _ _ _

end hamper

theorem Lane.factorDone_idle {l : Lane} (h : l.solver.run = none ∨ l.solv.phase ≠ 2) : l.factorDone = l := by
  unfold Lane.factorDone
  split
  · rfl
  next r hrun => exact if_neg (h.resolve_left (by simp [hrun]))

theorem Lane.factorDone_eq {l : Lane} {r : SolveRun} (hrun : l.solver.run = some r) (hphase : l.solv.phase = 2)
    (hlimit : r.limit ≠ 0) : l.factorDone =
      { l with solv := { l.solv with fact := true, newFac := some (r.inp.net.factorise l.solver.order), phase := 3 } } := by
  rw [Lane.factorDone, hrun]
  dsimp only
  rw [if_pos hphase, Lane.startRounds_eq, if_neg hlimit]
  rfl

theorem Lane.roundDone_idle {l : Lane} (h : l.solver.run = none ∨ l.solv.phase ≠ 3) : l.roundDone = l := by
  unfold Lane.roundDone
  split
  · rfl
  next r hrun => exact if_pos (.inl (h.resolve_left (by simp [hrun])))

/-- The lane's work with the next round completed, its targets written into the records (R114, R139). -/
def Lane.roundWork (l : Lane) (r : SolveRun) : SolvOwn :=
  { l.solv with
    last := l.solv.last + 1
    cur := r.inp.round (l.factorInUse r) r.refact l.solv.cur
    old := l.solv.cur
    store := l.solv.store.retarget r.inp (r.inp.round (l.factorInUse r) r.refact l.solv.cur) }

section round
variable {l : Lane} {r : SolveRun} (hrun : l.solver.run = some r)
include hrun

/-- No round follows the last one (R123). -/
theorem Lane.roundDone_limit (hlimit : r.limit ≤ l.solv.last) : l.roundDone = l := by
  rw [Lane.roundDone, hrun]
  exact if_pos (.inr hlimit)

variable (hphase : l.solv.phase = 3) (hlimit : l.solv.last < r.limit)
include hphase hlimit

/-- The state that the next round leaves (R114, R117). -/
theorem Lane.roundDone_eq : l.roundDone =
    if (r.inp.round (l.factorInUse r) r.refact l.solv.cur).bad then l.solveEnds 7
    else if r.endsAt (l.solv.last + 1) (r.inp.round (l.factorInUse r) r.refact l.solv.cur) then
      ({ l with solv := l.roundWork r } : Lane).solveDone r
    else { l with solv := l.roundWork r } := by
  rw [Lane.roundDone, hrun]
  dsimp only
  rw [if_neg (by simp [hphase, hlimit])]
  rfl

/-- A state that is not finite ends the solve (R148). -/
theorem Lane.roundDone_bad (hbad : (r.inp.round (l.factorInUse r) r.refact l.solv.cur).bad = true) :
    l.SolveEnded l.roundDone r 7 ∧ l.roundDone.regs = l.regs := by
  rw [Lane.roundDone_eq hrun hphase hlimit, if_pos hbad]
  exact ⟨Lane.solveEnds_ended (cancel := l.solver.cancel) (phase := l.solv.phase) rfl hrun 7, Lane.solveEnds_regs 7 hrun⟩

variable (hfinite : (r.inp.round (l.factorInUse r) r.refact l.solv.cur).bad = false)
include hfinite

theorem Lane.roundDone_goesOn
    (hmore : r.endsAt (l.solv.last + 1) (r.inp.round (l.factorInUse r) r.refact l.solv.cur) = false) :
    l.roundDone = { l with solv := l.roundWork r } := by
  rw [Lane.roundDone_eq hrun hphase hlimit, if_neg (by simp [hfinite]), if_neg (by simp [hmore])]

/-- The round at which the solve ends leaves the lane done, with its time noted (R123). -/
theorem Lane.roundDone_ends
    (hlast : r.endsAt (l.solv.last + 1) (r.inp.round (l.factorInUse r) r.refact l.solv.cur) = true) :
    l.OwnWork l.roundDone { l.roundWork r with done := true, phase := 4 } ∧
      fget l.roundDone.regs f_SOLV_TIMING_LASTTIME = min (2 ^ 16 - 1) ((l.slot - r.snap).toNat / 2) := by
  rw [Lane.roundDone_eq hrun hphase hlimit, if_neg (by simp [hfinite]), if_pos hlast, Lane.solveDone_eq]
  exact ⟨Lane.ownWork_intro _ _ _, fget_solveTiming _ _⟩

end round

/-! ### The stop slot, tiles and the fetch (R131, R133, R145, R146) -/

theorem Lane.stopSolve_idle {l : Lane} (h : ∀ r, l.solver.run = some r → r.stop ≠ l.slot) : l.stopSolve = l := by
  unfold Lane.stopSolve
  split
  · rfl
  next r hrun => exact if_pos (h r hrun)

/-- The lane computes: hampers, the factor, rounds, or a catch-up in the way of its rounds (R131). -/
def Lane.computing (l : Lane) : Bool :=
  decide (1 ≤ l.solv.phase ∧ l.solv.phase ≤ 3) || (l.solv.phase == 7 && !l.solv.nocomp)

/-- The lane stopped where it is (R131). -/
def Lane.stopped (l : Lane) (r : SolveRun) : Lane := { l with
  solv := { l.solv with phase := if l.solv.phase = 7 then 7 else 5 }
  regs := fmax (fsat (fflag l.regs f_SOLV_STAT_STOPPED) f_SOLV_TIMING_LASTTIME ((l.slot - r.snap).toNat / 2))
    f_SOLV_TIMING_MAXTIME ((l.slot - r.snap).toNat / 2) }

theorem Lane.stopSolve_eq {l : Lane} {r : SolveRun} (hrun : l.solver.run = some r) (hstop : r.stop = l.slot) :
    l.stopSolve = if l.word.arbFault then (if l.computing then l.stopped r else l).solveEnds 6
      else if l.computing then l.stopped r else l := by
  have hword : (if l.computing then l.stopped r else l).word = l.word := by split <;> rfl
  rw [← hword, Lane.stopSolve, hrun]
  exact if_neg (not_not.mpr hstop)

theorem Lane.stopped_regs (l : Lane) (r : SolveRun) : fget (l.stopped r).regs f_SOLV_STAT_STOPPED = 1 := by
  rw [Lane.stopped, fmax, fget_fset_off _ _ (by decide) (by decide) (by decide), fsat,
    fget_fset_off _ _ (by decide) (by decide) (by decide)]
  exact fget_fflag_same _ rfl (by decide)

/-- Under ARBFAULT no verdict follows, and the stop slot ends the solve (R403). -/
theorem Lane.stopSolve_ended {l : Lane} {r : SolveRun} (hrun : l.solver.run = some r) (hstop : r.stop = l.slot)
    (hfault : l.word.arbFault = true) : l.SolveEnded l.stopSolve r 6 := by
  rw [Lane.stopSolve_eq hrun hstop, if_pos hfault]
  cases l.computing with
  | true => exact Lane.solveEnds_ended (m := l.stopped r) (cancel := l.solver.cancel) rfl hrun 6
  | false => exact Lane.solveEnds_ended (cancel := l.solver.cancel) (phase := l.solv.phase) rfl hrun 6

theorem Lane.computing_false {l : Lane} (h : l.solv.phase = 0 ∨ 4 ≤ l.solv.phase ∧ l.solv.phase ≠ 7) :
    l.computing = false := by
  simp only [Lane.computing, Bool.or_eq_false_iff, decide_eq_false_iff_not, Bool.and_eq_false_iff, beq_eq_false_iff_ne]
  omega

theorem Lane.computing_true {l : Lane}
    (h : 1 ≤ l.solv.phase ∧ l.solv.phase ≤ 3 ∨ l.solv.phase = 7 ∧ l.solv.nocomp = false) : l.computing = true := by
  rcases h with hrounds | ⟨hcatchup, hcomp⟩
  · simp [Lane.computing, hrounds]
  · simp [Lane.computing, hcatchup, hcomp]

theorem Lane.stopSolve_stops {l : Lane} {r : SolveRun} (hrun : l.solver.run = some r) (hstop : r.stop = l.slot)
    (hfault : l.word.arbFault = false) (hcomputing : l.computing = true) :
    l.OwnWork l.stopSolve { l.solv with phase := if l.solv.phase = 7 then 7 else 5 } ∧
      fget l.stopSolve.regs f_SOLV_STAT_STOPPED = 1 := by
  rw [Lane.stopSolve_eq hrun hstop, if_neg (by simp [hfault]), if_pos hcomputing]
  exact ⟨Lane.ownWork_intro _ _ _, l.stopped_regs r⟩

theorem Lane.stopSolve_waits {l : Lane} {r : SolveRun} (hrun : l.solver.run = some r) (hstop : r.stop = l.slot)
    (hfault : l.word.arbFault = false) (hcomputing : l.computing = false) : l.stopSolve = l := by
  rw [Lane.stopSolve_eq hrun hstop, if_neg (by simp [hfault]), if_neg (by simp [hcomputing])]

/-- A tile that has retired stays so, and no tile past 47 retires. -/
theorem Lane.tileRetire_idle {l : Lane} {t : Nat} (h : 48 ≤ t ∨ l.solv.retired.getLsbD t = true) : l.tileRetire t = l :=
  if_pos h

/-- The lane with one more tile retired (R145). -/
def Lane.retiring (l : Lane) (t : Nat) : Lane := { l with
  solv := { l.solv with retired := l.solv.retired ||| BitVec.ofNat 48 (2 ^ t) }
  regs := fflag l.regs f_SOLV_STAT_TILERET }

theorem Lane.tileRetire_eq {l : Lane} {t : Nat} (ht : t < 48) (h : l.solv.retired.getLsbD t = false) : l.tileRetire t =
    if (l.retiring t).solv.tiles < l.dict.nat 0x6000 0xC then (l.retiring t).raiseUce 4 else l.retiring t :=
  if_neg (not_or.mpr ⟨not_le.mpr ht, Bool.eq_false_iff.mp h⟩)

theorem Lane.retiring_bit (l : Lane) {t k : Nat} (hk : k < 48) :
    (l.retiring t).solv.retired.getLsbD k = (l.solv.retired.getLsbD k || decide (k = t)) := by
  rw [Lane.retiring, BitVec.getLsbD_or, BitVec.getLsbD_ofNat, Nat.testBit_two_pow]
  simp [hk, eq_comm]

theorem Lane.retiring_flag (l : Lane) (t : Nat) : fget (l.retiring t).regs f_SOLV_STAT_TILERET = 1 :=
  fget_fflag_same _ rfl (by decide)

/-- While enough tiles are healthy nothing is reported (R146). -/
theorem Lane.tileRetire_enough {l : Lane} {t : Nat} (ht : t < 48) (h : l.solv.retired.getLsbD t = false)
    (henough : l.dict.nat 0x6000 0xC ≤ (l.retiring t).solv.tiles) : l.tileRetire t = l.retiring t := by
  rw [Lane.tileRetire_eq ht h, if_neg (not_lt.mpr henough)]

/-- Below TILEFLOOR the lane reports an uncorrectable error (R146). -/
theorem Lane.tileRetire_short {l : Lane} {t : Nat} (ht : t < 48) (h : l.solv.retired.getLsbD t = false)
    (hshort : (l.retiring t).solv.tiles < l.dict.nat 0x6000 0xC) : l.tileRetire t = (l.retiring t).raiseUce 4 := by
  rw [Lane.tileRetire_eq ht h, if_pos hshort]

theorem Lane.fetchDone_idle {l : Lane} (k : Nat) (st : RoundState) (h : l.solv.fetching = false) : l.fetchDone k st = l :=
  if_neg (by simp [h])

theorem Lane.fetchDone_eq {l : Lane} (k : Nat) (st : RoundState) (h : l.solv.fetching = true) : l.fetchDone k st =
    { l with solv := { l.solv with
      fetching := false, fetched := true, last := k, phase := 4, cur := st, old := l.solv.cur } } := by
  rw [Lane.fetchDone, if_pos h, Lane.sown]

/-- The source of the verdict gives the round when it takes part and holds it (R133). -/
theorem State.fetchRound_source {s : State} {x src : LaneId} {r : SolveRun} {v : BitVec 64} {k : Nat}
    (hrun : (s.lane x).solver.run = some r) (hverdict : r.verdict = some (v, k, src)) (hother : src ≠ x)
    (hmember : s.arb.mask.has src = true) (hround : (s.lane src).hasRound r.num k = true) :
    s.fetchRound x = s.setLane x ((s.lane x).fetchDone k (s.lane src).solv.cur) := by
  have hfind : [src, .A, .B, .C].find? (fun y => decide (y ≠ x) && s.arb.mask.has y && (s.lane y).hasRound r.num k) =
      some src := List.find?_cons_of_pos (by simp [hother, hmember, hround])
  rw [State.fetchRound, hrun]
  dsimp only
  rw [hverdict]
  dsimp only
  rw [hfind]
  rfl

theorem State.fetchRound_idle {s : State} {x : LaneId}
    (h : ∀ r, (s.lane x).solver.run = some r → (s.lane x).solv.fetching = false ∨ r.verdict = none) :
    s.fetchRound x = s := by
  unfold State.fetchRound
  split
  · rfl
  next r hrun =>
    split
    · rfl
    next hverdict =>
      have hidle : (s.lane x).solv.fetching = false := (h r hrun).resolve_right (by simp [hverdict])
      split
      · rfl
      · rw [State.onLane, Lane.fetchDone_idle _ _ hidle, State.setLane_lane]

/-! ### Publication (R135, R136, R147) and the catch-up (R136) -/

/-- A lane that lacks the round keeps its published set and reports (R135). -/
theorem Lane.publishSolve_lacks {l : Lane} (r : SolveRun) {k : Nat}
    (h : l.solv.last ≠ k ∨ l.solv.fetching = true ∨ l.solv.missed = true) : l.publishSolve r k = { l with
      solver := { l.solver with run := none }
      solv := { l.solv with phase := 0, fetching := false }
      regs := fset l.regs f_LCTL_RJSTAT_UCECAUSE 3
      rep := { l.rep with uce := if l.rep.uce = 0 then 3 else l.rep.uce } } := by
  rw [Lane.publishSolve, if_pos h]
  simp only [Lane.raiseUce, Lane.sown, Lane.slv]
  rfl

/-- The last solve as round k publishes it (Table 04-7). -/
def Lane.publishedEnd (l : Lane) (r : SolveRun) (k : Nat) : SolveEnd where
  status := r.status k l.solv.cur
  flags := r.flags l.solv.cur.nanSeen (r.refact && decide ((l.warmAfter r).fac.regs ≠ 0)) l.solver.admFail
  num := r.num
  round := k
  coldSub := r.coldSub
  pubCold := r.coldSub
  snap := r.snap
  pubSlot := l.slot
  result := some (r.inp.publish l.solv.cur)

/-- The lane's work after a publication: a factor still due is caught up in the background (R136). -/
def Lane.publishedWork (l : Lane) (r : SolveRun) : SolvOwn := { l.solv with
  phase := if r.refact && !l.solv.fact then 7 else 0
  catchup := l.solv.catchup || (r.refact && !l.solv.fact)
  factor := if r.refact && l.solv.fact then l.solv.newFac else l.solv.factor
  newFac := none }

theorem Lane.ite_reg_eq (l : Lane) (c : Prop) [Decidable c] (f : RegMap → RegMap) :
    ∃ m, (if c then l.reg f else l) = { l with regs := m } := by
  split
  · exact ⟨_, rfl⟩
  · exact ⟨_, rfl⟩

theorem Lane.ite_seq_eq (l : Lane) (c : Prop) [Decidable c] (f : Lseq → Lseq) :
    ∃ q, (if c then l else l.seq f) = { l with lseq := q } := by
  split
  · exact ⟨_, rfl⟩
  · exact ⟨_, rfl⟩

/-- A lane with round k publishes it, and raises cause 6 (R147). -/
theorem Lane.publishSolve_has {l : Lane} (r : SolveRun) {k : Nat} (hround : l.solv.last = k) (hfetched : l.solv.fetching = false)
    (hmissed : l.solv.missed = false) : ∃ m q, l.publishSolve r k = { l with
      solver := { l.solver with run := none, last := l.publishedEnd r k, warm := some (l.warmAfter r) }
      solv := l.publishedWork r
      evq := l.evq ++ [(5, leBytes 1 (r.status k l.solv.cur) ++ leBytes 1 k ++ leBytes 2 r.num, 0xFF)]
      irq := l.irq ||| 2 ^ 6
      regs := m, lseq := q } := by
  rw [Lane.publishSolve, if_neg (by simp [hround, hfetched, hmissed])]
  dsimp only
  obtain ⟨m, hcount⟩ := l.ite_reg_eq (r.status k l.solv.cur = 5) fun m => fbump m f_SOLV_CNT_DLCNT
  rw [hcount]
  generalize hp : Lane.sown _ _ = p
  obtain ⟨q, hseq⟩ := p.ite_seq_eq (p.cycleStarts = true) fun q => { q with published := true }
  refine ⟨m, q, ?_⟩
  rw [hseq, ← hp]
  simp only [Lane.sown, Lane.slv, Lane.solveEvent, Lane.cause, Lane.event]
  rfl

theorem Lane.step3Run_done {l : Lane} (h : l.step3 = true) : l.step3Run = l := if_pos h

theorem exec_publication {s : State} {x : LaneId} (hwork : (s.lane x).working = true) (h1 : (s.lane x).step1 = true)
    (h3 : (s.lane x).step3 = true) : exec (.publication x) s = .next (s.setLane x ((s.lane x).step4All x)) := by
  change execPublication x s = _
  rw [execPublication, laneWhen_pos hwork, Lane.step1Run_done x h1, Lane.step3Run_done h3]

theorem Lane.step4All_done {l : Lane} (me : LaneId) (hasked : l.solver.asked = true) (h : l.step4 = true) :
    l.step4All me = l := by
  have hrun : l.step4Run = l := by
    rw [Lane.step4Run, Lane.snapshotRun_asked hasked]
    exact if_pos h
  rw [Lane.step4All, hrun, h]
  rfl

/-- The lane with step 4 of Table 01-6 run. -/
def Lane.step4Taken (l : Lane) : Lane := { l with step4 := true }

section step4
variable {l : Lane} (hasked : l.solver.asked = true) (h : l.step4 = false)
include hasked h

theorem Lane.step4Run_quiet (hquiet : ∀ r, l.solver.run = some r → r.pub ≠ some l.slot) : l.step4Run = l.step4Taken := by
  rw [Lane.step4Run, Lane.snapshotRun_asked hasked]
  dsimp only
  rw [if_neg (by simp [h])]
  split
  next r hrun =>
    split
    next p _ hpub => exact if_neg fun hp => hquiet r hrun (hpub.trans (congrArg some hp))
    next => rfl
  next => rfl

theorem Lane.step4Run_publishes {r : SolveRun} {v : BitVec 64} {k : Nat} {src : LaneId} (hrun : l.solver.run = some r)
    (hverdict : r.verdict = some (v, k, src)) (hpub : r.pub = some l.slot) : l.step4Run = l.step4Taken.publishSolve r k := by
  rw [Lane.step4Run, Lane.snapshotRun_asked hasked]
  dsimp only
  rw [if_neg (by simp [h]), hrun]
  dsimp only
  rw [hverdict, hpub]
  exact if_pos rfl

end step4

/-- Set points leave with a publication of this slot only (R147). -/
theorem Lane.step4All_quiet {l : Lane} (me : LaneId) (h : l.step4Run.solver.last.pubSlot ≠ l.step4Run.slot) :
    l.step4All me = l.step4Run :=
  if_neg (by simp [h])

theorem Lane.step4All_sends {l : Lane} (me : LaneId) (hstep : l.step4 = false)
    (hresult : l.step4Run.solver.last.result.isSome = true) (hslot : l.step4Run.solver.last.pubSlot = l.step4Run.slot) :
    l.step4All me = l.step4Run.setPoints me :=
  if_pos (by simp [hstep, hresult, hslot])

/-- The solver, the lane's own work and step 4. -/
def Lane.solveView (l : Lane) : Bool × Solver × SolvOwn := (l.step4, l.solver, l.solv)

theorem Lane.sendUdp_solveView (l : Lane) (me p cls dst dport stamp body) :
    (l.sendUdp me p cls dst dport stamp body).solveView = l.solveView := by
  unfold Lane.sendUdp Lane.portSend
  dsimp only
  split
  · rfl
  · split <;> rfl

theorem Lane.setPointSend_solveView (l : Lane) (me : LaneId) (p : Published) (n : Nat) :
    (l.setPointSend me p n).solveView = l.solveView := by
  unfold Lane.setPointSend
  dsimp only
  generalize ite (l.dict.elem 0x8400 1 2 n < 1024) _ _ = ports
  split
  · rfl
  · split
    · rfl
    · refine (foldl_keeps _ Lane.solveView (fun m k => ?_) _ _).trans rfl
      split
      · exact Lane.sendUdp_solveView _ _ _ _ _ _ _ _
      · rfl

/-- Sending the set points leaves what has been published. -/
theorem Lane.setPoints_solveView (l : Lane) (me : LaneId) : (l.setPoints me).solveView = l.solveView := by
  unfold Lane.setPoints
  split
  · exact foldl_keeps _ Lane.solveView (fun m n => m.setPointSend_solveView me _ n) _ _
  · rfl

theorem Lane.setPoints_none {l : Lane} {p : Published} (me : LaneId) (h : l.solver.last.result = some p) (hsubs : p.subs = []) :
    l.setPoints me = l := by
  rw [Lane.setPoints, h]
  simp [hsubs]

theorem SolveIn.publish_subs_nil {i : SolveIn} (st : RoundState) (h : i.subs = []) : (i.publish st).subs = [] := by
  rw [SolveIn.publish, h]
  rfl

section publication
variable {l : Lane} (me : LaneId) (hasked : l.solver.asked = true) (h : l.step4 = false)
include hasked h

theorem Lane.step4All_notYet (hold : l.solver.last.pubSlot ≠ l.slot)
    (hquiet : ∀ r, l.solver.run = some r → r.pub ≠ some l.slot) : l.step4All me = l.step4Taken := by
  have hrun := Lane.step4Run_quiet hasked h hquiet
  rw [Lane.step4All_quiet me (by rw [hrun]; exact hold), hrun]

variable {r : SolveRun} {v : BitVec 64} {k : Nat} {src : LaneId} (hrun : l.solver.run = some r)
  (hverdict : r.verdict = some (v, k, src)) (hpub : r.pub = some l.slot)
include hrun hverdict hpub

/-- A lane without the round in the publication slot ends the solve with an error (R135). -/
theorem Lane.step4All_lacks (hold : l.solver.last.pubSlot ≠ l.slot)
    (hlacks : l.solv.last ≠ k ∨ l.solv.fetching = true ∨ l.solv.missed = true) : l.step4All me = { l with
      step4 := true
      solver := { l.solver with run := none }
      solv := { l.solv with phase := 0, fetching := false }
      regs := fset l.regs f_LCTL_RJSTAT_UCECAUSE 3
      rep := { l.rep with uce := if l.rep.uce = 0 then 3 else l.rep.uce } } := by
  have hstep := (Lane.step4Run_publishes hasked h hrun hverdict hpub).trans
    (Lane.publishSolve_lacks (l := l.step4Taken) r hlacks)
  rw [Lane.step4All_quiet me (by rw [hstep]; exact hold), hstep]
  rfl

variable (hround : l.solv.last = k) (hfetched : l.solv.fetching = false) (hmissed : l.solv.missed = false)
include hround hfetched hmissed

/-- A lane with the round publishes it and sends the set points (R147). -/
theorem Lane.step4All_publishes : ∃ m q, l.step4All me = ({ l with
    step4 := true
    solver := { l.solver with run := none, last := l.publishedEnd r k, warm := some (l.warmAfter r) }
    solv := l.publishedWork r
    evq := l.evq ++ [(5, leBytes 1 (r.status k l.solv.cur) ++ leBytes 1 k ++ leBytes 2 r.num, 0xFF)]
    irq := l.irq ||| 2 ^ 6
    regs := m, lseq := q } : Lane).setPoints me := by
  obtain ⟨m, q, hpublish⟩ := Lane.publishSolve_has (l := l.step4Taken) r hround hfetched hmissed
  have hstep := (Lane.step4Run_publishes hasked h hrun hverdict hpub).trans hpublish
  refine ⟨m, q, ?_⟩
  rw [Lane.step4All_sends me h (by rw [hstep]; rfl) (by rw [hstep]; rfl), hstep]
  rfl

/-- What the lane holds after its publication: the solve as the last one, its warm start, and the work that is left. -/
theorem Lane.step4All_published : (l.step4All me).step4 = true ∧
    (l.step4All me).solver = { l.solver with run := none, last := l.publishedEnd r k, warm := some (l.warmAfter r) } ∧
    (l.step4All me).solv = l.publishedWork r := by
  obtain ⟨m, q, hsent⟩ := Lane.step4All_publishes me hasked h hrun hverdict hpub hround hfetched hmissed
  have hview := (congrArg Lane.solveView hsent).trans (Lane.setPoints_solveView _ me)
  obtain ⟨hstep, hview⟩ := Prod.ext_iff.mp hview
  obtain ⟨hsolver, hsolv⟩ := Prod.ext_iff.mp hview
  exact ⟨hstep, hsolver, hsolv⟩

/-- Without a substation no set point leaves, and EVENT SOLVE with cause 6 is all that the publication reports (R147). -/
theorem Lane.step4All_alone (hsubs : r.inp.subs = []) :
    (l.step4All me).evq = l.evq ++ [(5, leBytes 1 (r.status k l.solv.cur) ++ leBytes 1 k ++ leBytes 2 r.num, 0xFF)] ∧
      (l.step4All me).irq = l.irq ||| 2 ^ 6 ∧ ({ l.step4All me with
        step4 := false, solver := l.solver, solv := l.solv, evq := l.evq, irq := l.irq, lseq := l.lseq, regs := l.regs } : Lane)
        = l := by
  obtain ⟨m, q, hsent⟩ := Lane.step4All_publishes me hasked h hrun hverdict hpub hround hfetched hmissed
  rw [hsent, Lane.setPoints_none me rfl (SolveIn.publish_subs_nil _ hsubs)]
  refine ⟨rfl, rfl, ?_⟩
  rw [← h]

end publication

theorem Lane.publishedWork_eq (l : Lane) (r : SolveRun) : l.publishedWork r = { l.solv with
    phase := if r.refact = true ∧ l.solv.fact = false then 7 else 0
    catchup := l.solv.catchup || (r.refact && !l.solv.fact)
    factor := if r.refact = true ∧ l.solv.fact = true then l.solv.newFac else l.solv.factor
    newFac := none } := by
  simp [Lane.publishedWork]

/-- A refactorisation makes the warm start's factor this solve's own, of age 0 (R127). -/
theorem Lane.warmAfter_refact (l : Lane) {r : SolveRun} (h : r.refact = true) :
    (l.warmAfter r).age = 0 ∧ (l.warmAfter r).factor = r.num := by
  simp [Lane.warmAfter, h]

/-- A solve that reuses the factor passes it on, one solve older (R127). -/
theorem Lane.warmAfter_reuse {l : Lane} {r : SolveRun} {w : WarmSet} (h : r.refact = false) (hwarm : l.solver.warm = some w) :
    (l.warmAfter r).age = w.age + 1 ∧ (l.warmAfter r).factor = w.factor ∧ (l.warmAfter r).fac = w.fac := by
  simp [Lane.warmAfter, h, hwarm]

theorem Lane.catchupDone_idle {l : Lane} (h : l.solv.catchup = false) : l.catchupDone = l := if_neg (by simp [h])

/-- Where the lane goes on after a catch-up that held up its work (R136). -/
def Lane.afterCatchup (l : Lane) : Nat :=
  match l.solver.run with
  | none => 0
  | some r => if l.solv.nocomp = true then 0 else if r.stop.toNat ≤ l.slot.toNat then 5 else 1

theorem Lane.catchupDone_eq {l : Lane} (h : l.solv.catchup = true) : l.catchupDone = { l with
    solv := { l.solv with
      catchup := false, factor := l.solver.warm.map (·.fac)
      phase := if l.solv.phase = 7 then l.afterCatchup else l.solv.phase } } := by
  rw [Lane.catchupDone, if_pos h]
  rfl

/-! ### The obligation -/

/-- Settles O60: each command by the equations of its function, a solve that begins by `Lane.beginSolve_begun`, one that ends
without publication by `Lane.solveEnds_ended`, a publication by `Lane.step4All_published`. -/
theorem solvesRunFromSnapshotToPublication : Obligations.SolvesRunFromSnapshotToPublication := by
  unfold Obligations.SolvesRunFromSnapshotToPublication
  intro s x l z o modelEv only quiet ended usable begun
  refine ⟨fun hstate hcheck => ?checkPasses, fun f hstate hcheck => ?checkRefuses, fun hstate => ?checkIdle,
    fun hstate => ?order, fun hstate => ?orderIdle, fun hstate hlate => ?late, fun hearly => ?lateIdle, fun hidle => ?decided,
    fun hwork h1 hasked hcancel hnow => ?snapshot, fun hrun => ?cancelIdle, fun r hrun => ?cancel, fun hidle => ?hamperIdle,
    fun hidle => ?factorIdle, fun hidle => ?roundIdle, fun r hrun => ?run, fun hrun => ?noRun, fun t => ?tile,
    fun hidle => ?publishIdle, fun hwork h1 h3 h4 hasked => ?published, fun hwork h1 h3 h4 hasked => ?publish,
    fun hidle => ?caughtUp, fun hdue hphase => ?catchup, fun hdue hphase n hn => ?catchupPhase⟩
  case checkPasses => exact laneNext_to (Lane.checkDone_passes hstate hcheck)
  case checkRefuses =>
    obtain ⟨d, nvm, evq, irq, hrefuse, hvals⟩ := l.refuseModel_eq f
    refine ⟨_, laneNext_to ((Lane.checkDone_refuses hstate hcheck).trans hrefuse), rfl, rfl, fun p hp hone => ?_,
      fun k hk => ?_, rfl⟩
    · exact hvals ▸ mget_foldl_mset_mem objDflt hp hone _
    · exact hvals ▸ mget_foldl_mset_other objDflt hk _
  case checkIdle => exact laneNext_same (Lane.checkDone_idle hstate)
  case order => exact laneNext_to (Lane.orderDone_ready hstate)
  case orderIdle => exact laneNext_same (Lane.orderDone_idle hstate)
  case late =>
    have hdue : l.loadLateDue = true := l.loadLateDue_iff.mpr ⟨hstate, hlate⟩
    exact laneWhen_to hdue l.loadLate_eq
  case lateIdle =>
    refine laneWhen_neg (Bool.eq_false_iff.mpr fun hdue => ?_)
    obtain ⟨hstate, hlate⟩ := l.loadLateDue_iff.mp hdue
    rcases hearly with ⟨hcheck, horder⟩ | hearly
    · exact hstate.elim hcheck horder
    · exact absurd hlate (not_le.mpr hearly)
  case decided =>
    cases hwork : l.working with
    | false => exact ⟨laneWhen_neg hwork, exec_solveNow_waits hwork⟩
    | true =>
      obtain ⟨h1, hasked⟩ := hidle.resolve_left (by simp [hwork])
      exact ⟨(exec_snapshotSlot hwork h1 (Lane.snapshotRun_asked hasked)).trans (congrArg _ (s.setLane_lane x)),
        exec_solveNow hwork h1 (Lane.snapshotRun_asked (l := l.solveAsked) hasked)⟩
  case snapshot =>
    intro due taken skipped
    have hmodel_iff : usable ↔ l.modelUsable = true := l.modelUsable_iff.symm
    refine ⟨fun h => exec_snapshotSlot hwork h1 (Lane.snapshotRun_takes hasked hcancel hnow (by rwa [← hmodel_iff])),
      fun hdue hfault hrun hmodel =>
        exec_snapshotSlot hwork h1 (Lane.snapshotRun_skips hasked hcancel hnow hdue hfault hrun (hmodel_iff.mp hmodel)),
      fun hdue hfault hrun hmodel =>
        exec_snapshotSlot hwork h1 (Lane.snapshotRun_reports hasked hcancel hnow hdue hfault hrun (mt hmodel_iff.mpr hmodel)),
      fun hdue hfault hrun hmodel => ⟨_, exec_snapshotSlot hwork h1 rfl,
        Lane.snapshotRun_begun hasked hcancel hdue hfault hrun (hmodel_iff.mp hmodel)⟩,
      fun h => exec_solveNow hwork h1 (Lane.solveAsked_ignored hasked hcancel hnow (by rwa [← hmodel_iff])),
      fun hfault hrun hflag hmodel => ⟨_, exec_solveNow hwork h1 rfl,
        Lane.solveAsked_begun hasked hcancel hnow hfault hrun hflag (hmodel_iff.mp hmodel)⟩⟩
  case cancelIdle =>
    have hends : l.cancelled.solveEnds 9 = l.cancelled := Lane.solveEnds_idle 9 hrun
    refine laneNext_to (f := fun l => l.cancelled.cancelRun) ?_
    rw [Lane.cancelRun_cancelled, hends]
    rfl
  case cancel => exact ⟨_, rfl, Lane.cancelRun_ended hrun⟩
  case hamperIdle => exact laneNext_same (Lane.hamperDone_idle x hidle)
  case factorIdle => exact laneNext_same (Lane.factorDone_idle hidle)
  case roundIdle => exact laneNext_same (Lane.roundDone_idle hidle)
  case run =>
    refine ⟨fun hphase hfree => ?hamper, fun hphase hlimit => laneNext_to (Lane.factorDone_eq hrun hphase hlimit),
      fun _ hlimit => laneNext_same (Lane.roundDone_limit hrun hlimit), fun hphase hlimit => ?round,
      fun hlater => laneNext_same (Lane.stopSolve_idle fun r' h => ?notYet),
      fun hstop hfault hphase => laneNext_same (Lane.stopSolve_waits hrun hstop hfault (Lane.computing_false hphase)),
      fun hstop hfault hphase => ?stops, fun hstop hfault => ⟨_, rfl, Lane.stopSolve_ended hrun hstop hfault⟩,
      fun v k src hfetch hverdict hother hmember hround => ?fetches, fun hidle => ?fetchIdle⟩
    case hamper =>
      intro b
      refine ⟨fun hmore => laneNext_to (Lane.hamperDone_more x hrun hphase hfree hmore), fun hlast hlimit => ?_,
        fun hlast hlimit => ?_⟩
      · obtain ⟨⟨hquiet, honly⟩, htime⟩ := Lane.hamperDone_goesOn x hrun hphase hfree hlast hlimit
        exact ⟨_, rfl, hquiet, honly, htime⟩
      · obtain ⟨hquiet, honly⟩ := Lane.hamperDone_ends x hrun hphase hfree hlast hlimit
        exact ⟨_, rfl, hquiet, honly⟩
    case round =>
      intro st b
      refine ⟨fun hbad => ⟨_, rfl, Lane.roundDone_bad hrun hphase hlimit hbad⟩,
        fun hfinite hmore => laneNext_to (Lane.roundDone_goesOn hrun hphase hlimit hfinite hmore), fun hfinite hlast => ?_⟩
      obtain ⟨⟨hquiet, honly⟩, htime⟩ := Lane.roundDone_ends hrun hphase hlimit hfinite hlast
      exact ⟨_, rfl, hquiet, honly, htime⟩
    case notYet =>
      obtain rfl : r = r' := Option.some.inj (hrun.symm.trans h)
      exact hlater
    case stops =>
      obtain ⟨⟨hquiet, honly⟩, hflag⟩ := Lane.stopSolve_stops hrun hstop hfault (Lane.computing_true hphase)
      exact ⟨_, rfl, hquiet, honly, hflag⟩
    case fetches =>
      have hsource := State.fetchRound_source hrun hverdict hother hmember hround
      rw [Lane.fetchDone_eq k _ hfetch] at hsource
      exact congrArg _ hsource
    case fetchIdle =>
      refine congrArg _ (State.fetchRound_idle fun r' h => ?_)
      obtain rfl : r = r' := Option.some.inj (hrun.symm.trans h)
      exact hidle
  case noRun =>
    refine ⟨laneNext_same (Lane.stopSolve_idle fun r h => ?_), congrArg _ (State.fetchRound_idle fun r h => ?_)⟩
    · exact absurd (hrun.symm.trans h) (by simp)
    · exact absurd (hrun.symm.trans h) (by simp)
  case tile =>
    refine ⟨fun hidle => laneNext_same (Lane.tileRetire_idle hidle), fun ht hon => ?_⟩
    rcases le_or_gt (l.dict.nat 0x6000 0xC) (l.retiring t).solv.tiles with henough | hshort
    · exact ⟨_, laneNext_to (Lane.tileRetire_enough ht hon henough), rfl, fun k hk => l.retiring_bit hk, rfl,
        l.retiring_flag t, fun _ => rfl, fun hshort => absurd henough (not_le.mpr hshort)⟩
    · exact ⟨_, laneNext_to (Lane.tileRetire_short ht hon hshort), rfl, fun k hk => l.retiring_bit hk, rfl,
        (fget_fset_other _ _ _ _ (by decide)).trans (l.retiring_flag t), fun henough => absurd hshort (not_lt.mpr henough),
        fun _ => ⟨rfl, fget_fset_same _ _ _ (by decide) (by decide)⟩⟩
  case publishIdle => exact laneWhen_neg hidle
  case published =>
    rw [exec_publication hwork h1 h3, Lane.step4All_done x hasked h4, State.setLane_lane]
  case publish =>
    refine ⟨fun hold => ⟨fun hquiet => ?notYet, fun r v k src hrun hverdict hpub hlacks => ?lacks⟩,
      fun r v k src hrun hverdict hpub hround hfetched hmissed => ?publishes⟩
    case notYet =>
      rw [exec_publication hwork h1 h3, Lane.step4All_notYet x hasked h4 hold hquiet]
      rfl
    case lacks => rw [exec_publication hwork h1 h3, Lane.step4All_lacks x hasked h4 hrun hverdict hpub hold hlacks]
    case publishes =>
      obtain ⟨hstep, hsolver, hsolv⟩ :=
        Lane.step4All_published x hasked h4 hrun hverdict hpub hround hfetched hmissed
      have hlast := congrArg Solver.last hsolver
      refine ⟨l.step4All x, l.warmAfter r, exec_publication hwork h1 h3, hstep, congrArg Solver.run hsolver,
        (congrArg Solver.num hsolver :), congrArg Solver.warm hsolver, congrArg SolveEnd.num hlast, congrArg SolveEnd.round hlast,
        congrArg SolveEnd.status hlast, congrArg SolveEnd.snap hlast, congrArg SolveEnd.pubSlot hlast,
        congrArg SolveEnd.pubCold hlast, congrArg SolveEnd.result hlast, rfl, rfl, rfl, l.warmAfter_refact,
        fun w0 hreuse hwarm => Lane.warmAfter_reuse hreuse hwarm, hsolv.trans (l.publishedWork_eq r),
        Lane.step4All_alone x hasked h4 hrun hverdict hpub hround hfetched hmissed⟩
  case caughtUp => exact laneNext_same (Lane.catchupDone_idle hidle)
  case catchup =>
    refine laneNext_to ((Lane.catchupDone_eq hdue).trans ?_)
    rw [if_neg hphase]
  case catchupPhase =>
    refine laneNext_to ((Lane.catchupDone_eq hdue).trans ?_)
    have hnext : l.afterCatchup = n := hn.symm
    rw [if_pos hphase, hnext]

end Sys2Proof.Machine
end

section
/-! The effective mode of a solve (R122): the mode and the substations that a solve reads, and that the activation of the
model which is due (R104) reads them as its objects were written. -/
namespace Sys2Proof.Machine

/-! ### Writes to the dictionary -/

theorem Dict.get_put_other (d : Dict) {i k idx sub : Nat} (v : Bytes) (h : objKey idx sub ≠ objKey i k) :
    (d.put i k v).get idx sub = d.get idx sub := mget_mset_other _ _ _ h

/-- A field that no write names reads as before. -/
theorem Dict.get_foldl_put_other {α : Type} {i idx sub : Nat} {field : α → Nat} (v : α → Bytes) {cs : List α}
    (h : ∀ c ∈ cs, objKey idx sub ≠ objKey i (field c)) (d : Dict) :
    (cs.foldl (fun d c => d.put i (field c) (v c)) d).get idx sub = d.get idx sub := by
  induction cs generalizing d with
  | nil => rfl
  | cons c cs ih =>
    rw [List.foldl_cons, ih fun c' hc => h c' (List.mem_cons_of_mem _ hc), Dict.get_put_other _ _ (h c List.mem_cons_self)]

/-! ### What the admission check moves (R142) -/

/-- One step of the admission check: the fields after it, and its clamp when its own field moved. -/
def admitStep (r : Admit × List (Nat × Nat × Nat)) (st : Nat × (Admit → Admit)) : Admit × List (Nat × Nat × Nat) :=
  (st.2 r.1, if (st.2 r.1).field st.1 = r.1.field st.1 then r.2
    else r.2 ++ [(st.1, r.1.field st.1, (st.2 r.1).field st.1)])

theorem admit142_eq (x : AdmModel) (a : Admit) : admit142 x a = (admitSteps x).foldl admitStep (a, []) := rfl

theorem admitStep_fields {r : Admit × List (Nat × Nat × Nat)} {st : Nat × (Admit → Admit)} {c : Nat × Nat × Nat}
    (hc : c ∈ (admitStep r st).2) : c ∈ r.2 ∨ c.1 = st.1 := by
  unfold admitStep at hc
  dsimp only at hc
  split at hc
  · exact .inl hc
  · exact (List.mem_append.mp hc).imp_right fun hnew => congrArg Prod.fst (List.mem_singleton.mp hnew)

theorem foldl_admitStep_fields (steps : List (Nat × (Admit → Admit))) (r : Admit × List (Nat × Nat × Nat))
    {c : Nat × Nat × Nat} (hc : c ∈ (steps.foldl admitStep r).2) : c ∈ r.2 ∨ c.1 ∈ steps.map (·.1) := by
  induction steps generalizing r with
  | nil => exact .inl hc
  | cons st steps ih =>
    rcases ih _ hc with hfirst | hlater
    · exact (admitStep_fields hfirst).imp_right fun hfield => List.mem_cons.mpr (.inl hfield)
    · exact .inr (List.mem_cons_of_mem _ hlater)

/-- The admission check moves DEADLINE, the round limit, K_SUB and J_NET: fields 5 to 0xA of 0x6000 (R142). -/
theorem admit142_fields (x : AdmModel) (a : Admit) {c : Nat × Nat × Nat} (hc : c ∈ (admit142 x a).2) :
    5 ≤ c.1 ∧ c.1 ≤ 0xA := by
  rw [admit142_eq] at hc
  have hfield : c.1 ∈ [5, 9, 7, 9, 7, 0xA, 5] :=
    (foldl_admitStep_fields _ _ hc).resolve_left List.not_mem_nil
  have hbounds : ∀ k ∈ [5, 9, 7, 9, 7, 0xA, 5], 5 ≤ k ∧ k ≤ 0xA := by decide
  exact hbounds _ hfield

/-- A field outside 0x6000.05 to 0x6000.0A reads after the admission check as before. -/
theorem Lane.admission_get (l : Lane) (commit src : Nat) {idx sub : Nat}
    (h : ∀ k, 5 ≤ k → k ≤ 0xA → objKey idx sub ≠ objKey 0x6000 k) :
    (l.admission commit src).1.dict.get idx sub = l.dict.get idx sub := by
  unfold Lane.admission Lane.slv
  dsimp only
  refine Dict.get_foldl_put_other _ (fun c hc => ?_) _
  obtain ⟨hlow, hhigh⟩ := admit142_fields _ _ hc
  exact h _ (by split_ifs <;> omega) (by split_ifs <;> omega)

/-- Activation leaves every field that the admission check does not move (R104, R142). -/
theorem Lane.activate_get (l : Lane) {idx sub : Nat} (h : ∀ k, 5 ≤ k → k ≤ 0xA → objKey idx sub ≠ objKey 0x6000 k) :
    l.activate.dict.get idx sub = l.dict.get idx sub := by
  unfold Lane.activate
  dsimp only
  generalize hm : Lane.reg _ _ = m
  obtain ⟨d, evq, irq, hclamps, hvals⟩ := (m.admission 0 0xFF).1.addClampsEvent_eq (m.admission 0 0xFF).2
  have hget : d.get idx sub = m.dict.get idx sub := by
    rw [Dict.get, hvals]
    exact m.admission_get 0 0xFF h
  rw [hclamps]
  subst hm
  exact hget

/-! ### The model that a solve reads (R104, R121) -/

/-- With no values held the active objects are the objects as written. -/
theorem Lane.activeObj_of_held_nil {l : Lane} (h : l.solver.held = []) : l.activeObj = l.pendingObj := by
  funext idx sub
  rw [Lane.activeObj, h]
  rfl

/-- After activation the active substations' objects are those that were pending (R104). -/
theorem Lane.activate_substation (l : Lane) (n k : Nat) :
    l.activate.activeObj (0xA000 + n) k = l.pendingObj (0xA000 + n) k := by
  rw [Lane.activeObj_of_held_nil l.activate_solver.held]
  exact l.activate_get fun j _ hj => by simp only [objKey]; omega

/-- Which substations are enabled depends on their own objects alone. -/
theorem subsEnabled_congr {g g' : ObjReader} (h : ∀ n k, g (0xA000 + n) k = g' (0xA000 + n) k) :
    subsEnabled g = subsEnabled g' := by
  have hexists : subExists g = subExists g' := funext fun n => by simp only [subExists, subBranch, subNode, objElem, h]
  simp only [subsEnabled, subsAll, hexists, objNat, h]

/-- The MODE that a solve reads is the slot's, also when a model becomes active with it. -/
theorem Lane.activateDue_mode (l : Lane) : l.activateDue.dict.nat 0x6000 2 = l.dict.nat 0x6000 2 := by
  unfold Lane.activateDue
  split
  · exact congrArg leNat (l.activate_get fun k hk _ => by simp only [objKey]; omega)
  · rfl

/-- A solve's enabled substations are the pending model's when that is due, else the active model's (R104). -/
theorem Lane.activateDue_subs {l : Lane} {g : ObjReader}
    (hdue : l.solver.mstate = 3 ∧ l.solver.commitAt.toNat + 40000 ≤ l.slot.toNat → g = l.pendingObj)
    (hkept : ¬(l.solver.mstate = 3 ∧ l.solver.commitAt.toNat + 40000 ≤ l.slot.toNat) → g = l.activeObj) :
    subsEnabled l.activateDue.activeObj = subsEnabled g := by
  unfold Lane.activateDue
  split
  next h => exact hdue h ▸ subsEnabled_congr l.activate_substation
  next h => rw [hkept h]

/-! ### The effective mode (R122) -/

/-- A solve begins in the effective mode of MODE and the number of enabled substations of its model. -/
theorem Lane.beginSolve_mode (l : Lane) : ∃ r, l.beginSolve.solver.run = some r ∧
    r.warmMode = (effMode (l.dict.nat 0x6000 2) (subsEnabled l.activeObj).length).1 ∧
    r.forced = (effMode (l.dict.nat 0x6000 2) (subsEnabled l.activeObj).length).2 := ⟨_, rfl, rfl, rfl⟩

theorem effMode_auto (m : Nat) : effMode 0 m = (decide (512 < m), false) := rfl
theorem effMode_fixed (m : Nat) : effMode 1 m = (decide (2048 < m), decide (2048 < m)) := rfl
theorem effMode_warm (m : Nat) : effMode 2 m = (true, false) := rfl

/-- A command that makes the slot a snapshot slot, by its number or as SOLVENOW, begins a solve (R121, R138). -/
theorem exec_snapshot_begins {s : State} {x : LaneId} {i : Instr} (hwork : (s.lane x).working = true)
    (hstep : (s.lane x).step1 = true) (hasked : (s.lane x).solver.asked = false) (hcancel : (s.lane x).solver.cancel = false)
    (hfault : (s.lane x).word.arbFault = false) (hrun : (s.lane x).solver.run = none)
    (hflag : (s.lane x).dict.nat 0x6000 1 = 1) (hmodel : (s.lane x).modelUsable = true)
    (h : i = .solveNow x ∨ i = .snapshotSlot x ∧ (s.lane x).periodic = true) :
    exec i s = .next (s.setLane x (s.lane x).decided.activateDue.beginSolve) := by
  rcases h with rfl | ⟨rfl, hdue⟩
  · exact exec_solveNow hwork hstep (Lane.snapshotRun_begins (l := (s.lane x).solveAsked) hasked hcancel hfault hrun
      hflag hmodel (.inl (Nat.succ_ne_zero _)))
  · exact exec_snapshotSlot hwork hstep (Lane.snapshotRun_begins hasked hcancel hfault hrun hflag hmodel (.inr hdue))

/-- Settles O59: the solve that begins takes `effMode` of its MODE and its enabled substations, which activation leaves. -/
theorem solvesTakeTheModeOfTheirSize : Obligations.SolvesTakeTheModeOfTheirSize := by
  unfold Obligations.SolvesTakeTheModeOfTheirSize
  intro s x i l z ready hwork hstep hasked hcancel hfault hrun hflag husable hi
  have hmodel : l.modelUsable = true := l.modelUsable_iff.mpr husable
  have hcommand : i = .solveNow x ∨ i = .snapshotSlot x ∧ l.periodic = true :=
    hi.imp_right fun ⟨hname, _, hnumber⟩ => ⟨hname, by simp [Lane.periodic, Dict.flag, hflag, hnumber]⟩
  obtain ⟨r, hbegun, -, -, -, -, hsnap, -⟩ := Lane.activateDue_begun hmodel
  obtain ⟨r', hmoded, hwarmMode, hforced⟩ := l.decided.activateDue.beginSolve_mode
  obtain rfl : r = r' := Option.some.inj (hbegun.symm.trans hmoded)
  refine ⟨_, r, exec_snapshot_begins hwork hstep hasked hcancel hfault hrun hflag hmodel hcommand, hbegun, hsnap,
    fun g hdue hkept => ?_⟩
  intro m
  have hsubs : subsEnabled l.decided.activateDue.activeObj = subsEnabled g := Lane.activateDue_subs (l := l.decided) hdue hkept
  have hmode : effMode (l.decided.activateDue.dict.nat 0x6000 2) (subsEnabled l.decided.activateDue.activeObj).length =
      effMode (l.dict.nat 0x6000 2) m := by
    rw [hsubs, Lane.activateDue_mode]
    rfl
  rw [hwarmMode, hforced, hmode]
  refine ⟨fun hauto => ?auto, fun hfixed => ⟨fun hsmall => ?small, fun hlarge => ?large⟩, fun hwarm => ?warm⟩
  case auto => simp [hauto, effMode_auto]
  case small => simp [hfixed, effMode_fixed, hsmall]
  case large => simp [hfixed, effMode_fixed, hlarge]
  case warm => simp [hwarm, effMode_warm]

end Sys2Proof.Machine
end

section
/-! Commands to the loop engine (R159, R164, R167, R168, R172): swap requests for a loop and for a group, the swap at a
due slot's boundary, the reset of a loop's sections, and ARM, STOP and FORCE of a trace channel. -/
namespace Sys2Proof.Machine

/-! ### Loops and sections -/

theorem mget_mfilter {α : Type} (d : Nat → α) (p : Nat → Bool) (m : NMap α) (k : Nat) :
    mget d (mfilter p m) k = if p k = true then mget d m k else d k := by
  unfold mfilter
  induction m with
  | nil => exact (ite_self _).symm
  | cons e m ih =>
    by_cases hkey : k = e.1
    · subst hkey
      cases hkept : p e.1 <;> simp_all [mget]
    · cases hkept : p e.1 <;> simp [hkept, mget, hkey, ih]

@[simp] theorem Lane.loop_setLoop_same (l : Lane) (n : Nat) (x : LoopState) : (l.setLoop n x).loop n = x :=
  mget_mset_same _ _ _ _
theorem Lane.loop_setLoop_other (l : Lane) {n k : Nat} (x : LoopState) (h : k ≠ n) : (l.setLoop n x).loop k = l.loop k :=
  mget_mset_other _ _ _ h
theorem Lane.setLoop_frame (l : Lane) (n : Nat) (x : LoopState) :
    { l.setLoop n x with leng := { (l.setLoop n x).leng with loops := l.leng.loops } } = l := rfl

/-- A section of the zeroed range reads as zero, every other one as before (R164). -/
theorem Lane.sec_zeroSecs (l : Lane) (first n i : Nat) :
    (l.zeroSecs first n).sec i = if first ≤ i ∧ i < first + n then (0, 0) else l.sec i := by
  unfold Lane.sec Lane.zeroSecs
  rw [mget_mfilter]
  by_cases hrange : first ≤ i ∧ i < first + n
  · simp [hrange]
  · simp [hrange]

theorem Lane.zeroSecs_frame (l : Lane) (first n : Nat) :
    { l.zeroSecs first n with leng := { (l.zeroSecs first n).leng with secs := l.leng.secs } } = l := rfl

/-! ### Swap requests, and those that are ignored (R167, R168) -/

theorem Lane.swapLoop_sets {l : Lane} {n : Nat} (hon : l.dict.flag (0x4000 + n) 1 = true) (hpend : (l.loop n).pend = false) :
    l.swapLoop n = l.setLoop n { l.loop n with pend := true } := by
  simp [Lane.swapLoop, hon, hpend]

theorem Lane.swapLoop_ignores {l : Lane} {n : Nat}
    (h : l.dict.flag (0x4000 + n) 1 = false ∨ (l.loop n).pend = true) : l.swapLoop n = l.swapIgnored := by
  rcases h with hoff | hpend
  · simp [Lane.swapLoop, hoff]
  · simp [Lane.swapLoop, hpend]

/-- A request either is taken up or is ignored. -/
theorem Lane.swapLoop_cases (l : Lane) (n : Nat) :
    (l.dict.flag (0x4000 + n) 1 = true ∧ (l.loop n).pend = false ∧ l.swapLoop n = l.setLoop n { l.loop n with pend := true }) ∨
    ((l.dict.flag (0x4000 + n) 1 = false ∨ (l.loop n).pend = true) ∧ l.swapLoop n = l.swapIgnored) := by
  by_cases h : l.dict.flag (0x4000 + n) 1 = false ∨ (l.loop n).pend = true
  · exact .inr ⟨h, Lane.swapLoop_ignores h⟩
  · rw [not_or, Bool.not_eq_false, Bool.not_eq_true] at h
    exact .inl ⟨h.1, h.2, Lane.swapLoop_sets h.1 h.2⟩

/-- Of a request's lane only registers and loop states are new. -/
theorem Lane.swapLoop_eq (l : Lane) (n : Nat) : ∃ m p,
    l.swapLoop n = { l with regs := m, leng := { l.leng with loops := p } } := by
  rcases l.swapLoop_cases n with ⟨-, -, h⟩ | ⟨-, h⟩
  · exact ⟨_, _, h⟩
  · exact ⟨_, _, h⟩

@[simp] theorem Lane.swapLoop_dict (l : Lane) (n : Nat) : (l.swapLoop n).dict = l.dict := by
  obtain ⟨m, p, h⟩ := l.swapLoop_eq n
  rw [h]

/-- After a request an enabled loop has its swap pending, whether or not it had before. -/
theorem Lane.swapLoop_loop_same {l : Lane} {n : Nat} (hon : l.dict.flag (0x4000 + n) 1 = true) :
    (l.swapLoop n).loop n = { l.loop n with pend := true } := by
  rcases l.swapLoop_cases n with ⟨-, -, h⟩ | ⟨hoff | hpend, h⟩
  · rw [h, Lane.loop_setLoop_same]
  · simp [hon] at hoff
  · rw [h, ← hpend]
    rfl

/-- A request leaves the loops that it does not name, and every loop that is not enabled. -/
theorem Lane.swapLoop_loop_other {l : Lane} {n k : Nat} (h : k ≠ n ∨ l.dict.flag (0x4000 + k) 1 = false) :
    (l.swapLoop n).loop k = l.loop k := by
  rcases l.swapLoop_cases n with ⟨hon, -, hset⟩ | ⟨-, hset⟩
  · have hne : k ≠ n := h.elim id fun hoff hkn => by simp [hkn, hon] at hoff
    rw [hset, Lane.loop_setLoop_other _ _ hne]
  · rw [hset]
    rfl

/-! ### Group requests (R167) -/

/-- Requests for several loops, one after the other. -/
def Lane.swapLoops (l : Lane) (ns : List Nat) : Lane := ns.foldl (fun l n => l.swapLoop n) l

theorem Lane.swapGroup_eq (l : Lane) (g : Nat) : l.swapGroup g =
    l.swapLoops (l.dict.enabledLoops.filter fun n => decide (l.dict.nat (0x4000 + n) 0x1B / 16 = g)) := rfl

theorem Lane.swapLoops_cons (l : Lane) (n : Nat) (ns : List Nat) : l.swapLoops (n :: ns) = (l.swapLoop n).swapLoops ns := rfl

theorem Lane.swapLoops_frame (l : Lane) (ns : List Nat) :
    { l.swapLoops ns with regs := l.regs, leng := { (l.swapLoops ns).leng with loops := l.leng.loops } } = l := by
  have heq : ∃ m p, l.swapLoops ns = { l with regs := m, leng := { l.leng with loops := p } } := by
    induction ns generalizing l with
    | nil => exact ⟨_, _, rfl⟩
    | cons n ns ih =>
      obtain ⟨m, p, hfirst⟩ := l.swapLoop_eq n
      obtain ⟨m', p', hrest⟩ := ih (l.swapLoop n)
      exact ⟨m', p', by rw [Lane.swapLoops_cons, hrest, hfirst]⟩
  obtain ⟨m, p, h⟩ := heq
  rw [h]

/-- Of the loops requested the enabled ones have a swap pending, and no other loop changes. -/
theorem Lane.swapLoops_loop (l : Lane) (ns : List Nat) (k : Nat) : (l.swapLoops ns).loop k =
    if k ∈ ns ∧ l.dict.flag (0x4000 + k) 1 = true then { l.loop k with pend := true } else l.loop k := by
  induction ns generalizing l with
  | nil => exact (if_neg fun h => List.not_mem_nil h.1).symm
  | cons n ns ih =>
    rw [Lane.swapLoops_cons, ih, Lane.swapLoop_dict]
    cases hon : l.dict.flag (0x4000 + k) 1 with
    | false => simp [Lane.swapLoop_loop_other (.inr hon)]
    | true =>
      by_cases hkn : k = n
      · subst hkn
        simp [Lane.swapLoop_loop_same hon]
      · simp [hkn, Lane.swapLoop_loop_other (.inl hkn)]

/-- Requests for different enabled loops with no swap pending are ignored for none of them. -/
theorem Lane.swapLoops_regs {l : Lane} {ns : List Nat} (hns : ns.Nodup)
    (h : ∀ k ∈ ns, l.dict.flag (0x4000 + k) 1 = true ∧ (l.loop k).pend = false) : (l.swapLoops ns).regs = l.regs := by
  induction ns generalizing l with
  | nil => rfl
  | cons n ns ih =>
    obtain ⟨hnew, hns⟩ := List.nodup_cons.mp hns
    obtain ⟨hon, hpend⟩ := h n List.mem_cons_self
    have hlater : ∀ k ∈ ns, (l.swapLoop n).dict.flag (0x4000 + k) 1 = true ∧ ((l.swapLoop n).loop k).pend = false := by
      intro k hk
      have hkn : k ≠ n := fun e => hnew (e ▸ hk)
      rw [Lane.swapLoop_dict, Lane.swapLoop_loop_other (.inl hkn)]
      exact h k (List.mem_cons_of_mem _ hk)
    rw [Lane.swapLoops_cons, ih hns hlater, Lane.swapLoop_sets hon hpend]
    rfl

/-! ### The swap at the boundary of a due slot (R159, R167) -/

/-- The lane with a loop's swap taken: SWAPPEND cleared and BANK toggled. -/
def Lane.bankToggled (l : Lane) (n : Nat) : Lane := l.setLoop n { l.loop n with pend := false, bank := !(l.loop n).bank }

/-- The lane with a loop's swap taken and, with RSTONSWAP, the loop's sections zeroed. -/
def Lane.swapped (l : Lane) (n : Nat) : Lane :=
  if (l.dict.nat (0x4000 + n) 0x1B).testBit 0 = true then (l.bankToggled n).loopReset n else l.bankToggled n

/-- RSTONSWAP decides about the section states only. -/
theorem Lane.swapped_eq (l : Lane) (n : Nat) : ∃ z,
    l.swapped n = { l.bankToggled n with leng := { (l.bankToggled n).leng with secs := z } } := by
  unfold Lane.swapped
  split
  · exact ⟨_, rfl⟩
  · exact ⟨_, rfl⟩

theorem Lane.swapped_loop_same (l : Lane) (n : Nat) :
    (l.swapped n).loop n = { l.loop n with pend := false, bank := !(l.loop n).bank } := by
  obtain ⟨z, h⟩ := l.swapped_eq n
  rw [h]
  exact Lane.loop_setLoop_same _ _ _

theorem Lane.swapped_loop_other (l : Lane) {n k : Nat} (hkn : k ≠ n) : (l.swapped n).loop k = l.loop k := by
  obtain ⟨z, h⟩ := l.swapped_eq n
  rw [h]
  exact Lane.loop_setLoop_other _ _ hkn

/-- With RSTONSWAP the loop's sections read as zero after the swap, without it the section states stay (R164). -/
theorem Lane.swapped_secs (l : Lane) (n : Nat) :
    if (l.dict.nat (0x4000 + n) 0x1B).testBit 0 = true
    then ∀ i, (l.swapped n).sec i =
      if l.dict.nat (0x4000 + n) 4 ≤ i ∧ i < l.dict.nat (0x4000 + n) 4 + l.dict.nat (0x4000 + n) 5 then (0, 0) else l.sec i
    else (l.swapped n).leng.secs = l.leng.secs := by
  unfold Lane.swapped
  split
  · exact (l.bankToggled n).sec_zeroSecs _ _
  · rfl

/-- The lane with a swap counted, shown by SWAPDONE, and its image to be written (R469). -/
def Lane.swapDone (l : Lane) : Lane :=
  (l.reg fun m => fflag (fbump m f_LENG_SWAPCNT_APPLIED) f_LENG_STAT_SWAPDONE).touchImage

theorem Lane.swapped_swapDone_regs (l : Lane) (n : Nat) :
    (l.swapped n).swapDone.regs = fflag (fbump l.regs f_LENG_SWAPCNT_APPLIED) f_LENG_STAT_SWAPDONE := by
  obtain ⟨z, h⟩ := l.swapped_eq n
  rw [h]
  rfl

theorem Lane.swapped_swapDone_frame (l : Lane) (n : Nat) : { (l.swapped n).swapDone with
    regs := l.regs, nvm := l.nvm
    leng := { (l.swapped n).swapDone.leng with loops := l.leng.loops, secs := l.leng.secs } } = l := by
  obtain ⟨z, h⟩ := l.swapped_eq n
  rw [h]
  rfl

theorem Lane.swapApply_due {l : Lane} {n : Nat} (hdue : (l.dict.loopCfg n).due l.slot = true)
    (hpend : (l.loop n).pend = true) : l.swapApply n = (l.swapped n).swapDone := by
  simp only [Lane.swapApply, hdue, hpend, Bool.and_self, if_true]
  rfl

theorem Lane.swapApply_idle {l : Lane} {n : Nat} (h : (l.dict.loopCfg n).due l.slot = false ∨ (l.loop n).pend = false) :
    l.swapApply n = l := by
  rcases h with hdue | hpend
  · simp [Lane.swapApply, hdue]
  · simp [Lane.swapApply, hpend]

theorem exec_bankSwapApply {s : State} {x : LaneId} (n : Nat) (h : (s.lane x).agree.stage = .imaged) :
    exec (.bankSwapApply x n) s = .next (s.setLane x ((s.lane x).swapApply n)) :=
  laneWhen_pos (beq_iff_eq.mpr h)

theorem exec_bankSwapApply_idle {s : State} {x : LaneId} {n : Nat} (h : (s.lane x).agree.stage ≠ .imaged ∨
    ((s.lane x).dict.loopCfg n).due (s.lane x).slot = false ∨ ((s.lane x).loop n).pend = false) :
    exec (.bankSwapApply x n) s = .next s := by
  by_cases hstage : (s.lane x).agree.stage = .imaged
  · rw [exec_bankSwapApply n hstage, Lane.swapApply_idle (h.resolve_left (not_not.mpr hstage)), State.setLane_lane]
  · exact laneWhen_neg (beq_eq_false_iff_ne.mpr hstage)

/-! ### Trace channels (R172) -/

theorem Lane.modTrace_frame (l : Lane) (c : Nat) (f : TraceChan → TraceChan) :
    { l.modTrace c f with leng := { (l.modTrace c f).leng with traces := l.leng.traces } } = l := rfl
theorem Lane.modTrace_length (l : Lane) (c : Nat) (f : TraceChan → TraceChan) :
    (l.modTrace c f).leng.traces.length = l.leng.traces.length := List.length_modify _ _ _

theorem Lane.traceOf_modTrace_same {l : Lane} {c : Nat} (f : TraceChan → TraceChan) (h : c < l.leng.traces.length) :
    (l.modTrace c f).traceOf c = f (l.traceOf c) := by
  simp [Lane.traceOf, Lane.modTrace, lmod, h]

theorem Lane.traceOf_modTrace_other (l : Lane) {c k : Nat} (f : TraceChan → TraceChan) (h : k ≠ c) :
    (l.modTrace c f).traceOf k = l.traceOf k := by
  simp [Lane.traceOf, Lane.modTrace, lmod, List.getD_eq_getElem?_getD, h.symm]

/-- A channel command changes that channel and no other (R172). -/
theorem Lane.modTrace_only (l : Lane) (c : Nat) (f : TraceChan → TraceChan) :
    { l.modTrace c f with leng := { (l.modTrace c f).leng with traces := l.leng.traces } } = l ∧
    (l.modTrace c f).leng.traces.length = l.leng.traces.length ∧
    ∀ k, k ≠ c → (l.modTrace c f).traceOf k = l.traceOf k :=
  ⟨l.modTrace_frame c f, l.modTrace_length c f, fun _ hk => l.traceOf_modTrace_other f hk⟩

theorem traceArm_depth (depth : Nat) : (traceArm depth).depth = max 64 (min 1048576 depth) := by
  change (clampI 64 1048576 depth).toNat = _
  unfold clampI
  split_ifs <;> omega

/-! ### The commands -/

/-- Settles O50: a request sets SWAPPEND or is ignored, a group's requests follow by induction on its loops, and the
other commands are one update each of a loop, a range of sections or a trace channel. -/
theorem loopsSwapBanksAndTracesObey : Obligations.LoopsSwapBanksAndTracesObey := by
  unfold Obligations.LoopsSwapBanksAndTracesObey
  intro s x n l first nsec enabled due zeroed onlyLoops onlyTrace
  refine ⟨fun hon hpend => ?request, fun h => ?ignored, ?group, fun hstage hdue hpend => ?swap,
    fun h => ?noSwap, ?reset, fun hn => ⟨?arm, ?stop, ?force⟩⟩
  case request =>
    exact ⟨_, laneNext_to (Lane.swapLoop_sets hon hpend), l.setLoop_frame n _, l.loop_setLoop_same n _,
      fun k hk => l.loop_setLoop_other _ hk⟩
  case ignored => exact laneNext_to (Lane.swapLoop_ignores h)
  case group =>
    refine ⟨_, laneNext_to (l.swapGroup_eq n), l.swapLoops_frame _, fun k => ?_, fun hnodup hready => ?_⟩
    · rw [Lane.swapLoops_loop]
      simp only [List.mem_filter, decide_eq_true_eq, and_assoc, and_comm (a := l.dict.nat (0x4000 + k) 0x1B / 16 = n)]
    · exact Lane.swapLoops_regs (hnodup.filter _) fun k hk => hready k (List.mem_of_mem_filter hk)
  case swap =>
    refine ⟨(l.swapped n).swapDone, ?_, l.swapped_loop_same n, fun k hk => l.swapped_loop_other hk, l.swapped_secs n,
      l.swapped_swapDone_regs n, rfl, rfl, l.swapped_swapDone_frame n⟩
    rw [exec_bankSwapApply n hstage, Lane.swapApply_due hdue hpend]
  case noSwap => exact exec_bankSwapApply_idle h
  case reset => exact ⟨_, laneNext_eq s x _, l.sec_zeroSecs first nsec, l.zeroSecs_frame first nsec⟩
  case arm =>
    have harmed := Lane.traceOf_modTrace_same (l := l)
      (fun _ => traceArm (fget l.regs (f_LENG_TRDEPTH_DEPTH.at (0x20 * n)))) hn
    refine ⟨l.traceArm n, laneNext_eq s x _, l.modTrace_only n _, ?_⟩
    rw [Lane.traceArm, harmed]
    exact ⟨rfl, rfl, rfl, rfl, rfl, traceArm_depth _⟩
  case stop => exact ⟨_, laneNext_eq s x _, l.modTrace_only n _, Lane.traceOf_modTrace_same _ hn⟩
  case force => exact ⟨_, laneNext_eq s x _, l.modTrace_only n _, Lane.traceOf_modTrace_same _ hn⟩

end Sys2Proof.Machine
end

section
/-! One instruction of a logic program (R175, R179 to R183, R187 to R190, Table 06-6): the word that a command names, what
each opcode does to the sequencer, and the advance of index and cost. -/
namespace Sys2Proof.Machine

/-! ### The next word of an execution -/

/-- The word that an execution in progress takes next, by its fields and its cost, which the budget allows. -/
structure Lane.Fetches (l : Lane) (im : LImage) (w : Word) (op area a cost : Nat) : Prop where
  next : l.nextInstr = some (im, w)
  opcode : opOf w = op
  inArea : areaOf w = area
  atAddr : addrOf w = a
  clocks : opClocks op = cost
  fits : l.lseq.exec.clocks + cost ≤ l.lseq.exec.budget

theorem Lane.nextInstr_of_running {l : Lane} {im : LImage} {w : Word} (hrun : l.lseq.exec.running = true)
    (himage : l.lseq.image = some im) (hword : im.prog[l.lseq.exec.idx]? = some w) : l.nextInstr = some (im, w) := by
  simp [Lane.nextInstr, hrun, himage, hword]

theorem Lane.nextInstr_of_stopped {l : Lane} (h : l.lseq.exec.running = false) : l.nextInstr = none := by
  simp [Lane.nextInstr, h]

theorem Lane.running_of_nextInstr {l : Lane} {p : LImage × Word} (h : l.nextInstr = some p) : l.lseq.exec.running = true := by
  cases hrun : l.lseq.exec.running with
  | true => rfl
  | false => rw [Lane.nextInstr_of_stopped hrun] at h; cases h

/-- A command whose instruction is not the next one changes nothing. -/
theorem Lane.instrCmd_of_other {l : Lane} {op area a : Nat}
    (h : l.lseq.exec.running = false ∨ ∃ im w, l.lseq.image = some im ∧ im.prog[l.lseq.exec.idx]? = some w ∧
      ¬(opOf w = op ∧ areaOf w = area ∧ addrOf w = a)) : l.instrCmd op area a = l := by
  cases hrun : l.lseq.exec.running with
  | false => rw [Lane.instrCmd, Lane.nextInstr_of_stopped hrun]
  | true =>
    obtain ⟨im, w, himage, hword, hother⟩ := h.resolve_left (by simp [hrun])
    rw [Lane.instrCmd, Lane.nextInstr_of_running hrun himage hword]
    exact if_neg hother

/-! ### What each opcode does (Table 06-6) -/

section action
variable (im : LImage) (sBit : Nat → Bool) (q : Lseq) {w : Word} {area a : Nat}

section operand
variable (harea : areaOf w = area) (haddr : addrOf w = a)
include harea haddr

theorem seqAction_logic : ∀ p ∈ [(0x01, bitOperand im q sBit area a), (0x02, !bitOperand im q sBit area a),
      (0x03, q.exec.acc && bitOperand im q sBit area a), (0x04, q.exec.acc && !bitOperand im q sBit area a),
      (0x05, q.exec.acc || bitOperand im q sBit area a), (0x06, q.exec.acc || !bitOperand im q sBit area a),
      (0x07, q.exec.acc ^^ bitOperand im q sBit area a)],
    opOf w = p.1 → seqAction im sBit q w = setAcc q p.2 := by
  simp +contextual [seqAction, harea, haddr]

theorem seqAction_compare : ∀ p ∈ [(0x40, decide (q.exec.wacc = wordOperand im q area a)),
      (0x41, decide (q.exec.wacc ≠ wordOperand im q area a)), (0x42, decide (q.exec.wacc < wordOperand im q area a)),
      (0x43, decide (wordOperand im q area a < q.exec.wacc)), (0x44, decide (q.exec.wacc ≤ wordOperand im q area a)),
      (0x45, decide (wordOperand im q area a ≤ q.exec.wacc))],
    opOf w = p.1 → seqAction im sBit q w = setAcc q p.2 := by
  simp +contextual [seqAction, harea, haddr]

theorem seqAction_store : ∀ p ∈ [(0x08, q.exec.acc), (0x09, !q.exec.acc)],
    opOf w = p.1 → seqAction im sBit q w = storeBit q area a p.2 := by
  simp +contextual [seqAction, harea, haddr]

theorem seqAction_storeIf : ∀ p ∈ [(0x0A, true), (0x0B, false)], opOf w = p.1 →
    seqAction im sBit q w = if q.exec.acc = true then storeBit q area a p.2 else q := by
  simp +contextual [seqAction, harea, haddr]

theorem seqAction_lw (h : opOf w = 0x38) : seqAction im sBit q w = setWacc q (wordOperand im q area a) := by
  simp [seqAction, h, harea, haddr]

theorem seqAction_subw (h : opOf w = 0x3A) :
    seqAction im sBit q w = setWacc q (satW (q.exec.wacc - wordOperand im q area a)) := by
  simp [seqAction, h, harea, haddr]

end operand

theorem seqAction_sw (h : opOf w = 0x39) (haddr : addrOf w = a) :
    seqAction im sBit q w = { q with work := setW q.work a q.exec.wacc } := by
  simp [seqAction, h, haddr]

theorem seqAction_absw (h : opOf w = 0x3B) : seqAction im sBit q w = setWacc q (satW q.exec.wacc.natAbs) := by
  simp [seqAction, h]

theorem seqAction_open : ∀ p ∈ [(0x10, true), (0x11, false)], opOf w = p.1 →
    seqAction im sBit q w = { q with exec := { q.exec with stack := (q.exec.acc, p.2) :: q.exec.stack, acc := p.2 } } := by
  simp +contextual [seqAction]

theorem seqAction_close {v isAnd : Bool} {r : List (Bool × Bool)} (h : opOf w = 0x12)
    (hstack : q.exec.stack = (v, isAnd) :: r) : seqAction im sBit q w = { q with
      exec := { q.exec with stack := r, acc := if isAnd = true then v && q.exec.acc else v || q.exec.acc } } := by
  simp [seqAction, h, hstack]

theorem seqAction_jump (h : opOf w = 0x50 ∨ opOf w = 0x51) : seqAction im sBit q w = q := by
  rcases h with h | h <;> simp [seqAction, h]

theorem seqAction_end (h : opOf w = 0xFF) : seqAction im sBit q w = { q with exec := { q.exec with running := false } } := by
  simp [seqAction, h]

end action

/-! ### The advance, and stores to outputs that a loop owns (R179) -/

/-- The lane with its sequencer as an instruction left it, at the next index and with the cost counted. -/
def Lane.stepsTo (l : Lane) (q : Lseq) (next cost : Nat) : Lane :=
  { l with lseq := { q with exec := { q.exec with idx := next, clocks := l.lseq.exec.clocks + cost } } }

/-- The lane with a store to a loop-owned output noted. -/
def Lane.dropNoted (l : Lane) : Lane :=
  { l with regs := fflag l.regs f_LSEQ_STAT_OWNDROP, lseq := { l.lseq with ownDrop := true } }

theorem seqStep_within {im : LImage} {sBit : Nat → Bool} {budget : Nat} {q : Lseq} {w : Word}
    (h : q.exec.clocks + opClocks (opOf w) ≤ budget) : seqStep im sBit budget q w = { seqAction im sBit q w with
      exec := { (seqAction im sBit q w).exec with idx := seqNext q w, clocks := q.exec.clocks + opClocks (opOf w) } } :=
  if_neg (Nat.not_lt.mpr h)

theorem seqNext_plain {q : Lseq} {w : Word} (h : opOf w ≠ 0x50 ∧ opOf w ≠ 0x51) : seqNext q w = q.exec.idx + 1 := by
  simp [seqNext, h]

theorem seqNext_jmp {q : Lseq} {w : Word} {a : Nat} (h : opOf w = 0x50) (haddr : addrOf w = a) : seqNext q w = a := by
  simp [seqNext, h, haddr]

theorem seqNext_jmpc {q : Lseq} {w : Word} {a : Nat} (h : opOf w = 0x51) (haddr : addrOf w = a) :
    seqNext q w = if q.exec.acc = true then a else q.exec.idx + 1 := by
  simp [seqNext, h, haddr]

theorem Lane.dropsStore_of_plain {l : Lane} {w : Word} (h : opOf w ∉ [0x08, 0x09, 0x0A, 0x0B, 0x39]) :
    l.dropsStore w = false := by
  simp_all [Lane.dropsStore]

theorem Lane.dropsStore_bit {l : Lane} {w : Word} (h : opOf w = 0x08 ∨ opOf w = 0x09) : l.dropsStore w = true ↔
    areaOf w = 1 ∧ addrOf w ≤ 0x3F ∧ l.dict.loopOwned 2 (addrOf w) = true := by
  rcases h with h | h <;> simp [Lane.dropsStore, h, and_assoc]

theorem Lane.dropsStore_bitIf {l : Lane} {w : Word} (h : opOf w = 0x0A ∨ opOf w = 0x0B) : l.dropsStore w = true ↔
    (areaOf w = 1 ∧ addrOf w ≤ 0x3F ∧ l.dict.loopOwned 2 (addrOf w) = true) ∧ l.lseq.exec.acc = true := by
  rcases h with h | h <;> simp [Lane.dropsStore, h, and_assoc, and_comm, and_left_comm]

theorem Lane.dropsStore_word {l : Lane} {w : Word} (h : opOf w = 0x39) : l.dropsStore w = true ↔
    0x9000 ≤ addrOf w ∧ l.dict.loopOwned 1 (addrOf w - 0x9000) = true := by
  simp [Lane.dropsStore, h]

@[simp] theorem storeBit_exec (q : Lseq) (area a : Nat) (v : Bool) : (storeBit q area a v).exec = q.exec := by
  unfold storeBit; split <;> rfl

theorem storeBit_ownDrop (q : Lseq) (area a : Nat) (v d : Bool) :
    storeBit { q with ownDrop := d } area a v = { storeBit q area a v with ownDrop := d } := by
  unfold storeBit; split <;> rfl

theorem seqAction_ownDrop (im : LImage) (sBit : Nat → Bool) (q : Lseq) {w : Word} (d : Bool)
    (h : opOf w ∈ [0x08, 0x09, 0x0A, 0x0B, 0x39]) :
    seqAction im sBit { q with ownDrop := d } w = { seqAction im sBit q w with ownDrop := d } := by
  simp only [List.mem_cons, List.not_mem_nil, or_false] at h
  rcases h with h | h | h | h | h <;> simp only [seqAction, h, storeBit_ownDrop]
  all_goals split <;> rfl

section instr
variable {l : Lane} {im : LImage} {w : Word} {q' : Lseq}

/-- An instruction within the budget that goes on. -/
theorem Lane.instr_goes (hfits : l.lseq.exec.clocks + opClocks (opOf w) ≤ l.lseq.exec.budget)
    (hstore : l.dropsStore w = false) (hact : seqAction im l.sBit l.lseq w = q') (hrun : q'.exec.running = true) :
    l.instr im w = l.stepsTo q' (seqNext l.lseq w) (opClocks (opOf w)) := by
  have hstep : (l.seq fun q => seqStep im l.sBit l.lseq.exec.budget q w) =
      l.stepsTo q' (seqNext l.lseq w) (opClocks (opOf w)) := by
    rw [Lane.seq, seqStep_within hfits, hact]
    rfl
  simp only [Lane.instr, hstore, Bool.false_and, Bool.false_eq_true, if_false, hstep]
  exact if_pos hrun

/-- A store to a loop-owned output within the budget is made and noted. -/
theorem Lane.instr_drops (hfits : l.lseq.exec.clocks + opClocks (opOf w) ≤ l.lseq.exec.budget)
    (hstore : l.dropsStore w = true) (hrun : q'.exec.running = true)
    (hact : seqAction im l.sBit { l.lseq with ownDrop := true } w = { q' with ownDrop := true }) :
    l.instr im w = (l.stepsTo q' (seqNext l.lseq w) (opClocks (opOf w))).dropNoted := by
  have hstep : (l.dropNoted.seq fun q => seqStep im l.dropNoted.sBit l.lseq.exec.budget q w) =
      (l.stepsTo q' (seqNext l.lseq w) (opClocks (opOf w))).dropNoted := by
    rw [Lane.seq, seqStep_within (q := l.dropNoted.lseq) hfits]
    exact congrArg (fun q : Lseq => ({ l.dropNoted with lseq := { q with
      exec := { q.exec with idx := seqNext l.lseq w, clocks := l.lseq.exec.clocks + opClocks (opOf w) } } } : Lane)) hact
  have hdrop : (l.dropsStore w && decide (l.lseq.exec.clocks + opClocks (opOf w) ≤ l.lseq.exec.budget)) = true := by
    simp [hstore, hfits]
  rw [Lane.instr, if_pos hdrop]
  exact (if_pos (congrArg (·.lseq.exec.running) hstep |>.trans hrun)).trans hstep

end instr

/-! ### The command whose instruction is the next one -/

section fetches
variable {l : Lane} {im : LImage} {w : Word} {op area a cost : Nat} {q' : Lseq} (h : l.Fetches im w op area a cost)
include h

theorem Lane.Fetches.running : l.lseq.exec.running = true := Lane.running_of_nextInstr h.next

theorem Lane.Fetches.instrCmd_eq : l.instrCmd op area a = l.instr im w := by
  rw [Lane.instrCmd, h.next]
  exact if_pos ⟨h.opcode, h.inArea, h.atAddr⟩

theorem Lane.Fetches.cost_eq : opClocks (opOf w) = cost := by rw [h.opcode, h.clocks]

theorem Lane.Fetches.within : l.lseq.exec.clocks + opClocks (opOf w) ≤ l.lseq.exec.budget := by rw [h.cost_eq]; exact h.fits

/-- Every instruction but stores, jumps and END goes on to its successor and stores nothing in an output. -/
theorem Lane.Fetches.goes (hplain : op ∉ [0x08, 0x09, 0x0A, 0x0B, 0x39, 0x50, 0x51])
    (hact : seqAction im l.sBit l.lseq w = q') (hkeeps : q'.exec.running = l.lseq.exec.running) :
    l.instrCmd op area a = l.stepsTo q' (l.lseq.exec.idx + 1) cost := by
  simp only [← h.opcode, List.mem_cons, List.not_mem_nil, or_false, not_or] at hplain
  obtain ⟨hst, hstn, hset, hrst, hsw, hjmp, hjmpc⟩ := hplain
  rw [h.instrCmd_eq, Lane.instr_goes h.within (Lane.dropsStore_of_plain (by simp [*])) hact (hkeeps.trans h.running),
    h.cost_eq, seqNext_plain ⟨hjmp, hjmpc⟩]

theorem Lane.Fetches.jumps {next : Nat} (hjump : op = 0x50 ∨ op = 0x51) (hnext : seqNext l.lseq w = next) :
    l.instrCmd op area a = l.stepsTo l.lseq next cost := by
  have hop : opOf w = 0x50 ∨ opOf w = 0x51 := h.opcode ▸ hjump
  have hplain : opOf w ∉ [0x08, 0x09, 0x0A, 0x0B, 0x39] := by rcases hop with hop | hop <;> simp [hop]
  rw [h.instrCmd_eq, Lane.instr_goes h.within (Lane.dropsStore_of_plain hplain) (seqAction_jump _ _ _ hop) h.running, h.cost_eq,
    hnext]

/-- A store is made in any case, and noted where a loop owns the output. -/
theorem Lane.Fetches.stores {owned : Prop} (hstore : op ∈ [0x08, 0x09, 0x0A, 0x0B, 0x39])
    (howned : l.dropsStore w = true ↔ owned) (hact : seqAction im l.sBit l.lseq w = q')
    (hkeeps : q'.exec.running = l.lseq.exec.running) :
    (owned → l.instrCmd op area a = (l.stepsTo q' (l.lseq.exec.idx + 1) cost).dropNoted) ∧
    (¬ owned → l.instrCmd op area a = l.stepsTo q' (l.lseq.exec.idx + 1) cost) := by
  have hop : opOf w ∈ [0x08, 0x09, 0x0A, 0x0B, 0x39] := h.opcode ▸ hstore
  have hnext : seqNext l.lseq w = l.lseq.exec.idx + 1 := by
    refine seqNext_plain ⟨fun hjump => ?_, fun hjump => ?_⟩ <;> simp [hjump] at hop
  have hrun := hkeeps.trans h.running
  rw [h.instrCmd_eq, ← howned, ← hnext, ← h.cost_eq, Bool.not_eq_true]
  refine ⟨fun hdrop => Lane.instr_drops h.within hdrop hrun ?_, fun hfree => Lane.instr_goes h.within hfree hact hrun⟩
  rw [seqAction_ownDrop _ _ _ _ hop, hact]

theorem Lane.Fetches.storesBit {v : Bool} (hp : (op, v) ∈ [(0x08, l.lseq.exec.acc), (0x09, !l.lseq.exec.acc)]) :
    (area = 1 ∧ a ≤ 0x3F ∧ l.dict.loopOwned 2 a = true →
      l.instrCmd op area a = (l.stepsTo (storeBit l.lseq area a v) (l.lseq.exec.idx + 1) cost).dropNoted) ∧
    (¬(area = 1 ∧ a ≤ 0x3F ∧ l.dict.loopOwned 2 a = true) →
      l.instrCmd op area a = l.stepsTo (storeBit l.lseq area a v) (l.lseq.exec.idx + 1) cost) := by
  have hop : op = 0x08 ∨ op = 0x09 := by simp at hp; omega
  refine h.stores (by simp; omega) ?_ (seqAction_store im l.sBit l.lseq h.inArea h.atAddr _ hp h.opcode) (by rw [storeBit_exec])
  rw [Lane.dropsStore_bit (h.opcode.symm ▸ hop), h.inArea, h.atAddr]

theorem Lane.Fetches.storesWord (hop : op = 0x39) :
    (0x9000 ≤ a ∧ l.dict.loopOwned 1 (a - 0x9000) = true → l.instrCmd op area a = (l.stepsTo
      { l.lseq with work := setW l.lseq.work a l.lseq.exec.wacc } (l.lseq.exec.idx + 1) cost).dropNoted) ∧
    (¬(0x9000 ≤ a ∧ l.dict.loopOwned 1 (a - 0x9000) = true) → l.instrCmd op area a = l.stepsTo
      { l.lseq with work := setW l.lseq.work a l.lseq.exec.wacc } (l.lseq.exec.idx + 1) cost) := by
  subst hop
  refine h.stores (by decide) ?_ (seqAction_sw im l.sBit l.lseq h.opcode h.atAddr) rfl
  rw [Lane.dropsStore_word h.opcode, h.atAddr]

theorem Lane.Fetches.storesBitIf {v : Bool} (hp : (op, v) ∈ [(0x0A, true), (0x0B, false)])
    (hq : (if l.lseq.exec.acc = true then storeBit l.lseq area a v else l.lseq) = q') :
    ((area = 1 ∧ a ≤ 0x3F ∧ l.dict.loopOwned 2 a = true) ∧ l.lseq.exec.acc = true →
      l.instrCmd op area a = (l.stepsTo q' (l.lseq.exec.idx + 1) cost).dropNoted) ∧
    (¬((area = 1 ∧ a ≤ 0x3F ∧ l.dict.loopOwned 2 a = true) ∧ l.lseq.exec.acc = true) →
      l.instrCmd op area a = l.stepsTo q' (l.lseq.exec.idx + 1) cost) := by
  have hop : op = 0x0A ∨ op = 0x0B := by simp at hp; omega
  refine h.stores (by simp; omega) ?_ ((seqAction_storeIf im l.sBit l.lseq h.inArea h.atAddr _ hp h.opcode).trans hq) ?_
  · rw [Lane.dropsStore_bitIf (h.opcode.symm ▸ hop), h.inArea, h.atAddr]
  · rw [← hq]
    split
    · rw [storeBit_exec]
    · rfl

end fetches

theorem laneNext_cases {s : State} {x : LaneId} {f : Lane → Lane} {m m' : Lane} {p : Prop}
    (h : (p → f (s.lane x) = m) ∧ (¬ p → f (s.lane x) = m')) :
    (p → laneNext s x f = .next (s.setLane x m)) ∧ (¬ p → laneNext s x f = .next (s.setLane x m')) :=
  ⟨fun hp => laneNext_to (h.1 hp), fun hp => laneNext_to (h.2 hp)⟩

/-! ### END (R183) -/

/-- The registers with the cost of an execution, in units of 64 clocks. -/
def execCost (m : RegMap) (c : Nat) : RegMap := fmax (fsat m f_LSEQ_EXEC_LASTEXEC c) f_LSEQ_EXEC_MAXEXEC c

theorem fget_execCost_last (m : RegMap) (c : Nat) : fget (execCost m c) f_LSEQ_EXEC_LASTEXEC = min 65535 c := by
  rw [execCost, fmax, fget_fset_off _ _ (by decide) (by decide) (by decide), fsat, fget_fset_same _ _ _ (by decide) (by decide)]
  exact Nat.mod_eq_of_lt (by simp [f_LSEQ_EXEC_LASTEXEC])

theorem fget_execCost_max (m : RegMap) (c : Nat) :
    fget (execCost m c) f_LSEQ_EXEC_MAXEXEC = min 65535 (max (fget m f_LSEQ_EXEC_MAXEXEC) c) := by
  rw [execCost, fmax, fget_fset_same _ _ _ (by decide) (by decide), fsat, fget_fset_off _ _ (by decide) (by decide) (by decide)]
  exact Nat.mod_eq_of_lt (by simp [f_LSEQ_EXEC_MAXEXEC])

theorem rget_execCost_other (m : RegMap) (c : Nat) {k : Nat} (h : k ≠ f_LSEQ_EXEC_LASTEXEC.key) :
    rget (execCost m c) k = rget m k := by
  rw [execCost, fmax, rget_fset_other _ f_LSEQ_EXEC_MAXEXEC _ h, fsat, rget_fset_other _ _ _ h]

theorem Lane.execEnd_of_end {l : Lane} (h : l.lseq.run ≠ 2) : l.execEnd = { l with
    regs := execCost l.regs (l.lseq.exec.clocks / 64), lseq := { l.lseq with due := true, own := l.lseq.work } } :=
  if_neg h

/-- END ends the execution, whose image becomes the program's own. -/
theorem Lane.Fetches.ends {l : Lane} {im : LImage} {w : Word} (h : l.Fetches im w 0xFF 0 0 4) (hrun : l.lseq.run ≠ 2) :
    l.instrCmd 0xFF 0 0 = { l with
      regs := execCost l.regs ((l.lseq.exec.clocks + 4) / 64)
      lseq := { l.lseq with due := true, own := l.lseq.work, exec := { l.lseq.exec with
        running := false, idx := l.lseq.exec.idx + 1, clocks := l.lseq.exec.clocks + 4 } } } := by
  have hstep : (l.seq fun q => seqStep im l.sBit l.lseq.exec.budget q w) =
      l.stepsTo { l.lseq with exec := { l.lseq.exec with running := false } } (l.lseq.exec.idx + 1) 4 := by
    rw [Lane.seq, seqStep_within h.within, seqAction_end _ _ _ h.opcode, h.cost_eq, seqNext_plain (by simp [h.opcode])]
    rfl
  rw [h.instrCmd_eq]
  simp only [Lane.instr, Lane.dropsStore_of_plain (l := l) (w := w) (by simp [h.opcode]), Bool.false_and, Bool.false_eq_true,
    if_false, hstep]
  exact (if_neg Bool.false_ne_true).trans (Lane.execEnd_of_end hrun)

theorem satW_eq (v : Int) : satW v = max (-2147483648) (min 2147483647 v) := by
  unfold satW clampI
  split_ifs <;> omega

end Sys2Proof.Machine
end

section
/-! The logic instructions outside timers, counters and edges (R175, R179 to R183, Table 06-6). -/
namespace Sys2Proof.Machine

/-- Settles O51: each command is the next word's instruction (`Lane.Fetches`), whose action is the equation of its opcode and
whose advance is that of a plain instruction, a store, a jump or END. -/
theorem instructionsDoWhatTheirTableSays : Obligations.InstructionsDoWhatTheirTableSays := by
  unfold Obligations.InstructionsDoWhatTheirTableSays
  refine ⟨?next, ?other⟩
  case next =>
    intro s x im w a area l q acc wacc hrun himage hword is goes bit word sat withAcc withWacc stored drops dropQ dropW
      stores next
    have fetches {op ar ad cost : Nat} (h : is op ar ad cost) (hcost : opClocks op = cost) : l.Fetches im w op ar ad cost := by
      obtain ⟨hop, harea, haddr, hfits⟩ := h
      exact ⟨Lane.nextInstr_of_running hrun himage hword, hop, harea, haddr, hcost, hfits⟩
    have loads {c : Instr} {op : Nat} {v : Bool} (hexec : exec c s = laneNext s x fun l => l.instrCmd op area a)
        (hcost : opClocks op = 2) (hplain : op ∉ [0x08, 0x09, 0x0A, 0x0B, 0x39, 0x50, 0x51])
        (hact : areaOf w = area → addrOf w = a → opOf w = op → seqAction im l.sBit q w = setAcc q v) :
        goes c op area a 2 next (withAcc v) := fun h =>
      have hf := fetches h hcost
      hexec.trans (laneNext_to (hf.goes hplain (hact hf.inArea hf.atAddr hf.opcode) rfl))
    have hsat : ∀ v, satW v = sat v := satW_eq
    refine ⟨?logic, ?st, ?stn, ?set, ?rst, ?andParen, ?orParen, ?closeAnd, ?closeOr, ?lw, ?sw, ?subw, ?absw, ?compare, ?jmp,
      ?jmpc, ?ends⟩
    case logic =>
      intro p hp
      have hact harea haddr := seqAction_logic im l.sBit q (w := w) harea haddr p.2 (List.mem_map_of_mem (f := Prod.snd) hp)
      simp only [List.mem_cons, List.not_mem_nil, or_false] at hp
      rcases hp with rfl | rfl | rfl | rfl | rfl | rfl | rfl <;> exact loads rfl rfl (by simp) hact
    case compare =>
      intro p hp
      have hact harea haddr := seqAction_compare im l.sBit q (w := w) harea haddr p.2 (List.mem_map_of_mem (f := Prod.snd) hp)
      simp only [List.mem_cons, List.not_mem_nil, or_false] at hp
      rcases hp with rfl | rfl | rfl | rfl | rfl | rfl <;> exact loads rfl rfl (by simp) hact
    case st => exact fun h => laneNext_cases ((fetches h rfl).storesBit (by simp [acc, q]))
    case stn => exact fun h => laneNext_cases ((fetches h rfl).storesBit (by simp [acc, q]))
    case set => exact fun h => laneNext_cases ((fetches h rfl).storesBitIf (v := true) (by simp) rfl)
    case rst => exact fun h => laneNext_cases ((fetches h rfl).storesBitIf (v := false) (by simp) rfl)
    case sw => exact fun h => laneNext_cases ((fetches h rfl).storesWord rfl)
    case andParen =>
      intro h
      have hf := fetches h rfl
      exact laneNext_to (hf.goes (by decide) (seqAction_open im l.sBit q (0x10, true) (by simp) hf.opcode) rfl)
    case orParen =>
      intro h
      have hf := fetches h rfl
      exact laneNext_to (hf.goes (by decide) (seqAction_open im l.sBit q (0x11, false) (by simp) hf.opcode) rfl)
    case closeAnd | closeOr =>
      intro v r hstack h
      have hf := fetches h rfl
      exact laneNext_to (hf.goes (by decide) (seqAction_close im l.sBit q hf.opcode hstack) rfl)
    case lw =>
      intro h
      have hf := fetches h rfl
      exact laneNext_to (hf.goes (by decide) (seqAction_lw im l.sBit q hf.inArea hf.atAddr hf.opcode) rfl)
    case subw =>
      intro h
      have hf := fetches h rfl
      have hact := seqAction_subw im l.sBit q hf.inArea hf.atAddr hf.opcode
      rw [hsat] at hact
      exact laneNext_to (hf.goes (by decide) hact rfl)
    case absw =>
      intro h
      have hf := fetches h rfl
      have habs : (q.exec.wacc.natAbs : Int) = if wacc < 0 then -wacc else wacc := by
        change (wacc.natAbs : Int) = _
        split <;> omega
      have hact := seqAction_absw im l.sBit q hf.opcode
      rw [hsat, habs] at hact
      exact laneNext_to (hf.goes (by decide) hact rfl)
    case jmp =>
      intro h
      have hf := fetches h rfl
      exact laneNext_to (hf.jumps (.inl rfl) (seqNext_jmp hf.opcode hf.atAddr))
    case jmpc =>
      intro h
      have hf := fetches h rfl
      exact laneNext_to (hf.jumps (.inr rfl) (seqNext_jmpc hf.opcode hf.atAddr))
    case ends =>
      exact fun hgoes h => ⟨_, laneNext_to ((fetches h rfl).ends hgoes), fget_execCost_last _ _, fget_execCost_max _ _,
        fun _ => rget_execCost_other _ _⟩
  case other =>
    intro s x op area a c hc h
    have hexec : exec c s = laneNext s x fun l => l.instrCmd op area a := by
      simp only [List.mem_cons, List.not_mem_nil, or_false] at hc
      rcases hc with hc | hc | hc | hc | hc | hc <;> cases hc <;> rfl
    exact hexec.trans (laneNext_same (Lane.instrCmd_of_other h))

end Sys2Proof.Machine
end

section
/-! Timers, counters and edge detectors (R187, R188, R190, Table 06-7): how each evaluates its input against what it
remembers, and the commands that evaluate one. -/
namespace Sys2Proof.Machine

/-! ### Timers -/

section timer
variable {pt tl : Nat} {inp : Bool} {t : TimerSt}

theorem timerEval_ton_off (hin : inp = false) :
    timerEval 0 pt tl inp t = { t with prev := some inp, timing := false, q := false } := by
  simp [timerEval, hin]

theorem timerEval_ton_times (hin : inp = true) (h : t.prev = some true) :
    timerEval 0 pt tl inp t = { t with prev := some inp, q := decide (pt ≤ ((tl : Int) - t.start).toNat) } := by
  simp [timerEval, hin, h]

theorem timerEval_ton_starts (hin : inp = true) (h : t.prev ≠ some true) :
    timerEval 0 pt tl inp t = { prev := some inp, start := tl, timing := true, q := decide (pt = 0) } := by
  simp [timerEval, hin, h]

theorem timerEval_tof_on (hin : inp = true) :
    timerEval 1 pt tl inp t = { t with prev := some inp, timing := false, q := true } := by
  simp [timerEval, hin]

theorem timerEval_tof_starts (hin : inp = false) (h : t.prev = some true) :
    timerEval 1 pt tl inp t = { prev := some inp, start := tl, timing := true, q := decide (pt ≠ 0) } := by
  simp [timerEval, hin, h]

theorem timerEval_tof_times (hin : inp = false) (h : t.prev ≠ some true) (htiming : t.timing = true) :
    timerEval 1 pt tl inp t = { t with
      prev := some inp
      timing := decide (((tl : Int) - t.start).toNat < pt), q := decide (((tl : Int) - t.start).toNat < pt) } := by
  simp only [timerEval, hin, h, htiming, Bool.false_eq_true, if_false, if_true]
  split <;> simp [*]

theorem timerEval_tof_idle (hin : inp = false) (h : t.prev ≠ some true) (htiming : t.timing = false) :
    timerEval 1 pt tl inp t = { t with prev := some inp, timing := false, q := false } := by
  simp [timerEval, hin, h, htiming]

theorem timerEval_tp_times (htiming : t.timing = true) :
    timerEval 2 pt tl inp t = { t with
      prev := some inp
      timing := decide (((tl : Int) - t.start).toNat < pt), q := decide (((tl : Int) - t.start).toNat < pt) } := by
  simp only [timerEval, htiming, if_true]
  split <;> simp [*]

theorem timerEval_tp_starts (htiming : t.timing = false) (hin : inp = true) (h : t.prev = some false) :
    timerEval 2 pt tl inp t = { prev := some inp, start := tl, timing := true, q := decide (pt ≠ 0) } := by
  simp [timerEval, htiming, hin, h]

theorem timerEval_tp_idle (htiming : t.timing = false) (h : inp = false ∨ t.prev ≠ some false) :
    timerEval 2 pt tl inp t = { t with prev := some inp, timing := false, q := false } := by
  rcases h with h | h <;> simp [timerEval, htiming, h]

end timer

/-! ### What the opcodes do -/

section action
variable (im : LImage) (sBit : Nat → Bool) (q : Lseq) {w : Word} {n : Nat} (haddr : addrOf w = n)
include haddr

theorem seqAction_timer {t : TimerSt} (h : 0x20 ≤ opOf w ∧ opOf w ≤ 0x22)
    (ht : timerEval (opOf w - 0x20) (timerPT im n) q.tl q.exec.acc (getTimer q n) = t) :
    seqAction im sBit q w = setAcc (setTimer q n t) t.q := by
  obtain hop | hop | hop : opOf w = 0x20 ∨ opOf w = 0x21 ∨ opOf w = 0x22 := by omega
  all_goals simp [seqAction, haddr, ← ht, hop]

theorem seqAction_cu (h : opOf w = 0x28) {cv : Int}
    (hcv : (if rose (getCounter q n).pcu q.exec.acc = true then satW ((getCounter q n).cv + 1) else (getCounter q n).cv) = cv) :
    seqAction im sBit q w = setAcc (setCounter q n { getCounter q n with cv := cv, pcu := some q.exec.acc })
      (decide (counterPV im n ≤ cv)) := by
  simp [seqAction, h, haddr, hcv]

theorem seqAction_cd (h : opOf w = 0x29) {cv : Int}
    (hcv : (if rose (getCounter q n).pcd q.exec.acc = true then satW ((getCounter q n).cv - 1) else (getCounter q n).cv) = cv) :
    seqAction im sBit q w = setAcc (setCounter q n { getCounter q n with cv := cv, pcd := some q.exec.acc })
      (decide (cv ≤ 0)) := by
  simp [seqAction, h, haddr, hcv]

theorem seqAction_cr (h : opOf w = 0x2A) : seqAction im sBit q w = setCounter q n { getCounter q n with
    cv := if q.exec.acc = true then (if counterType im n = 1 then counterPV im n else 0) else (getCounter q n).cv } := by
  simp [seqAction, h, haddr]

theorem seqAction_rise (h : opOf w = 0x30) :
    seqAction im sBit q w = setAcc (setEdge q n q.exec.acc) (q.exec.acc && decide (getEdge q n = some false)) := by
  simp [seqAction, h, haddr, rose, Bool.beq_eq_decide_eq]

theorem seqAction_fall (h : opOf w = 0x31) :
    seqAction im sBit q w = setAcc (setEdge q n q.exec.acc) (!q.exec.acc && decide (getEdge q n = some true)) := by
  simp [seqAction, h, haddr, Bool.beq_eq_decide_eq]

end action

theorem rose_iff {prev : Option Bool} {inp : Bool} : rose prev inp = true ↔ inp = true ∧ prev = some false := by
  simp [rose]

/-- Settles O52: a timer command is one case of its evaluation (`seqAction_timer`), a counter or edge command the equation of its
opcode, and the advance is that of a plain instruction. -/
theorem timersCountersAndEdgesRemember : Obligations.TimersCountersAndEdgesRemember := by
  unfold Obligations.TimersCountersAndEdgesRemember
  intro s x im w n l q inp hrun himage hword is goes pt t e after timer pv k cu cd counter edge p
  have fetches {op area cost : Nat} (h : is op area cost) (hcost : opClocks op = cost) : l.Fetches im w op area n cost := by
    obtain ⟨hop, harea, haddr, hfits⟩ := h
    exact ⟨Lane.nextInstr_of_running hrun himage hword, hop, harea, haddr, hcost, hfits⟩
  have evaluates {c : Instr} {op : Nat} {start timing out : Bool} (hexec : exec c s = laneNext s x fun l => l.instrCmd op 3 n)
      (hop : 0x20 ≤ op ∧ op ≤ 0x22) (hcost : opClocks op = 6) (h : is op 3 6)
      (ht : timerEval (op - 0x20) pt q.tl inp t = after start timing out) : timer c start timing out := by
    have hf := fetches h hcost
    exact hexec.trans (laneNext_to (hf.goes (by simp; omega) (seqAction_timer im l.sBit q (t := after start timing out) hf.atAddr
      (hf.opcode.symm ▸ hop) (hf.opcode.symm ▸ ht)) rfl))
  have ton {start timing out} := @evaluates (.seqTon x n) 0x20 start timing out rfl (by simp) rfl
  have tof {start timing out} := @evaluates (.seqTof x n) 0x21 start timing out rfl (by simp) rfl
  have tp {start timing out} := @evaluates (.seqTp x n) 0x22 start timing out rfl (by simp) rfl
  refine ⟨fun h => ⟨?tonOff, ?tonTimes, ?tonStarts⟩, fun h => ⟨?tofOn, ?tofStarts, ?tofTimes, ?tofIdle⟩,
    fun h => ⟨?tpTimes, ?tpStarts, ?tpIdle⟩, fun h hlo hhi => ?cu, fun h hlo hhi => ?cd, fun h => ?cr, fun h => ?rise,
    fun h => ?fall⟩
  case tonOff => exact fun hin => ton h (timerEval_ton_off hin)
  case tonTimes => exact fun hin hprev => ton h (timerEval_ton_times hin hprev)
  case tonStarts => exact fun hin hprev => ton h (timerEval_ton_starts hin hprev)
  case tofOn => exact fun hin => tof h (timerEval_tof_on hin)
  case tofStarts => exact fun hin hprev => tof h (timerEval_tof_starts hin hprev)
  case tofTimes => exact fun hin hprev htiming => tof h (timerEval_tof_times hin hprev htiming)
  case tofIdle => exact fun hin hprev htiming => tof h (timerEval_tof_idle hin hprev htiming)
  case tpTimes => exact fun htiming => tp h (timerEval_tp_times htiming)
  case tpStarts => exact fun htiming hin hprev => tp h (timerEval_tp_starts htiming hin hprev)
  case tpIdle => exact fun htiming hidle => tp h (timerEval_tp_idle htiming hidle)
  case cu =>
    have hf := fetches h rfl
    have hcv : (if rose k.pcu inp = true then satW (k.cv + 1) else k.cv) = cu := by
      simp only [rose_iff, satW_eq, cu]
      split <;> omega
    exact laneNext_to (hf.goes (by decide) (seqAction_cu im l.sBit q hf.atAddr hf.opcode hcv) rfl)
  case cd =>
    have hf := fetches h rfl
    have hcv : (if rose k.pcd inp = true then satW (k.cv - 1) else k.cv) = cd := by
      simp only [rose_iff, satW_eq, cd]
      split <;> omega
    exact laneNext_to (hf.goes (by decide) (seqAction_cd im l.sBit q hf.atAddr hf.opcode hcv) rfl)
  case cr =>
    have hf := fetches h rfl
    exact laneNext_to (hf.goes (by decide) (seqAction_cr im l.sBit q hf.atAddr hf.opcode) rfl)
  case rise =>
    have hf := fetches h rfl
    exact laneNext_to (hf.goes (by decide) (seqAction_rise im l.sBit q hf.atAddr hf.opcode) rfl)
  case fall =>
    have hf := fetches h rfl
    exact laneNext_to (hf.goes (by decide) (seqAction_fall im l.sBit q hf.atAddr hf.opcode) rfl)

end Sys2Proof.Machine
end

section
/-! The beginning of a cycle (R173, R174, R179, R186, R197): what a publication sends, what a capture reads, and the lane that
step 6 of Table 01-6 leaves when a cycle begins. -/
namespace Sys2Proof.Machine

/-! ### Publication -/

/-- The second lane is the first with more output frames sent. -/
def Lane.Sends (l m : Lane) : Prop := ∃ fs, m = { l with sent := l.sent ++ fs }

theorem Lane.Sends.refl (l : Lane) : l.Sends l := ⟨[], by simp⟩

theorem Lane.Sends.trans {l m n : Lane} (h : l.Sends m) (k : m.Sends n) : l.Sends n := by
  obtain ⟨fs, rfl⟩ := h
  obtain ⟨gs, rfl⟩ := k
  exact ⟨fs ++ gs, by rw [List.append_assoc]⟩

theorem Lane.sends_emit (l : Lane) (me : LaneId) (kind idx value : Nat) : l.Sends (l.emit me kind idx value) := ⟨_, rfl⟩

theorem Lane.Sends.foldl {α : Type} {f : Lane → α → Lane} (h : ∀ (l : Lane) a, l.Sends (f l a)) (as : List α) (l : Lane) :
    l.Sends (as.foldl f l) := by
  induction as generalizing l with
  | nil => exact .refl l
  | cons a as ih => exact (h l a).trans (ih _)

/-- A publication ends with the frame of the stop requests (R179). -/
theorem Lane.publish_eq (l : Lane) (me : LaneId) (o : OutImage) : ∃ fs, l.publish me o = { l with
    sent := l.sent ++ fs ++
      [outFrame l.slot me 4 0 ((List.range 16).map fun n => if getQ o (0x1000 + n) = true then 2 ^ n else 0).sum]
    lseq := { l.lseq with pub := o } } := by
  obtain ⟨m, ⟨fs, rfl⟩, hm⟩ : ∃ m, (l.seq fun q => { q with pub := o }).Sends m ∧ l.publish me o =
      m.emit me 4 0 ((List.range 16).map fun n => if getQ o (0x1000 + n) = true then 2 ^ n else 0).sum := by
    refine ⟨_, (Lane.Sends.foldl (fun l g => ?_) _ _).trans (Lane.Sends.foldl (fun l n => l.sends_emit ..) _ _), rfl⟩
    dsimp only
    split
    · exact .refl l
    · exact l.sends_emit ..
  exact ⟨fs, hm⟩

/-- The lane with the ended cycle's image published under its forces, where one is due and no RESTART begins the next. -/
def Lane.cyclePublished (l : Lane) (me : LaneId) : Lane :=
  if l.lseq.due && l.lseq.restart.isNone then l.publish me (applyForces (l.dict.forces.map (·.2)) l.lseq.own) else l

theorem Lane.cyclePublished_eq (l : Lane) (me : LaneId) :
    ∃ sent pub, l.cyclePublished me = { l with sent := sent, lseq := { l.lseq with pub := pub } } := by
  unfold Lane.cyclePublished
  split
  · obtain ⟨fs, h⟩ := l.publish_eq me (applyForces (l.dict.forces.map (·.2)) l.lseq.own)
    exact ⟨_, _, h⟩
  · exact ⟨_, _, rfl⟩

/-- A RESTART publishes no image of the program's own (R197). -/
theorem Lane.cyclePublished_restart {l : Lane} (me : LaneId) (h : l.lseq.restart ≠ none) : l.cyclePublished me = l :=
  if_neg (by simp [h])

/-- Without a RESTART an image that is due is published with the frames it sends, and none else. -/
theorem Lane.cyclePublished_ended {l : Lane} (me : LaneId) (h : l.lseq.restart = none) : ∃ sent pub,
    l.cyclePublished me = { l with sent := sent, lseq := { l.lseq with pub := pub } } ∧
    pub = (if l.lseq.due = true then applyForces (l.dict.forces.map (·.2)) l.lseq.own else l.lseq.pub) ∧
    (l.lseq.due = false → sent = l.sent) ∧
    (l.lseq.due = true → ∃ fs, sent = l.sent ++ fs ++
      [outFrame l.slot me 4 0 ((List.range 16).map fun n => if getQ pub (0x1000 + n) = true then 2 ^ n else 0).sum]) := by
  by_cases hdue : l.lseq.due = true
  · obtain ⟨fs, hpublish⟩ := l.publish_eq me (applyForces (l.dict.forces.map (·.2)) l.lseq.own)
    exact ⟨_, _, (if_pos (by simp [hdue, h])).trans hpublish, (if_pos hdue).symm, fun hnot => absurd hdue (by simp [hnot]),
      fun _ => ⟨fs, rfl⟩⟩
  · exact ⟨l.sent, l.lseq.pub, if_neg (by simp [hdue]), (if_neg hdue).symm, fun _ => rfl, fun hyes => absurd hyes hdue⟩

/-! ### Capture -/

/-- Writes under a condition are the writes of those that meet it. -/
theorem foldl_mset_if {α β : Type} [DecidableEq α] (d : Nat → α) (c : β → Prop) [DecidablePred c] (key : β → Nat) (val : β → α)
    (bs : List β) (m : NMap α) : bs.foldl (fun m b => if c b then mset d m (key b) (val b) else m) m =
      ((bs.filter fun b => decide (c b)).map fun b => (key b, val b)).foldl (fun m p => mset d m p.1 p.2) m := by
  simp [List.foldl_map, List.foldl_filter]

theorem mget_foldl_mset_if_other {α β : Type} [DecidableEq α] (d : Nat → α) {c : β → Prop} [DecidablePred c] {key : β → Nat}
    (val : β → α) {bs : List β} {k : Nat} (h : ∀ b ∈ bs, c b → key b ≠ k) (m : NMap α) :
    mget d (bs.foldl (fun m b => if c b then mset d m (key b) (val b) else m) m) k = mget d m k := by
  rw [foldl_mset_if]
  refine mget_foldl_mset_other d (fun p hp => ?_) m
  obtain ⟨b, hb, rfl⟩ := List.mem_map.mp hp
  obtain ⟨hmem, hc⟩ := List.mem_filter.mp hb
  exact h b hmem (of_decide_eq_true hc)

/-- Where the value written is that of the key, a key written reads as its value. -/
theorem mget_foldl_mset_if_mem {α β : Type} [DecidableEq α] (d : Nat → α) {c : β → Prop} [DecidablePred c] {key : β → Nat}
    (val : Nat → α) {bs : List β} {b : β} (hb : b ∈ bs) (hc : c b) (m : NMap α) :
    mget d (bs.foldl (fun m b => if c b then mset d m (key b) (val (key b)) else m) m) (key b) = val (key b) := by
  rw [foldl_mset_if d c key fun b => val (key b)]
  refine mget_foldl_mset_mem d (p := (key b, val (key b))) (List.mem_map.mpr ⟨b, by simp [hb, hc], rfl⟩) (fun q hq hkey => ?_) m
  obtain ⟨b', -, rfl⟩ := List.mem_map.mp hq
  obtain hkey : key b' = key b := hkey
  rw [hkey]

/-- The maps hold what the lane's inputs show at every unforced address that the image names (R174, R199). -/
structure Lane.Captured (l : Lane) (im : LImage) (inI : NMap Bool) (inW : NMap Int) : Prop where
  bits : ∀ w ∈ im.prog, opAreas (opOf w) ≠ [] → areaOf w = 0 →
    (∀ e ∈ l.dict.forces, entArea e.2 = 0 → entAddr e.2 ≠ addrOf w) → mget (fun _ => false) inI (addrOf w) = l.bitInput (addrOf w)
  words : ∀ w ∈ im.prog, opAreas (opOf w) ≠ [] → areaOf w = 6 → addrOf w < 0x8000 ∨ 0x10000 ≤ addrOf w →
    (∀ e ∈ l.dict.forces, entArea e.2 = 6 → entAddr e.2 ≠ addrOf w) → mget (fun _ => 0) inW (addrOf w) = l.wordInput (addrOf w)

theorem Lane.capture_eq {l : Lane} {im : LImage} (himage : l.lseq.image = some im) :
    ∃ inI inW, l.capture = (l.seq fun q => { q with inI := inI, inW := inW }) ∧ l.Captured im inI inW := by
  simp only [Lane.capture, himage]
  have hops {w : Word} (hw : w ∈ im.prog) (hop : opAreas (opOf w) ≠ []) :
      w ∈ im.prog.filter fun w => !(opAreas (opOf w)).isEmpty := List.mem_filter.mpr ⟨hw, by simp [hop]⟩
  refine ⟨_, _, rfl, fun w hw hop harea hfree => ?_, fun w hw hop harea haddr hfree => ?_⟩
  · refine (mget_foldl_mset_if_other _ _ (fun e he hforce => ?_) _).trans
      (mget_foldl_mset_if_mem _ l.bitInput (hops hw hop) harea _)
    obtain ⟨p, hp, rfl⟩ := List.mem_map.mp he
    exact hfree p hp hforce
  · refine (mget_foldl_mset_if_other _ _ (fun e he hforce => ?_) _).trans
      (mget_foldl_mset_if_mem _ l.wordInput (hops hw hop) ⟨harea, haddr⟩ _)
    obtain ⟨p, hp, rfl⟩ := List.mem_map.mp he
    exact hfree p hp hforce.1

/-! ### The start of execution -/

/-- The lane in whose slot a cycle opens at a logic time: FIRST bits and flags pass on. -/
def Lane.cycleOpened (l : Lane) (tl : Nat) : Lane := l.seq fun q => { q with
  tl := tl, cycle := l.slot, due := false, first := q.nextFirst, nextFirst := 0, pubSeen := q.published
  published := decide (l.solver.last.result.isSome) && decide (l.solver.last.pubSlot = l.slot)
  ownDropPrev := q.ownDrop, ownDrop := false, work := q.own }

/-- A cycle opens with its inputs captured and execution at index 0. -/
def Lane.cycleBegun (l : Lane) (tl : Nat) : Lane := (l.cycleOpened tl).capture.seq fun q => { q with
  exec := { running := true, idx := 0, acc := false, wacc := 0, stack := [], clocks := 2400
            budget := (l.cycleOpened tl).budget } }

theorem Lane.budget_eq {l : Lane} {im : LImage} (himage : l.lseq.image = some im) :
    l.budget = l.dict.nat 0x5000 2 * im.len * 200 := by
  simp [Lane.budget, Lane.logicLen, himage, seqBudget]

theorem Lane.cycleBegun_eq {l : Lane} {im : LImage} (tl : Nat) (himage : l.lseq.image = some im) :
    ∃ inI inW, l.cycleBegun tl = ((l.cycleOpened tl).seq fun q => { q with
      inI := inI, inW := inW, exec := ⟨true, 0, false, 0, [], 2400, l.dict.nat 0x5000 2 * im.len * 200⟩ }) ∧
      l.Captured im inI inW := by
  obtain ⟨inI, inW, hcapture, hcaptured⟩ := (l.cycleOpened tl).capture_eq himage
  refine ⟨inI, inW, ?_, ⟨hcaptured.bits, hcaptured.words⟩⟩
  rw [Lane.cycleBegun, hcapture, Lane.budget_eq (l := l.cycleOpened tl) himage]
  rfl

theorem Lane.restartState_none {l : Lane} {tl : Nat} (h : l.lseq.restart = none) : l.restartState tl = l := by
  unfold Lane.restartState
  rw [h]

/-- A RESUME keeps the state, and running timers pass over the time since the stop. -/
def Lane.resumed (l : Lane) (tl : Nat) : Lane := { l with
  regs := fset l.regs f_LSEQ_STAT_STARTMODE 3
  lseq := { resumeTimers ((tl : Int) - l.lseq.stopTl) l.lseq with
    restart := none, run := 1, due := false, nextFirst := l.lseq.nextFirst ||| 16 } }

/-- A COLD restart clears the state. -/
def Lane.clearedCold (l : Lane) : Lane := { l with
  regs := fset l.regs f_LSEQ_STAT_STARTMODE 4
  lseq := { coldClear l.lseq with restart := none, run := 1, due := false, nextFirst := l.lseq.nextFirst ||| 4 } }

theorem Lane.restartState_resume {l : Lane} {tl : Nat} (h : l.lseq.restart = some false) : l.restartState tl = l.resumed tl := by
  unfold Lane.restartState
  rw [h]
  rfl

theorem Lane.restartState_cold {l : Lane} {tl : Nat} (h : l.lseq.restart = some true) : l.restartState tl = l.clearedCold := by
  unfold Lane.restartState
  rw [h]
  rfl

@[simp] theorem Lane.restartState_image (l : Lane) (tl : Nat) : (l.restartState tl).lseq.image = l.lseq.image := by
  unfold Lane.restartState
  split <;> rfl

theorem Lane.cycleStarts_of_ended {l : Lane} {im : LImage} (hactive : l.leng.active = true) (hrun : l.lseq.run ≠ 2)
    (himage : l.lseq.image = some im) (hlen : (l.slot - l.lseq.cycle).toNat = im.len) : l.cycleStarts = true := by
  have hlen' : (l.slot - l.lseq.cycle).toNat = l.logicLen := by rw [hlen, Lane.logicLen, himage]
  rw [Lane.cycleStarts, hactive, hlen']
  simp [hrun]

theorem Lane.cycleStarts_of_restart {l : Lane} {cold : Bool} (hactive : l.leng.active = true)
    (hrestart : l.lseq.restart = some cold) : l.cycleStarts = true := by
  simp [Lane.cycleStarts, hactive, hrestart]

/-- The lane with step 6 of Table 01-6 run. -/
def Lane.step6Taken (l : Lane) : Lane := { l with step6 := true }

theorem Lane.step6Taken_frame {l : Lane} (h : l.step6 = false) : { l.step6Taken with step6 := false } = l := by
  rw [← h]
  rfl

theorem Lane.step6Run_begins {l : Lane} (me : LaneId) {im : LImage} (h6 : l.step6 = false) (hblanket : l.lseq.blanketDue = false)
    (hstart : l.cycleStarts = true) (himage : l.lseq.image = some im) (hretain : l.lseq.nextFirst.testBit 3 = false) :
    l.step6Run me = ((l.step6Taken.cyclePublished me).restartState (max l.lseq.tl l.img.tb.toNat)).cycleBegun
      (max l.lseq.tl l.img.tb.toNat) := by
  have hnot : ({ l with step6 := true } : Lane).blanketNow = false := by simp [Lane.blanketNow, hblanket]
  have hstarts : ({ l with step6 := true } : Lane).cycleStarts = true := hstart
  obtain ⟨sent, pub, hpublished⟩ := Lane.cyclePublished_eq { l with step6 := true } me
  unfold Lane.step6Run
  simp only [h6, hnot, hstarts, Bool.false_eq_true, if_false, Bool.not_true]
  rw [Lane.step6Taken, hpublished]
  rw [Lane.cyclePublished] at hpublished
  rw [hpublished]
  simp only [hretain, Bool.false_eq_true, if_false]
  split
  next hnone =>
    have himage' := (Lane.restartState_image _ _).symm.trans hnone
    simp [himage] at himage'
  · rfl

/-! ### The boundary -/

theorem Lane.step5Run_done {l : Lane} (h : l.step5 = true) : l.step5Run = l := if_pos h

/-- A boundary whose earlier steps have run is step 6. -/
theorem Lane.boundary_step6 {l : Lane} (me : LaneId) (h1 : l.step1 = true) (h3 : l.step3 = true) (h4 : l.step4 = true)
    (hasked : l.solver.asked = true) (h5 : l.step5 = true) : l.boundary me = l.step6Run me := by
  rw [Lane.boundary, Lane.step1Run_done me h1, Lane.step3Run_done h3, Lane.step4All_done me hasked h4, Lane.step5Run_done h5]

end Sys2Proof.Machine
end

section
/-! The end of a cycle by force (R176, R194, R195): the watchdog's stop and an execution that is late. -/
namespace Sys2Proof.Machine

/-! ### The watchdog -/

theorem Lane.execEnd_of_stop {l : Lane} (h : l.lseq.run = 2) : ∃ j, l.execEnd = { l with
    regs := fset (fflag (execCost l.regs (l.lseq.exec.clocks / 64)) f_LSEQ_STAT_OVERRUN) f_LSEQ_STOPAT_INDEX l.lseq.exec.idx
    dict := { l.dict with journal := l.dict.journal ++ [j], journalCount := l.dict.journalCount + 1 }
    evq := l.evq ++ [(6, leBytes 4 l.lseq.exec.idx, 0xFF)]
    irq := l.irq ||| 2 ^ 7
    lseq := { l.lseq with own := l.lseq.work, stopImg := l.lseq.image } } :=
  ⟨_, if_pos h⟩

/-- An instruction over the budget is not executed: the sequencer stops before it. -/
theorem Lane.instr_over {l : Lane} (im : LImage) {w : Word}
    (h : l.lseq.exec.budget < l.lseq.exec.clocks + opClocks (opOf w)) : l.instr im w = (l.seq seqStop).execEnd := by
  have hstep : (l.seq fun q => seqStep im l.sBit l.lseq.exec.budget q w) = l.seq seqStop := by
    rw [Lane.seq, seqStep, if_pos h]
    rfl
  simp only [Lane.instr, decide_eq_false (Nat.not_le.mpr h), Bool.and_false, Bool.false_eq_true, if_false, hstep]
  exact if_neg Bool.false_ne_true

theorem Lane.watchdogStop_over {l : Lane} {im : LImage} {w : Word} (hnext : l.nextInstr = some (im, w))
    (h : l.lseq.exec.budget < l.lseq.exec.clocks + opClocks (opOf w)) : l.watchdogStop = (l.seq seqStop).execEnd := by
  simp [Lane.watchdogStop, Lane.watchdogDue, hnext, h, Lane.instr_over im h]

theorem Lane.watchdogStop_within {l : Lane} {im : LImage} {w : Word} (hnext : l.nextInstr = some (im, w))
    (h : l.lseq.exec.clocks + opClocks (opOf w) ≤ l.lseq.exec.budget) : l.watchdogStop = l := by
  simp [Lane.watchdogStop, Lane.watchdogDue, hnext, Nat.not_lt.mpr h]

/-! ### An execution that is late -/

theorem Lane.execLate_iff {l : Lane} {im : LImage} (himage : l.lseq.image = some im) :
    l.execLate = true ↔ l.lseq.exec.running = true ∧ im.len ≤ (l.slot - l.lseq.cycle).toNat := by
  rw [Lane.execLate, Lane.logicLen, himage, Bool.and_eq_true, decide_eq_true_eq]

theorem Lane.execTimeout_late {l : Lane} (h : l.execLate = true) : l.execTimeout =
    (l.seq fun q => { q with exec := { q.exec with running := false }, due := false }).raiseUce 5 := if_pos h

theorem Lane.execTimeout_not {l : Lane} (h : ¬ l.execLate = true) : l.execTimeout = l := if_neg h

end Sys2Proof.Machine
end

section
/-! Cycles of the sequencer (R173 to R176, R186, R194, R195, R197). -/
namespace Sys2Proof.Machine

/-- Settles O53: a boundary whose earlier steps have run is step 6, which publishes, restarts and begins a cycle; the watchdog
and the late execution are one change each. -/
theorem cyclesBeginStopAndRestart : Obligations.CyclesBeginStopAndRestart := by
  unfold Obligations.CyclesBeginStopAndRestart
  refine ⟨?begin, ?watchdog, ?late⟩
  case begin =>
    intro s x im l q tl himaged h1 h3 h4 h5 h6 hasked hactive himage hblanket hretain starts
    have begins (hstart : l.cycleStarts = true) :
        l.boundary x = ((l.step6Taken.cyclePublished x).restartState tl).cycleBegun tl :=
      (Lane.boundary_step6 x h1 h3 h4 hasked h5).trans (Lane.step6Run_begins x h6 hblanket hstart himage hretain)
    have hne {cold : Bool} (hrestart : q.restart = some cold) : q.restart ≠ none :=
      hrestart ▸ Option.some_ne_none cold
    have restarts {cold : Bool} {m : Lane} (hrestart : q.restart = some cold) (hm : l.step6Taken.restartState tl = m) :
        l.boundary x = m.cycleBegun tl := by
      rw [begins (Lane.cycleStarts_of_restart hactive hrestart),
        Lane.cyclePublished_restart (l := l.step6Taken) x (hne hrestart), hm]
    refine ⟨fun hrestart hrun hlen => ?ended, fun hrestart => ?resume, fun hrestart => ?cold⟩
    case ended =>
      obtain ⟨sent, pub, hpublished, hpub, hquiet, hsends⟩ := l.step6Taken.cyclePublished_ended x hrestart
      have hbegins := begins (Lane.cycleStarts_of_ended hactive hrun himage hlen)
      rw [hpublished, Lane.restartState_none (by exact hrestart)] at hbegins
      obtain ⟨inI, inW, hcycle, hcaptured⟩ := Lane.cycleBegun_eq
        (l := { l.step6Taken with sent := sent, lseq := { l.step6Taken.lseq with pub := pub } }) tl himage
      exact ⟨_, laneWhen_to (beq_iff_eq.mpr himaged) (hbegins.trans hcycle),
        ⟨rfl, rfl, rfl, rfl, rfl, (if_pos hrestart).symm, rfl, rfl, hrestart, himage, rfl, rfl, rfl, hcaptured.bits,
          hcaptured.words⟩,
        rfl, hpub, rfl, rfl, rfl, rfl, hquiet, hsends, Lane.step6Taken_frame h6⟩
    case resume =>
      have hresumed : l.boundary x = (l.step6Taken.resumed tl).cycleBegun tl :=
        restarts hrestart (Lane.restartState_resume hrestart)
      obtain ⟨inI, inW, hcycle, hcaptured⟩ := Lane.cycleBegun_eq (l := l.step6Taken.resumed tl) tl himage
      exact ⟨_, laneWhen_to (by rw [himaged, hrestart]; rfl) (hresumed.trans hcycle),
        ⟨rfl, rfl, rfl, rfl, rfl, (if_neg (hne hrestart)).symm, rfl, rfl, rfl, himage, rfl, rfl, rfl, hcaptured.bits,
          hcaptured.words⟩, rfl, rfl, rfl, rfl, rfl, rfl, rfl, Lane.step6Taken_frame h6⟩
    case cold =>
      have hcleared : l.boundary x = l.step6Taken.clearedCold.cycleBegun tl :=
        restarts hrestart (Lane.restartState_cold hrestart)
      obtain ⟨inI, inW, hcycle, hcaptured⟩ := Lane.cycleBegun_eq (l := l.step6Taken.clearedCold) tl himage
      exact ⟨_, laneWhen_to (by rw [himaged, hrestart]; rfl) (hcleared.trans hcycle),
        ⟨rfl, rfl, rfl, rfl, rfl, (if_neg (hne hrestart)).symm, rfl, rfl, rfl, himage, rfl, rfl, rfl, hcaptured.bits,
          hcaptured.words⟩, rfl, rfl, rfl, rfl, rfl, rfl, rfl, Lane.step6Taken_frame h6⟩
  case watchdog =>
    intro s x im w l q hrun himage hword
    have hnext : l.nextInstr = some (im, w) := Lane.nextInstr_of_running hrun himage hword
    refine ⟨fun hover => ?_, fun hfits => laneNext_same (Lane.watchdogStop_within hnext hfits)⟩
    obtain ⟨j, hend⟩ := Lane.execEnd_of_stop (l := l.seq seqStop) rfl
    refine ⟨_, laneNext_to ((Lane.watchdogStop_over hnext hover).trans hend), ?_, ?_, ?_, ?_, rfl, rfl, rfl, rfl⟩
    · rw [← himage]
      rfl
    · exact (fget_fset_off _ _ (by decide) (by decide) (by decide)).trans (fget_fflag_same _ (by decide) (by decide))
    · exact fget_fset_same _ _ _ (by decide) (by decide)
    · exact (Nat.testBit_or ..).trans (by rw [Nat.testBit_two_pow_self, Bool.or_true])
  case late =>
    intro s x im l q himage
    refine ⟨fun hrun hlen => laneNext_to (Lane.execTimeout_late ((Lane.execLate_iff himage).mpr ⟨hrun, hlen⟩)),
      fun h => laneNext_same (Lane.execTimeout_not fun hlate => ?_)⟩
    obtain ⟨hrun, hlen⟩ := (Lane.execLate_iff himage).mp hlate
    rcases h with h | h
    · exact Bool.noConfusion (h.symm.trans hrun)
    · exact absurd hlen (Nat.not_le.mpr h)

end Sys2Proof.Machine
end

section
/-! Logic images (R191 to R193, R201, R202): the checks of a load in their order, what a load check leaves, and the state that a
swap carries over. -/
namespace Sys2Proof.Machine

/-! ### The load check (R192) -/

theorem Lane.checkImage_forged {l : Lane} {bs : Bytes} (time : Bool) (h : cmac (l.leafKey 4 2) (untagged bs) ≠ slice bs 37 16) :
    l.checkImage bs time = ((1, 0), 0, 0) := if_pos h

section genuine
variable {l : Lane} {bs : Bytes} (h : cmac (l.leafKey 4 2) (untagged bs) = slice bs 37 16)
include h

theorem Lane.checkImage_fails (time : Bool) (hbad : (imageCheck bs).1.1 ≠ 0) : l.checkImage bs time = imageCheck bs := by
  rw [Lane.checkImage, if_neg (not_not.mpr h)]
  exact if_neg fun hgood => hbad hgood.1

theorem Lane.checkImage_times (hgood : (imageCheck bs).1.1 = 0) : (l.checkImage bs true).1 =
    if l.dict.nat 0x5000 2 * (decImage bs).len * 200 < (imageCheck bs).2.1 then (10, 0) else (imageCheck bs).1 := by
  rw [Lane.checkImage, if_neg (not_not.mpr h)]
  simp only [hgood, seqBudget, true_and]
  split <;> rfl

end genuine

/-! ### The report of a load and a change -/

/-- The second dictionary is the first but for values of object 0x5020. -/
def Dict.Reports (d e : Dict) : Prop :=
  { e with vals := d.vals } = d ∧ ∀ idx sub, objKey idx sub / 256 ≠ 0x5020 → e.get idx sub = d.get idx sub

theorem Dict.Reports.put {d e : Dict} (h : d.Reports e) {sub : Nat} (v : Bytes) (hsub : sub < 256) :
    d.Reports (e.put 0x5020 sub v) := by
  obtain ⟨hframe, hget⟩ := h
  refine ⟨hframe, fun idx sub' hkey => ?_⟩
  rw [Dict.get_put_other _ _ fun heq => hkey ?_, hget idx sub' hkey]
  rw [heq, objKey]
  omega

/-- The registers with the result of a load check. -/
def loadRegs (m : RegMap) (code idx : Nat) : RegMap := fset (fset m f_LSEQ_LOADRES_CODE code) f_LSEQ_LOADRES_INDEX idx

theorem fget_loadRegs_code (m : RegMap) (code idx : Nat) : fget (loadRegs m code idx) f_LSEQ_LOADRES_CODE = code % 256 := by
  rw [loadRegs, fget_fset_off _ _ (by decide) (by decide) (by decide), fget_fset_same _ _ _ (by decide) (by decide)]
  rfl

theorem fget_loadRegs_index (m : RegMap) (code idx : Nat) : fget (loadRegs m code idx) f_LSEQ_LOADRES_INDEX = idx % 2 ^ 18 :=
  fget_fset_same _ _ _ (by decide) (by decide)

theorem fget_loadRegs_off (m : RegMap) (code idx : Nat) {f : Fld} (h : f.key ≠ f_LSEQ_LOADRES_CODE.key) :
    fget (loadRegs m code idx) f = fget m f := by
  rw [loadRegs, fget_fset_other _ f_LSEQ_LOADRES_INDEX _ _ h, fget_fset_other _ _ _ _ h]

/-- The second lane is the first with a report in its dictionary. -/
def Lane.Reports (l m : Lane) : Prop := ∃ d, l.dict.Reports d ∧ m = { l with dict := d }

theorem Lane.Reports.refl (l : Lane) : l.Reports l := ⟨l.dict, ⟨rfl, fun _ _ _ => rfl⟩, rfl⟩

theorem Lane.Reports.report20 {l m : Lane} (h : l.Reports m) {sub : Nat} (v : Bytes) (hsub : sub < 256) :
    l.Reports (m.report20 sub v) := by
  obtain ⟨d, hd, rfl⟩ := h
  exact ⟨_, hd.put v hsub, rfl⟩

theorem Lane.loadResult_eq (l : Lane) (code idx wc depth id : Nat) :
    ∃ m, l.Reports m ∧ l.loadResult code idx wc depth id = m.reg fun r => loadRegs r code idx := by
  refine ⟨_, ?_, rfl⟩
  refine .report20 (.report20 (.report20 (.report20 (.report20 (.report20 (.refl l) _ ?_) _ ?_) _ ?_) _ ?_) _ ?_) _ ?_
  all_goals decide

section checked
variable {l : Lane} {bs : Bytes} {c : BitVec 64} (h : l.lseq.checking = some (bs, c))
include h

theorem Lane.imageChecked_refused (hbad : (l.checkImage bs true).1.1 ≠ 0) : ∃ d, l.dict.Reports d ∧ l.imageChecked = { l with
    regs := fflag (loadRegs l.regs (l.checkImage bs true).1.1 (l.checkImage bs true).1.2) f_LSEQ_STAT_REFUSED
    dict := d, lseq := { l.lseq with checking := none } } := by
  obtain ⟨m, ⟨d, hd, rfl⟩, hresult⟩ := (l.seq fun q => { q with checking := none }).loadResult_eq (l.checkImage bs true).1.1
    (l.checkImage bs true).1.2 (l.checkImage bs true).2.1 (l.checkImage bs true).2.2 (decImage bs).id.toNat
  refine ⟨d, hd, ?_⟩
  simp only [Lane.imageChecked, h, hresult]
  exact if_pos hbad

theorem Lane.imageChecked_pending (hgood : (l.checkImage bs true).1.1 = 0) : ∃ d, l.dict.Reports d ∧ l.imageChecked = { l with
    regs := loadRegs l.regs (l.checkImage bs true).1.1 (l.checkImage bs true).1.2
    dict := d, lseq := { l.lseq with checking := none, pendImg := some (decImage bs, c) } } := by
  obtain ⟨m, hm, hresult⟩ := (l.seq fun q => { q with checking := none }).loadResult_eq (l.checkImage bs true).1.1
    (l.checkImage bs true).1.2 (l.checkImage bs true).2.1 (l.checkImage bs true).2.2 (decImage bs).id.toNat
  obtain ⟨d, hd, rfl⟩ := hm
  simp only [Lane.imageChecked, h]
  rw [hresult, if_neg (not_not.mpr hgood)]
  split
  · exact ⟨_, (hd.put _ (sub := 7) (by decide)).put _ (sub := 0xA) (by decide), rfl⟩
  · exact ⟨_, hd.put _ (sub := 7) (by decide), rfl⟩

end checked

/-! ### The state that a swap carries over (Table 06-12) -/

theorem foldl_setCounter (keeps : Nat → Prop) [DecidablePred keeps] (f : Nat → CounterSt) (ns : List Nat) (q : Lseq) :
    ∃ cs, ns.foldl (fun q n => if keeps n then q else setCounter q n (f n)) q = { q with counters := cs } ∧
      ∀ n, mget (fun _ => counter0) cs n = if n ∈ ns ∧ ¬ keeps n then f n else getCounter q n := by
  induction ns generalizing q with
  | nil => exact ⟨q.counters, rfl, fun n => by simp [getCounter]⟩
  | cons k ns ih =>
    rw [List.foldl_cons]
    by_cases hk : keeps k
    · obtain ⟨cs, hfold, hcs⟩ := ih q
      refine ⟨cs, by rw [if_pos hk, hfold], fun n => ?_⟩
      have hmem : (n ∈ k :: ns ∧ ¬ keeps n) ↔ (n ∈ ns ∧ ¬ keeps n) := by
        rw [List.mem_cons]
        exact ⟨fun ⟨hn, hnot⟩ => ⟨hn.resolve_left fun heq => hnot (heq ▸ hk), hnot⟩, fun ⟨hn, hnot⟩ => ⟨.inr hn, hnot⟩⟩
      rw [hcs, if_congr hmem rfl rfl]
    · obtain ⟨cs, hfold, hcs⟩ := ih (setCounter q k (f k))
      refine ⟨cs, by rw [if_neg hk, hfold]; rfl, fun n => ?_⟩
      rw [hcs]
      by_cases hn : n = k
      · subst hn
        simp [hk, getCounter, setCounter]
      · simp [hn, getCounter, setCounter, mget_mset_other _ _ _ hn]

/-- The state with the timers, counters and edges that both images have alike. -/
def carriedState (old new : LImage) (q : Lseq) : Lseq := { q with
  timers := mfilter (fun n => decide (n < new.timers.length) && timerType old n == timerType new n) q.timers
  counters := mfilter (fun n => decide (n < new.counters.length) && counterType old n == counterType new n) q.counters
  edges := mfilter (fun n => decide (n < new.edges)) q.edges }

theorem carryOver_eq (old new : LImage) (q : Lseq) : ∃ ts cs es, carryOver old new q = { q with
    timers := ts, counters := cs, edges := es } ∧
    (∀ n, mget (fun _ => timer0) ts n = if n < new.timers.length ∧ timerType old n = timerType new n then getTimer q n else timer0) ∧
    (∀ n, n < new.counters.length → mget (fun _ => counter0) cs n =
      if n < old.counters.length ∧ counterType old n = counterType new n then getCounter q n else counterNew new n) ∧
    ∀ n, mget (fun _ => none) es n = if n < new.edges then getEdge q n else none := by
  obtain ⟨cs, hfold, hcs⟩ := foldl_setCounter (fun n => n < old.counters.length ∧ counterType old n = counterType new n)
    (counterNew new) (List.range new.counters.length) (carriedState old new q)
  refine ⟨_, cs, _, hfold, fun n => ?_, fun n hn => ?_, fun n => ?_⟩
  · simp [carriedState, mget_mfilter, getTimer]
  · rw [hcs]
    by_cases hkeeps : n < old.counters.length ∧ counterType old n = counterType new n
    · simp [hkeeps, getCounter, carriedState, mget_mfilter, hn]
    · rw [if_neg hkeeps, if_pos ⟨List.mem_range.mpr hn, hkeeps⟩]
  · simp [carriedState, mget_mfilter, getEdge]

/-- The state with which a new image starts: cleared for a COLD restart, else what carries over (R197, R201). -/
def Lane.keptState (l : Lane) (im : LImage) : Lseq :=
  if l.lseq.restart == some true then coldClear l.lseq else carryOver (l.lseq.image.getD emptyImage) im l.lseq

theorem Lane.keptState_eq (l : Lane) (im : LImage) : ∃ fs ts cs es wo ow, l.keptState im = { l.lseq with
      flags := fs, timers := ts, counters := cs, edges := es, work := wo, own := ow } ∧
    (l.lseq.restart = some true → fs = [] ∧ ts = [] ∧ cs = [] ∧ es = [] ∧ ow = ⟨[], []⟩) ∧
    (l.lseq.restart ≠ some true → fs = l.lseq.flags ∧ ow = l.lseq.own ∧
      (∀ n, mget (fun _ => timer0) ts n = if n < im.timers.length ∧ timerType (l.lseq.image.getD emptyImage) n = timerType im n
        then getTimer l.lseq n else timer0) ∧
      (∀ n, n < im.counters.length → mget (fun _ => counter0) cs n =
        if n < (l.lseq.image.getD emptyImage).counters.length ∧ counterType (l.lseq.image.getD emptyImage) n = counterType im n
        then getCounter l.lseq n else counterNew im n) ∧
      ∀ n, mget (fun _ => none) es n = if n < im.edges then getEdge l.lseq n else none) := by
  by_cases hcold : l.lseq.restart = some true
  · exact ⟨[], [], [], [], ⟨[], []⟩, ⟨[], []⟩, if_pos (beq_iff_eq.mpr hcold), fun _ => ⟨rfl, rfl, rfl, rfl, rfl⟩,
      fun h => absurd hcold h⟩
  · obtain ⟨ts, cs, es, hcarry, hts, hcs, hes⟩ := carryOver_eq (l.lseq.image.getD emptyImage) im l.lseq
    exact ⟨_, ts, cs, es, _, _, (if_neg (by simpa using hcold)).trans hcarry, fun h => absurd h hcold,
      fun _ => ⟨rfl, rfl, hts, hcs, hes⟩⟩

/-! ### The swap (R193) -/

theorem Lane.foldl_dict {α : Type} (f : Dict → α → Dict) (as : List α) (l : Lane) :
    ∃ d, as.foldl (fun l a => { l with dict := f l.dict a }) l = { l with dict := d } := by
  induction as generalizing l with
  | nil => exact ⟨l.dict, rfl⟩
  | cons a as ih => exact ih { l with dict := f l.dict a }

theorem Lane.dropForces_eq (l : Lane) (im : LImage) : ∃ d m, l.dropForces im = { l with regs := m, dict := d } := by
  obtain ⟨d, hd⟩ := Lane.foldl_dict
    (fun (d : Dict) (f : Nat × BitVec 64) => d.put (0x5200 + f.1 / 64) (1 + f.1 % 64) (zeros 8))
    (l.dict.forces.filter fun f => !imageUses im (entArea f.2) (entAddr f.2)) l
  simp only [Lane.dropForces, hd]
  exact ⟨_, _, rfl⟩

theorem Lane.imageSwap_eq {l : Lane} {im : LImage} {c : BitVec 64} (h : l.lseq.pendImg = some (im, c)) :
    ∃ d m, l.imageSwap = { l with
      regs := fflag m f_LSEQ_STAT_SWAPPED, dict := d
      nvm := { l.nvm with logic := { l.nvm.logic with queued := true } }
      lseq := { l.keptState im with
        image := some im, pendImg := none, run := if l.lseq.run = 2 then 2 else 1
        nextFirst := (l.keptState im).nextFirst ||| 32, cycle := l.slot - BitVec.ofNat 64 im.len } } := by
  obtain ⟨d, m, hdrop⟩ := l.dropForces_eq im
  cases hcold : l.lseq.restart == some true with
  | true =>
    have hkept : l.keptState im = coldClear l.lseq := if_pos hcold
    simp only [Lane.imageSwap, h, hdrop, hcold, hkept, if_true]
    exact ⟨_, _, rfl⟩
  | false =>
    have hkept : l.keptState im = carryOver (l.lseq.image.getD emptyImage) im l.lseq := if_neg (by simp [hcold])
    simp only [Lane.imageSwap, h, hdrop, hcold, hkept, Bool.false_eq_true, if_false]
    exact ⟨_, _, rfl⟩

theorem Lane.swapDue_iff {l : Lane} {im : LImage} {c : BitVec 64} (h : l.lseq.pendImg = some (im, c)) :
    l.swapDue = true ↔ l.cycleStarts = true ∧ c.toNat + 100 ≤ l.slot.toNat := by
  rw [Lane.swapDue, h, Bool.and_eq_true, decide_eq_true_eq]

/-- The lane with step 3 of Table 01-6 run. -/
def Lane.step3Taken (l : Lane) : Lane := { l with step3 := true }

theorem Lane.step3Taken_frame {l : Lane} (h : l.step3 = false) : { l.step3Taken with step3 := false } = l := by
  rw [← h]
  rfl

theorem Lane.step3Run_open {l : Lane} (h : l.step3 = false) :
    l.step3Run = if l.step3Taken.swapDue = true then l.step3Taken.imageSwap else l.step3Taken := by
  rw [Lane.step3Run, h]
  rfl

theorem Lane.checkLate_iff {l : Lane} {bs : Bytes} {c : BitVec 64} (h : l.lseq.checking = some (bs, c)) :
    l.checkLate = true ↔ l.cycleStarts = true ∧ c.toNat + 100 ≤ l.slot.toNat := by
  rw [Lane.checkLate, h, Bool.and_eq_true, decide_eq_true_eq]

/-! ### Retain records (R203) -/

theorem Lane.retainDue_iff {l : Lane} {im : LImage} (hrun : l.lseq.run = 1) (himage : l.lseq.image = some im)
    (hdue : l.lseq.due = true) : l.retainDue = true ↔ l.retainPeriod ≠ l.lseq.lastRetain := by
  simp [Lane.retainDue, hrun, himage, hdue]

theorem Lane.retainWrite_eq {l : Lane} {im : LImage} (himage : l.lseq.image = some im) : l.retainWrite = { l with
    lseq := { l.lseq with retainSeq := l.lseq.retainSeq + 1, lastRetain := l.retainPeriod }
    nvm := if (l.lseq.retainSeq + 1).getLsbD 0 = true then { l.nvm with retA := l.retainRecord im }
      else { l.nvm with retB := l.retainRecord im } } := by
  rw [Lane.retainWrite, himage]
  rfl

/-- A record holds the retained timers with the time each has run. -/
theorem Lane.mem_retainRecord_timers (l : Lane) (im : LImage) (n : Nat) (t : TimerSt) (e : Nat) :
    (n, t, e) ∈ (l.retainRecord im).timers ↔
      (n, t) ∈ l.lseq.timers ∧ timerRetain im n = true ∧ e = ((l.lseq.tl : Int) - t.start).toNat := by
  simp only [Lane.retainRecord, List.mem_filterMap]
  constructor
  · rintro ⟨⟨k, u⟩, hmem, hsome⟩
    split at hsome
    next hretain =>
      cases hsome
      exact ⟨hmem, hretain, rfl⟩
    next => cases hsome
  · rintro ⟨hmem, hretain, rfl⟩
    exact ⟨(n, t), hmem, if_pos hretain⟩

end Sys2Proof.Machine
end

section
/-! Images and retain records of the sequencer (R191 to R193, R201 to R203). -/
namespace Sys2Proof.Machine

/-- Settles O54: a load check leaves a report and refuses the image or makes it pending, a swap keeps what `Lane.keptState_eq`
says, and a retain record is written where one is due. -/
theorem imagesAreCheckedSwappedAndRetained : Obligations.ImagesAreCheckedSwappedAndRetained := by
  unfold Obligations.ImagesAreCheckedSwappedAndRetained
  have notDue {starts : Bool} {c slot : Nat} (h : starts = false ∨ slot < c + 100) : ¬(starts = true ∧ c + 100 ≤ slot) := by
    rintro ⟨hstart, hslot⟩
    rcases h with h | h
    · exact Bool.false_ne_true (h.symm.trans hstart)
    · omega
  refine ⟨?checked, fun s x hnone => ?unchecked, ?swap, ?late, ?retain⟩
  case checked =>
    intro s x bs c hchecking l q
    have hforged := Lane.checkImage_forged (l := l) (bs := bs) true
    have hfails := Lane.checkImage_fails (l := l) (bs := bs) (time := true)
    have htimes := Lane.checkImage_times (l := l) (bs := bs)
    have hpending := Lane.imageChecked_pending (l := l) hchecking
    have hrefused := Lane.imageChecked_refused (l := l) hchecking
    generalize l.checkImage bs true = r at hforged hfails htimes hpending hrefused ⊢
    have hforged' h : r.1 = (1, 0) := congrArg Prod.fst (hforged h)
    have hfails' h hbad : r.1 = (imageCheck bs).1 := congrArg Prod.fst (hfails h hbad)
    by_cases hcode : r.1.1 = 0
    · obtain ⟨d, ⟨hframe, hget⟩, hlane⟩ := hpending hcode
      exact ⟨_, laneNext_to hlane, rfl, fget_loadRegs_code _ _ _, fget_loadRegs_index _ _ _, hforged', hfails', htimes,
        fun h => absurd hcode h, fun _ => ⟨rfl, fget_loadRegs_off _ _ _ (by decide)⟩, rfl, hframe, hget⟩
    · obtain ⟨d, ⟨hframe, hget⟩, hlane⟩ := hrefused hcode
      refine ⟨_, laneNext_to hlane, rfl, ?_, ?_, hforged', hfails', htimes,
        fun _ => ⟨fget_fflag_same _ (by decide) (by decide), rfl⟩, fun h => absurd h hcode, rfl, hframe, hget⟩
      · exact (fget_fset_other _ _ _ _ (by decide)).trans (fget_loadRegs_code _ _ _)
      · exact (fget_fset_other _ _ _ _ (by decide)).trans (fget_loadRegs_index _ _ _)
  case unchecked => exact laneNext_same (by rw [Lane.imageChecked, hnone])
  case swap =>
    intro s x im c l q old himaged h3 hpend
    have hdue : l.step3Taken.swapDue = true ↔ l.cycleStarts = true ∧ c.toNat + 100 ≤ l.slot.toNat := Lane.swapDue_iff hpend
    refine ⟨fun hstart hslot => ?_, fun h => ?_⟩
    · obtain ⟨d, m, hswap⟩ := Lane.imageSwap_eq (l := l.step3Taken) hpend
      obtain ⟨fs, ts, cs, es, wo, ow, hkept, hcold, hwarm⟩ := l.step3Taken.keptState_eq im
      rw [hkept] at hswap
      have hstep := (Lane.step3Run_open h3).trans ((if_pos (hdue.mpr ⟨hstart, hslot⟩)).trans hswap)
      refine ⟨_, laneWhen_to (beq_iff_eq.mpr himaged) hstep, rfl, rfl, rfl, rfl, ?_, fget_fflag_same _ (by decide) (by decide),
        rfl, ?_, rfl, rfl, hcold, hwarm, ?_⟩
      · exact (Nat.testBit_or ..).trans (by rw [show 32 = 2 ^ 5 from rfl, Nat.testBit_two_pow_self, Bool.or_true])
      · exact (congrArg BitVec.toNat (sub_sub_cancel l.slot (BitVec.ofNat 64 im.len))).trans (BitVec.toNat_ofNat ..)
      · exact Lane.step3Taken_frame h3
    · refine laneWhen_to (beq_iff_eq.mpr himaged) ((Lane.step3Run_open h3).trans (if_neg fun hswap => ?_))
      exact notDue h (hdue.mp hswap)
  case late =>
    intro s x bs c l himaged hchecking
    have hlate : l.checkLate = true ↔ l.cycleStarts = true ∧ c.toNat + 100 ≤ l.slot.toNat := Lane.checkLate_iff hchecking
    refine ⟨fun hstart hslot => ?_, fun h => ?_⟩
    · refine laneWhen_to ?_ rfl
      rw [himaged, hlate.mpr ⟨hstart, hslot⟩]
      rfl
    · refine laneWhen_neg ?_
      rw [Bool.eq_false_iff.mpr fun hyes => notDue h (hlate.mp hyes), Bool.and_false]
  case retain =>
    intro s x im l q period hrun himage hdue
    have hretain : l.retainDue = true ↔ period ≠ q.lastRetain := Lane.retainDue_iff hrun himage hdue
    refine ⟨fun hcross => ⟨l.retainRecord im, laneWhen_to (hretain.mpr hcross) (Lane.retainWrite_eq himage), rfl, rfl, rfl, rfl, rfl,
      rfl, l.mem_retainRecord_timers im⟩, fun hsame => laneWhen_neg ?_⟩
    exact Bool.eq_false_iff.mpr fun hwrites => hretain.mp hwrites hsame

end Sys2Proof.Machine
end

section
/-! The metering instant of a slot (Table 01-5): the part of it that a command asks for, what each of its stages leaves as it
was, and the lane that the whole instant leaves. -/
namespace Sys2Proof.Machine

/-! ### Lists -/

variable {α β : Type}

/-- What a change of an entry leaves is the same of every entry of the list. -/
theorem getD_lmod_keeps {f : α → α} {g : α → β} (h : ∀ a, g (f a) = g a) (v : List α) (i j : Nat) (d : α) :
    g ((lmod v i f).getD j d) = g (v.getD j d) := by
  by_cases hij : i = j
  · subst hij
    cases hv : v[i]? <;> simp [lmod, List.getD_eq_getElem?_getD, hv, h]
  · simp [lmod, List.getD_eq_getElem?_getD, hij]

theorem getD_map_keeps {f : α → α} {g : α → β} (h : ∀ a, g (f a) = g a) (v : List α) (j : Nat) (d : α) :
    g ((v.map f).getD j d) = g (v.getD j d) := by
  cases hv : v[j]? <;> simp [List.getD_eq_getElem?_getD, hv, h]

/-- In a fold over distinct entries, the step of one entry turns what holds before it into what holds after it, where the
steps of the others keep both. -/
theorem foldl_passes {f : α → β → α} {P Q : α → Prop} {c : β} {bs : List β} (hbs : bs.Nodup) (hc : c ∈ bs)
    (hbefore : ∀ a b, b ≠ c → P a → P (f a b)) (hstep : ∀ a, P a → Q (f a c))
    (hafter : ∀ a b, b ≠ c → Q a → Q (f a b)) {a : α} (h : P a) : Q (bs.foldl f a) := by
  induction bs generalizing a with
  | nil => cases hc
  | cons b bs ih =>
    obtain ⟨hb, hbs⟩ := List.nodup_cons.mp hbs
    rw [List.foldl_cons]
    rcases List.mem_cons.mp hc with rfl | hc
    · exact List.foldlRecOn bs f (hstep a h) fun m hm k hk => hafter m k (fun e => hb (e ▸ hk)) hm
    · exact ih hbs hc (hbefore a b (fun e => hb (e ▸ hc)) h)

/-! ### A command that is a part of the instant -/

theorem Lane.meterPart_idle {l : Lane} (me : LaneId) (f : Lane → Lane) (p : Lane → Lane → Bool)
    (h : l.working = false ∨ l.meters = false) : l.meterPart me f p = l := by
  rcases h with h | h <;> simp [Lane.meterPart, h]

section part
variable {l : Lane} {me : LaneId} {f : Lane → Lane} {p : Lane → Lane → Bool}
  (hwork : l.working = true) (hmeters : l.meters = true)
include hwork hmeters

theorem Lane.meterPart_occurs (h : p l (f (l.loopsRun me)) = true) : l.meterPart me f p = f (l.loopsRun me) := by
  simp [Lane.meterPart, hwork, hmeters, h]

theorem Lane.meterPart_absent (h : p l (f (l.loopsRun me)) = false) : l.meterPart me f p = l := by
  simp [Lane.meterPart, hwork, hmeters, h]

end part

/-! ### The feeders -/

/-- The lane apart from its feeders, its registers and the request for a record. -/
def Lane.apartFeeders (l : Lane) : Lane :=
  { l with feeders := List.replicate l.feeders.length feeder0, regs := [], thm := { l.thm with want := none } }

theorem Lane.modFeeder_apart (l : Lane) (f : Nat) (g : Feeder → Feeder) : (l.modFeeder f g).apartFeeders = l.apartFeeders := by
  simp [Lane.modFeeder, Lane.apartFeeders, lmod]

theorem Lane.feederSample_apart (l : Lane) (c : FeederCfg) (f : Nat) (s : MtrSample) (next : List Nat) :
    (l.feederSample c f s next).apartFeeders = l.apartFeeders := by
  refine Eq.trans ?_ (l.modFeeder_apart f fun _ => ((l.feeder f).sample c s next).1)
  unfold Lane.feederSample
  dsimp only
  split <;> split <;> rfl

theorem Lane.feederWork_apart (l : Lane) (f : Nat) : (l.feederWork f).apartFeeders = l.apartFeeders := by
  have hbegin (m : Lane) (p : Prop) [Decidable p] (g : Feeder → Feeder) :
      (if p then m.modFeeder f g else m).apartFeeders = m.apartFeeders := by
    split
    · exact m.modFeeder_apart f g
    · rfl
  unfold Lane.feederWork
  dsimp only
  split
  · exact l.modFeeder_apart f _
  · split <;> split <;> simp only [Lane.modFeeder_apart, Lane.feederSample_apart, hbegin]

theorem Lane.feederCloses_apart (l : Lane) (f : Nat) : (l.feederCloses f).apartFeeders = l.apartFeeders := by
  unfold Lane.feederCloses
  split
  · rw [Lane.modFeeder_apart, Lane.feederWork_apart]
  · rfl

theorem Lane.feederLatch_apart (l : Lane) (f : Nat) : (l.feederLatch f).apartFeeders = l.apartFeeders := by
  have hlatch (m : Lane) (g : Feeder → Feeder) (w : Option (BitVec 64)) (h : RegMap → RegMap) :
      ({ m.modFeeder f g with thm := { m.thm with want := w } }.reg h).apartFeeders = m.apartFeeders := m.modFeeder_apart f g
  rw [← l.feederCloses_apart f]
  unfold Lane.feederLatch
  dsimp only
  split
  · split
    · rw [hlatch, Lane.modFeeder_apart]
    · exact Lane.modFeeder_apart _ f _
  · rfl

/-- The electrical part leaves all but the feeders, the registers and the request for a record. -/
theorem Lane.mtrSlot_apart (l : Lane) : l.mtrSlot.apartFeeders = l.apartFeeders := by
  unfold Lane.mtrSlot
  split
  · exact foldl_keeps _ Lane.apartFeeders Lane.feederLatch_apart _ l
  · rfl

/-! ### The thermal stages -/

/-- The resistances and counts of the slot are taken (R236, R239). -/
def Lane.thmTaken (l : Lane) : Lane :=
  { l.rtdTake with thm := { l.rtdTake.thm with
      counts := l.thm.counts.mapIdx fun n h => ((l.img.pulse.getD n 0) :: h).take 2001 } }
/-- The quantities of the inputs are formed (Table 08-4). -/
def Lane.inputsTaken (l : Lane) : Lane := { l with thm := { l.thm with q := l.thmInputs } }
/-- Every circuit is credited, and then the quantities of the inputs are formed (R242 to R247). -/
def Lane.thmCredited (l : Lane) : Lane := ((List.range 8).foldl Lane.circSlot l).inputsTaken
/-- One pulse output: width end, accrual, start (R257 to R259). -/
def Lane.vpoOne (me : LaneId) (l : Lane) (o : Nat) : Lane := ((l.vpoWidthEnd o).vpoAccrue o).vpoStart me o
/-- The units credited to a register are taken, and those to each register of a feeder and of a circuit. -/
def EReg.unitsTaken (r : EReg) : EReg := { r with k := 0 }
def Feeder.unitsTaken (x : Feeder) : Feeder := { x with regs := x.regs.map EReg.unitsTaken }
def Circ.unitsTaken (u : Circ) : Circ := { u with regs := u.regs.map EReg.unitsTaken }
/-- The units of every register are taken. -/
def Lane.unitsTaken (l : Lane) : Lane :=
  { l with feeders := l.feeders.map Feeder.unitsTaken, thm := { l.thm with circs := l.thm.circs.map Circ.unitsTaken } }
/-- The thermal work of the slot is done. -/
def Lane.thmDone (l : Lane) : Lane :=
  { l with thm := { l.thm with stage := 2, metered := l.slot, tbPrev := some l.img.tb } }
/-- The lane of which the pulse outputs are still to be served. -/
def Lane.thmReady (l : Lane) : Lane := l.thmTaken.thmLatches.flaskMerge.thmCredited

theorem Lane.vpoSlot_eq (l : Lane) (me : LaneId) :
    l.vpoSlot me = ((List.range 16).foldl (Lane.vpoOne me) l).unitsTaken := by
  unfold Lane.vpoSlot
  generalize List.range 16 = os
  rfl

theorem Lane.thmSlot_eq (l : Lane) (me : LaneId) :
    l.thmSlot me = if l.meters = true ∧ l.thm.stage ≠ 2 then (l.thmReady.vpoSlot me).thmDone else l := by
  unfold Lane.thmSlot
  by_cases h : l.meters = true ∧ l.thm.stage ≠ 2
  · rw [if_neg (by simpa using h), if_pos h]
    extract_lets _ _ taken merged credited _ ready served
    have hmerged : merged = l.thmTaken.thmLatches.flaskMerge := (rfl : taken.thmLatches.flaskMerge = _)
    have hready : ready = l.thmReady := by
      rw [Lane.thmReady, Lane.thmCredited, ← hmerged]
      exact (rfl : credited.inputsTaken = _)
    have hserved : served = l.thmReady.vpoSlot me := by
      rw [← hready]
    exact congrArg Lane.thmDone hserved
  · rw [if_pos (by simpa [or_iff_not_imp_left] using h), if_neg h]

/-! ### What a stage leaves -/

/-- The lane apart from what a latch of a circuit changes. -/
def Lane.apartLatches (l : Lane) : Lane :=
  { l with regs := [], thm := { l.thm with circs := [], want := none, stage := 0 } }
/-- The lane apart from what the credits of the circuits change. -/
def Lane.apartCredits (l : Lane) : Lane := { l with thm := { l.thm with circs := [], q := [] } }
/-- The lane apart from its pulse outputs, its registers and the frames it has sent. -/
def Lane.apartOutputs (l : Lane) : Lane := { l with regs := [], sent := [], thm := { l.thm with vpo := [] } }
/-- The lane apart from all that metering changes. -/
def Lane.apartMetering (l : Lane) : Lane := { l with feeders := [], thm := thm0, regs := [], sent := [] }

theorem Lane.apartMetering_of_feeders {l m : Lane} (h : l.apartFeeders = m.apartFeeders) : l.apartMetering = m.apartMetering :=
  (congrArg Lane.apartMetering h :)
theorem Lane.apartMetering_of_latches {l m : Lane} (h : l.apartLatches = m.apartLatches) : l.apartMetering = m.apartMetering :=
  (congrArg Lane.apartMetering h :)
theorem Lane.apartMetering_of_credits {l m : Lane} (h : l.apartCredits = m.apartCredits) : l.apartMetering = m.apartMetering :=
  (congrArg Lane.apartMetering h :)
theorem Lane.apartMetering_of_outputs {l m : Lane} (h : l.apartOutputs = m.apartOutputs) : l.apartMetering = m.apartMetering :=
  (congrArg Lane.apartMetering h :)
theorem Lane.vpo_of_latches {l m : Lane} (h : l.apartLatches = m.apartLatches) : l.thm.vpo = m.thm.vpo :=
  (congrArg (fun l : Lane => l.thm.vpo) h :)
theorem Lane.vpo_of_credits {l m : Lane} (h : l.apartCredits = m.apartCredits) : l.thm.vpo = m.thm.vpo :=
  (congrArg (fun l : Lane => l.thm.vpo) h :)

theorem Lane.circLatch_apart (l : Lane) (c : Nat) : (l.circLatch c).apartLatches = l.apartLatches := by
  unfold Lane.circLatch
  split <;> rfl

theorem Lane.thmLatches_apart (l : Lane) : l.thmLatches.apartLatches = l.apartLatches := by
  unfold Lane.thmLatches
  split
  · exact foldl_keeps _ Lane.apartLatches Lane.circLatch_apart (List.range 8) l
  · rfl

theorem Lane.circSlot_eq (l : Lane) (c : Nat) :
    ∃ cs, l.circSlot c = { l with thm := { l.thm with circs := cs } } := by
  unfold Lane.circSlot
  dsimp only
  split <;> exact ⟨_, rfl⟩

theorem Lane.circSlot_apart (l : Lane) (c : Nat) : (l.circSlot c).apartCredits = l.apartCredits := by
  obtain ⟨cs, h⟩ := l.circSlot_eq c
  rw [h]
  rfl

theorem Lane.inputsTaken_apart (l : Lane) : l.inputsTaken.apartCredits = l.apartCredits := rfl

theorem Lane.thmCredited_apart (l : Lane) : l.thmCredited.apartCredits = l.apartCredits :=
  (Lane.inputsTaken_apart _).trans (foldl_keeps _ Lane.apartCredits Lane.circSlot_apart (List.range 8) l)

theorem Lane.vpoAccrue_apart (l : Lane) (o : Nat) : (l.vpoAccrue o).apartOutputs = l.apartOutputs := by
  unfold Lane.vpoAccrue
  dsimp only
  split
  · split <;> rfl
  · rfl

theorem Lane.vpoStart_apart (l : Lane) (me : LaneId) (o : Nat) : (l.vpoStart me o).apartOutputs = l.apartOutputs := by
  unfold Lane.vpoStart
  split
  · rfl
  · split <;> rfl

theorem Lane.vpoOne_apart (me : LaneId) (l : Lane) (o : Nat) : (l.vpoOne me o).apartOutputs = l.apartOutputs := by
  rw [Lane.vpoOne, Lane.vpoStart_apart, Lane.vpoAccrue_apart]
  rfl

theorem Lane.foldl_vpoOne_apart (me : LaneId) (os : List Nat) (l : Lane) :
    (os.foldl (Lane.vpoOne me) l).apartOutputs = l.apartOutputs :=
  foldl_keeps _ Lane.apartOutputs (Lane.vpoOne_apart me) os l

theorem Lane.flaskMerge_eq {l : Lane} {p : MergePlan} (hmerge : l.thm.merge = some p) (hslot : l.slot ≠ l.firstSlot) :
    l.flaskMerge =
      let r := mergeFlask l.feeders l.thm (fun c => l.dict.nat (0x3010 + c) 2 == 1) p
      { l with feeders := r.1, thm := { r.2 with lastFlask := p.fseq, merging := true, want := some l.slot } } := by
  unfold Lane.flaskMerge
  rw [hmerge]
  exact if_neg hslot

theorem Lane.flaskMerge_none {l : Lane} (h : l.thm.merge = none ∨ l.slot = l.firstSlot) : l.flaskMerge = l := by
  unfold Lane.flaskMerge
  split
  · rfl
  · next p hp => exact if_pos (h.resolve_left (by simp [hp]))

theorem Lane.flaskMerge_cases (l : Lane) : l.flaskMerge = l ∨ ∃ fs cs fq mg w,
    l.flaskMerge = { l with feeders := fs
                            thm := { l.thm with circs := cs, merge := none, lastFlask := fq, merging := mg, want := w } } := by
  cases hmerge : l.thm.merge with
  | none => exact .inl (Lane.flaskMerge_none (.inl hmerge))
  | some p =>
    by_cases hslot : l.slot = l.firstSlot
    · exact .inl (Lane.flaskMerge_none (.inr hslot))
    · exact .inr ⟨_, _, _, _, _, Lane.flaskMerge_eq hmerge hslot⟩

theorem Lane.flaskMerge_apart (l : Lane) : l.flaskMerge.apartMetering = l.apartMetering ∧ l.flaskMerge.thm.vpo = l.thm.vpo := by
  rcases l.flaskMerge_cases with h | ⟨fs, cs, fq, mg, w, h⟩ <;> rw [h] <;> exact ⟨rfl, rfl⟩

theorem Lane.thmTaken_apart (l : Lane) : l.thmTaken.apartMetering = l.apartMetering ∧ l.thmTaken.thm.vpo = l.thm.vpo :=
  ⟨rfl, rfl⟩

/-- What precedes the pulse outputs leaves them and all that metering does not change. -/
theorem Lane.thmReady_apart (l : Lane) : l.thmReady.apartMetering = l.apartMetering ∧ l.thmReady.thm.vpo = l.thm.vpo := by
  have hcredit := l.thmTaken.thmLatches.flaskMerge.thmCredited_apart
  have hflask := l.thmTaken.thmLatches.flaskMerge_apart
  have hlatch := l.thmTaken.thmLatches_apart
  have htaken := l.thmTaken_apart
  constructor
  · calc l.thmReady.apartMetering
      _ = l.thmTaken.thmLatches.flaskMerge.apartMetering := Lane.apartMetering_of_credits hcredit
      _ = l.thmTaken.thmLatches.apartMetering := hflask.1
      _ = l.thmTaken.apartMetering := Lane.apartMetering_of_latches hlatch
      _ = l.apartMetering := htaken.1
  · calc l.thmReady.thm.vpo
      _ = l.thmTaken.thmLatches.flaskMerge.thm.vpo := Lane.vpo_of_credits hcredit
      _ = l.thmTaken.thmLatches.thm.vpo := hflask.2
      _ = l.thmTaken.thm.vpo := Lane.vpo_of_latches hlatch
      _ = l.thm.vpo := htaken.2

theorem Lane.unitsTaken_apart (l : Lane) : l.unitsTaken.apartMetering = l.apartMetering := rfl

theorem Lane.vpoSlot_apart (l : Lane) (me : LaneId) : (l.vpoSlot me).apartMetering = l.apartMetering := by
  rw [Lane.vpoSlot_eq, Lane.unitsTaken_apart]
  exact Lane.apartMetering_of_outputs (Lane.foldl_vpoOne_apart me (List.range 16) l)

theorem Lane.thmDone_apart (l : Lane) : l.thmDone.apartMetering = l.apartMetering := rfl

/-! ### The whole instant -/

theorem Lane.meters_of_apart {l m : Lane} (h : l.apartMetering = m.apartMetering) : l.meters = m.meters :=
  (congrArg Lane.meters h :)
theorem Lane.stage_of_feeders {l m : Lane} (h : l.apartFeeders = m.apartFeeders) : l.thm.stage = m.thm.stage :=
  (congrArg (fun l : Lane => l.thm.stage) h :)

theorem Lane.mtrSlot_rest (l : Lane) : l.mtrSlot.apartMetering = l.apartMetering := Lane.apartMetering_of_feeders l.mtrSlot_apart

theorem Lane.meterSlot_eq {l : Lane} (me : LaneId) (hmeters : l.meters = true) (hstage : l.thm.stage = 0) :
    ∃ clip, l.meterSlot me = ((l.mtrSlot.thmReady.vpoSlot me).thmDone).reg fun m => forBits m f_MTR_CLIPSEEN_CLIP clip := by
  have hmeters' : l.mtrSlot.meters = true := (Lane.meters_of_apart l.mtrSlot_rest).trans hmeters
  have hstage' : l.mtrSlot.thm.stage = 0 := (Lane.stage_of_feeders l.mtrSlot_apart).trans hstage
  unfold Lane.meterSlot
  rw [Lane.thmSlot_eq, if_pos ⟨hmeters', by simp [hstage']⟩]
  exact ⟨_, rfl⟩

theorem Lane.thmSlot_rest (l : Lane) (me : LaneId) : (l.thmSlot me).apartMetering = l.apartMetering := by
  rw [Lane.thmSlot_eq]
  split
  · rw [Lane.thmDone_apart, Lane.vpoSlot_apart, l.thmReady_apart.1]
  · rfl

theorem Lane.reg_rest (l : Lane) (f : RegMap → RegMap) : (l.reg f).apartMetering = l.apartMetering := rfl

/-- The metering instant leaves all but the state of metering, the registers and the frames sent. -/
theorem Lane.meterSlot_rest (l : Lane) (me : LaneId) : (l.meterSlot me).apartMetering = l.apartMetering := by
  rw [Lane.meterSlot, Lane.reg_rest, Lane.thmSlot_rest, Lane.mtrSlot_rest]

end Sys2Proof.Machine
end

section
/-! Trips and resets of one lane (R252, R423, R425, R472), and its ECC errors (R382). -/
namespace Sys2Proof.Machine

/-! ### The trip of a lane -/

theorem Lane.trips_other {l : Lane} (me : LaneId) (cause : Nat) (htrip : l.trip = none) (hmeters : l.meters = false) :
    l.trips me cause = { l with trip := some { slot := l.slot, written := true } } := by
  simp [Lane.trips, htrip, hmeters]

theorem Lane.trip_of_meters {l : Lane} (h : l.meters = true) : l.trip = none := by
  simp only [Lane.meters, Bool.and_eq_true, Option.isNone_iff_eq_none] at h
  exact h.2

/-- The lane whose metering instant, where one is in progress, has been completed. -/
def Lane.settled (l : Lane) (me : LaneId) : Lane := if l.metering then l.meterSlot me else l

theorem Lane.settled_rest (l : Lane) (me : LaneId) : (l.settled me).apartMetering = l.apartMetering := by
  unfold Lane.settled
  split
  · exact l.meterSlot_rest me
  · rfl

/-- A lane that meters completes the instant, and writes a flask with the cause of the trip. -/
theorem Lane.trips_metering {l : Lane} (me : LaneId) (cause : Nat) (h : l.meters = true) :
    ∃ (fs : List Feeder) (k : BitVec 64) (n : Nvm), l.trips me cause = { l.settled me with
      feeders := fs, trip := some { slot := k, written := false }, nvm := n } ∧ ∃ f, n.flaskBusy = some f ∧ f.cause = cause := by
  have htrips : l.trips me cause = l.tripNow me cause := by simp [Lane.trips, Lane.trip_of_meters h, h]
  rw [htrips, Lane.tripNow, if_neg (by simp [h])]
  exact ⟨_, _, _, rfl, _, rfl, rfl⟩

theorem Lane.trips_rtc (l : Lane) (me : LaneId) (cause : Nat) : (l.trips me cause).rtc = l.rtc := by
  have hsettled : (l.settled me).rtc = l.rtc := (congrArg Lane.rtc (l.settled_rest me) :)
  by_cases hmeters : l.meters = true
  · obtain ⟨fs, k, n, h, -⟩ := Lane.trips_metering me cause hmeters
    rw [h]
    exact hsettled
  · unfold Lane.trips
    rw [if_neg hmeters]
    split <;> rfl

/-- A lane that is held or has tripped is left alone. -/
theorem State.tripLane_idle {s : State} {x : LaneId} (cause : Nat) (h : (s.lane x).life = .held ∨ (s.lane x).trip ≠ none) :
    s.tripLane x cause = s := if_neg fun ⟨hlife, htrip⟩ => h.elim hlife fun h => h htrip

theorem State.tripLane_eq {s : State} {x : LaneId} (cause : Nat) (hlife : (s.lane x).life ≠ .held)
    (htrip : (s.lane x).trip = none) : s.tripLane x cause = { s.setLane x ((s.lane x).trips x cause) with arb := { s.arb with
      regs := (s.arb.irq 12).regs, msix := (s.arb.irq 12).msix, msi := (s.arb.irq 12).msi } } := by
  have harb := congrArg (fun a : Arb => { a with
    regs := (s.arb.irq 12).regs, msix := (s.arb.irq 12).msix, msi := (s.arb.irq 12).msi }) (s.arb.irq_frame 12)
  rw [State.tripLane, if_pos ⟨hlife, htrip⟩, State.onArb, State.onLane, State.setLane_arb]
  exact congrArg (fun a : Arb => { s.setLane x ((s.lane x).trips x cause) with arb := a }) harb

theorem State.tripLane_rtc (s : State) (x : LaneId) (cause : Nat) : ((s.tripLane x cause).lane x).rtc = (s.lane x).rtc := by
  unfold State.tripLane
  split
  · simp [Lane.trips_rtc]
  · rfl

theorem State.tripLane_other (s : State) {x y : LaneId} (cause : Nat) (h : y ≠ x) : (s.tripLane x cause).lane y = s.lane y := by
  unfold State.tripLane
  split
  · simp [State.lane_onLane_other s _ h]
  · rfl

theorem State.tripLane_flask {s : State} {x : LaneId} (cause : Nat) (hlife : (s.lane x).life ≠ .held)
    (hmeters : (s.lane x).meters = true) : ((s.tripLane x cause).lane x).nvm.flaskBusy.isSome = true := by
  obtain ⟨fs, k, n, h, f, hflask, -⟩ := Lane.trips_metering x cause hmeters
  simp [State.tripLane, hlife, Lane.trip_of_meters hmeters, h, hflask]

/-! ### The reset of a lane -/

theorem ImageClass.cutOff_rec0 (c : ImageClass) (me : LaneId) (waits : Bool) : (c.cutOff me waits).rec0 = c.rec0 := by
  unfold ImageClass.cutOff
  dsimp only
  repeat' split
  all_goals rfl

/-- A reset cuts writes off: the records and generations stay, and a flask still being written fails its CRC. -/
theorem Nvm.cutOff_keeps (n : Nvm) (me : LaneId) : (n.cutOff me).gens = n.gens ∧ (n.cutOff me).dict.rec0 = n.dict.rec0 ∧
    (n.flaskBusy.isSome = true → (n.cutOff me).flask.valid = false) := by
  have hcut (b : Bool) := n.dict.cutOff_rec0 me b
  unfold Nvm.cutOff
  split
  all_goals
    dsimp only
    split
    · exact ⟨rfl, hcut _, fun _ => rfl⟩
    · next h => exact ⟨rfl, hcut _, fun hbusy => absurd hbusy h⟩

theorem State.lane_resetLane_same (s : State) (x : LaneId) :
    (s.resetLane x id).lane x = (s.lane x).afterReset x laneReset := by
  simp [State.resetLane]

theorem State.lane_resetLane_other (s : State) {x y : LaneId} (h : y ≠ x) : (s.resetLane x id).lane y = s.lane y := by
  simp [State.resetLane, State.lane_onLane_other s _ h]

theorem Lane.afterReset_frame (l : Lane) (me : LaneId) :
    { l.afterReset me laneReset with rtc := laneReset.rtc, nvm := laneReset.nvm, shadow := laneReset.shadow } = laneReset := rfl

theorem Arb.dropJoiner_of_joiner {a : Arb} (x : LaneId) (hjoining : a.joining = true) (hjoiner : a.joiner = x) :
    (a.dropJoiner x).joining = false := by
  simp [Arb.dropJoiner, hjoining, hjoiner]

theorem Arb.dropJoiner_idle {a : Arb} (x : LaneId) (h : a.joining = false) : a.dropJoiner x = a := by
  simp [Arb.dropJoiner, h]

/-! ### ECC errors -/

/-- An error in DRAM is shown by its address, and by the flag of its kind. -/
theorem Lane.drcError_shows (l : Lane) (corr : Bool) (addr : Nat) :
    fget (l.drcError corr addr).regs f_DRC_ECCADDR_ADDR = addr % 2 ^ (f_DRC_ECCADDR_ADDR.hi + 1 - f_DRC_ECCADDR_ADDR.lo) ∧
    fget (l.drcError corr addr).regs (if corr then f_DRC_STAT_CE else f_DRC_STAT_UCE) = 1 := by
  cases corr
  all_goals
    constructor
    · exact (fget_fset_other _ _ _ _ (by decide)).trans <| (fget_fset_other _ _ _ _ (by decide)).trans <|
        fget_fset_same _ _ _ (by decide) (by decide)
    · exact (fget_fset_other _ _ _ _ (by decide)).trans (fget_fflag_same _ rfl (by decide))

theorem Lane.raiseUce_cause (l : Lane) {n : Nat} (h : n < 256) : fget (l.raiseUce n).regs f_LCTL_RJSTAT_UCECAUSE = n :=
  (fget_fset_same _ _ _ (by decide) (by decide)).trans (Nat.mod_eq_of_lt h)

theorem Lane.raiseUce_fget (l : Lane) (n : Nat) {f : Fld} (h : f.key ≠ f_LCTL_RJSTAT_UCECAUSE.key) :
    fget (l.raiseUce n).regs f = fget l.regs f := fget_fset_other _ _ _ _ h

/-- The lane with an error in DRAM shown, and as it was after an error elsewhere. -/
def Lane.eccShown (l : Lane) (corr : Bool) (site : EccSite) (addr : Nat) : Lane :=
  if site = .dram then l.drcError corr addr else l

theorem Lane.eccShown_frame (l : Lane) (corr : Bool) (site : EccSite) (addr : Nat) :
    { l.eccShown corr site addr with regs := l.regs } = l := by
  unfold Lane.eccShown
  split <;> rfl

theorem Lane.eccCount_memory (l : Lane) {site : EccSite} (h : site ≠ .tile) :
    l.eccCount site = { l with rep := { l.rep with cecc := satAdd 0xFFFF l.rep.cecc 1 } } := by
  cases site
  case tile => exact absurd rfl h
  all_goals rfl

/-! ### The obligation -/

/-- Settles O35: a trip by the lemmas of `Lane.trips`, a reset by `State.lane_resetLane_same` and `Nvm.cutOff_keeps`, an ECC error
by what DRC shows of it and by the counter or the UCE it raises. -/
theorem lanesTripAndReset : Obligations.LanesTripAndReset := by
  unfold Obligations.LanesTripAndReset
  refine ⟨fun s x hruns hlife htrip p hp => ?trips, fun s x h => ?idle, fun s x htrip => ?selfReset, fun s x hlife => ?railReset,
    fun s x corr site addr hlife => ?ecc⟩
  case trips =>
    have hexec : exec p.1 s = .next (s.tripLane x p.2) := by rcases hp with rfl | rfl <;> rfl
    have hcause : (fget (s.arb.irq 12).regs f_ARB_IRQSTAT_CAUSE).testBit 12 = true := by
      rw [Arb.irq_regs, if_pos hruns]
      exact fget_forBits_bit _ _ _ (by decide) (by decide) (by decide)
    refine ⟨(s.lane x).trips x p.2, _, _, _, hexec.trans (congrArg _ (State.tripLane_eq p.2 hlife htrip)), hcause,
      Lane.trips_other x p.2 htrip, fun hmeters => ?_⟩
    obtain ⟨fs, k, n, h, hflask⟩ := Lane.trips_metering x p.2 hmeters
    rw [h]
    refine ⟨⟨k, rfl⟩, hflask, fun hmetering => ?_⟩
    have hsettled : (s.lane x).settled x = s.lane x := if_neg (by simp [hmetering])
    rw [hsettled]
    exact ⟨rfl, rfl⟩
  case idle => exact ⟨congrArg Host.Outcome.next (State.tripLane_idle 1 h), congrArg Host.Outcome.next (State.tripLane_idle 2 h)⟩
  case selfReset =>
    obtain ⟨hgens, hrec, -⟩ := (s.lane x).nvm.cutOff_keeps x
    refine ⟨s.resetLane x id, congrArg Host.Outcome.next (if_pos (Option.isSome_iff_ne_none.mpr htrip)), ?_⟩
    rw [State.lane_resetLane_same]
    exact ⟨Lane.afterReset_frame _ x, rfl, rfl, hgens, hrec, fun y hy => s.lane_resetLane_other hy, s.onLane_isl _ _,
      s.onLane_bak _ _, fun hjoining hjoiner => (congrArg (fun a => (Arb.dropJoiner a x).joining) (s.onLane_arb _ _)).trans
        (Arb.dropJoiner_of_joiner x hjoining hjoiner),
      fun hjoining => (congrArg (Arb.dropJoiner · x) (s.onLane_arb _ _)).trans (Arb.dropJoiner_idle x hjoining)⟩
  case railReset =>
    refine ⟨(s.tripLane x 2).resetLane x id, congrArg Host.Outcome.next (if_neg hlife), ?_⟩
    rw [State.lane_resetLane_same]
    refine ⟨Lane.afterReset_frame _ x, (congrArg Rtc.sec (s.tripLane_rtc x 2) :), fun y hy => ?_, fun hmeters => ?_⟩
    · rw [State.lane_resetLane_other _ hy, State.tripLane_other s 2 hy]
    · exact (Nvm.cutOff_keeps _ x).2.2 (State.tripLane_flask 2 hlife hmeters)
  case ecc =>
    intro l
    have hhappens : (l.life != .held) = true := bne_iff_ne.mpr hlife
    have hframe := congrArg (fun m : Lane => { m with rep := l.rep }) (l.eccShown_frame corr site addr)
    have hrep := congrArg Lane.rep (l.eccShown_frame corr site addr)
    have hshown (h : site = .dram) : l.eccShown corr site addr = l.drcError corr addr := if_pos h
    have helse (h : site ≠ .dram) : l.eccShown corr site addr = l := if_neg h
    obtain ⟨haddr, hflag⟩ := l.drcError_shows corr addr
    cases corr with
    | true =>
      by_cases htile : site = .tile
      · subst htile
        exact ⟨l.eccCount .tile, laneWhen_to hhappens rfl, rfl, fun _ _ => rfl, fun _ h => absurd rfl h, nofun, nofun, nofun,
          fun _ _ => rfl⟩
      · refine ⟨_, laneWhen_to hhappens (Lane.eccCount_memory _ htile), hframe, fun _ h => absurd h htile,
          fun _ _ => congrArg (fun r : ReportState => { r with cecc := satAdd 0xFFFF r.cecc 1 }) hrep, nofun, nofun,
          fun h => ⟨?_, fun _ => ?_, nofun⟩, fun h _ => (congrArg Lane.regs (helse h) :)⟩
        · exact (congrArg (fun m : Lane => fget m.regs f_DRC_ECCADDR_ADDR) (hshown h)).trans haddr
        · exact (congrArg (fun m : Lane => fget m.regs f_DRC_STAT_CE) (hshown h)).trans hflag
    | false =>
      by_cases htile : site = .tile
      · subst htile
        exact ⟨l, laneWhen_to hhappens rfl, rfl, nofun, nofun, fun _ h => absurd rfl h, fun _ _ => rfl, nofun, nofun⟩
      · refine ⟨(l.eccShown false site addr).raiseUce 1, laneWhen_to hhappens (if_neg htile), hframe, nofun, nofun,
          fun _ _ => ⟨congrArg (fun r : ReportState => { r with uce := if r.uce = 0 then 1 else r.uce }) hrep,
            Lane.raiseUce_cause _ (by decide)⟩, fun _ h => absurd h htile, fun h => ⟨?_, nofun, fun _ => ?_⟩, nofun⟩
        · rw [Lane.raiseUce_fget _ _ (by decide), hshown h, haddr]
        · rw [Lane.raiseUce_fget _ _ (by decide), hshown h]
          exact hflag

end Sys2Proof.Machine
end

section
/-! What the metering instant does to the circuits, the flask and the pulse outputs (R248, R254, R257 to R259). -/
namespace Sys2Proof.Machine

/-! ### Latches of the circuits (R248) -/

/-- A circuit's last sequence number and its records. -/
def Circ.records (u : Circ) : Nat × List Bytes × NMap Bytes := (u.seq, u.fresh, u.ring)

theorem Lane.circ_of_getElem? {l : Lane} {c : Nat} {u : Circ} (h : l.thm.circs[c]? = some u) : l.circ c = u := by
  simp [Lane.circ, List.getD_eq_getElem?_getD, h]

theorem fget_forBits_keeps {m : RegMap} {f : Fld} {b : Nat} (v : Nat) (hlo : f.lo ≤ f.hi) (hhi : f.hi < 32)
    (h : (fget m f).testBit b = true) : (fget (forBits m f v) f).testBit b = true := by
  have hb : b < f.hi + 1 - f.lo := by
    by_contra hb
    rw [fget, Nat.testBit_mod_two_pow] at h
    simp [hb] at h
  rw [forBits, fget_fset_same m f _ hlo hhi, Nat.testBit_mod_two_pow, Nat.testBit_or, h]
  simp [hb]

theorem Lane.circLatch_due {l : Lane} {c : Nat} {u : Circ} (hc : c < 8) (hdue : l.circLatchDue c = true)
    (hu : l.thm.circs[c]? = some u) :
    (l.circLatch c).thm.circs[c]? = some (u.latch c (l.dict.circCfg c) l.slot l.img.tb) ∧
    (l.circLatch c).thm.want = some l.slot ∧ (fget (l.circLatch c).regs f_THM_STAT_LATCHED).testBit c = true := by
  rw [Lane.circLatch, if_pos hdue]
  exact ⟨(getElem?_lmod _ hu).1, rfl, fget_forBits_bit _ _ _ (by decide) (by decide) hc⟩

theorem Lane.circLatch_idle {l : Lane} {c : Nat} (hdue : l.circLatchDue c = false) : l.circLatch c = l :=
  if_neg (by simp [hdue])

/-- The latch of one circuit leaves the others, the slot of a latch before it, and the bits of STAT already set. -/
theorem Lane.circLatch_other (l : Lane) {c k : Nat} {u : Circ} (hk : k ≠ c) (hu : l.thm.circs[c]? = some u) :
    (l.circLatch k).thm.circs[c]? = some u ∧ (l.thm.want = some l.slot → (l.circLatch k).thm.want = some l.slot) ∧
    ((fget l.regs f_THM_STAT_LATCHED).testBit c = true → (fget (l.circLatch k).regs f_THM_STAT_LATCHED).testBit c = true) := by
  cases hdue : l.circLatchDue k with
  | true =>
    rw [Lane.circLatch, if_pos hdue]
    refine ⟨?_, fun _ => rfl, fget_forBits_keeps _ (by decide) (by decide)⟩
    exact (List.getElem?_modify_ne _ _ hk).trans hu
  | false =>
    rw [Lane.circLatch_idle hdue]
    exact ⟨hu, id, id⟩

theorem Lane.slot_of_latches {l m : Lane} (h : l.apartLatches = m.apartLatches) : l.slot = m.slot :=
  (congrArg Lane.slot h :)
theorem Lane.latchDue_of_latches {l m : Lane} (h : l.apartLatches = m.apartLatches) (c : Nat) :
    l.circLatchDue c = m.circLatchDue c :=
  (congrArg (fun l : Lane => l.circLatchDue c) h :)
theorem Lane.latch_of_latches {l m : Lane} (h : l.apartLatches = m.apartLatches) (u : Circ) (c : Nat) :
    u.latch c (l.dict.circCfg c) l.slot l.img.tb = u.latch c (m.dict.circCfg c) m.slot m.img.tb :=
  (congrArg (fun l : Lane => u.latch c (l.dict.circCfg c) l.slot l.img.tb) h :)

/-- The circuit as the latches of the slot find it. -/
def Lane.LatchAhead (l : Lane) (c : Nat) (u : Circ) (m : Lane) : Prop :=
  m.apartLatches = l.apartLatches ∧ m.thm.circs[c]? = some u
/-- The circuit latched, with what shows the latch. -/
def Lane.LatchDone (l : Lane) (c : Nat) (u : Circ) (m : Lane) : Prop :=
  m.apartLatches = l.apartLatches ∧ m.thm.circs[c]? = some (u.latch c (l.dict.circCfg c) l.slot l.img.tb) ∧
  m.thm.want = some l.slot ∧ (fget m.regs f_THM_STAT_LATCHED).testBit c = true

theorem Lane.LatchAhead.other {l m : Lane} {c k : Nat} {u : Circ} (h : l.LatchAhead c u m) (hk : k ≠ c) :
    l.LatchAhead c u (m.circLatch k) :=
  ⟨(m.circLatch_apart k).trans h.1, (m.circLatch_other hk h.2).1⟩

theorem Lane.LatchAhead.idle {l m : Lane} {c : Nat} {u : Circ} (h : l.LatchAhead c u m) (hdue : l.circLatchDue c = false) :
    l.LatchAhead c u (m.circLatch c) := by
  rwa [Lane.circLatch_idle ((Lane.latchDue_of_latches h.1 c).trans hdue)]

theorem Lane.LatchAhead.due {l m : Lane} {c : Nat} {u : Circ} (h : l.LatchAhead c u m) (hc : c < 8)
    (hdue : l.circLatchDue c = true) : l.LatchDone c u (m.circLatch c) := by
  obtain ⟨hapart, hu⟩ := h
  have hlatch := Lane.circLatch_due hc ((Lane.latchDue_of_latches hapart c).trans hdue) hu
  rw [Lane.latch_of_latches hapart, Lane.slot_of_latches hapart] at hlatch
  exact ⟨(m.circLatch_apart c).trans hapart, hlatch⟩

theorem Lane.LatchDone.other {l m : Lane} {c k : Nat} {u : Circ} (h : l.LatchDone c u m) (hk : k ≠ c) :
    l.LatchDone c u (m.circLatch k) := by
  obtain ⟨hapart, hu, hwant, hbit⟩ := h
  obtain ⟨hu', hwant', hbit'⟩ := m.circLatch_other hk hu
  rw [Lane.slot_of_latches hapart] at hwant'
  exact ⟨(m.circLatch_apart k).trans hapart, hu', hwant' hwant, hbit' hbit⟩

/-- The mark that the latches of the slot are done. -/
def Lane.latchesMarked (l : Lane) : Lane := { l with thm := { l.thm with stage := 1 } }

theorem Lane.thmLatches_eq {l : Lane} (h : l.thm.stage = 0) :
    l.thmLatches = ((List.range 8).foldl Lane.circLatch l).latchesMarked :=
  if_pos h

theorem Lane.LatchAhead.marked {l m : Lane} {c : Nat} {u : Circ} (h : l.LatchAhead c u m) : l.LatchAhead c u m.latchesMarked := h
theorem Lane.LatchDone.marked {l m : Lane} {c : Nat} {u : Circ} (h : l.LatchDone c u m) : l.LatchDone c u m.latchesMarked := h

section latches
variable {l : Lane} {c : Nat} {u : Circ} (hstage : l.thm.stage = 0) (hc : c < 8) (hu : l.thm.circs[c]? = some u)
include hstage hc hu

theorem Lane.thmLatches_due (hdue : l.circLatchDue c = true) : l.LatchDone c u l.thmLatches := by
  rw [Lane.thmLatches_eq hstage]
  refine .marked ?_
  exact foldl_passes (P := l.LatchAhead c u) (Q := l.LatchDone c u) List.nodup_range
    (List.mem_range.mpr hc) (fun _ _ hk h => h.other hk) (fun _ h => h.due hc hdue) (fun _ _ hk h => h.other hk) ⟨rfl, hu⟩

theorem Lane.thmLatches_idle (hdue : l.circLatchDue c = false) : l.LatchAhead c u l.thmLatches := by
  rw [Lane.thmLatches_eq hstage]
  refine .marked ?_
  exact foldl_passes (P := l.LatchAhead c u) (Q := l.LatchAhead c u) List.nodup_range
    (List.mem_range.mpr hc) (fun _ _ hk h => h.other hk) (fun _ h => h.idle hdue) (fun _ _ hk h => h.other hk) ⟨rfl, hu⟩

end latches

/-! ### What follows the merge of the flask -/

/-- The rest of the metering instant, from the credits of the circuits on. -/
def Lane.afterMerge (l : Lane) (me : LaneId) (clip : Nat) : Lane :=
  ((l.thmCredited.vpoSlot me).thmDone).reg fun m => forBits m f_MTR_CLIPSEEN_CLIP clip

/-- The state of the flask: its plan, the last one merged, whether the merged record is still to be written, and the slot of a
record that is asked for. -/
def Lane.flaskView (l : Lane) : Option MergePlan × BitVec 32 × Bool × Option (BitVec 64) :=
  (l.thm.merge, l.thm.lastFlask, l.thm.merging, l.thm.want)

theorem Lane.modCirc_records (l : Lane) (c k : Nat) {g : Circ → Circ} (h : ∀ u, (g u).records = u.records) :
    ((l.modCirc c g).circ k).records = (l.circ k).records := getD_lmod_keeps h _ _ _ _

theorem Circ.idle_records (u : Circ) : u.idle.records = u.records := by
  simp only [Circ.records, Circ.idle]

theorem Circ.setAcc_records (u : Circ) (a : ThmAcc) : { u with acc := a }.records = u.records := by
  simp only [Circ.records]

theorem Circ.slot_records (u : Circ) (i : Nat) (g : CircCfg) (h : SlotHeat) (ts tr : Nat) (fault : Bool) :
    (u.slot i g h ts tr fault).records = u.records := by
  simp only [Circ.records, Circ.slot]

theorem Lane.circSlot_records (l : Lane) (c k : Nat) : ((l.circSlot c).circ k).records = (l.circ k).records := by
  unfold Lane.circSlot
  dsimp only
  split
  · exact (Lane.modCirc_records _ c k Circ.idle_records).trans (Lane.modCirc_records l c k fun u => u.setAcc_records _)
  · refine (Lane.modCirc_records _ c k fun u => ?_).trans (Lane.modCirc_records l c k fun u => u.setAcc_records _)
    exact u.slot_records _ _ _ _ _ _

theorem Lane.inputsTaken_circ (l : Lane) (k : Nat) : l.inputsTaken.circ k = l.circ k := rfl

theorem Lane.thmCredited_records (l : Lane) (k : Nat) : (l.thmCredited.circ k).records = (l.circ k).records := by
  rw [Lane.thmCredited, Lane.inputsTaken_circ]
  exact foldl_keeps Lane.circSlot (fun l : Lane => (l.circ k).records) (fun l c => l.circSlot_records c k) (List.range 8) l

theorem Lane.flaskView_of_credits {l m : Lane} (h : l.apartCredits = m.apartCredits) :
    l.flaskView = m.flaskView ∧ l.feeders = m.feeders ∧ l.regs = m.regs :=
  ⟨(congrArg Lane.flaskView h :), (congrArg Lane.feeders h :), (congrArg Lane.regs h :)⟩

theorem Lane.flaskView_of_outputs {l m : Lane} (h : l.apartOutputs = m.apartOutputs) :
    l.flaskView = m.flaskView ∧ l.feeders = m.feeders ∧ l.thm.circs = m.thm.circs :=
  ⟨(congrArg Lane.flaskView h :), (congrArg Lane.feeders h :), (congrArg (fun l : Lane => l.thm.circs) h :)⟩

theorem Lane.vpoOne_latched (me : LaneId) (l : Lane) (o : Nat) :
    fget (l.vpoOne me o).regs f_THM_STAT_LATCHED = fget l.regs f_THM_STAT_LATCHED := by
  have hstart (m : Lane) : (m.vpoStart me o).regs = m.regs := by
    unfold Lane.vpoStart
    split
    · rfl
    · split <;> rfl
  rw [Lane.vpoOne, hstart]
  unfold Lane.vpoAccrue
  dsimp only
  split
  · split
    · rfl
    · exact (fget_fset_other _ _ _ _ (by simp [Fld.at, f_THM_STAT_LATCHED, f_THM_VPOSTAT_OVERFLOW]; omega)).trans
        (fget_fset_other _ _ _ _ (by simp [Fld.at, f_THM_STAT_LATCHED, f_THM_VPOCNT_LOST]; omega))
  · rfl

theorem Circ.unitsTaken_records (u : Circ) : u.unitsTaken.records = u.records := by
  simp only [Circ.records, Circ.unitsTaken]

theorem Lane.unitsTaken_keeps (l : Lane) : l.unitsTaken.flaskView = l.flaskView ∧
    l.unitsTaken.feeders = l.feeders.map Feeder.unitsTaken ∧ l.unitsTaken.regs = l.regs ∧
    ∀ c, (l.unitsTaken.circ c).records = (l.circ c).records :=
  ⟨rfl, rfl, rfl, fun c => getD_map_keeps Circ.unitsTaken_records l.thm.circs c circ0⟩

theorem Lane.vpoSlot_keeps (l : Lane) (me : LaneId) : (l.vpoSlot me).flaskView = l.flaskView ∧
    (l.vpoSlot me).feeders = l.feeders.map Feeder.unitsTaken ∧
    fget (l.vpoSlot me).regs f_THM_STAT_LATCHED = fget l.regs f_THM_STAT_LATCHED ∧
    ∀ c, ((l.vpoSlot me).circ c).records = (l.circ c).records := by
  have hlatched := foldl_keeps (Lane.vpoOne me) (fun l => fget l.regs f_THM_STAT_LATCHED) (Lane.vpoOne_latched me)
    (List.range 16) l
  obtain ⟨hview, hfeeders, hcircs⟩ := Lane.flaskView_of_outputs (Lane.foldl_vpoOne_apart me (List.range 16) l)
  rw [Lane.vpoSlot_eq]
  generalize (List.range 16).foldl (Lane.vpoOne me) l = m at hlatched hview hfeeders hcircs
  obtain ⟨hview', hfeeders', hregs', hcircs'⟩ := m.unitsTaken_keeps
  refine ⟨hview'.trans hview, hfeeders'.trans (congrArg _ hfeeders), (congrArg (fget · f_THM_STAT_LATCHED) hregs').trans hlatched,
    fun c => (hcircs' c).trans ?_⟩
  rw [Lane.circ, hcircs, Lane.circ]

theorem Lane.thmDone_reg_keeps (l : Lane) (clip : Nat) :
    let m := l.thmDone.reg fun m => forBits m f_MTR_CLIPSEEN_CLIP clip
    m.flaskView = l.flaskView ∧ m.feeders = l.feeders ∧
    fget m.regs f_THM_STAT_LATCHED = fget l.regs f_THM_STAT_LATCHED ∧ ∀ c, (m.circ c).records = (l.circ c).records :=
  ⟨rfl, rfl, fget_fset_other _ _ _ _ (by decide), fun _ => rfl⟩

theorem Lane.afterMerge_keeps (l : Lane) (me : LaneId) (clip : Nat) : (l.afterMerge me clip).flaskView = l.flaskView ∧
    (l.afterMerge me clip).feeders = l.feeders.map Feeder.unitsTaken ∧
    fget (l.afterMerge me clip).regs f_THM_STAT_LATCHED = fget l.regs f_THM_STAT_LATCHED ∧
    ∀ c, ((l.afterMerge me clip).circ c).records = (l.circ c).records := by
  obtain ⟨hview, hfeeders, hregs⟩ := Lane.flaskView_of_credits l.thmCredited_apart
  obtain ⟨hview', hfeeders', hlatched', hrecords'⟩ := l.thmCredited.vpoSlot_keeps me
  obtain ⟨hview'', hfeeders'', hlatched'', hrecords''⟩ := (l.thmCredited.vpoSlot me).thmDone_reg_keeps clip
  exact ⟨hview''.trans (hview'.trans hview), hfeeders''.trans (hfeeders'.trans (congrArg _ hfeeders)),
    hlatched''.trans (hlatched'.trans (congrArg (fget · f_THM_STAT_LATCHED) hregs)),
    fun c => (hrecords'' c).trans ((hrecords' c).trans (l.thmCredited_records c))⟩

end Sys2Proof.Machine
end

section
/-! Pulse outputs and the records of the totals (R251, R252, R257 to R259), and what a metering instant leaves of each circuit,
output and register. -/
namespace Sys2Proof.Machine

/-! ### One pulse output in one slot (R257 to R259) -/

/-- The output after the accrual of the slot; only an enabled one accrues. -/
def VpoOut.afterAccrual (v : VpoOut) (g : VpoCfg) (s : BitVec 64) (k : Nat) : VpoOut :=
  if g.enable then (v.accrue g s k).1 else v

/-- The output after the start that is due, and the width of the pulse it starts; none while the strobe carries ARBFAULT. -/
def VpoOut.begun (v : VpoOut) (g : VpoCfg) (s : BitVec 64) (fault : Bool) : VpoOut × Option Nat :=
  if fault then (v, none)
  else match v.start g s with
    | none => (v, none)
    | some (z, w) => (z, some w)

/-- The output after the slot, and the width of the pulse that it starts in it. -/
def VpoOut.served (v : VpoOut) (g : VpoCfg) (s : BitVec 64) (fault : Bool) (k : Nat) : VpoOut × Option Nat :=
  ((v.widthEnd s).afterAccrual g s k).begun g s fault

theorem VpoOut.afterAccrual_frame (v : VpoOut) (g : VpoCfg) (s : BitVec 64) (k : Nat) :
    { v.afterAccrual g s k with owed := v.owed, accr := v.accr, moved := v.moved } = v := by
  unfold VpoOut.afterAccrual
  split <;> rfl

theorem VpoOut.afterAccrual_owed {v : VpoOut} (g : VpoCfg) (s : BitVec 64) (k : Nat) (h : 1 ≤ v.owed) :
    1 ≤ (v.afterAccrual g s k).owed := by
  unfold VpoOut.afterAccrual
  split
  · exact le_min (by decide) (h.trans (Nat.le_add_right _ _))
  · exact h

/-- The pulses of the slot itself do not count for the width, nor those of more than 20,000 slots before. -/
theorem VpoOut.afterAccrual_effWidth (v : VpoOut) (g : VpoCfg) (s : BitVec 64) (k : Nat) :
    (v.afterAccrual g s k).effWidth g s = v.effWidth g s := by
  have hmoved (ms : List (BitVec 64 × Nat)) (hms : ms = v.moved ∨ ∃ n, ms = (s, n) :: v.moved) :
      (ms.filter fun m => decide (s.toNat ≤ m.1.toNat + 20000)).filter
        (fun m => decide (m.1.toNat < s.toNat) && decide (s.toNat ≤ m.1.toNat + 20000)) =
      v.moved.filter fun m => decide (m.1.toNat < s.toNat) && decide (s.toNat ≤ m.1.toNat + 20000) := by
    rw [List.filter_filter]
    rcases hms with rfl | ⟨n, rfl⟩ <;> simp
  unfold VpoOut.afterAccrual
  split
  · unfold VpoOut.accrue VpoOut.effWidth
    dsimp only
    rw [hmoved _ (by split; exacts [.inl rfl, .inr ⟨_, rfl⟩])]
  · rfl

theorem VpoOut.effWidth_pos (v : VpoOut) {g : VpoCfg} (s : BitVec 64) (h : 1 ≤ g.width) : 1 ≤ v.effWidth g s := by
  unfold VpoOut.effWidth
  dsimp only
  split
  · omega
  · split <;> omega

theorem VpoOut.start_disabled {v : VpoOut} {g : VpoCfg} (s : BitVec 64) (h : g.enable = false) : v.start g s = none := by
  simp [VpoOut.start, h]

theorem VpoOut.start_running {v : VpoOut} (g : VpoCfg) (s : BitVec 64) (h : v.active ≠ none) : v.start g s = none := by
  simp [VpoOut.start, h]

/-- No pulse starts in the slot in which one ended. -/
theorem VpoOut.start_ended {v : VpoOut} {g : VpoCfg} {s : BitVec 64} (hend : v.lastEnd = some s) (hwidth : 1 ≤ g.width) :
    v.start g s = none := by
  have hpos := v.effWidth_pos s hwidth
  simp only [VpoOut.start, hend]
  rw [if_neg]
  simp only [Bool.and_eq_true, decide_eq_true_eq]
  omega

theorem VpoOut.start_due {v : VpoOut} {g : VpoCfg} {s : BitVec 64} (henable : g.enable = true) (howed : 1 ≤ v.owed)
    (hidle : v.active = none) (hgap : ∀ e, v.lastEnd = some e → e.toNat + v.effWidth g s ≤ s.toNat) :
    ∃ z, v.start g s = some (z, v.effWidth g s) ∧ z.active = some (s, v.effWidth g s) ∧ z.lastEnd = v.lastEnd := by
  unfold VpoOut.start
  dsimp only
  rw [if_pos]
  · exact ⟨_, rfl, rfl, rfl⟩
  · cases hend : v.lastEnd with
    | none => simp [henable, howed, hidle]
    | some e => simp [henable, howed, hidle, hgap e hend]

theorem VpoOut.start_lastEnd {v z : VpoOut} {g : VpoCfg} {s : BitVec 64} {w : Nat} (h : v.start g s = some (z, w)) :
    z.lastEnd = v.lastEnd := by
  simp only [VpoOut.start, Option.ite_none_right_eq_some, Option.some.injEq, Prod.mk.injEq] at h
  obtain ⟨-, rfl, -⟩ := h
  rfl

theorem VpoOut.served_lastEnd (v : VpoOut) (g : VpoCfg) (s : BitVec 64) (fault : Bool) (k : Nat) :
    (v.served g s fault k).1.lastEnd = (v.widthEnd s).lastEnd := by
  have haccrued : ((v.widthEnd s).afterAccrual g s k).lastEnd = (v.widthEnd s).lastEnd :=
    (congrArg VpoOut.lastEnd ((v.widthEnd s).afterAccrual_frame g s k) :)
  unfold VpoOut.served VpoOut.begun
  split
  · exact haccrued
  · split
    · exact haccrued
    · next h => exact (VpoOut.start_lastEnd h).trans haccrued

theorem VpoOut.served_of_not_starting {v : VpoOut} {g : VpoCfg} {s : BitVec 64} {k : Nat} (fault : Bool)
    (h : ((v.widthEnd s).afterAccrual g s k).start g s = none) :
    (v.served g s fault k).1 = (v.widthEnd s).afterAccrual g s k := by
  simp only [VpoOut.served, VpoOut.begun, h]
  split <;> rfl

theorem VpoOut.widthEnd_waits {v : VpoOut} {s : BitVec 64}
    (h : v.active = none ∨ ∃ b k, v.active = some (b, k) ∧ s.toNat < b.toNat + k) : v.widthEnd s = v := by
  unfold VpoOut.widthEnd
  rcases h with h | ⟨b, k, h, hlt⟩
  · rw [h]
  · rw [h]
    exact if_neg (by omega)

theorem VpoOut.widthEnd_ends {v : VpoOut} {s b : BitVec 64} {w : Nat} (h : v.active = some (b, w))
    (hlast : b.toNat + w ≤ s.toNat) : v.widthEnd s = { v with
      owed := v.owed - 1, active := none, lastEnd := some s, backlog := v.backlog && decide (v.owed - 1 ≠ 0) } := by
  unfold VpoOut.widthEnd
  rw [h]
  exact if_pos hlast

/-- An owed pulse starts where none is in progress and the gap has passed (R258). -/
theorem VpoOut.served_starts {v : VpoOut} {g : VpoCfg} {s : BitVec 64} (k : Nat) (henable : g.enable = true)
    (hidle : v.active = none) (howed : 1 ≤ v.owed) (hgap : ∀ e, v.lastEnd = some e → e.toNat + v.effWidth g s ≤ s.toNat) :
    (v.served g s false k).1.active = some (s, v.effWidth g s) ∧ (v.served g s false k).1.lastEnd = v.lastEnd ∧
    (v.served g s false k).2 = some (v.effWidth g s) := by
  have hframe := v.afterAccrual_frame g s k
  have hwidth := v.afterAccrual_effWidth g s k
  obtain ⟨z, hstart, hactive, hend⟩ := VpoOut.start_due (v := v.afterAccrual g s k) henable (VpoOut.afterAccrual_owed g s k howed)
    ((congrArg VpoOut.active hframe :).trans hidle)
    (fun e he => hwidth.symm ▸ hgap e ((congrArg VpoOut.lastEnd hframe :).symm.trans he))
  rw [hwidth] at hstart hactive
  simp only [VpoOut.served, VpoOut.begun, VpoOut.widthEnd_waits (.inl hidle), hstart]
  exact ⟨hactive, hend.trans (congrArg VpoOut.lastEnd hframe :), rfl⟩

/-- A pulse within its width stays in progress. -/
theorem VpoOut.served_active {v : VpoOut} {g : VpoCfg} {s b : BitVec 64} {w : Nat} (fault : Bool) (k : Nat)
    (h : v.active = some (b, w)) (hlast : s.toNat < b.toNat + w) : (v.served g s fault k).1.active = v.active := by
  have hframe : (v.afterAccrual g s k).active = v.active := (congrArg VpoOut.active (v.afterAccrual_frame g s k) :)
  have hwaits : v.widthEnd s = v := VpoOut.widthEnd_waits (.inr ⟨b, w, h, hlast⟩)
  rw [VpoOut.served_of_not_starting fault (by rw [hwaits]; exact VpoOut.start_running g s (by simp [hframe, h])), hwaits]
  exact hframe

/-- A pulse whose width has passed ends, and no other starts in its slot (R259). -/
theorem VpoOut.served_ends {v : VpoOut} {g : VpoCfg} {s b : BitVec 64} {w : Nat} (fault : Bool) (k : Nat)
    (h : v.active = some (b, w)) (hlast : b.toNat + w ≤ s.toNat) :
    (v.served g s fault k).1.lastEnd = some s ∧
    (g.enable = false → (v.served g s fault k).1 = { v with
      owed := v.owed - 1, active := none, lastEnd := some s, backlog := v.backlog && decide (v.owed - 1 ≠ 0) }) ∧
    (1 ≤ g.width → (v.served g s fault k).1.active = none) := by
  have hends := VpoOut.widthEnd_ends h hlast
  have hframe := (v.widthEnd s).afterAccrual_frame g s k
  refine ⟨?_, fun hoff => ?_, fun hwidth => ?_⟩
  · rw [VpoOut.served_lastEnd, hends]
  · rw [VpoOut.served_of_not_starting fault (VpoOut.start_disabled s hoff), ← hends, VpoOut.afterAccrual, if_neg (by simp [hoff])]
  · have hend : ((v.widthEnd s).afterAccrual g s k).lastEnd = some s :=
      (congrArg VpoOut.lastEnd hframe :).trans (congrArg VpoOut.lastEnd hends)
    rw [VpoOut.served_of_not_starting fault (VpoOut.start_ended hend hwidth)]
    exact (congrArg VpoOut.active hframe :).trans (congrArg VpoOut.active hends)

/-! ### The pulse outputs of a lane -/

theorem Lane.vpoAccrue_at {l : Lane} {o : Nat} {v : VpoOut} (h : l.thm.vpo[o]? = some v) :
    (l.vpoAccrue o).thm.vpo[o]? = some (v.afterAccrual (l.dict.vpoCfg o) l.slot (l.vpoUnits (l.dict.vpoCfg o))) := by
  have hv : l.thm.vpo.getD o vpoOut0 = v := by simp [List.getD_eq_getElem?_getD, h]
  unfold Lane.vpoAccrue VpoOut.afterAccrual
  dsimp only
  rw [hv]
  split
  · split <;> exact (getElem?_lmod _ h).1
  · exact h

theorem Lane.vpoAccrue_other {l : Lane} {o j : Nat} (h : j ≠ o) : (l.vpoAccrue j).thm.vpo[o]? = l.thm.vpo[o]? := by
  unfold Lane.vpoAccrue
  dsimp only
  split
  · split <;> exact List.getElem?_modify_ne _ _ h
  · rfl

theorem Lane.vpoAccrue_sent (l : Lane) (o : Nat) : (l.vpoAccrue o).sent = l.sent := by
  unfold Lane.vpoAccrue
  dsimp only
  split
  · split <;> rfl
  · rfl

theorem Lane.vpoStart_other {l : Lane} (me : LaneId) {o j : Nat} (h : j ≠ o) :
    (l.vpoStart me j).thm.vpo[o]? = l.thm.vpo[o]? := by
  unfold Lane.vpoStart
  split
  · rfl
  · split
    · rfl
    · exact List.getElem?_modify_ne _ _ h

theorem Lane.vpoStart_sent (l : Lane) (me : LaneId) (o : Nat) : l.sent ⊆ (l.vpoStart me o).sent := by
  unfold Lane.vpoStart
  split
  · exact List.Subset.refl _
  · split
    · exact List.Subset.refl _
    · exact List.subset_append_left _ _

theorem Lane.vpoStart_at {l : Lane} (me : LaneId) {o : Nat} {u : VpoOut} (h : l.thm.vpo[o]? = some u) :
    let r := u.begun (l.dict.vpoCfg o) l.slot l.word.arbFault
    (l.vpoStart me o).thm.vpo[o]? = some r.1 ∧
    ∀ w, r.2 = some w → outFrame l.slot me 5 o (w * 65536 + 1) ∈ (l.vpoStart me o).sent := by
  have hu : l.thm.vpo.getD o vpoOut0 = u := by simp [List.getD_eq_getElem?_getD, h]
  unfold Lane.vpoStart VpoOut.begun
  rw [hu]
  cases l.word.arbFault with
  | true => exact ⟨h, nofun⟩
  | false =>
    cases u.start (l.dict.vpoCfg o) l.slot with
    | none => exact ⟨h, nofun⟩
    | some p =>
      refine ⟨(getElem?_lmod _ h).1, fun w hw => ?_⟩
      obtain rfl : p.2 = w := Option.some.inj hw
      exact List.mem_append_right _ (List.mem_singleton.mpr rfl)

/-- The output as the slot finds it. -/
def Lane.OutputAhead (l : Lane) (o : Nat) (v : VpoOut) (m : Lane) : Prop :=
  m.apartOutputs = l.apartOutputs ∧ m.thm.vpo[o]? = some v
/-- The output served, with the frame of the pulse it starts. -/
def Lane.OutputServed (l : Lane) (me : LaneId) (o : Nat) (v : VpoOut) (m : Lane) : Prop :=
  ∃ k, let r := v.served (l.dict.vpoCfg o) l.slot l.word.arbFault k
    m.thm.vpo[o]? = some r.1 ∧ ∀ w, r.2 = some w → outFrame l.slot me 5 o (w * 65536 + 1) ∈ m.sent

theorem Lane.inputs_of_outputs {l m : Lane} (h : l.apartOutputs = m.apartOutputs) :
    l.dict = m.dict ∧ l.slot = m.slot ∧ l.word = m.word :=
  ⟨(congrArg Lane.dict h :), (congrArg Lane.slot h :), (congrArg Lane.word h :)⟩

theorem Lane.vpoOne_at {l : Lane} (me : LaneId) {o : Nat} {v : VpoOut} (h : l.thm.vpo[o]? = some v) :
    l.OutputServed me o v (l.vpoOne me o) := by
  have hend : (l.vpoWidthEnd o).thm.vpo[o]? = some (v.widthEnd l.slot) := (getElem?_lmod _ h).1
  obtain ⟨hdict, hslot, hword⟩ := Lane.inputs_of_outputs ((l.vpoWidthEnd o).vpoAccrue_apart o)
  have hstart := Lane.vpoStart_at me (Lane.vpoAccrue_at hend)
  rw [hdict, hslot, hword] at hstart
  exact ⟨_, hstart⟩

theorem Lane.vpoOne_other {l : Lane} (me : LaneId) {o j : Nat} (h : j ≠ o) : (l.vpoOne me j).thm.vpo[o]? = l.thm.vpo[o]? := by
  rw [Lane.vpoOne, Lane.vpoStart_other me h, Lane.vpoAccrue_other h]
  exact List.getElem?_modify_ne _ _ h

theorem Lane.vpoOne_sent (l : Lane) (me : LaneId) (o : Nat) : l.sent ⊆ (l.vpoOne me o).sent := by
  have hstart := ((l.vpoWidthEnd o).vpoAccrue o).vpoStart_sent me o
  rwa [Lane.vpoAccrue_sent] at hstart

theorem Lane.OutputAhead.other {l m : Lane} {o j : Nat} {v : VpoOut} (me : LaneId) (h : l.OutputAhead o v m) (hj : j ≠ o) :
    l.OutputAhead o v (m.vpoOne me j) :=
  ⟨(Lane.vpoOne_apart me m j).trans h.1, (Lane.vpoOne_other me hj).trans h.2⟩

theorem Lane.OutputAhead.served {l m : Lane} {o : Nat} {v : VpoOut} (me : LaneId) (h : l.OutputAhead o v m) :
    l.OutputServed me o v (m.vpoOne me o) := by
  obtain ⟨hapart, hv⟩ := h
  obtain ⟨hdict, hslot, hword⟩ := Lane.inputs_of_outputs hapart
  have hserved := Lane.vpoOne_at me hv
  unfold Lane.OutputServed at hserved ⊢
  rwa [hdict, hslot, hword] at hserved

theorem Lane.OutputServed.other {l m : Lane} {me : LaneId} {o j : Nat} {v : VpoOut} (h : l.OutputServed me o v m) (hj : j ≠ o) :
    l.OutputServed me o v (m.vpoOne me j) := by
  obtain ⟨k, hv, hsent⟩ := h
  exact ⟨k, (Lane.vpoOne_other me hj).trans hv, fun w hw => m.vpoOne_sent me j (hsent w hw)⟩

theorem Lane.foldl_vpoOne_serves {l : Lane} (me : LaneId) {o : Nat} {v : VpoOut} (ho : o < 16) (h : l.thm.vpo[o]? = some v) :
    l.OutputServed me o v ((List.range 16).foldl (Lane.vpoOne me) l) :=
  foldl_passes (P := l.OutputAhead o v) (Q := l.OutputServed me o v) List.nodup_range (List.mem_range.mpr ho)
    (fun _ _ hj h => h.other me hj) (fun _ h => h.served me) (fun _ _ hj h => h.other hj) ⟨rfl, h⟩

theorem Lane.OutputServed.finish {l m : Lane} {me : LaneId} {o : Nat} {v : VpoOut} (h : l.OutputServed me o v m)
    (f : RegMap → RegMap) : l.OutputServed me o v (m.unitsTaken.thmDone.reg f) := h

end Sys2Proof.Machine
end

section
/-! The commands of the thermal metering instant and of the records of the totals (R248, R251, R252, R254, R257 to R259). -/
namespace Sys2Proof.Machine

/-! ### The lane that the instant leaves -/

/-- What the latches of the circuits find after the electrical part. -/
theorem Lane.latchInput_of_feeders {l m : Lane} (h : l.apartFeeders = m.apartFeeders) :
    l.thmTaken.thm.stage = m.thm.stage ∧ l.thmTaken.thm.circs = m.thm.circs ∧ l.thmTaken.thm.merge = m.thm.merge ∧
    (∀ c, l.thmTaken.circLatchDue c = m.circLatchDue c) ∧ l.thmTaken.dict = m.dict ∧ l.thmTaken.slot = m.slot ∧
    l.thmTaken.img = m.img ∧ l.thmTaken.firstSlot = m.firstSlot ∧ l.thmTaken.feeders = l.feeders :=
  ⟨(congrArg (fun l : Lane => l.thm.stage) h :), (congrArg (fun l : Lane => l.thm.circs) h :),
    (congrArg (fun l : Lane => l.thm.merge) h :), fun c => (congrArg (fun l : Lane => l.circLatchDue c) h :),
    (congrArg Lane.dict h :), (congrArg Lane.slot h :), (congrArg Lane.img h :), (congrArg Lane.firstSlot h :), rfl⟩

/-- What the merge of the flask finds after the latches. -/
theorem Lane.flaskInput_of_latches {l m : Lane} (h : l.apartLatches = m.apartLatches) :
    l.thm.merge = m.thm.merge ∧ l.slot = m.slot ∧ l.firstSlot = m.firstSlot ∧ l.feeders = m.feeders :=
  ⟨(congrArg (fun l : Lane => l.thm.merge) h :), (congrArg Lane.slot h :), (congrArg Lane.firstSlot h :),
    (congrArg Lane.feeders h :)⟩

/-- The lane of which the flask is still to be merged. -/
def Lane.flaskReady (l : Lane) : Lane := l.mtrSlot.thmTaken.thmLatches

theorem Lane.flaskReady_keeps (l : Lane) : l.flaskReady.thm.merge = l.thm.merge ∧ l.flaskReady.slot = l.slot ∧
    l.flaskReady.firstSlot = l.firstSlot ∧ l.flaskReady.feeders = l.mtrSlot.feeders := by
  obtain ⟨-, -, hmerge, -, -, hslot, -, hfirst, hfeeders⟩ := Lane.latchInput_of_feeders l.mtrSlot_apart
  obtain ⟨hmerge', hslot', hfirst', hfeeders'⟩ := Lane.flaskInput_of_latches l.mtrSlot.thmTaken.thmLatches_apart
  exact ⟨hmerge'.trans hmerge, hslot'.trans hslot, hfirst'.trans hfirst, hfeeders'.trans hfeeders⟩

theorem Circ.latch_records (u : Circ) (c : Nat) (g : CircCfg) (s tb : BitVec 64) :
    (u.latch c g s tb).records = ((u.seq + 1) % 2 ^ 32,
      u.fresh ++ [thmRecord c g.cold ((u.seq + 1) % 2 ^ 32) { u.acc with last := s - 1 } (u.regs.map (·.intv)) false],
      u.ring) := by
  simp only [Circ.records, Circ.latch, Circ.putRecord]

theorem mergeFlask_regs {fs : List Feeder} (t : Thm) (cold : Nat → Bool) (p : MergePlan) {f : Nat} (hf : f < fs.length) :
    ((mergeFlask fs t cold p).1.getD f feeder0).regs = (fs.getD f feeder0).regs.mapIdx fun r y =>
      y.merge (p.baseRes.getD (36 * f + r) 0) (p.regs.getD (36 * f + r) (0, 0, 0)) := by
  simp only [mergeFlask, List.getD_eq_getElem?_getD, List.getElem?_mapIdx, List.getElem?_eq_getElem hf, Option.map_some,
    Option.getD_some]
  split <;> rfl

/-- The merge takes the flask's plan and asks for the merged record; every register takes its entry of the plan (R254). -/
theorem Lane.flaskMerge_takes {l : Lane} {p : MergePlan} (hmerge : l.thm.merge = some p) (hslot : l.slot ≠ l.firstSlot) :
    l.flaskMerge.flaskView = (none, p.fseq, true, some l.slot) ∧
    ∀ f, f < l.feeders.length → (l.flaskMerge.feeder f).regs = (l.feeder f).regs.mapIdx fun r y =>
      y.merge (p.baseRes.getD (36 * f + r) 0) (p.regs.getD (36 * f + r) (0, 0, 0)) := by
  rw [Lane.flaskMerge_eq hmerge hslot]
  exact ⟨rfl, fun f hf => mergeFlask_regs l.thm (fun c => l.dict.nat (0x3010 + c) 2 == 1) p hf⟩

theorem Feeder.unitsTaken_reg (x : Feeder) (r : Nat) : x.unitsTaken.regs.getD r ereg0 = (x.regs.getD r ereg0).unitsTaken :=
  x.regs.getD_map ereg0 EReg.unitsTaken

theorem Lane.feeder_map_unitsTaken {l m : Lane} (h : l.feeders = m.feeders.map Feeder.unitsTaken) (f : Nat) :
    l.feeder f = (m.feeder f).unitsTaken := by
  rw [Lane.feeder, h]
  exact m.feeders.getD_map feeder0 Feeder.unitsTaken

theorem Lane.thmDone_reg_marks (l : Lane) (f : RegMap → RegMap) :
    (l.thmDone.reg f).thm.stage = 2 ∧ (l.thmDone.reg f).thm.tbPrev = some (l.thmDone.reg f).img.tb := ⟨rfl, rfl⟩

theorem Lane.feeders_length_of_feeders {l m : Lane} (h : l.apartFeeders = m.apartFeeders) :
    l.feeders.length = m.feeders.length := by
  simpa [Lane.apartFeeders] using congrArg (fun l : Lane => l.feeders.length) h

theorem Lane.merge_of_flaskView {l m : Lane} (h : l.flaskView = m.flaskView) :
    l.thm.merge = m.thm.merge ∧ l.thm.want = m.thm.want :=
  ⟨(congrArg Prod.fst h :), (congrArg (fun v => v.2.2.2) h :)⟩

theorem Lane.inputs_of_metering {l m : Lane} (h : l.apartMetering = m.apartMetering) :
    l.dict = m.dict ∧ l.slot = m.slot ∧ l.word = m.word :=
  ⟨(congrArg Lane.dict h :), (congrArg Lane.slot h :), (congrArg Lane.word h :)⟩

section instant
variable {l : Lane} (me : LaneId) (hmeters : l.meters = true) (hstage : l.thm.stage = 0)
include hmeters hstage

theorem Lane.meterSlot_afterMerge : ∃ clip, l.meterSlot me = l.flaskReady.flaskMerge.afterMerge me clip :=
  Lane.meterSlot_eq me hmeters hstage

theorem Lane.meterSlot_done : (l.meterSlot me).thm.stage = 2 ∧ (l.meterSlot me).thm.tbPrev = some l.img.tb ∧
    { l.meterSlot me with feeders := l.feeders, thm := l.thm, regs := l.regs, sent := l.sent } = l := by
  obtain ⟨clip, h⟩ := Lane.meterSlot_eq me hmeters hstage
  obtain ⟨hmarked, htb⟩ := (l.mtrSlot.thmReady.vpoSlot me).thmDone_reg_marks fun m => forBits m f_MTR_CLIPSEEN_CLIP clip
  rw [← h] at hmarked htb
  have hrest := l.meterSlot_rest me
  generalize l.meterSlot me = m at hmarked htb hrest
  exact ⟨hmarked, htb.trans (congrArg (fun m : Lane => some m.img.tb) hrest :),
    (congrArg (fun m : Lane => { m with feeders := l.feeders, thm := l.thm, regs := l.regs, sent := l.sent }) hrest :)⟩

theorem Lane.meterSlot_unmerged (hmerge : l.thm.merge = none ∨ l.slot = l.firstSlot) :
    ∃ clip, l.meterSlot me = l.flaskReady.afterMerge me clip := by
  obtain ⟨hkept, hslot, hfirst, -⟩ := l.flaskReady_keeps
  have h := Lane.meterSlot_afterMerge me hmeters hstage
  rwa [Lane.flaskMerge_none (by rwa [hkept, hslot, hfirst])] at h

theorem Lane.meterSlot_merge (hmerge : l.thm.merge = none ∨ l.slot = l.firstSlot) : (l.meterSlot me).thm.merge = l.thm.merge := by
  obtain ⟨clip, h⟩ := Lane.meterSlot_unmerged me hmeters hstage hmerge
  obtain ⟨hview, -⟩ := l.flaskReady.afterMerge_keeps me clip
  rw [h]
  exact (Lane.merge_of_flaskView hview).1.trans l.flaskReady_keeps.1

/-- The merge takes the flask's plan, asks for the merged record, and adds the plan's entry to every register (R254). -/
theorem Lane.meterSlot_flask {p : MergePlan} (hmerge : l.thm.merge = some p) (hslot : l.slot ≠ l.firstSlot) :
    (l.meterSlot me).flaskView = (none, p.fseq, true, some l.slot) ∧
    ∀ f r, f < l.mtrSlot.feeders.length → r < (l.mtrSlot.feeder f).regs.length →
      ((l.meterSlot me).feeder f).regs.getD r ereg0 =
        { ((l.mtrSlot.feeder f).regs.getD r ereg0).merge (p.baseRes.getD (36 * f + r) 0) (p.regs.getD (36 * f + r) (0, 0, 0)) with
          k := 0 } := by
  obtain ⟨clip, h⟩ := Lane.meterSlot_afterMerge me hmeters hstage
  obtain ⟨hkept, hslot', hfirst, hfeeders⟩ := l.flaskReady_keeps
  obtain ⟨htaken, hregs⟩ := Lane.flaskMerge_takes (hkept.trans hmerge) (by rwa [hslot', hfirst])
  obtain ⟨hview, hunits, -⟩ := l.flaskReady.flaskMerge.afterMerge_keeps me clip
  have hsame : l.flaskReady.feeder = l.mtrSlot.feeder := funext fun f => congrArg (·.getD f feeder0) hfeeders
  rw [h]
  refine ⟨hview.trans (htaken.trans (by rw [hslot'])), fun f r hf hr => ?_⟩
  rw [Lane.feeder_map_unitsTaken hunits, Feeder.unitsTaken_reg, hregs f (by rwa [hfeeders]), hsame]
  simp [List.getD_eq_getElem?_getD, List.getElem?_eq_getElem hr, EReg.unitsTaken]

section circuit
variable (hmerge : l.thm.merge = none ∨ l.slot = l.firstSlot) {c : Nat} (hc : c < 8) (hlen : c < l.thm.circs.length)
include hmerge hc hlen

/-- The latch of a circuit whose boundary has been passed (R248). -/
theorem Lane.meterSlot_latches (hdue : l.circLatchDue c = true) :
    ((l.meterSlot me).circ c).records = ((l.circ c).latch c (l.dict.circCfg c) l.slot l.img.tb).records ∧
    (l.meterSlot me).thm.want = some l.slot ∧ (fget (l.meterSlot me).regs f_THM_STAT_LATCHED).testBit c = true := by
  obtain ⟨clip, h⟩ := Lane.meterSlot_unmerged me hmeters hstage hmerge
  obtain ⟨hstage', hcircs, -, hdue', hdict, hslot, himg, -⟩ := Lane.latchInput_of_feeders l.mtrSlot_apart
  obtain ⟨-, hlatched, hwant, hbit⟩ := Lane.thmLatches_due (hstage'.trans hstage) hc
    (u := l.circ c) (by rw [hcircs]; simp [Lane.circ, hlen]) ((hdue' c).trans hdue)
  obtain ⟨hview, -, hstat, hrecords⟩ := l.flaskReady.afterMerge_keeps me clip
  rw [hdict, hslot, himg] at hlatched
  rw [h]
  refine ⟨(hrecords c).trans (congrArg Circ.records (Lane.circ_of_getElem? hlatched)), ?_, ?_⟩
  · exact (Lane.merge_of_flaskView hview).2.trans (hwant.trans (congrArg some hslot))
  · rw [hstat]
    exact hbit

theorem Lane.meterSlot_notLatched (hdue : l.circLatchDue c = false) :
    ((l.meterSlot me).circ c).records = (l.circ c).records := by
  obtain ⟨clip, h⟩ := Lane.meterSlot_unmerged me hmeters hstage hmerge
  obtain ⟨hstage', hcircs, -, hdue', -⟩ := Lane.latchInput_of_feeders l.mtrSlot_apart
  obtain ⟨-, hkept⟩ := Lane.thmLatches_idle (hstage'.trans hstage) hc
    (u := l.circ c) (by rw [hcircs]; simp [Lane.circ, hlen]) ((hdue' c).trans hdue)
  obtain ⟨-, -, -, hrecords⟩ := l.flaskReady.afterMerge_keeps me clip
  rw [h]
  exact (hrecords c).trans (congrArg Circ.records (Lane.circ_of_getElem? hkept))

end circuit

/-- Each pulse output is served once in the slot (R257 to R259). -/
theorem Lane.meterSlot_output {o : Nat} (ho : o < 16) (hlen : o < l.thm.vpo.length) :
    ∃ k, let r := (l.thm.vpo.getD o vpoOut0).served (l.dict.vpoCfg o) l.slot l.word.arbFault k
      (l.meterSlot me).thm.vpo.getD o vpoOut0 = r.1 ∧
      ∀ w, r.2 = some w → outFrame l.slot me 5 o (w * 65536 + 1) ∈ (l.meterSlot me).sent := by
  obtain ⟨clip, h⟩ := Lane.meterSlot_eq me hmeters hstage
  obtain ⟨hrest, hvpo⟩ := l.mtrSlot.thmReady_apart
  obtain ⟨hdict, hslot, hword⟩ := Lane.inputs_of_metering (hrest.trans l.mtrSlot_rest)
  have hvpo' : l.mtrSlot.thmReady.thm.vpo = l.thm.vpo := hvpo.trans (congrArg (fun l : Lane => l.thm.vpo) l.mtrSlot_apart :)
  obtain ⟨k, hserved, hsent⟩ := (Lane.foldl_vpoOne_serves (l := l.mtrSlot.thmReady) me ho
    (v := l.thm.vpo.getD o vpoOut0) (by rw [hvpo']; simp [hlen])).finish fun m => forBits m f_MTR_CLIPSEEN_CLIP clip
  rw [← Lane.vpoSlot_eq, ← h, hdict, hslot, hword] at hserved hsent
  exact ⟨k, by simp [List.getD_eq_getElem?_getD, hserved], hsent⟩

end instant

/-! ### The records of the totals (R251, R252, R254) -/

theorem Lane.totalsDue_iff (l : Lane) (me : LaneId) : l.totalsDue me = true ↔
    l.thm.want ≠ none ∧ l.nvm.totBusy = none ∧ l.meters = true ∧ l.mask.has me = true ∧ l.thm.metered = l.slot := by
  simp [Lane.totalsDue, Option.isSome_iff_ne_none, and_assoc]

theorem Lane.totalsStart_eq {l : Lane} {a : BitVec 64} (h : l.thm.want = some a) : l.totalsStart = { l with
    thm := { l.thm with want := none }
    nvm := { l.nvm with totBusy := some (l.nvm.totNextB, totalsRecord l.feeders l.thm a l.thm.lastFlask)
                        totNextB := !l.nvm.totNextB } } := by
  unfold Lane.totalsStart
  rw [h]

theorem Lane.mergedBusy_iff {l : Lane} {b : Bool} {r : TotalsRec} (h : l.nvm.totBusy = some (b, r)) :
    l.mergedBusy = true ↔ l.thm.merging = true ∧ r.lastFlask = l.thm.lastFlask := by
  simp [Lane.mergedBusy, h]

/-- MRAM with the record in its bank. -/
def Nvm.banked (n : Nvm) (b : Bool) (r : TotalsRec) : Nvm :=
  if b = true then { n with totBusy := none, totB := r } else { n with totBusy := none, totA := r }

theorem Lane.totalsDone_eq {l : Lane} {b : Bool} {r : TotalsRec} (h : l.nvm.totBusy = some (b, r)) : l.totalsDone =
    if l.mergedBusy = true then { l with
      nvm := { l.nvm.banked b r with flask := flask0 }, thm := { l.thm with tseq := r.tseq, merging := false }
      regs := fflag l.regs f_THM_TOTSTAT_MERGED }
    else { l with nvm := l.nvm.banked b r, thm := { l.thm with tseq := r.tseq } } := by
  unfold Lane.totalsDone
  rw [h]
  rfl

theorem Lane.totalsDone_idle {l : Lane} (h : l.nvm.totBusy = none) : l.totalsDone = l ∧ l.mergedBusy = false := by
  simp [Lane.totalsDone, Lane.mergedBusy, h]

theorem Lane.flaskDone_eq {l : Lane} {f : Flask} (h : l.nvm.flaskBusy = some f) : l.flaskDone = { l with
    nvm := { l.nvm with flask := f, fseq := f.fseq, flaskBusy := none }
    trip := l.trip.map fun t => { t with written := true } } := by
  unfold Lane.flaskDone
  rw [h]

theorem Lane.flaskDone_idle {l : Lane} (h : l.nvm.flaskBusy = none) : l.flaskDone = l := by
  simp [Lane.flaskDone, h]

/-! ### The commands of the instant -/

section commands
variable {s : State} {x : LaneId} {m : Lane} (hwork : (s.lane x).working = true) (hmeters : (s.lane x).meters = true)
  (hrun : (s.lane x).loopsRun x = m)
include hwork hmeters hrun

theorem meterPart_happens {p : Lane → Lane → Bool} (h : p (s.lane x) (m.meterSlot x) = true) :
    laneNext s x (fun l => l.meterPart x (fun l => l.meterSlot x) p) = .next (s.setLane x (m.meterSlot x)) := by
  subst hrun
  exact laneNext_to (Lane.meterPart_occurs hwork hmeters h)

theorem meterPart_nothing {p : Lane → Lane → Bool} (h : p (s.lane x) (m.meterSlot x) = false) :
    laneNext s x (fun l => l.meterPart x (fun l => l.meterSlot x) p) = .next s := by
  subst hrun
  exact laneNext_same (Lane.meterPart_absent hwork hmeters h)

variable (hthm : m.thm = (s.lane x).thm) (hm : m.meters = true) (hstage : m.thm.stage = 0)
include hthm hm hstage

/-- THM_LATCH of a circuit whose boundary has been passed (R248). -/
theorem exec_thmLatch_due {c : Nat} (hc : c < 8) (hlen : c < m.thm.circs.length) (hmerge : m.thm.merge = none)
    (hdue : m.circLatchDue c = true) : exec (.thmLatch x c) s = .next (s.setLane x (m.meterSlot x)) ∧
    ((m.meterSlot x).circ c).records = ((m.circ c).latch c (m.dict.circCfg c) m.slot m.img.tb).records ∧
    (m.meterSlot x).thm.want = some m.slot ∧ (fget (m.meterSlot x).regs f_THM_STAT_LATCHED).testBit c = true := by
  have hlatch := Lane.meterSlot_latches x hm hstage (.inl hmerge) hc hlen hdue
  have hbefore : ((s.lane x).circ c).seq = (m.circ c).seq := congrArg (fun t : Thm => (t.circs.getD c circ0).seq) hthm.symm
  have hafter : ((m.meterSlot x).circ c).seq = ((m.circ c).seq + 1) % 2 ^ 32 :=
    congrArg Prod.fst (hlatch.1.trans (Circ.latch_records ..))
  refine ⟨meterPart_happens hwork hmeters hrun (decide_eq_true ?_), hlatch⟩
  rw [hbefore, hafter]
  omega

theorem exec_thmLatch_idle {c : Nat} (hc : c < 8) (hlen : c < m.thm.circs.length) (hmerge : m.thm.merge = none)
    (hdue : m.circLatchDue c = false) : exec (.thmLatch x c) s = .next s := by
  have hbefore : ((s.lane x).circ c).seq = (m.circ c).seq := congrArg (fun t : Thm => (t.circs.getD c circ0).seq) hthm.symm
  have hafter : ((m.meterSlot x).circ c).seq = (m.circ c).seq :=
    congrArg Prod.fst (Lane.meterSlot_notLatched x hm hstage (.inl hmerge) hc hlen hdue)
  exact meterPart_nothing hwork hmeters hrun (decide_eq_false (not_not.mpr (hbefore.trans hafter.symm)))

section output
variable {o : Nat} {g : VpoCfg} {v : VpoOut} (hg : m.dict.vpoCfg o = g) (hv : m.thm.vpo.getD o vpoOut0 = v)
  (ho : o < 16) (hlen : o < m.thm.vpo.length)
include hg hv ho hlen

omit hwork hmeters hrun in
/-- The output before and after the instant. -/
theorem meterSlot_serves : (s.lane x).thm.vpo.getD o vpoOut0 = v ∧ ∃ k, let r := v.served g m.slot m.word.arbFault k
    (m.meterSlot x).thm.vpo.getD o vpoOut0 = r.1 ∧
    ∀ w, r.2 = some w → outFrame m.slot x 5 o (w * 65536 + 1) ∈ (m.meterSlot x).sent := by
  subst hg hv
  exact ⟨congrArg (fun t : Thm => t.vpo.getD o vpoOut0) hthm.symm, Lane.meterSlot_output x hm hstage ho hlen⟩

/-- VPO_PULSE_START of an owed pulse after the gap (R258). -/
theorem exec_vpoPulseStart_due (henable : g.enable = true) (hfault : m.word.arbFault = false) (hidle : v.active = none)
    (howed : 1 ≤ v.owed) (hgap : ∀ e, v.lastEnd = some e → e.toNat + v.effWidth g m.slot ≤ m.slot.toNat) :
    exec (.vpoPulseStart x o) s = .next (s.setLane x (m.meterSlot x)) ∧
    ((m.meterSlot x).thm.vpo.getD o vpoOut0).active = some (m.slot, v.effWidth g m.slot) ∧
    ((m.meterSlot x).thm.vpo.getD o vpoOut0).lastEnd = v.lastEnd ∧
    outFrame m.slot x 5 o (v.effWidth g m.slot * 65536 + 1) ∈ (m.meterSlot x).sent := by
  obtain ⟨hbefore, k, hafter, hsent⟩ := meterSlot_serves hthm hm hstage hg hv ho hlen
  rw [hfault] at hafter hsent
  obtain ⟨hactive, hend, hwidth⟩ := VpoOut.served_starts k henable hidle howed hgap
  rw [hafter]
  refine ⟨meterPart_happens hwork hmeters hrun ?_, hactive, hend, hsent _ hwidth⟩
  simp only [hbefore, hidle, hafter, hactive]
  rfl

theorem exec_vpoPulseStart_running {b : BitVec 64} {d : Nat} (hactive : v.active = some (b, d))
    (hlast : m.slot.toNat < b.toNat + d) : exec (.vpoPulseStart x o) s = .next s := by
  obtain ⟨hbefore, k, hafter, -⟩ := meterSlot_serves hthm hm hstage hg hv ho hlen
  refine meterPart_nothing hwork hmeters hrun ?_
  simp only [hbefore, hafter, VpoOut.served_active m.word.arbFault k hactive hlast, ne_eq, not_true_eq_false, decide_false,
    Bool.false_and]

/-- VPO_PULSE_WIDTH_END of a pulse whose width has passed (R259). -/
theorem exec_vpoPulseWidthEnd_due {b : BitVec 64} {d : Nat} (hactive : v.active = some (b, d)) (hlast : b.toNat + d ≤ m.slot.toNat)
    (hnew : v.lastEnd ≠ some m.slot) : exec (.vpoPulseWidthEnd x o) s = .next (s.setLane x (m.meterSlot x)) ∧
    ((m.meterSlot x).thm.vpo.getD o vpoOut0).lastEnd = some m.slot ∧
    (g.enable = false → (m.meterSlot x).thm.vpo.getD o vpoOut0 = { v with
      owed := v.owed - 1, active := none, lastEnd := some m.slot, backlog := v.backlog && decide (v.owed - 1 ≠ 0) }) ∧
    (1 ≤ g.width → ((m.meterSlot x).thm.vpo.getD o vpoOut0).active = none) := by
  obtain ⟨hbefore, k, hafter, -⟩ := meterSlot_serves hthm hm hstage hg hv ho hlen
  have hends := VpoOut.served_ends (g := g) m.word.arbFault k hactive hlast
  rw [← hafter] at hends
  refine ⟨meterPart_happens hwork hmeters hrun (decide_eq_true ?_), hends⟩
  rw [hbefore, hends.1]
  exact hnew

theorem exec_vpoPulseWidthEnd_waits (h : v.active = none ∨ ∃ b k, v.active = some (b, k) ∧ m.slot.toNat < b.toNat + k) :
    exec (.vpoPulseWidthEnd x o) s = .next s := by
  obtain ⟨hbefore, k, hafter, -⟩ := meterSlot_serves hthm hm hstage hg hv ho hlen
  refine meterPart_nothing hwork hmeters hrun (decide_eq_false (not_not.mpr ?_))
  rw [hbefore, hafter, VpoOut.served_lastEnd, VpoOut.widthEnd_waits h]

end output

/-- FLASK_MERGE of the agreed flask, after the first slot (R254). -/
theorem exec_flaskMerge_due {p : MergePlan} (hmerge : m.thm.merge = some p) (hslot : m.slot ≠ m.firstSlot) :
    exec (.flaskMerge x) s = .next (s.setLane x (m.meterSlot x)) := by
  obtain ⟨hview, -⟩ := Lane.meterSlot_flask x hm hstage hmerge hslot
  have hafter : (m.meterSlot x).thm.merge = none := congrArg Prod.fst hview
  refine meterPart_happens hwork hmeters hrun ?_
  rw [← hthm, hmerge, hafter]
  rfl

theorem exec_flaskMerge_idle (h : m.thm.merge = none ∨ m.slot = m.firstSlot) : exec (.flaskMerge x) s = .next s := by
  refine meterPart_nothing hwork hmeters hrun ?_
  rw [← hthm, Lane.meterSlot_merge x hm hstage h]
  cases m.thm.merge <;> rfl

end commands

/-! ### The obligation -/

/-- Settles O56: each part of the metering instant by its command (`exec_thmLatch_due`, `exec_vpoPulseStart_due`,
`exec_vpoPulseWidthEnd_due`, `exec_flaskMerge_due`), the records by the equations of their functions. -/
theorem circuitsPulsesAndTotalsPersist : Obligations.CircuitsPulsesAndTotalsPersist := by
  unfold Obligations.CircuitsPulsesAndTotalsPersist
  refine ⟨fun s x c h => ?idle, fun s x hwork hmeters => ?parts, fun s x => ?records⟩
  case idle =>
    exact ⟨laneNext_same (Lane.meterPart_idle _ _ _ h), laneNext_same (Lane.meterPart_idle _ _ _ h),
      laneNext_same (Lane.meterPart_idle _ _ _ h), laneNext_same (Lane.meterPart_idle _ _ _ h)⟩
  case parts =>
    intro m t hthm hm hstage leaves
    have hleaves {c : Instr} (h : exec c s = .next (s.setLane x (m.meterSlot x))) : leaves c (m.meterSlot x) :=
      ⟨h, Lane.meterSlot_done x hm hstage⟩
    refine ⟨fun c p hc hlen hmerge hp => ?latch, fun o ho hlen => ?output, fun p hmerge hslot => ?merge,
      exec_flaskMerge_idle hwork hmeters rfl hthm hm hstage⟩
    case latch =>
      intro g u seq
      have hdue : m.circLatchDue c =
          (g.enable && decide (p.toNat / (g.latchN * 1000000) < m.img.tb.toNat / (g.latchN * 1000000))) := by
        rw [Lane.circLatchDue, hp]
        rfl
      refine ⟨fun henable hpassed => ?_, fun h => exec_thmLatch_idle hwork hmeters rfl hthm hm hstage hc hlen hmerge ?_⟩
      · obtain ⟨hexec, hrecords, hwant, hbit⟩ := exec_thmLatch_due hwork hmeters rfl hthm hm hstage hc hlen hmerge
          (hdue.trans (by rw [henable, Bool.true_and, decide_eq_true hpassed]))
        rw [Circ.latch_records, Circ.records, Prod.mk.injEq, Prod.mk.injEq] at hrecords
        obtain ⟨hseq, hfresh, hring⟩ := hrecords
        exact ⟨_, hleaves hexec, hseq, hwant, hfresh, hring, hbit⟩
      · rw [hdue]
        rcases h with h | h
        · rw [h, Bool.false_and]
        · rw [decide_eq_false (Nat.not_lt.mpr h), Bool.and_false]
    case output =>
      intro g v w
      refine ⟨fun henable hfault hidle howed hgap => ?_,
        fun b d => exec_vpoPulseStart_running hwork hmeters rfl hthm hm hstage rfl rfl ho hlen, fun b d hactive hlast hnew => ?_,
        exec_vpoPulseWidthEnd_waits hwork hmeters rfl hthm hm hstage rfl rfl ho hlen⟩
      · obtain ⟨hexec, hstarted⟩ := exec_vpoPulseStart_due hwork hmeters rfl hthm hm hstage rfl rfl ho hlen henable hfault hidle
          howed hgap
        exact ⟨_, hleaves hexec, hstarted⟩
      · obtain ⟨hexec, hended⟩ := exec_vpoPulseWidthEnd_due hwork hmeters rfl hthm hm hstage rfl rfl ho hlen hactive hlast hnew
        exact ⟨_, hleaves hexec, hended⟩
    case merge =>
      intro u
      obtain ⟨hview, hregs⟩ := Lane.meterSlot_flask x hm hstage hmerge hslot
      simp only [Lane.flaskView, Prod.mk.injEq] at hview
      obtain ⟨hnone, hlast, hmerging, hwant⟩ := hview
      exact ⟨_, hleaves (exec_flaskMerge_due hwork hmeters rfl hthm hm hstage hmerge hslot), hnone, hlast, hmerging, hwant,
        fun f r hf => hregs f r (hf.trans_eq (Lane.feeders_length_of_feeders m.mtrSlot_apart).symm)⟩
  case records =>
    intro l
    refine ⟨fun a hwant hbusy hm hmask hmetered => ?starts, fun h => laneWhen_neg ?waits, fun b r hbusy => ?done, fun h => ?idle,
      fun f h => laneNext_to (Lane.flaskDone_eq h), fun h => laneNext_same (Lane.flaskDone_idle h)⟩
    case starts =>
      exact laneWhen_to ((l.totalsDue_iff x).mpr ⟨by simp [hwant], hbusy, hm, hmask, hmetered⟩) (Lane.totalsStart_eq hwant)
    case waits =>
      rw [Bool.eq_false_iff, Ne, Lane.totalsDue_iff]
      rintro ⟨hwant, hbusy, hm, hmask, hmetered⟩
      rcases h with h | h | h | h | h
      · exact hwant h
      · exact h hbusy
      · exact Bool.false_ne_true (h.symm.trans hm)
      · exact Bool.false_ne_true (h.symm.trans hmask)
      · exact h hmetered
    case done =>
      intro banks merged cleared
      have hmerged : l.mergedBusy = true ↔ merged := Lane.mergedBusy_iff hbusy
      have hdone := Lane.totalsDone_eq hbusy
      refine ⟨fun h => ?_, fun h => ?_⟩
      · have hcleared : l.totalsDone = cleared := hdone.trans (if_pos (hmerged.mpr h))
        exact ⟨laneNext_to hcleared, laneWhen_to (hmerged.mpr h) hcleared⟩
      · exact ⟨laneNext_to (hdone.trans (if_neg (mt hmerged.mp h))), laneWhen_neg (Bool.eq_false_iff.mpr (mt hmerged.mp h))⟩
    case idle =>
      obtain ⟨hdone, hmerged⟩ := Lane.totalsDone_idle h
      exact ⟨laneNext_same hdone, laneWhen_neg hmerged⟩

end Sys2Proof.Machine
end

section
/-! One field port of a lane: the lane in which one port and the registers have been replaced, the operations that replace
them, and what becomes of a frame that is given to the port (R266, R270). -/
namespace Sys2Proof.Machine

/-! ### Counters -/

theorem putBits_self (w : Word) {hi lo : Nat} (h : lo ≤ hi) (hh : hi < 32) :
    putBits w hi lo (w.toNat / 2 ^ lo % 2 ^ (hi + 1 - lo)) = w := by
  apply BitVec.eq_of_getLsbD_eq
  intro i _
  rw [putBits_bit _ _ _ _ _ h hh, field_bit]
  by_cases hi' : lo ≤ i ∧ i ≤ hi
  · rw [if_pos hi', decide_eq_true (by omega), Bool.true_and, Nat.add_sub_cancel' hi'.1]
  · rw [if_neg hi']

/-- A counter to which nothing is added leaves every register as it was. -/
theorem rget_fbump_zero (m : RegMap) {f : Fld} (h : f.lo ≤ f.hi) (hh : f.hi < 32) (k : Nat) : rget (fbump m f 0) k = rget m k := by
  have hkeeps : satAdd (2 ^ (f.hi + 1 - f.lo) - 1) (fget m f) 0 = fget m f :=
    Nat.min_eq_right (Nat.le_sub_one_of_lt (Nat.mod_lt _ (Nat.two_pow_pos _)))
  rw [fbump, hkeeps]
  by_cases hk : k = f.key
  · subst hk
    rw [fset, rget_rset_same]
    exact putBits_self _ h hh
  · exact rget_fset_other m f _ hk

/-- A frame that meets no full queue counts nothing. -/
theorem rget_qfull_zero (m : RegMap) (p k : Nat) : rget (fbump m (f_PORT_TXDROP_QFULL.at (0x20 * p)) 0) k = rget m k :=
  rget_fbump_zero m (f := f_PORT_TXDROP_QFULL.at (0x20 * p)) (show 16 ≤ 31 by decide) (show 31 < 32 by decide) k

/-! ### The lane with one port and the registers replaced -/

/-- Port p has become `q` and the registers are `r`. -/
def Lane.setPort (l : Lane) (p : Nat) (q : PortSt) (r : RegMap) : Lane := { l with ports := l.ports.set p q, regs := r }

section
variable (l : Lane) (p : Nat) (q : PortSt) (r : RegMap)

@[simp] theorem Lane.setPort_regs : (l.setPort p q r).regs = r := rfl
@[simp] theorem Lane.setPort_mask : (l.setPort p q r).mask = l.mask := rfl
@[simp] theorem Lane.setPort_slot : (l.setPort p q r).slot = l.slot := rfl
@[simp] theorem Lane.setPort_time : (l.setPort p q r).time = l.time := rfl
@[simp] theorem Lane.setPort_dict : (l.setPort p q r).dict = l.dict := rfl
@[simp] theorem Lane.setPort_clk (fab : Nat) : (l.setPort p q r).clk fab = l.clk fab := rfl
@[simp] theorem Lane.setPort_portCfg (me : LaneId) (j : Nat) : (l.setPort p q r).portCfg me j = l.portCfg me j := rfl
@[simp] theorem Lane.setPort_timeCfg (me : LaneId) : (l.setPort p q r).timeCfg me = l.timeCfg me := rfl
@[simp] theorem Lane.setPort_txGated (me : LaneId) : (l.setPort p q r).txGated me = l.txGated me := rfl
@[simp] theorem Lane.setPort_length : (l.setPort p q r).ports.length = l.ports.length := List.length_set
@[simp] theorem Lane.setPort_setPort (q' : PortSt) (r' : RegMap) : (l.setPort p q r).setPort p q' r' = l.setPort p q' r' := by
  simp [Lane.setPort]

theorem Lane.setPort_self : l.setPort p (l.port p) r = { l with regs := r } := by
  rcases Nat.lt_or_ge p l.ports.length with h | h
  · simp [Lane.setPort, Lane.port, h]
  · simp [Lane.setPort, List.set_eq_of_length_le h]

/-- Counting in a register of the port. -/
theorem Lane.portCount_eq (f : Fld) (n : Nat) :
    l.portCount p f n = l.setPort p (l.port p) (fbump l.regs (f.at (0x20 * p)) n) := (l.setPort_self p _).symm

end

theorem Lane.port_of_le {l : Lane} {p : Nat} (h : l.ports.length ≤ p) : l.port p = port0 := by
  simp [Lane.port, h]

/-- A port whose state is not that of an absent one is there. -/
theorem Lane.port_exists {l : Lane} {p : Nat} (h : l.port p ≠ port0) : p < l.ports.length :=
  Nat.lt_of_not_le fun hle => h (Lane.port_of_le hle)

theorem Lane.port_exists_of_up {l : Lane} {p : Nat} (h : (l.port p).up = true) : p < l.ports.length :=
  Lane.port_exists fun h0 => by simp [h0, port0] at h

theorem Lane.port_exists_of_tentative {l : Lane} {p k : Nat} (h : (l.port p).addr.getD k 0 = 1) : p < l.ports.length :=
  Lane.port_exists fun h0 => by
    have hnone : port0.addr.getD k 0 = 0 := by
      rw [show port0.addr = List.replicate 3 0 from rfl, List.getD_eq_getElem?_getD, List.getElem?_replicate]
      split <;> rfl
    rw [h0, hnone] at h
    cases h

/-- A change of an absent port changes nothing. -/
theorem Lane.modPort_absent {l : Lane} {p : Nat} (h : l.ports.length ≤ p) (f : PortSt → PortSt) : l.modPort p f = l := by
  rw [Lane.modPort, lmod, List.modify_eq_self h]

theorem Lane.portIs_self (l : Lane) (p : Nat) : l.PortIs l p (l.port p) l.regs := ⟨rfl, fun _ _ => rfl, rfl, fun _ => rfl⟩

section
variable {l : Lane} {p : Nat} (hp : p < l.ports.length) (q : PortSt) (r : RegMap)

include hp in
theorem Lane.setPort_port_same : (l.setPort p q r).port p = q := by
  simp [Lane.setPort, Lane.port, hp]

theorem Lane.setPort_port_other {j : Nat} (h : j ≠ p) : (l.setPort p q r).port j = l.port j := by
  simp [Lane.setPort, Lane.port, h.symm]

include hp in
theorem Lane.modPort_setPort (f : PortSt → PortSt) : (l.setPort p q r).modPort p f = l.setPort p (f q) r := by
  simp [Lane.modPort, Lane.setPort, lmod, List.modify_eq_set_getElem?, hp]

include hp in
theorem Lane.portCount_setPort (f : Fld) (n : Nat) :
    (l.setPort p q r).portCount p f n = l.setPort p q (fbump r (f.at (0x20 * p)) n) := by
  rw [Lane.portCount_eq, Lane.setPort_port_same hp, Lane.setPort_setPort, Lane.setPort_regs]

theorem Lane.reg_setPort (f : RegMap → RegMap) : (l.setPort p q r).reg f = l.setPort p q (f r) := rfl

include hp in
theorem Lane.modPort_eq (f : PortSt → PortSt) : l.modPort p f = l.setPort p (f (l.port p)) l.regs := by
  rw [← l.modPort_setPort hp, Lane.setPort_self]

include hp in
/-- The lane with the port replaced, in the terms of the statements. -/
theorem Lane.setPort_portIs {r' : RegMap} (h : ∀ k, rget r' k = rget r k) : l.PortIs (l.setPort p q r') p q r :=
  ⟨l.setPort_port_same hp q r', fun _ hj => l.setPort_port_other q r' hj, rfl, h⟩

end

/-! ### A frame for the port's queues (R266, R270) -/

section
variable {l : Lane} {me : LaneId} {p : Nat} (hp : p < l.ports.length) (q : PortSt) (r : RegMap)

theorem PortSt.enqueue_eq (c : PortCfg) (f : TxFrame) : let k := c.tcmap.getD f.cls 0 % 8
    q.enqueue c f = if 32768 < ((q.queues.getD k []).map fun g => g.wire c).sum + f.wire c then (q, true)
      else ({ q with queues := q.queues.modify k fun fs => fs ++ [f] }, false) := by
  simp only [PortSt.enqueue, List.sum_eq_foldl]

theorem Lane.portEnqueue_gated (f : TxFrame) (h : l.txGated me = true) :
    (l.setPort p q r).portEnqueue me p f = l.setPort p q r := if_pos h

include hp in
theorem Lane.portEnqueue_open (f : TxFrame) (h : l.txGated me = false) : let e := q.enqueue (l.portCfg me p) f
    (l.setPort p q r).portEnqueue me p f = l.setPort p e.1 (fbump r (f_PORT_TXDROP_QFULL.at (0x20 * p)) e.2.toNat) := by
  intro e
  rw [Lane.portEnqueue, Lane.setPort_txGated, if_neg (by simp [h])]
  simp only [Lane.setPort_port_same hp, Lane.setPort_portCfg, Lane.modPort_setPort hp, Lane.portCount_setPort hp]
  rfl

include hp in
/-- A frame given to a port whose path is known joins its queue, is counted, or is discarded. -/
theorem Lane.portEnqueue_queues (f : TxFrame) : l.PortQueues ((l.setPort p q r).portEnqueue me p f) me p q r f := by
  unfold Lane.PortQueues
  have hopen (hmask : l.mask.has me = true) := l.portEnqueue_open hp q r f (me := me) (by simp [Lane.txGated, hmask])
  intro c k used
  refine ⟨fun hmask => ?_, fun hmask hfits => ?_, fun hmask hfull => ?_⟩
  · rw [Lane.portEnqueue_gated q r f (by simp [Lane.txGated, hmask])]
    exact Lane.setPort_portIs hp q r fun _ => rfl
  · rw [hopen hmask, PortSt.enqueue_eq, if_neg (Nat.not_lt.mpr hfits)]
    exact Lane.setPort_portIs hp _ r (rget_qfull_zero r p)
  · rw [hopen hmask, PortSt.enqueue_eq, if_pos hfull]
    exact Lane.setPort_portIs hp q _ fun _ => rfl

end

end Sys2Proof.Machine
end

section
/-! Frames and messages that reach a port (R264, R265, R272, R276): what a closed port does with them, and the counter or the
queue that each frame goes to at an open one. -/
namespace Sys2Proof.Machine

/-! ### Open and closed ports -/

/-- Port p is there, its link is up and it is enabled. -/
def Lane.PortOpen (l : Lane) (me : LaneId) (p : Nat) : Prop :=
  p < 16 ∧ p < l.ports.length ∧ (l.port p).up = true ∧ (l.portCfg me p).enable = true
/-- A port takes nothing: there is no such port, its link is down or it is disabled. -/
def Lane.PortClosed (l : Lane) (me : LaneId) (p : Nat) : Prop :=
  16 ≤ p ∨ (l.port p).up = false ∨ (l.portCfg me p).enable = false

theorem Lane.PortOpen.not_closed {l : Lane} {me : LaneId} {p : Nat} (h : l.PortOpen me p) : ¬ l.PortClosed me p := by
  obtain ⟨hport, -, hup, henable⟩ := h
  simp [Lane.PortClosed, hport, hup, henable]

theorem Lane.rxMessage_closed {l : Lane} {me : LaneId} {p : Nat} (h : l.PortClosed me p) (f : Lane → Lane) :
    l.rxMessage me p f = l := if_pos h

theorem Lane.rxFrame_closed {l : Lane} {me : LaneId} {p : Nat} (h : l.PortClosed me p) (fab : Nat) (ok : Bool) (f : Bytes) :
    l.rxFrame me p fab ok f = l := if_pos h

theorem Lane.rxMessage_open {l : Lane} {me : LaneId} {p : Nat} (h : l.PortOpen me p) (f : Lane → Lane) :
    l.rxMessage me p f = f (l.setPort p (l.port p) (fbump l.regs (f_PORT_RXCNT_RX.at (0x20 * p)))) := by
  rw [← Lane.portCount_eq]
  exact if_neg h.not_closed

/-- A message at an open port: what it does after it is counted. -/
theorem rxMessage_next {s : State} {x : LaneId} {p : Nat} {f : Lane → Lane} {m : Lane} (h : (s.lane x).PortOpen x p)
    (hf : let l := s.lane x
      f (l.setPort p (l.port p) (fbump l.regs (f_PORT_RXCNT_RX.at (0x20 * p)))) = m) :
    laneNext s x (fun l => l.rxMessage x p f) = .next (s.setLane x m) :=
  laneNext_to ((Lane.rxMessage_open h f).trans hf)

/-- A message that is counted only. -/
theorem rxMessage_counted {s : State} {x : LaneId} {p : Nat} {f : Lane → Lane} (h : (s.lane x).PortOpen x p)
    (hf : let l := s.lane x
      let m := l.setPort p (l.port p) (fbump l.regs (f_PORT_RXCNT_RX.at (0x20 * p)))
      f m = m) : laneNext s x (fun l => l.rxMessage x p f) =
    .next (s.setLane x { s.lane x with regs := fbump (s.lane x).regs (f_PORT_RXCNT_RX.at (0x20 * p)) }) :=
  rxMessage_next h (hf.trans (Lane.setPort_self _ _ _))

/-! ### The filters of a frame -/

/-- A frame of a good FCS and of a permitted size (R264). -/
def frameSized (ok : Bool) (f : Bytes) : Prop :=
  ok = true ∧ 64 ≤ f.length + 4 ∧ (f.length + 4 ≤ 1518 ∨ beAt f 12 2 = 0x8100 ∧ f.length + 4 ≤ 1522)
/-- A tag of another VLAN than the port's own and those it takes (R265). -/
def vlanRefused (c : PortCfg) (f : Bytes) : Prop :=
  beAt f 12 2 = 0x8100 ∧ beAt f 14 2 % 4096 ≠ c.pvid ∧ (beAt f 14 2 % 4096 = 0 ∨ c.vlans.contains (beAt f 14 2 % 4096) = false)
/-- The Ethernet type of a frame, behind its tag if it has one. -/
def etherType (f : Bytes) : Nat := if beAt f 12 2 = 0x8100 then beAt f 16 2 else beAt f 12 2

section
variable {s : PortSt} {c : PortCfg} {ok : Bool} {f : Bytes}

/-- The test of FCS and size. -/
theorem frameSized_iff : frameSized ok f ↔
    (!ok || decide (f.length + 4 < 64) || decide ((if (beAt f 12 2 == 0x8100) = true then 1522 else 1518) < f.length + 4)) = false := by
  cases ok
  · simp [frameSized]
  · by_cases htag : beAt f 12 2 = 0x8100
    · simp [frameSized, htag]
      omega
    · simp [frameSized, htag]

theorem rxFilter_line (h : ¬ frameSized ok f) : rxFilter s c ok f = .error .line :=
  if_pos (by rw [frameSized_iff, Bool.not_eq_false] at h; exact h)

section
variable (h : frameSized ok f)
include h

theorem rxFilter_pause (hty : etherType f = 0x8808) : rxFilter s c ok f = .error .pause := by
  rw [rxFilter, if_neg (by rw [frameSized_iff.mp h]; decide), if_pos (by simpa [etherType] using hty)]

theorem rxFilter_filtered (hty : etherType f ≠ 0x8808) (hf : macAccepted s c (beAt f 0 6) = false ∨ vlanRefused c f) :
    rxFilter s c ok f = .error .filtered := by
  rw [rxFilter, if_neg (by rw [frameSized_iff.mp h]; decide), if_neg (by simpa [etherType] using hty)]
  by_cases hmac : macAccepted s c (beAt f 0 6) = false
  · rw [if_pos (by simp [hmac])]
  · obtain ⟨htag, hpvid, hvid⟩ := hf.resolve_left hmac
    rw [if_neg (by simpa using hmac), if_pos]
    simpa only [htag, beq_self_eq_true, beq_false_of_ne hpvid, Bool.false_or, Bool.true_and, Bool.not_eq_true',
      Bool.and_eq_false_iff, decide_eq_false_iff_not, not_not] using hvid

/-- An untagged frame for the port goes by its Ethernet type. -/
theorem rxFilter_untagged (hty : etherType f ≠ 0x8808) (htag : beAt f 12 2 ≠ 0x8100) (hmac : macAccepted s c (beAt f 0 6) = true) :
    rxFilter s c ok f = if etherType f = 0x86DD then ipFilter s c (f.drop 14)
      else if etherType f = 0x88F7 ∧ c.role ≠ 0 ∧ c.xport = 1 then .ok .other else .error .ip := by
  rw [rxFilter, if_neg (by rw [frameSized_iff.mp h]; decide), if_neg (by simpa [etherType] using hty), if_neg (by simp [hmac]),
    if_neg (by simp [htag])]
  simp [etherType, htag]

end

end

/-! ### What becomes of a frame -/

section
variable {l : Lane} {me : LaneId} {p fab : Nat} {ok : Bool} {f : Bytes} (hopen : l.PortOpen me p)
include hopen

theorem Lane.rxFrame_line (h : rxFilter (l.port p) (l.portCfg me p) ok f = .error .line) :
    l.rxFrame me p fab ok f = l.portCount p f_PORT_RXDROP_LINEERR := by
  refine (if_neg hopen.not_closed).trans ?_
  simp only [h]

theorem Lane.rxFrame_filtered (h : rxFilter (l.port p) (l.portCfg me p) ok f = .error .filtered) :
    l.rxFrame me p fab ok f = l.portCount p f_PORT_RXDROP_FILTERED := by
  refine (if_neg hopen.not_closed).trans ?_
  simp only [h]

theorem Lane.rxFrame_ip (h : rxFilter (l.port p) (l.portCfg me p) ok f = .error .ip) :
    l.rxFrame me p fab ok f = l.portCount p f_PORT_RXDROP_IPDROP := by
  refine (if_neg hopen.not_closed).trans ?_
  simp only [h]

theorem Lane.rxFrame_pause (h : rxFilter (l.port p) (l.portCfg me p) ok f = .error .pause) :
    l.rxFrame me p fab ok f = l := by
  refine (if_neg hopen.not_closed).trans ?_
  simp only [h]

theorem Lane.rxFrame_afesh {src : BitVec 128} {sport : Nat} {body : Bytes}
    (h : rxFilter (l.port p) (l.portCfg me p) ok f = .ok (.afesh src sport body)) : l.rxFrame me p fab ok f =
    (l.portCount p f_PORT_RXCNT_RX).rxEnqueue
      ⟨16 * me.num + p, src, sport, natAt body 0 1 == 0x51 || natAt body 0 1 == 0x52, body⟩ := by
  refine (if_neg hopen.not_closed).trans ?_
  simp only [h]

end

end Sys2Proof.Machine
end

section
/-! Neighbour discovery, echo and MLD at one port (R271, R273 to R275): conflicts of addresses, the cache, and the answers. -/
namespace Sys2Proof.Machine

/-! ### Detection of addresses (R271) -/

/-- Detection of address k ends. -/
def PortSt.dadEnds (q : PortSt) (k : Nat) (conflict : Bool) : PortSt :=
  if q.addr.getD k 0 = 1 then { q with addr := q.addr.set k (if conflict then 3 else 2) } else q
/-- Another node uses an address of the port. -/
def PortSt.conflicts (q : PortSt) (c : PortCfg) (target : BitVec 128) : PortSt :=
  (List.range 3).foldl (fun q k => if c.addrs.getD k 0 = target ∧ target ≠ 0 then q.dadEnds k true else q) q

section
variable {l : Lane} {p : Nat} (hp : p < l.ports.length) (q : PortSt) (r : RegMap)
include hp

theorem Lane.dadDone_setPort (k : Nat) (conflict : Bool) :
    (l.setPort p q r).dadDone p k conflict = l.setPort p (q.dadEnds k conflict) r := by
  rw [Lane.dadDone, PortSt.dadEnds, Lane.setPort_port_same hp]
  split
  · rw [Lane.modPort_setPort hp]
  · rfl

theorem Lane.dadConflict_setPort (me : LaneId) (target : BitVec 128) :
    (l.setPort p q r).dadConflict me p target = l.setPort p (q.conflicts (l.portCfg me p) target) r := by
  refine List.foldl_hom (fun q => l.setPort p q r) fun q k => ?_
  rw [Lane.setPort_portCfg]
  split
  · exact l.dadDone_setPort hp q r k true
  · rfl

end

theorem Lane.dadDone_tentative {l : Lane} {p k : Nat} (conflict : Bool) (h : (l.port p).addr.getD k 0 = 1) :
    l.PortIs (l.dadDone p k conflict) p { l.port p with addr := (l.port p).addr.set k (if conflict then 3 else 2) } l.regs := by
  have hp := Lane.port_exists_of_tentative h
  rw [Lane.dadDone, if_pos h, Lane.modPort_eq hp]
  exact Lane.setPort_portIs hp _ _ fun _ => rfl

theorem PortSt.conflicts_foreign (q : PortSt) {c : PortCfg} {target : BitVec 128} (h : target ∉ c.addrs) :
    q.conflicts c target = q := by
  have hne (k : Nat) (hk : k < 3) : c.addrs.getD k 0 ≠ target := fun e =>
    h (e ▸ List.getD_eq_getElem c.addrs 0 (show k < c.addrs.length from hk) ▸ List.getElem_mem _)
  exact List.foldlRecOn (motive := (· = q)) _ _ rfl fun b hb k hk => by
    rw [if_neg fun h => hne k (List.mem_range.mp hk) h.1, hb]

/-- The tentative address that another node uses is given up. -/
theorem PortSt.conflicts_tentative {q : PortSt} {c : PortCfg} {target : BitVec 128} {k : Nat} (hk : k < 3)
    (htarget : target = c.addrs.getD k 0) (hset : target ≠ 0) (h : q.addr.getD k 0 = 1) :
    (q.conflicts c target).addr.getD k 0 = 3 := by
  have hother (q : PortSt) (v j : Nat) (hj : j ≠ k) (hv : q.addr.getD k 0 = v) :
      (if c.addrs.getD j 0 = target ∧ target ≠ 0 then q.dadEnds j true else q).addr.getD k 0 = v := by
    unfold PortSt.dadEnds
    split
    · split
      · simpa [List.getD_eq_getElem?_getD, hj] using hv
      · exact hv
    · exact hv
  refine foldl_passes (P := fun q => q.addr.getD k 0 = 1) (Q := fun q => q.addr.getD k 0 = 3) List.nodup_range
    (List.mem_range.mpr hk) (fun q j => hother q 1 j) (fun q hq => ?_) (fun q j => hother q 3 j) h
  have hlen : k < q.addr.length := Nat.lt_of_not_le fun hle => by simp [hle] at hq
  rw [if_pos ⟨htarget.symm, hset⟩, PortSt.dadEnds, if_pos hq]
  simp [hlen]

/-! ### What queues and the cache leave of a port -/

theorem PortSt.enqueue_queues (q : PortSt) (c : PortCfg) (f : TxFrame) : ∃ qs, (q.enqueue c f).1 = { q with queues := qs } := by
  rw [PortSt.enqueue_eq]
  split
  · exact ⟨q.queues, rfl⟩
  · exact ⟨_, rfl⟩

/-- Everything of a port but its queues and its neighbour cache. -/
def PortSt.apartSending (q : PortSt) : PortSt := { q with queues := [], nd := [], ndTick := 0 }

theorem PortSt.enqueue_apart (q : PortSt) (c : PortCfg) (f : TxFrame) : (q.enqueue c f).1.apartSending = q.apartSending := by
  rw [PortSt.enqueue_eq]
  split <;> rfl

theorem PortSt.confirm_apart (q : PortSt) (c : PortCfg) (a : BitVec 128) (mac : BitVec 48) :
    (q.confirm c a mac).1.apartSending = q.apartSending := by
  unfold PortSt.confirm
  split
  · rfl
  · exact foldl_keeps _ (fun b : PortSt × Nat => b.1.apartSending) (fun b f => PortSt.enqueue_apart b.1 c f) _ _

theorem PortSt.confirm_addr (q : PortSt) (c : PortCfg) (a : BitVec 128) (mac : BitVec 48) : (q.confirm c a mac).1.addr = q.addr := by
  have h := congrArg PortSt.addr (q.confirm_apart c a mac)
  exact h

theorem PortSt.send_apart (q : PortSt) (c : PortCfg) (f : TxFrame) : (q.send c f).1.apartSending = q.apartSending := by
  unfold PortSt.send
  dsimp only
  split
  · exact q.enqueue_apart c f
  · split
    · rfl
    · split
      · split
        · rfl
        · split <;> simp only [PortSt.enqueue_apart] <;> rfl
      · rw [PortSt.enqueue_apart, ndInsert]
        split <;> rfl

/-! ### The cache (R273) -/

/-- An address of which no frame waits is confirmed. -/
theorem PortSt.confirm_idle {q : PortSt} (c : PortCfg) {a : BitVec 128} (mac : BitVec 48)
    (h : ∀ e ∈ q.nd, e.addr = a → e.wait = []) : q.confirm c a mac =
    ({ q with nd := q.nd.map fun e => if e.addr = a then { e with mac := some mac, stale := false } else e }, 0) := by
  unfold PortSt.confirm
  split
  case h_1 hfind =>
    have hne (e : NdEntry) (he : e ∈ q.nd) : e.addr ≠ a := by simpa using List.find?_eq_none.mp hfind e he
    have hmap : (q.nd.map fun e => if e.addr = a then { e with mac := some mac, stale := false } else e) = q.nd :=
      (List.map_congr_left fun e he => if_neg (hne e he)).trans (List.map_id' _)
    rw [hmap]
  case h_2 e hfind =>
    have he : e.wait = [] := h e (List.mem_of_find?_eq_some hfind) (by simpa using List.find?_some hfind)
    rw [he]
    simp only [List.foldl_nil]
    congr 2
    refine List.map_congr_left fun x hx => ?_
    split
    next ha => rw [h x hx ha]
    next => rfl

/-- A confirmed entry becomes stale; an absent port has none. -/
theorem Lane.ndStale_portIs (l : Lane) (p : Nat) (a : BitVec 128) : l.PortIs (l.ndStale p a) p { l.port p with
    nd := (l.port p).nd.map fun e => if e.addr = a ∧ e.mac.isSome = true then { e with stale := true } else e } l.regs := by
  rcases Nat.lt_or_ge p l.ports.length with hp | hp
  · rw [Lane.ndStale, Lane.modPort_eq hp]
    exact Lane.setPort_portIs hp _ _ fun _ => rfl
  · rw [Lane.ndStale, Lane.modPort_absent hp]
    have hself := l.portIs_self p
    rw [Lane.port_of_le hp] at hself ⊢
    exact hself

section
variable {l : Lane} {me : LaneId} {p : Nat} (hp : p < l.ports.length) (q : PortSt) (r : RegMap)
include hp

theorem Lane.rxSolicit_foreign {src target : BitVec 128} (mac : BitVec 48) (hsrc : src ≠ 0)
    (h : q.owns (l.portCfg me p) target = false) :
    (l.setPort p q r).rxSolicit me p src target mac = l.setPort p q r := by
  simp only [Lane.rxSolicit, if_neg hsrc, Lane.setPort_port_same hp, Lane.setPort_portCfg, h, Bool.not_false, if_true]

/-- The sender of a solicitation for an own address is kept as stale, and answered. -/
theorem Lane.rxSolicit_answers {src target : BitVec 128} (mac : BitVec 48) (hsrc : src ≠ 0)
    (h : q.owns (l.portCfg me p) target = true) (hnew : ∀ e ∈ q.nd, e.addr ≠ src) (hroom : q.nd.length < 64) :
    (l.setPort p q r).rxSolicit me p src target mac =
      (l.setPort p { q with ndTick := q.ndTick + 1, nd := q.nd ++ [⟨src, some mac, true, q.ndTick + 1, []⟩] } r).portEnqueue me p
        (naFrame (l.portCfg me p) src target true) := by
  have hany : q.nd.any (fun e => e.addr == src) = false := by simpa using hnew
  simp only [Lane.rxSolicit, if_neg hsrc, Lane.setPort_port_same hp, Lane.setPort_portCfg, h, Bool.not_true, Bool.false_eq_true,
    if_false, hany, ndInsert, if_pos hroom, Lane.modPort_setPort hp, Lane.reg_setPort]

theorem Lane.rxAdvert_setPort (target : BitVec 128) (mac : BitVec 48) :
    let e := (q.conflicts (l.portCfg me p) target).confirm (l.portCfg me p) target mac
    (l.setPort p q r).rxAdvert me p target mac = l.setPort p e.1 (fbump r (f_PORT_TXDROP_QFULL.at (0x20 * p)) e.2) := by
  simp only [Lane.rxAdvert, Lane.dadConflict_setPort hp, Lane.setPort_port_same hp, Lane.setPort_portCfg,
    Lane.modPort_setPort hp, Lane.portCount_setPort hp]

/-! ### Sending through the cache (R271, R273) -/

/-- What a send leaves of the lane apart from the port's queues and cache. -/
theorem Lane.portSend_apart (f : TxFrame) : (((l.setPort p q r).portSend me p f).port p).apartSending = q.apartSending := by
  unfold Lane.portSend
  dsimp only
  split
  · rw [Lane.setPort_port_same hp]
  · rw [Lane.modPort_setPort hp, Lane.portCount_setPort hp, Lane.reg_setPort, Lane.setPort_port_same hp, PortSt.send_apart,
      Lane.setPort_port_same hp]

/-- A frame whose next hop is confirmed goes to its queue. -/
theorem Lane.portSend_known {f : TxFrame} {hop : BitVec 128} {e : NdEntry} (henable : (l.portCfg me p).enable = true)
    (hgate : l.txGated me = false) (hether : f.eth = false) (hcast : f.dst.toNat / 2 ^ 120 ≠ 0xFF)
    (hhop : nextHop (l.portCfg me p) f.dst = some hop) (hfind : q.nd.find? (fun e => e.addr == hop) = some e)
    (hmac : e.mac.isSome = true) (hfresh : e.stale = false) : ∃ nd, (l.setPort p q r).portSend me p f =
      (l.setPort p { q with ndTick := q.ndTick + 1, nd := nd } r).portEnqueue me p f := by
  let nd := q.nd.map fun x => if x.addr = hop then { x with used := q.ndTick + 1 } else x
  have hsend : q.send (l.portCfg me p) f = (({ q with ndTick := q.ndTick + 1, nd := nd }.enqueue (l.portCfg me p) f).1,
      ⟨({ q with ndTick := q.ndTick + 1, nd := nd }.enqueue (l.portCfg me p) f).2.toNat, false, false⟩) := by
    have hnone : e.mac.isNone = false := by simpa using hmac
    simp only [PortSt.send, hether, hcast, decide_false, Bool.or_self, Bool.false_eq_true, if_false, hhop, hfind, hnone, hfresh]
    rfl
  refine ⟨nd, ?_⟩
  rw [Lane.portEnqueue_open hp _ r f hgate]
  simp only [Lane.portSend, Lane.setPort_portCfg, Lane.setPort_txGated, henable, hgate, Bool.not_true, Bool.or_self,
    Bool.false_eq_true, if_false, Lane.setPort_port_same hp, hsend, Lane.modPort_setPort hp, Lane.portCount_setPort hp,
    Lane.reg_setPort]

/-! ### Echo and MLD (R274, R275) -/

/-- The Echo Reply to a request. -/
def echoReply (src dst : BitVec 128) (head : BitVec 32) (data : Bytes) : TxFrame :=
  icmpFrame dst src (beBytes 4 (129 * 2 ^ 24) ++ beBytes 4 head.toNat ++ data)
/-- Requests of second `sec` that a port has answered. -/
def PortSt.echoes (q : PortSt) (sec : Nat) : Nat := if q.echoSec = sec then q.echoCnt else 0

theorem Lane.rxEcho_foreign (src dst : BitVec 128) (head : BitVec 32) (data : Bytes) (h : q.owns (l.portCfg me p) dst = false) :
    (l.setPort p q r).rxEcho me p src dst head data = l.setPort p q r := by
  simp [Lane.rxEcho, Lane.setPort_port_same hp, h]

section
variable (src : BitVec 128) {dst : BitVec 128} (head : BitVec 32) (data : Bytes) (howns : q.owns (l.portCfg me p) dst = true)
  {sec : Nat} (hsec : sec = l.slot.toNat / 20000)
include howns hsec

theorem Lane.rxEcho_owned : (l.setPort p q r).rxEcho me p src dst head data =
    if 1232 < data.length ∨ 100 ≤ q.echoes sec then
      l.setPort p { q with echoSec := sec, echoCnt := q.echoes sec } (fbump r (f_PORT_RXDROP_ECHODROP.at (0x20 * p)))
    else (l.setPort p { q with echoSec := sec, echoCnt := q.echoes sec + 1 } r).portSend me p (echoReply src dst head data) := by
  subst hsec
  have hsecond : (if q.echoSec = l.slot.toNat / 20000 then q else { q with echoSec := l.slot.toNat / 20000, echoCnt := 0 }) =
      { q with echoSec := l.slot.toNat / 20000, echoCnt := q.echoes (l.slot.toNat / 20000) } := by
    unfold PortSt.echoes
    split
    next h => rw [← h]
    next => rfl
  dsimp only [Lane.rxEcho, Lane.setPort_slot]
  simp only [Lane.setPort_port_same hp, Lane.setPort_portCfg, howns, Bool.not_true, Bool.false_eq_true, if_false,
    Lane.modPort_setPort hp, hsecond, Lane.portCount_setPort hp, echoReply]

end

theorem Lane.rxMldQuery_setPort : (l.setPort p q r).rxMldQuery me p =
    (l.setPort p q r).portEnqueue me p (mldFrame q (l.portCfg me p)) := by
  rw [Lane.rxMldQuery, Lane.setPort_port_same hp, Lane.setPort_portCfg]

end

end Sys2Proof.Machine
end

section
/-! The best master clock algorithm over a lane's ports (R288, R293, R296, R297): the state that it gives each port, the
parent, and what it leaves of the clock. -/
namespace Sys2Proof.Machine

/-! ### The state of a port -/

/-- A port whose state the algorithm has decided; one that becomes a SLAVE under a new parent measures afresh. -/
def PtpPort.judged (g : PtpPort) (st : Nat) (changed : Bool) : PtpPort :=
  if st = 3 && changed then { g with st := st, delay := none, d21 := none, sync := none } else { g with st := st }

theorem PtpPort.judged_st (g : PtpPort) (st : Nat) (b : Bool) : (g.judged st b).st = st := by
  unfold PtpPort.judged; split <;> rfl
theorem PtpPort.judged_foreign (g : PtpPort) (st : Nat) (b : Bool) : (g.judged st b).foreign = g.foreign := by
  unfold PtpPort.judged; split <;> rfl
theorem PtpPort.judged_seen (g : PtpPort) (st : Nat) (b : Bool) : (g.judged st b).seen = g.seen := by
  unfold PtpPort.judged; split <;> rfl
theorem PtpPort.judged_sync {g : PtpPort} (h : g.sync = none) (st : Nat) (b : Bool) : (g.judged st b).sync = none := by
  unfold PtpPort.judged; split
  · rfl
  · exact h

/-- Only the port of the best foreign master is a SLAVE. -/
theorem ptpState_slave {c : TimeCfg} {best : Option (Nat × Announce)} {i : Nat} {p : PortSt × PortCfg}
    (h : ptpState c best i p = 3) : ∃ b, best = some (i, b) := by
  rcases best with _ | ⟨j, b⟩
  · unfold ptpState at h
    dsimp only at h
    split_ifs at h <;> omega
  · by_cases hij : i = j
    · exact ⟨b, hij ▸ rfl⟩
    · unfold ptpState at h
      dsimp only at h
      rw [if_neg hij] at h
      repeat' split at h
      all_goals omega

/-- A port that is down takes no part. -/
theorem ptpState_down (c : TimeCfg) (best : Option (Nat × Announce)) (i : Nat) {p : PortSt × PortCfg} (h : p.1.up = false) :
    ptpState c best i p = 0 := if_pos (.inr (.inl (by simp [h])))

/-- The port of the best foreign master has heard of it. -/
theorem bestForeign_heard {ps : List (PortSt × PortCfg)} {i : Nat} {a : Announce} (h : bestForeign ps = some (i, a)) :
    ∃ p, ps[i]? = some p ∧ p.1.ptp.foreign = some a := by
  refine List.foldlRecOn (motive := fun b => b = some (i, a) → ∃ p, ps[i]? = some p ∧ p.1.ptp.foreign = some a)
    _ _ (fun h => by cases h) (fun b hb x hx => ?_) h
  obtain ⟨k, hk, rfl⟩ := List.mem_mapIdx.mp hx
  dsimp only
  have hthis (a' : Announce) (ha : ps[k].1.ptp.foreign = some a') (he : some (k, a') = some (i, a)) :
      ∃ p, ps[i]? = some p ∧ p.1.ptp.foreign = some a := by
    obtain ⟨rfl, rfl⟩ := Prod.mk.inj (Option.some.inj he)
    exact ⟨_, List.getElem?_eq_getElem hk, ha⟩
  split
  next => exact hb
  next a' ha =>
    split
    next => exact hb
    next =>
      split
      next => exact hthis a' ha
      next =>
        split
        next => exact hthis a' ha
        next => exact hb

/-! ### The parent -/

/-- The SLAVE port among those that the algorithm judges. -/
def ptpParent (c : TimeCfg) (ps : List (PortSt × PortCfg)) : Option Nat :=
  ((ps.mapIdx fun i p => (ptpState c (bestForeign ps) i p, p.1)).mapIdx fun i s => (i, s.1)).findSome? fun x =>
    if x.2 = 3 then some x.1 else none

theorem ptpParent_iff (c : TimeCfg) (ps : List (PortSt × PortCfg)) (j : Nat) :
    ptpParent c ps = some j ↔ ∃ p, ps[j]? = some p ∧ ptpState c (bestForeign ps) j p = 3 := by
  have hfound (i : Nat) (h : ptpParent c ps = some i) : ∃ p, ps[i]? = some p ∧ ptpState c (bestForeign ps) i p = 3 := by
    obtain ⟨x, hx, hval⟩ := List.exists_of_findSome?_eq_some h
    rw [List.mapIdx_mapIdx] at hx
    obtain ⟨k, hk, rfl⟩ := List.mem_mapIdx.mp hx
    obtain ⟨hst, hki⟩ := Option.ite_none_right_eq_some.mp hval
    cases hki
    exact ⟨_, List.getElem?_eq_getElem hk, hst⟩
  refine ⟨hfound j, fun ⟨p, hp, hst⟩ => ?_⟩
  obtain ⟨hj, rfl⟩ := List.getElem?_eq_some_iff.mp hp
  have hsome : (ptpParent c ps).isSome = true := by
    rw [ptpParent, List.mapIdx_mapIdx, List.findSome?_isSome_iff]
    exact ⟨_, List.mem_mapIdx.mpr ⟨j, hj, rfl⟩, by simp [hst]⟩
  obtain ⟨i, hi⟩ := Option.isSome_iff_exists.mp hsome
  obtain ⟨_, -, hsti⟩ := hfound i hi
  obtain ⟨b, hb⟩ := ptpState_slave hst
  obtain ⟨b', hb'⟩ := ptpState_slave hsti
  obtain ⟨rfl, -⟩ := Prod.mk.inj (Option.some.inj (hb.symm.trans hb'))
  exact hi

/-- The time unit under a parent that the algorithm has decided. A changed one clears the filter history. -/
def TimeUnit.follow (t : TimeUnit) (parent : Option Nat) (source : Option (BitVec 64 × Nat)) (gm changed : Bool) : TimeUnit :=
  let t := { t with parent := parent, parentId := source, gm := gm }
  let t := if changed then { t with offs := [], lastT2 := none, inRun := 0, outRun := 0,
                                    locked := t.locked && parent.isSome && !t.gm } else t
  if changed && parent.isNone then { t with y := t.yi, locked := false } else t

section
variable (t : TimeUnit) (parent : Option Nat) (source : Option (BitVec 64 × Nat)) (gm changed : Bool)

theorem TimeUnit.follow_keeps : (t.follow parent source gm changed).yi = t.yi ∧
    (t.follow parent source gm changed).fifo = t.fifo ∧ (t.follow parent source gm changed).pins = t.pins := by
  cases changed <;> cases parent <;> exact ⟨rfl, rfl, rfl⟩

theorem TimeUnit.follow_parent : (t.follow parent source gm changed).parent = parent := by
  cases changed <;> cases parent <;> rfl

theorem TimeUnit.follow_unlocked (h : t.locked = false) : (t.follow parent source gm changed).locked = false := by
  cases changed <;> cases parent <;> simp [TimeUnit.follow, h]

theorem TimeUnit.follow_changed : (t.follow parent source gm true).offs = [] := by
  cases parent <;> rfl

/-- Without a parent the clock holds over at y_I (R297). -/
theorem TimeUnit.follow_holdover : (t.follow none source gm true).locked = false ∧ (t.follow none source gm true).y = t.yi :=
  ⟨rfl, rfl⟩

end

/-! ### The algorithm -/

theorem runBmca_eq (t : TimeUnit) (c : TimeCfg) (ps : List (PortSt × PortCfg)) : ∃ source gm changed,
    (changed = false → ptpParent c ps = t.parent) ∧ runBmca t c ps = (t.follow (ptpParent c ps) source gm changed,
      ps.mapIdx fun i p => { p.1 with ptp := p.1.ptp.judged (ptpState c (bestForeign ps) i p) changed }) := by
  refine ⟨_, _, _, fun h => not_not.mp (of_decide_eq_false (Bool.or_eq_false_iff.mp h).1), Prod.ext rfl ?_⟩
  exact List.ext_getElem? fun i => by simp only [runBmca, List.getElem?_map, List.getElem?_mapIdx, Option.map_map]; rfl

/-! ### The algorithm in a lane -/

/-- The lane's ports with their objects. -/
def Lane.ptpPorts (l : Lane) (me : LaneId) : List (PortSt × PortCfg) := l.ports.mapIdx fun i s => (s, l.portCfg me i)
/-- The state that the algorithm gives port j of the lane. -/
def Lane.ptpJudged (l : Lane) (me : LaneId) (j : Nat) : Nat :=
  ptpState (l.timeCfg me) (bestForeign (l.ptpPorts me)) j (l.port j, l.portCfg me j)
/-- Pins under the servo's lock (R298). -/
def Lane.heldPins (l : Lane) (me : LaneId) (locked : Bool) (pins : List WmkPin) : List WmkPin :=
  pins.mapIdx fun w k => k.hold (l.wmk me w) locked

theorem Lane.ptpPorts_getElem? {l : Lane} {me : LaneId} {j : Nat} (h : j < l.ports.length) :
    (l.ptpPorts me)[j]? = some (l.port j, l.portCfg me j) := by
  simp [Lane.ptpPorts, Lane.port, h]

theorem Lane.ptpJudged_absent {l : Lane} {j : Nat} (me : LaneId) (h : l.ports.length ≤ j) : l.ptpJudged me j = 0 :=
  ptpState_down _ _ _ (by rw [Lane.port_of_le h]; rfl)

theorem Lane.ptpParent_iff (l : Lane) (me : LaneId) (j : Nat) :
    ptpParent (l.timeCfg me) (l.ptpPorts me) = some j ↔ l.ptpJudged me j = 3 := by
  rw [Machine.ptpParent_iff]
  rcases Nat.lt_or_ge j l.ports.length with h | h
  · simp [Lane.ptpPorts_getElem? h, Lane.ptpJudged]
  · simp [Lane.ptpPorts, h, Lane.ptpJudged_absent me h]

section
variable (l : Lane) (me : LaneId) (fab : Nat)

theorem Lane.bmca_eq : let r := runBmca l.time (l.timeCfg me) (l.ptpPorts me)
    l.bmca me fab = { l with
      ports := r.2
      time := { r.1 with
        clock := r.1.clock + clkAdvance l.time.y fab - clkAdvance r.1.y fab, pins := l.heldPins me r.1.locked r.1.pins } } := by
  simp only [Lane.bmca, Lane.holdPins, Lane.timeAt, Bool.false_eq_true, if_false]
  rfl

theorem Lane.bmca_regs : (l.bmca me fab).regs = l.regs := by rw [Lane.bmca_eq]

theorem Lane.bmca_port (j : Nat) : ∃ changed,
    (l.bmca me fab).port j = { l.port j with ptp := (l.port j).ptp.judged (l.ptpJudged me j) changed } := by
  obtain ⟨source, gm, changed, -, h⟩ := runBmca_eq l.time (l.timeCfg me) (l.ptpPorts me)
  refine ⟨changed, ?_⟩
  rw [Lane.port, Lane.bmca_eq, h, List.getD_eq_getElem?_getD, List.getElem?_mapIdx]
  rcases Nat.lt_or_ge j l.ports.length with hj | hj
  · rw [Lane.ptpPorts_getElem? hj]
    rfl
  · rw [Lane.ptpJudged_absent me hj, Lane.port_of_le hj, List.getElem?_eq_none (by simpa [Lane.ptpPorts] using hj)]
    cases changed <;> rfl

/-- Outside the protocol the ports stay. -/
theorem Lane.bmca_port_frame (j : Nat) : { (l.bmca me fab).port j with ptp := (l.port j).ptp } = l.port j := by
  obtain ⟨changed, h⟩ := l.bmca_port me fab j
  rw [h]

/-- The clock's unit follows the parent, and the pins the servo. -/
theorem Lane.bmca_time : ∃ source gm changed clock, let u := l.time.follow (ptpParent (l.timeCfg me) (l.ptpPorts me)) source gm changed
    (changed = false → ptpParent (l.timeCfg me) (l.ptpPorts me) = l.time.parent) ∧
    (l.bmca me fab).time = { u with clock := clock, pins := l.heldPins me u.locked l.time.pins } := by
  obtain ⟨source, gm, changed, hsame, h⟩ := runBmca_eq l.time (l.timeCfg me) (l.ptpPorts me)
  obtain ⟨-, -, hpins⟩ := l.time.follow_keeps (ptpParent (l.timeCfg me) (l.ptpPorts me)) source gm changed
  refine ⟨source, gm, changed, (l.bmca me fab).time.clock, hsame, ?_⟩
  rw [Lane.bmca_eq, h]
  dsimp only
  rw [hpins]

theorem Lane.bmca_parent (j : Nat) : (l.bmca me fab).time.parent = some j ↔ ((l.bmca me fab).port j).ptp.st = 3 := by
  obtain ⟨source, gm, changed, clock, -, h⟩ := l.bmca_time me fab
  obtain ⟨changed', hport⟩ := l.bmca_port me fab j
  rw [h, hport, PtpPort.judged_st, ← Lane.ptpParent_iff]
  dsimp only
  rw [TimeUnit.follow_parent]

/-- What the algorithm leaves of the servo and the pins (R288, R293, R296, R297). -/
theorem Lane.bmca_servo : let u := (l.bmca me fab).time
    u.yi = l.time.yi ∧ u.fifo = l.time.fifo ∧ u.pins = l.heldPins me u.locked l.time.pins ∧
    (u.parent ≠ l.time.parent → u.offs = []) ∧ (u.parent = none → l.time.parent ≠ none → u.locked = false ∧ u.y = l.time.yi) ∧
    (l.time.locked = false → u.locked = false) := by
  obtain ⟨source, gm, changed, clock, hsame, h⟩ := l.bmca_time me fab
  generalize ptpParent (l.timeCfg me) (l.ptpPorts me) = parent at hsame h
  obtain ⟨hyi, hfifo, -⟩ := l.time.follow_keeps parent source gm changed
  intro u
  have hchanged (hp : u.parent ≠ l.time.parent) : changed = true := by
    refine Bool.eq_true_of_not_eq_false fun hc => hp ?_
    rw [show u = _ from h]
    exact (l.time.follow_parent parent source gm changed).trans (hsame hc)
  rw [show u = _ from h] at hchanged ⊢
  refine ⟨hyi, hfifo, rfl, fun hp => ?_, fun hnone hsome => ?_,
    fun hu => l.time.follow_unlocked parent source gm changed hu⟩
  · obtain rfl := hchanged hp
    exact l.time.follow_changed parent source gm
  · obtain rfl := hchanged (by rw [hnone]; exact hsome.symm)
    obtain rfl : parent = none := (l.time.follow_parent parent source gm true).symm.trans hnone
    exact l.time.follow_holdover source gm

end

/-- A port that has heard of no foreign master is not the SLAVE. -/
theorem Lane.ptpJudged_unheard {l : Lane} (me : LaneId) {j : Nat} (h : (l.port j).ptp.foreign = none) : l.ptpJudged me j ≠ 3 := by
  intro h3
  obtain ⟨b, hb⟩ := ptpState_slave h3
  obtain ⟨q, hq, hheard⟩ := bestForeign_heard hb
  have hj : j < l.ports.length := Nat.lt_of_not_le fun hle => by
    rw [Lane.ptpJudged_absent me hle] at h3
    cases h3
  rw [Lane.ptpPorts_getElem? hj] at hq
  cases hq
  cases h.symm.trans hheard

end Sys2Proof.Machine
end

section
/-! Links of the field ports (R261 to R263, R271, R275): link up with its first messages, link down. -/
namespace Sys2Proof.Machine

/-! ### Frames queued one after the other -/

section
variable {l : Lane} {me : LaneId} {p : Nat} (hp : p < l.ports.length) (q : PortSt) (r : RegMap)
include hp

/-- Frames given to a port change its queues and its counters. -/
theorem Lane.foldl_portEnqueue (fs : List TxFrame) : ∃ qs r',
    fs.foldl (fun l f => l.portEnqueue me p f) (l.setPort p q r) = l.setPort p { q with queues := qs } r' := by
  induction fs generalizing q r with
  | nil => exact ⟨q.queues, r, rfl⟩
  | cons f fs ih =>
    rw [List.foldl_cons]
    by_cases hgate : l.txGated me = true
    · rw [Lane.portEnqueue_gated q r f hgate]
      exact ih q r
    · rw [Lane.portEnqueue_open hp q r f (Bool.eq_false_of_not_eq_true hgate)]
      obtain ⟨qs, hqs⟩ := q.enqueue_queues (l.portCfg me p) f
      rw [hqs]
      exact ih { q with queues := qs } _

omit hp in
theorem Lane.foldl_portEnqueue_gated (fs : List TxFrame) (h : l.txGated me = true) :
    fs.foldl (fun l f => l.portEnqueue me p f) (l.setPort p q r) = l.setPort p q r :=
  List.foldlRecOn (motive := (· = l.setPort p q r)) _ _ rfl fun _ hb f _ => by rw [hb, Lane.portEnqueue_gated q r f h]

/-- Frames of one class for which its queue has room join it in their order. -/
theorem Lane.foldl_portEnqueue_fits {k : Nat} {fs : List TxFrame} (hgate : l.txGated me = false) (hk : k < q.queues.length)
    (hclass : ∀ f ∈ fs, (l.portCfg me p).tcmap.getD f.cls 0 % 8 = k)
    (hfits : ((q.queues.getD k [] ++ fs).map fun g => g.wire (l.portCfg me p)).sum ≤ 32768) : ∃ r',
    fs.foldl (fun l f => l.portEnqueue me p f) (l.setPort p q r) =
      l.setPort p { q with queues := q.queues.set k (q.queues.getD k [] ++ fs) } r' := by
  induction fs generalizing q r with
  | nil => exact ⟨r, by simp [hk]⟩
  | cons f fs ih =>
    have hf : (l.portCfg me p).tcmap.getD f.cls 0 % 8 = k := hclass f List.mem_cons_self
    have hroom : ¬ 32768 < ((q.queues.getD k []).map fun g => g.wire (l.portCfg me p)).sum + f.wire (l.portCfg me p) := by
      simp only [List.map_append, List.map_cons, List.sum_append, List.sum_cons] at hfits
      omega
    have hqueue : (q.queues.modify k fun gs => gs ++ [f]).getD k [] = q.queues.getD k [] ++ [f] := by simp [hk]
    have hset : (q.queues.modify k fun gs => gs ++ [f]).set k (q.queues.getD k [] ++ f :: fs) =
        q.queues.set k (q.queues.getD k [] ++ f :: fs) := by simp [List.modify_eq_set_getElem?, hk]
    rw [List.foldl_cons, Lane.portEnqueue_open hp q r f hgate, PortSt.enqueue_eq, hf, if_neg hroom]
    obtain ⟨r', h⟩ := ih { q with queues := q.queues.modify k fun gs => gs ++ [f] } _ (by simpa using hk)
      (fun g hg => hclass g (List.mem_cons_of_mem f hg)) (by rw [hqueue, List.append_assoc]; exact hfits)
    rw [hqueue, List.append_assoc] at h
    exact ⟨r', h.trans (by rw [← hset]; rfl)⟩

end

/-! ### The messages of a link that comes up -/

theorem length_beBytes (n x : Nat) : (beBytes n x).length = n := by
  have hle (n : Nat) : ∀ x, (leBytes n x).length = n := by
    induction n with
    | zero => exact fun _ => rfl
    | succ n ih => exact fun x => by simp [leBytes, ih]
  simp [beBytes, hle]

theorem TxFrame.wire_le (f : TxFrame) (c : PortCfg) : f.wire c ≤ f.body.length + f.hdr + 68 := by
  unfold TxFrame.wire
  dsimp only
  split <;> split <;> omega

theorem nsFrame_wire (c : PortCfg) (a : BitVec 128) : (nsFrame c 0 a).wire c ≤ 92 := by
  refine (TxFrame.wire_le _ c).trans ?_
  simp only [nsFrame, icmpFrame, List.length_append, length_beBytes, if_true, List.length_nil]
  decide

theorem PortSt.groups_length (q : PortSt) (c : PortCfg) : (q.groups c).length ≤ 6 := by
  have hown := List.length_filterMap_le
    (fun p : BitVec 128 × Nat => if p.1 ≠ 0 ∧ (p.2 = 1 ∨ p.2 = 2) then some (solicited p.1) else none) (c.addrs.zip q.addr)
  have hzip : (c.addrs.zip q.addr).length ≤ 3 := by
    rw [List.length_zip]
    exact Nat.min_le_left 3 _
  simp only [PortSt.groups, List.length_append, List.length_singleton]
  split
  · simp only [List.length_cons, List.length_nil]
    omega
  · simp only [List.length_nil]
    omega

theorem mldFrame_wire (q : PortSt) (c : PortCfg) : (mldFrame q c).wire c ≤ 204 := by
  have hgroups := (List.length_filter_le (fun g => decide (g ≠ ff02 1)) (q.groups c)).trans (q.groups_length c)
  have hrecords (gs : List (BitVec 128)) :
      (gs.map fun g => beBytes 4 (4 * 2 ^ 24) ++ beBytes 16 g.toNat).flatten.length = 20 * gs.length := by
    induction gs with
    | nil => rfl
    | cons g gs ih => simp only [List.map_cons, List.flatten_cons, List.length_append, length_beBytes, ih, List.length_cons]; omega
  refine (TxFrame.wire_le _ c).trans ?_
  simp only [mldFrame, icmpFrame, List.length_append, length_beBytes, hrecords]
  omega

/-- What a link that comes up sends is of class 1 and fits any queue (R275). -/
theorem PortSt.upFrames_class {q : PortSt} {c : PortCfg} {f : TxFrame} (hf : f ∈ q.upFrames c) : f.cls = 1 := by
  rcases List.mem_append.mp hf with h | h
  · obtain ⟨a, -, rfl⟩ := List.mem_map.mp h
    rfl
  · rw [List.mem_singleton.mp h]
    rfl

theorem PortSt.upFrames_wire (q : PortSt) (c : PortCfg) : ((q.upFrames c).map fun g => g.wire c).sum ≤ 32768 := by
  have hcount : ((c.addrs.filter fun a => decide (a ≠ 0)).map fun a => (nsFrame c 0 a).wire c).length ≤ 3 := by
    rw [List.length_map]
    exact List.length_filter_le _ c.addrs
  have hsum := List.sum_le_card_nsmul ((c.addrs.filter fun a => decide (a ≠ 0)).map fun a => (nsFrame c 0 a).wire c) 92
    (List.forall_mem_map.mpr fun a _ => nsFrame_wire c a)
  have hreport := mldFrame_wire q c
  rw [smul_eq_mul] at hsum
  simp only [PortSt.upFrames, List.map_append, List.map_map, List.sum_append, List.map_cons, List.map_nil, List.sum_cons,
    List.sum_nil]
  rw [Function.comp_def]
  omega

/-- The first messages of a link: nothing while the transmit is gated, else in their order into an empty queue (R266, R270). -/
theorem Lane.foldl_upFrames {l : Lane} {p : Nat} (hp : p < l.ports.length) (me : LaneId) (q : PortSt) (r : RegMap) :
    let c := l.portCfg me p
    ∃ qs r', (q.upFrames c).foldl (fun l f => l.portEnqueue me p f) (l.setPort p q r) = l.setPort p { q with queues := qs } r' ∧
      (l.mask.has me = false → qs = q.queues) ∧
      (l.mask.has me = true → q.queues = List.replicate 8 [] → qs.getD (c.tcmap.getD 1 0 % 8) [] = q.upFrames c) := by
  intro c
  obtain ⟨qs, r', hqueued⟩ := l.foldl_portEnqueue (me := me) hp q r (q.upFrames c)
  have hqueues {q' : PortSt} {r' : RegMap}
      (h : (q.upFrames c).foldl (fun l f => l.portEnqueue me p f) (l.setPort p q r) = l.setPort p q' r') : qs = q'.queues := by
    rw [← l.setPort_port_same hp q' r', ← h, hqueued, Lane.setPort_port_same hp]
  refine ⟨qs, r', hqueued, fun hmask => ?gated, fun hmask hempty => ?fits⟩
  case gated => exact hqueues (l.foldl_portEnqueue_gated q r (q.upFrames c) (by simp [Lane.txGated, hmask]))
  case fits =>
    have hk : c.tcmap.getD 1 0 % 8 < q.queues.length := by
      rw [hempty, List.length_replicate]
      exact Nat.mod_lt _ (by decide)
    have hnone : q.queues.getD (c.tcmap.getD 1 0 % 8) [] = [] := by
      rw [hempty, List.getD_eq_getElem?_getD, List.getElem?_replicate]
      split <;> rfl
    have hfits : ((q.queues.getD (c.tcmap.getD 1 0 % 8) [] ++ q.upFrames c).map fun g => g.wire c).sum ≤ 32768 := by
      rw [hnone, List.nil_append]
      exact q.upFrames_wire c
    obtain ⟨r'', hfit⟩ := l.foldl_portEnqueue_fits (me := me) hp q r (by simp [Lane.txGated, hmask]) hk
      (fun f hf => congrArg (fun n => c.tcmap.getD n 0 % 8) (PortSt.upFrames_class hf)) hfits
    have hqs : qs = q.queues.set (c.tcmap.getD 1 0 % 8) (q.upFrames c) := by
      rw [hnone, List.nil_append] at hfit
      exact hqueues hfit
    rw [hqs, List.getD_eq_getElem?_getD, List.getElem?_set_self hk, Option.getD_some]

/-! ### Link up and link down -/

section
variable {l : Lane} {me : LaneId} {p : Nat}

theorem Lane.portUp_idle {mode : Nat} (h : 16 ≤ p ∨ (l.port p).up = true ∨ (l.portCfg me p).enable = false ∨
    modeOk p (l.portCfg me p).mode mode = false) : l.portUp me p mode = l := if_pos h

/-- How a port resolved its mode: negotiated, or fixed. -/
def anState (p cfg : Nat) : Nat := if autoNeg p cfg then 2 else 4

section
variable {mode : Nat} (hport : p < 16) (hp : p < l.ports.length) (hdown : (l.port p).up = false)
  (henable : (l.portCfg me p).enable = true) (hmode : modeOk p (l.portCfg me p).mode mode = true)
include hport hp hdown henable hmode

/-- A link that comes up: the port, its first messages, and the algorithm of R288. -/
theorem Lane.portUp_eq : let c := l.portCfg me p
    let q := (l.port p).linkUp c mode (anState p c.mode)
    l.portUp me p mode = ((q.upFrames c).foldl (fun l f => l.portEnqueue me p f) (l.setPort p q l.regs)).bmca me 0 := by
  intro c q
  rw [Lane.portUp, if_neg (by simp [Nat.not_le.mpr hport, hdown, henable, hmode]), Lane.modPort_eq hp]
  simp only [Lane.setPort_port_same hp]
  rfl

/-- What a link that comes up does to the port, apart from the protocol, to its queues and to the rest (R271, R275). -/
theorem Lane.portUp_occurs : let c := l.portCfg me p
    let q := (l.port p).linkUp c mode (anState p c.mode)
    let m := l.portUp me p mode
    ∃ qs, { m.port p with ptp := (l.port p).ptp } = { q with queues := qs } ∧
      (l.mask.has me = false → qs = q.queues) ∧
      (l.mask.has me = true → q.queues = List.replicate 8 [] → qs.getD (c.tcmap.getD 1 0 % 8) [] = q.upFrames c) ∧
      (∀ j, j ≠ p → { m.port j with ptp := (l.port j).ptp } = l.port j) ∧
      { m with ports := l.ports, time := l.time, regs := l.regs } = l := by
  intro c q m
  have hm : m = ((q.upFrames c).foldl (fun l f => l.portEnqueue me p f) (l.setPort p q l.regs)).bmca me 0 :=
    Lane.portUp_eq hport hp hdown henable hmode
  obtain ⟨qs, r, hqueued, hgated, hfits⟩ := Lane.foldl_upFrames hp me q l.regs
  rw [hqueued] at hm
  have hframe (j : Nat) := (l.setPort p { q with queues := qs } r).bmca_port_frame me 0 j
  rw [← hm] at hframe
  have hself := hframe p
  rw [Lane.setPort_port_same hp] at hself
  refine ⟨qs, hself, hgated, hfits, fun j hj => ?others, ?rest⟩
  case others =>
    have hother := hframe j
    rw [Lane.setPort_port_other _ _ hj] at hother
    exact hother
  case rest =>
    rw [hm, Lane.bmca_eq]
    rfl

end

theorem Lane.portDown_idle {fab : Nat} (h : (l.port p).up = false) : l.portDown me p fab = l := by simp [Lane.portDown, h]

/-- What a link that goes down does (R261). -/
theorem Lane.portDown_occurs (hp : p < l.ports.length) (hup : (l.port p).up = true) (fab : Nat) :
    let m := l.portDown me p fab
    { m.port p with ptp := (l.port p).ptp } = (l.port p).linkDown ∧ (m.port p).ptp.foreign = none ∧ (m.port p).ptp.st = 0 ∧
      m.regs = fbump l.regs (f_PORT_LINK_LINKDN.at (0x20 * p)) ∧
      (∀ j, j ≠ p → { m.port j with ptp := (l.port j).ptp } = l.port j) ∧
      { m with ports := l.ports, time := l.time, regs := l.regs } = l := by
  intro m
  let q := { (l.port p).linkDown with ptp := { (l.port p).ptp with foreign := none, seen := 0, sync := none } }
  let d := l.setPort p q (fbump l.regs (f_PORT_LINK_LINKDN.at (0x20 * p)))
  have hm : m = d.bmca me fab := by
    simp only [m, Lane.portDown, hup, if_true, Lane.modPort_eq hp, Lane.portCount_setPort hp]
    rfl
  have hd : d.port p = q := l.setPort_port_same hp q _
  obtain ⟨changed, hport⟩ := d.bmca_port me fab p
  have hjudged : d.ptpJudged me p = 0 := ptpState_down _ _ _ (by rw [hd]; rfl)
  rw [← hm, hjudged, hd] at hport
  refine ⟨by rw [hport]; rfl, by rw [hport, PtpPort.judged_foreign], by rw [hport, PtpPort.judged_st], ?_, fun j hj => ?_, ?_⟩
  · rw [hm, Lane.bmca_regs]
    rfl
  · have hother := d.bmca_port_frame me fab j
    rw [← hm, Lane.setPort_port_other _ _ hj] at hother
    exact hother
  · rw [hm, Lane.bmca_eq]
    rfl

end

end Sys2Proof.Machine
end

section
/-! Gates and transmission of a port (R265 to R270, R292): the entry into which the clock falls, the queue that is next, and
the frame that leaves. -/
namespace Sys2Proof.Machine

/-! ### Gate lists (R267, R268) -/

/-- Entry `e` is the one of the list into which a time in ns falls. -/
def GateList.FallsAt (g : GateList) (now e : Nat) : Prop :=
  let off := (((now : Nat) : Int) - g.base) % (((g.entries.map gateIntv).sum : Nat) : Int)
  g.entries ≠ [] → (((g.entries.take e).map gateIntv).sum : Int) ≤ off ∧ off < ((g.entries.take (e + 1)).map gateIntv).sum

theorem gateAt_falls (es : List Nat) {i off : Nat} (h : off < (es.map gateIntv).sum) : ∃ k, (gateAt es i off).1 = i + k ∧
    ((es.take k).map gateIntv).sum ≤ off ∧ off < ((es.take (k + 1)).map gateIntv).sum := by
  induction es generalizing i off with
  | nil => cases h
  | cons e es ih =>
    by_cases he : off < gateIntv e
    · exact ⟨0, by simp [gateAt, he], Nat.zero_le _, by simpa using he⟩
    · rw [List.map_cons, List.sum_cons] at h
      obtain ⟨k, hk, hlo, hhi⟩ := ih (i := i + 1) (off := off - gateIntv e) (by omega)
      refine ⟨k + 1, ?_, ?_, ?_⟩
      · rw [gateAt, if_neg he, hk, Nat.add_assoc, Nat.add_comm 1]
      · rw [List.take_succ_cons, List.map_cons, List.sum_cons]
        omega
      · rw [List.take_succ_cons, List.map_cons, List.sum_cons]
        omega

theorem GateList.fallsAt_offset (g : GateList) (now : Nat) : g.FallsAt now (gateAt g.entries 0 (g.offset now)).1 := by
  unfold GateList.FallsAt
  intro off hne
  have hcycle : g.cycle = (g.entries.map gateIntv).sum := List.sum_eq_foldl.symm
  have hpos : 0 < (g.entries.map gateIntv).sum := by
    obtain ⟨e, es, hes⟩ := List.exists_cons_of_ne_nil hne
    rw [hes, List.map_cons, List.sum_cons, gateIntv]
    omega
  have hoffset : ((g.offset now : Nat) : Int) = off := by
    rw [GateList.offset, if_neg (by omega), fmod, hcycle, Int.fmod_eq_emod_of_nonneg _ (Int.natCast_nonneg _),
      Int.toNat_of_nonneg (Int.emod_nonneg _ (by omega))]
  have hlt : g.offset now < (g.entries.map gateIntv).sum := by
    have : off < ((g.entries.map gateIntv).sum : Nat) := Int.emod_lt_of_pos _ (by omega)
    omega
  obtain ⟨k, hk, hlo, hhi⟩ := gateAt_falls g.entries (i := 0) hlt
  rw [hk, Nat.zero_add, ← hoffset]
  exact ⟨by exact_mod_cast hlo, by exact_mod_cast hhi⟩

section
variable {l : Lane} {p : Nat}

theorem Lane.gateEntry_idle (fab : Nat) (h : (l.port p).oper = none) : l.gateEntry p fab = l := by
  simp only [Lane.gateEntry, h]

theorem Lane.gateEntry_setPort (hp : p < l.ports.length) {q : PortSt} (r : RegMap) {g : GateList} (fab : Nat) (h : q.oper = some g) :
    (l.setPort p q r).gateEntry p fab =
      l.setPort p { q with entry := (gateAt g.entries 0 (g.offset (nsOf (l.clk fab)))).1 } r := by
  simp only [Lane.gateEntry, Lane.setPort_port_same hp, h, Lane.modPort_setPort hp, Lane.setPort_clk]

theorem Lane.gateChange_due (hp : p < l.ports.length) {g : GateList} {t fab : Nat} (h : (l.port p).pend = some (g, t))
    (ht : t ≤ nsOf (l.clk fab)) : l.gateChange p fab = l.setPort p { l.port p with
      oper := some g, pend := none, entry := (gateAt g.entries 0 (g.offset (nsOf (l.clk fab)))).1 } l.regs := by
  simp only [Lane.gateChange, h, if_pos ht, Lane.modPort_eq hp]
  exact Lane.gateEntry_setPort hp l.regs fab rfl

theorem Lane.gateChange_waits {fab : Nat} (h : ∀ g t, (l.port p).pend = some (g, t) → nsOf (l.clk fab) < t) :
    l.gateChange p fab = l := by
  unfold Lane.gateChange
  split
  next g t hpend => exact if_neg (Nat.not_le.mpr (h g t hpend))
  next => rfl

end

/-! ### The next queue (R266, R269) -/

section
variable (q : PortSt) (c : PortCfg)

theorem PortSt.gateDrops_queues : ∃ qs n, q.gateDrops c = ({ q with queues := qs }, n) := by
  unfold PortSt.gateDrops
  split
  · exact ⟨_, _, rfl⟩
  · exact ⟨q.queues, 0, rfl⟩

theorem PortSt.gateDrops_keeps : (q.gateDrops c).1.gates c = q.gates c ∧ (q.gateDrops c).1.busyTill = q.busyTill ∧
    (q.gateDrops c).1.mode = q.mode ∧ (q.gateDrops c).1.ptp = q.ptp := by
  obtain ⟨qs, n, h⟩ := q.gateDrops_queues c
  rw [h]
  exact ⟨rfl, rfl, rfl, rfl⟩

theorem PortSt.nextQueue_eq : q.nextQueue c = (List.range 8).reverse.findSome? fun n =>
    if (q.gates c).testBit n then ((q.queues.getD n []).head?).map fun f => (n, f) else none := List.head?_filterMap

variable {q c}

/-- The head of a queue is taken. -/
theorem lmod_tail_of_head {qs : List (List TxFrame)} {n : Nat} {f : TxFrame} {rest : List TxFrame}
    (h : qs.getD n [] = f :: rest) : lmod qs n List.tail = qs.set n rest := by
  have hn : n < qs.length := Nat.lt_of_not_le fun hle => by simp [hle] at h
  have hhead : qs[n] = f :: rest := (List.getD_eq_getElem _ _ hn).symm.trans h
  simp [lmod, List.modify_eq_set_getElem?, hn, hhead]

theorem PortSt.nextQueue_none (h : ∀ n, n < 8 → (q.gates c).testBit n = true → q.queues.getD n [] = []) :
    q.nextQueue c = none := by
  rw [PortSt.nextQueue_eq, List.findSome?_eq_none_iff]
  intro n hn
  split
  next hopen => rw [h n (by simpa using hn) hopen]; rfl
  next => rfl

/-- The highest queue whose gate is open and that holds a frame. -/
theorem PortSt.nextQueue_some {n : Nat} {f : TxFrame} {rest : List TxFrame} (hn : n < 8) (hopen : (q.gates c).testBit n = true)
    (hq : q.queues.getD n [] = f :: rest)
    (h : ∀ j, n < j → j < 8 → (q.gates c).testBit j = true → q.queues.getD j [] = []) : q.nextQueue c = some (n, f) := by
  rw [PortSt.nextQueue_eq, List.findSome?_eq_some_iff]
  refine ⟨(List.range' (n + 1) (7 - n)).reverse, n, (List.range n).reverse, ?_, ?_, fun j hj => ?_⟩
  · interval_cases n <;> rfl
  · rw [if_pos hopen, hq]
    rfl
  · simp only [List.mem_reverse, List.mem_range'_1] at hj
    split
    next hj' => rw [h j (by omega) (by omega) hj']; rfl
    next => rfl

end

/-! ### The frame that leaves (R265, R269, R270, R292) -/

section
variable {l : Lane} {me : LaneId} {p fab : Nat}

theorem Lane.txStart_down (h : (l.port p).up = false) : l.txStart me p fab = l := by simp [Lane.txStart, h]

theorem Lane.txStart_gated (hup : (l.port p).up = true) (h : l.mask.has me = false) :
    l.txStart me p fab = { l with ports := l.ports.map fun y => { y with queues := List.replicate 8 [] } } := by
  simp [Lane.txStart, hup, Lane.txGated, h, Lane.gateTx]

/-- The send time that a port keeps, with its sequence, of the last request that it has sent. -/
def PtpPort.requestTime (g : PtpPort) (f : TxFrame) (t : Nat) : Option (Nat × Int) :=
  if f.stamp = 1 ∧ (beAt f.body 0 1 % 16 = 1 ∨ beAt f.body 0 1 % 16 = 2) then some (beAt f.body 30 2, (t : Int)) else g.tReq

theorem PtpPort.requestTime_eq (g : PtpPort) (f : TxFrame) (t : Nat) :
    (if f.stamp = 1 ∧ (beAt f.body 0 1 % 16 = 1 ∨ beAt f.body 0 1 % 16 = 2) then
      { g with tReq := some (beAt f.body 30 2, (t : Int)) } else g) = { g with tReq := g.requestTime f t } := by
  unfold PtpPort.requestTime
  split <;> rfl

/-- The start of the transmission in progress, in ps of the lane's slots. -/
def Lane.txNow (l : Lane) (fab : Nat) : Nat := l.slot.toNat * 50000000 + fab * 2500

section
variable (hup : (l.port p).up = true) (hmask : l.mask.has me = true)
  {d : PortSt × Nat} (hd : (l.port p).gateDrops (l.portCfg me p) = d)
include hup hmask hd

theorem Lane.txStart_none (h : d.1.nextQueue (l.portCfg me p) = none) :
    l.txStart me p fab = l.setPort p d.1 (fbump l.regs (f_PORT_TXDROP_GATEDROP.at (0x20 * p)) d.2) := by
  have hp := Lane.port_exists_of_up hup
  subst hd
  simp only [Lane.txStart, hup, Bool.not_true, Bool.false_eq_true, if_false, Lane.txGated, hmask, Lane.modPort_eq hp,
    Lane.portCount_setPort hp, Lane.setPort_port_same hp, h]

theorem Lane.txStart_waits {n : Nat} {f : TxFrame} (h : d.1.nextQueue (l.portCfg me p) = some (n, f))
    (hwait : l.txNow fab < d.1.busyTill ∨ d.1.fits (l.portCfg me p) (nsOf (l.clk fab)) n f = false) :
    l.txStart me p fab = l.setPort p d.1 (fbump l.regs (f_PORT_TXDROP_GATEDROP.at (0x20 * p)) d.2) := by
  have hp := Lane.port_exists_of_up hup
  subst hd
  simp only [Lane.txStart, hup, Bool.not_true, Bool.false_eq_true, if_false, Lane.txGated, hmask, Lane.modPort_eq hp,
    Lane.portCount_setPort hp, Lane.setPort_port_same hp, h]
  exact if_pos hwait

theorem Lane.txStart_sends {n : Nat} {f : TxFrame} (h : d.1.nextQueue (l.portCfg me p) = some (n, f))
    (hfree : d.1.busyTill ≤ l.txNow fab) (hfits : d.1.fits (l.portCfg me p) (nsOf (l.clk fab)) n f = true) : ∃ t,
    l.txStart me p fab = l.setPort p { d.1 with
        queues := lmod d.1.queues n List.tail
        busyTill := l.txNow fab + frameTime d.1 (l.portCfg me p) f
        lastTx := some { insertStamp f (l.txStamp me p fab) with
          tag := if (l.portCfg me p).txvid = 0 then 0 else 8192 * n + (l.portCfg me p).txvid }
        ptp := { d.1.ptp with tReq := t } }
      (fbump (fbump l.regs (f_PORT_TXDROP_GATEDROP.at (0x20 * p)) d.2) (f_PORT_TXCNT_TX.at (0x20 * p))) := by
  have hp := Lane.port_exists_of_up hup
  have hmode : d.1.mode = (l.port p).mode := by
    obtain ⟨-, -, hmode, -⟩ := (l.port p).gateDrops_keeps (l.portCfg me p)
    rw [← hd, hmode]
  have hstamp (r : RegMap) : (l.setPort p d.1 r).txStamp me p fab = l.txStamp me p fab := by
    simp only [Lane.txStamp, Lane.setPort_port_same hp, hmode, Lane.setPort_clk, Lane.setPort_dict]
  have hstart : ¬ (l.txNow fab < d.1.busyTill ∨ d.1.fits (l.portCfg me p) (nsOf (l.clk fab)) n f = false) := by
    rw [hfits]
    simpa using hfree
  refine ⟨d.1.ptp.requestTime f (l.txStamp me p fab), ?_⟩
  subst hd
  simp only [Lane.txStart, hup, Bool.not_true, Bool.false_eq_true, if_false, Lane.txGated, hmask, Lane.modPort_eq hp,
    Lane.portCount_setPort hp, Lane.setPort_port_same hp, h]
  refine (if_neg hstart).trans ?_
  simp only [Lane.modPort_setPort hp, Lane.portCount_setPort hp]
  rw [hstamp, PtpPort.requestTime_eq]
  rfl

end

end

end Sys2Proof.Machine
end

section
/-! The commands of the field ports (R261 to R275, R283). -/
namespace Sys2Proof.Machine

section
variable {s : State} {x : LaneId} {p : Nat} {l : Lane} (hl : s.lane x = l)
include hl

/-! ### Frames and messages at an open port -/

section
variable {q : PortSt} {c : PortCfg} {rx : RegMap} (hq : l.port p = q) (hc : l.portCfg x p = c)
  (hrx : fbump l.regs (f_PORT_RXCNT_RX.at (0x20 * p)) = rx) (hopen : l.PortOpen x p)
include hq hc hrx hopen

omit hrx in
/-- ETH_FRAME_RECEIVE: the counter or the queue that a frame goes to (R264, R265, R272, R276). -/
theorem exec_ethFrameReceive_open (fab : Nat) (ok : Bool) (f : Bytes) :
    let counted (g : Fld) : Lane := { l with regs := fbump l.regs (g.at (0x20 * p)) }
    (¬ frameSized ok f → exec (.ethFrameReceive x p fab ok f) s = .next (s.setLane x (counted f_PORT_RXDROP_LINEERR))) ∧
    (frameSized ok f → etherType f = 0x8808 → exec (.ethFrameReceive x p fab ok f) s = .next s) ∧
    (frameSized ok f → etherType f ≠ 0x8808 → (macAccepted q c (beAt f 0 6) = false ∨ vlanRefused c f) →
      exec (.ethFrameReceive x p fab ok f) s = .next (s.setLane x (counted f_PORT_RXDROP_FILTERED))) ∧
    (frameSized ok f → beAt f 12 2 ≠ 0x8100 → macAccepted q c (beAt f 0 6) = true →
      (etherType f ≠ 0x86DD → etherType f ≠ 0x88F7 → etherType f ≠ 0x8808 →
        exec (.ethFrameReceive x p fab ok f) s = .next (s.setLane x (counted f_PORT_RXDROP_IPDROP))) ∧
      (etherType f = 0x86DD → ipFilter q c (f.drop 14) = .error .ip →
        exec (.ethFrameReceive x p fab ok f) s = .next (s.setLane x (counted f_PORT_RXDROP_IPDROP))) ∧
      (∀ src sport body, etherType f = 0x86DD → ipFilter q c (f.drop 14) = .ok (.afesh src sport body) →
        exec (.ethFrameReceive x p fab ok f) s = .next (s.setLane x ((counted f_PORT_RXCNT_RX).rxEnqueue
          ⟨16 * x.num + p, src, sport, natAt body 0 1 == 0x51 || natAt body 0 1 == 0x52, body⟩)))) := by
  subst hl hq hc
  refine ⟨fun h => laneNext_to (Lane.rxFrame_line hopen (rxFilter_line h)),
    fun h hty => laneNext_same (Lane.rxFrame_pause hopen (rxFilter_pause h hty)),
    fun h hty hf => laneNext_to (Lane.rxFrame_filtered hopen (rxFilter_filtered h hty hf)), fun h htag hmac => ?_⟩
  have hfilter (hty : etherType f ≠ 0x8808) := rxFilter_untagged h hty htag hmac
  refine ⟨fun hip hptp hpause => laneNext_to (Lane.rxFrame_ip hopen ?_),
    fun hip herr => laneNext_to (Lane.rxFrame_ip hopen ?_), fun src sport body hip hafesh => laneNext_to (Lane.rxFrame_afesh hopen ?_)⟩
  · rw [hfilter hpause, if_neg hip, if_neg fun h => hptp h.1]
  · rw [hfilter (by rw [hip]; decide), if_pos hip, herr]
  · rw [hfilter (by rw [hip]; decide), if_pos hip, hafesh]

/-- NEIGHBOR_SOLICITATION with a sender's address (R273). -/
theorem exec_neighborSolicitation_open {src : BitVec 128} (target : BitVec 128) (mac : BitVec 48) (hsrc : src ≠ 0) :
    (q.owns c target = false → exec (.neighborSolicitation x p src target mac) s = .next (s.setLane x { l with regs := rx })) ∧
    (q.owns c target = true → (∀ e ∈ q.nd, e.addr ≠ src) → q.nd.length < 64 →
      ∃ l', exec (.neighborSolicitation x p src target mac) s = .next (s.setLane x l') ∧
        l.PortQueues l' x p { q with ndTick := q.ndTick + 1, nd := q.nd ++ [⟨src, some mac, true, q.ndTick + 1, []⟩] } rx
          (naFrame c src target true)) := by
  subst hl hq hc hrx
  have ⟨_, hp, _⟩ := hopen
  exact ⟨fun howns => rxMessage_counted hopen (Lane.rxSolicit_foreign hp _ _ mac hsrc howns), fun howns hnew hroom =>
    ⟨_, rxMessage_next hopen (Lane.rxSolicit_answers hp _ _ mac hsrc howns hnew hroom), Lane.portEnqueue_queues hp _ _ _⟩⟩

/-- NEIGHBOR_ADVERTISEMENT (R271, R273). -/
theorem exec_neighborAdvertisement_open (target : BitVec 128) (mac : BitVec 48) :
    ∃ l', exec (.neighborAdvertisement x p target mac) s = .next (s.setLane x l') ∧
      (target ∉ c.addrs → (∀ e ∈ q.nd, e.addr = target → e.wait = []) →
        l.PortIs l' p { q with nd := q.nd.map fun e => if e.addr = target then { e with mac := some mac, stale := false } else e } rx) ∧
      (∀ k, k < 3 → target = c.addrs.getD k 0 → target ≠ 0 → q.addr.getD k 0 = 1 → (l'.port p).addr.getD k 0 = 3) := by
  subst hl hq hc hrx
  have ⟨_, hp, _⟩ := hopen
  refine ⟨_, rxMessage_next hopen (Lane.rxAdvert_setPort hp _ _ target mac), fun hforeign hidle => ?_, fun k hk htarget hset h => ?_⟩
  · rw [PortSt.conflicts_foreign _ hforeign, PortSt.confirm_idle _ mac hidle]
    exact Lane.setPort_portIs hp _ _ (rget_qfull_zero _ p)
  · rw [Lane.setPort_port_same hp, PortSt.confirm_addr]
    exact PortSt.conflicts_tentative hk htarget hset h

/-- MLD_QUERY (R275). -/
theorem exec_mldQuery_open : ∃ l', exec (.mldQuery x p) s = .next (s.setLane x l') ∧ l.PortQueues l' x p q rx (mldFrame q c) := by
  subst hl hq hc hrx
  have ⟨_, hp, _⟩ := hopen
  exact ⟨_, rxMessage_next hopen (Lane.rxMldQuery_setPort hp _ _), Lane.portEnqueue_queues hp _ _ _⟩

/-- ECHO_REQUEST to an own address (R274). -/
theorem exec_echoRequest_owned (src : BitVec 128) {dst : BitVec 128} (head : BitVec 32) (data : Bytes)
    (howns : q.owns c dst = true) {sec : Nat} (hsec : l.slot.toNat / 20000 = sec) :
    ∃ l', exec (.echoRequest x p src dst head data) s = .next (s.setLane x l') ∧
      ((1232 < data.length ∨ 100 ≤ q.echoes sec) → l.PortIs l' p { q with echoSec := sec, echoCnt := q.echoes sec }
        (fbump rx (f_PORT_RXDROP_ECHODROP.at (0x20 * p)))) ∧
      (data.length ≤ 1232 → q.echoes sec < 100 → (l'.port p).echoCnt = q.echoes sec + 1 ∧ (l'.port p).echoSec = sec ∧
        (∀ hop e, src.toNat / 2 ^ 120 ≠ 0xFF → nextHop c src = some hop → q.nd.find? (fun e => e.addr == hop) = some e →
          e.mac.isSome = true → e.stale = false → l.mask.has x = true →
          ∃ nd, l.PortQueues l' x p { q with echoSec := sec, echoCnt := q.echoes sec + 1, ndTick := q.ndTick + 1, nd := nd } rx
            (echoReply src dst head data))) := by
  subst hl hq hc hrx
  have ⟨_, hp, _, henable⟩ := hopen
  refine ⟨_, rxMessage_next hopen (Lane.rxEcho_owned hp _ _ src head data howns hsec.symm), fun hdrop => ?drop,
    fun hsize hcount => ?answer⟩
  case drop =>
    rw [if_pos hdrop]
    exact Lane.setPort_portIs hp _ _ fun _ => rfl
  case answer =>
    rw [if_neg (by omega)]
    have hapart := Lane.portSend_apart (me := x) hp { (s.lane x).port p with
      echoSec := sec, echoCnt := ((s.lane x).port p).echoes sec + 1 } (fbump (s.lane x).regs (f_PORT_RXCNT_RX.at (0x20 * p)))
      (echoReply src dst head data)
    refine ⟨congrArg PortSt.echoCnt hapart, congrArg PortSt.echoSec hapart, fun hop e hcast hhop hfind hmac hfresh hmask => ?_⟩
    obtain ⟨nd, hsend⟩ := Lane.portSend_known hp { (s.lane x).port p with
        echoSec := sec, echoCnt := ((s.lane x).port p).echoes sec + 1 } (fbump (s.lane x).regs (f_PORT_RXCNT_RX.at (0x20 * p)))
      (f := echoReply src dst head data) henable (by simp [Lane.txGated, hmask]) rfl hcast hhop hfind hmac hfresh
    rw [hsend]
    exact ⟨nd, Lane.portEnqueue_queues hp _ _ _⟩

end

/-! ### Gates and the line -/

/-- GATE_LIST_CHANGE and GATE_ENTRY_END find the entry into which the clock falls (R267, R268). -/
theorem exec_gateEntryEnd {q : PortSt} (hq : l.port p = q) (fab : Nat) {g : GateList} (h : q.oper = some g) :
    ∃ l' e, exec (.gateEntryEnd x p fab) s = .next (s.setLane x l') ∧ l.PortIs l' p { q with entry := e } l.regs ∧
      g.FallsAt (nsOf (l.clk fab)) e := by
  subst hl hq
  have hp := Lane.port_exists (l := s.lane x) (p := p) fun h0 => by simp [h0, port0] at h
  have hgate := Lane.gateEntry_setPort hp (s.lane x).regs fab h
  rw [Lane.setPort_self] at hgate
  exact ⟨_, _, laneNext_to hgate, Lane.setPort_portIs hp _ _ fun _ => rfl, g.fallsAt_offset _⟩

theorem exec_gateListChange {q : PortSt} (hq : l.port p = q) (fab : Nat) {g : GateList} {t : Nat} (h : q.pend = some (g, t))
    (ht : t ≤ nsOf (l.clk fab)) : ∃ l' e, exec (.gateListChange x p fab) s = .next (s.setLane x l') ∧
      l.PortIs l' p { q with oper := some g, pend := none, entry := e } l.regs ∧ g.FallsAt (nsOf (l.clk fab)) e := by
  subst hl hq
  have hp := Lane.port_exists (l := s.lane x) (p := p) fun h0 => by simp [h0, port0] at h
  exact ⟨_, _, laneNext_to (Lane.gateChange_due hp h ht), Lane.setPort_portIs hp _ _ fun _ => rfl, g.fallsAt_offset _⟩

/-- TX_FRAME_START of a lane that takes part, its link up (R265, R266, R269). -/
theorem exec_txFrameStart_open {q : PortSt} {c : PortCfg} (hq : l.port p = q) (hc : l.portCfg x p = c) (hup : q.up = true)
    (hmask : l.mask.has x = true) (fab : Nat) : let d := q.gateDrops c
    let now := l.txNow fab
    let dropped := fbump l.regs (f_PORT_TXDROP_GATEDROP.at (0x20 * p)) d.2
    ∃ l', exec (.txFrameStart x p fab) s = .next (s.setLane x l') ∧
      ((∀ n, n < 8 → (q.gates c).testBit n = true → d.1.queues.getD n [] = []) → l.PortIs l' p d.1 dropped) ∧
      (∀ n f rest, n < 8 → (q.gates c).testBit n = true → d.1.queues.getD n [] = f :: rest →
        (∀ j, n < j → j < 8 → (q.gates c).testBit j = true → d.1.queues.getD j [] = []) →
        ((now < q.busyTill ∨ d.1.fits c (nsOf (l.clk fab)) n f = false) → l.PortIs l' p d.1 dropped) ∧
        (q.busyTill ≤ now → d.1.fits c (nsOf (l.clk fab)) n f = true →
          ∃ t, l.PortIs l' p { d.1 with
              queues := d.1.queues.set n rest
              busyTill := now + (f.wire c + 20) * 8 * 1000000 / lineRate q.mode
              lastTx := some { insertStamp f (l.txStamp x p fab) with tag := if c.txvid = 0 then 0 else 8192 * n + c.txvid }
              ptp := { q.ptp with tReq := t } } (fbump dropped (f_PORT_TXCNT_TX.at (0x20 * p))))) := by
  subst hl hq hc
  have hp := Lane.port_exists_of_up hup
  obtain ⟨hgates, hbusy, hmode, hptp⟩ := ((s.lane x).port p).gateDrops_keeps ((s.lane x).portCfg x p)
  rw [← hgates, ← hbusy, ← hmode, ← hptp]
  intro d now dropped
  refine ⟨_, laneNext_to rfl, fun h => ?none, fun n f rest hn hopen hhead hhigher => ⟨fun h => ?waits, fun hfree hfits => ?sends⟩⟩
  case none =>
    rw [Lane.txStart_none hup hmask rfl (PortSt.nextQueue_none h)]
    exact Lane.setPort_portIs hp _ _ fun _ => rfl
  all_goals have hnext := PortSt.nextQueue_some hn hopen hhead hhigher
  case waits =>
    rw [Lane.txStart_waits hup hmask rfl hnext h]
    exact Lane.setPort_portIs hp _ _ fun _ => rfl
  case sends =>
    obtain ⟨t, ht⟩ := Lane.txStart_sends hup hmask rfl hnext hfree hfits
    rw [ht, lmod_tail_of_head hhead]
    exact ⟨t, Lane.setPort_portIs hp _ _ fun _ => rfl⟩

end

/-! ### The obligation -/

/-- Settles O57: frames and messages at an open port by their equations on the lane with that port replaced
(`Lane.setPort_portIs`, `Lane.portEnqueue_queues`), links through what selection leaves (`Lane.bmca_port_frame`), gates by the
entry that `gateAt` finds, the line by the queue that is next. -/
theorem portsDiscoverSendAndFilter : Obligations.PortsDiscoverSendAndFilter := by
  unfold Obligations.PortsDiscoverSendAndFilter
  intro s x p l c q counted rx isOpen
  refine ⟨fun hclosed fab ok f src dst mac head => ?closed, fun hopen => ?opened, fun mode => ?linkUp, fun fab => ?linkDown,
    fun k conflict => ?dad, fun a => ?stale, fun fab => ?line, fun n hn => ?statistics⟩
  case closed =>
    exact ⟨laneNext_same (Lane.rxFrame_closed hclosed fab ok f), laneNext_same (Lane.rxMessage_closed hclosed _),
      laneNext_same (Lane.rxMessage_closed hclosed _), laneNext_same (Lane.rxMessage_closed hclosed _),
      laneNext_same (Lane.rxMessage_closed hclosed _), laneNext_same (Lane.rxMessage_closed hclosed _),
      laneNext_same (Lane.rxMessage_closed hclosed _)⟩
  case opened =>
    refine ⟨exec_ethFrameReceive_open rfl rfl rfl hopen, rxMessage_counted hopen rfl, rxMessage_counted hopen rfl,
      fun src target mac hsrc => exec_neighborSolicitation_open rfl rfl rfl rfl hopen target mac hsrc,
      exec_neighborAdvertisement_open rfl rfl rfl rfl hopen, fun src dst head data => ?echo,
      exec_mldQuery_open rfl rfl rfl rfl hopen⟩
    case echo =>
      have ⟨_, hp, _⟩ := hopen
      exact ⟨fun howns => rxMessage_counted hopen (Lane.rxEcho_foreign hp _ _ src dst head data howns),
        fun howns => exec_echoRequest_owned rfl rfl rfl rfl hopen src head data howns rfl⟩
  case linkUp =>
    refine ⟨fun hport hp hdown henable hmode => ?_, fun h => laneNext_same (Lane.portUp_idle h)⟩
    obtain ⟨qs, hself, hgated, hfits, hothers, hrest⟩ := Lane.portUp_occurs (me := x) hport hp hdown henable hmode
    refine ⟨_, laneNext_to rfl, congrArg PortSt.up hself, congrArg PortSt.mode hself, congrArg PortSt.addr hself,
      fun hmask => ?_, fun hmask hempty => ?_, hothers, hrest⟩
    · rw [hself, hgated hmask]
      rfl
    · exact (congrArg (fun q' : PortSt => q'.queues.getD (c.tcmap.getD 1 0 % 8) []) hself).trans (hfits hmask hempty)
  case linkDown =>
    refine ⟨fun h => laneNext_same (Lane.portDown_idle h), fun hup hp => ?_⟩
    obtain ⟨hself, hforeign, hst, hregs, hothers, hrest⟩ := Lane.portDown_occurs (me := x) hp hup fab
    exact ⟨_, laneNext_to rfl, hself, congrArg PortSt.up hself, congrArg PortSt.addr hself, (congrArg PortSt.queues hself :),
      hforeign, hst, hregs, hothers, hrest⟩
  case dad =>
    exact ⟨fun h => ⟨_, laneNext_to rfl, Lane.dadDone_tentative conflict h⟩, fun h => laneNext_same (if_neg h)⟩
  case stale => exact ⟨_, laneNext_to rfl, l.ndStale_portIs p a⟩
  case line =>
    intro falls
    exact ⟨fun h => laneNext_same (Lane.gateEntry_idle fab h), fun g h => exec_gateEntryEnd rfl rfl fab h,
      fun g t h ht => exec_gateListChange rfl rfl fab h ht, fun h => laneNext_same (Lane.gateChange_waits h),
      fun h => laneNext_same (Lane.txStart_down h), fun hup hmask => laneNext_to (Lane.txStart_gated hup hmask),
      fun hup hmask _ => exec_txFrameStart_open rfl rfl rfl hup hmask fab⟩
  case statistics =>
    subst hn
    exact ⟨fun h => laneNext_same (if_pos h), fun hsecond hnew =>
      ⟨_, rfl, rfl, rfl, rfl, laneNext_to (if_neg (not_or.mpr ⟨not_not.mpr hsecond, hnew⟩))⟩⟩

end Sys2Proof.Machine
end

section
/-! The servo of the PTP clock (R293 to R297): what a measured offset does to the time unit, to the clock at the instant of the
measurement, to the pins and to the gate lists. -/
namespace Sys2Proof.Machine

/-! ### The servo -/

theorem clampI_eq {lo hi : Int} (h : lo ≤ hi) (v : Int) : clampI lo hi v = max lo (min hi v) := by
  unfold clampI
  split_ifs <;> omega

/-- Time between the last two Syncs. -/
def TimeUnit.sinceLast (t : TimeUnit) (t2 : Int) : Int := match t.lastT2 with | some r => t2 - r | none => 0
/-- A filtered offset as a rate over the time between two Syncs, 2^−k of it (R295). -/
def TimeUnit.rate (t : TimeUnit) (m t2 : Int) (k : Nat) : Int := Config.quot (m * 2 ^ 40) (2 ^ k * (t.sinceLast t2).toNat)

section
variable {t : TimeUnit} (c : TimeCfg) (o t2 : Int)

theorem TimeUnit.offset_few (h : t.offs.length < 2) :
    t.offset c o t2 = ({ t with offs := o :: t.offs, lastT2 := some t2 }, ⟨false, false⟩) := by
  rcases hoffs : t.offs with _ | ⟨a, _ | ⟨b, r⟩⟩
  · simp [TimeUnit.offset, hoffs]
  · simp [TimeUnit.offset, hoffs]
  · simp [hoffs] at h

variable {a b : Int} {r : List Int} (h : t.offs = a :: b :: r)
include h

theorem TimeUnit.offset_steps (hm : c.stepThr * 65536 < (mid3 o a b).natAbs) : t.offset c o t2 =
    ({ t with offs := [o, a, b], lastT2 := some t2, filt := mid3 o a b }.stepBy (-mid3 o a b), ⟨false, true⟩) := by
  simp only [TimeUnit.offset, h, List.take_succ_cons, List.take_zero, if_pos hm]

/-- The rates and the lock of a servo that does not step. -/
theorem TimeUnit.offset_slews (hm : (mid3 o a b).natAbs ≤ c.stepThr * 65536) : ∃ lim y yi inRun outRun locked,
    t.offset c o t2 = ({ t with
      offs := [o, a, b], lastT2 := some t2, filt := mid3 o a b, y := y, yi := yi, inRun := inRun, outRun := outRun
      locked := locked }, ⟨lim, false⟩) ∧
    yi = max (-549755814) (min 549755814 (t.yi - t.rate (mid3 o a b) t2 c.kish)) ∧
    y = max (-549755814) (min 549755814 (yi - t.rate (mid3 o a b) t2 c.kpsh)) ∧
    (t.locked = false → (locked = true ↔ (mid3 o a b).natAbs ≤ c.lockThr * 65536 ∧ 15 ≤ t.inRun)) ∧
    (t.locked = true → (locked = false ↔ c.lockThr * 65536 < (mid3 o a b).natAbs ∧ 3 ≤ t.outRun)) := by
  simp only [TimeUnit.offset, h, List.take_succ_cons, List.take_zero, if_neg (Nat.not_lt.mpr hm)]
  refine ⟨_, _, _, _, _, _, rfl, clampI_eq (by decide) _, clampI_eq (by decide) _, fun hlock => ?_, fun hlock => ?_⟩
  · by_cases hok : (mid3 o a b).natAbs ≤ c.lockThr * 65536
    · simp only [hlock, hok, decide_true, if_true, Bool.false_eq_true, if_false, decide_eq_true_eq, true_and]
      omega
    · simp [hlock, hok]
  · by_cases hok : (mid3 o a b).natAbs ≤ c.lockThr * 65536
    · simp [hlock, hok]
    · simp only [hlock, hok, decide_false, if_true, Bool.false_eq_true, if_false, decide_eq_false_iff_not]
      omega

end

/-! ### Gate lists after a step (R268) -/

/-- The port apart from the gate entry in progress. -/
def PortSt.apartEntry (q : PortSt) : PortSt := { q with entry := 0 }
/-- The ports `ps` are those of the lane apart from the gate entries in progress. -/
def Lane.GatesMove (l : Lane) (ps : List PortSt) : Prop := ∀ j, (ps.getD j port0).apartEntry = (l.port j).apartEntry

theorem Lane.gatesStep_ports (l : Lane) (fab : Nat) : ∃ ps, l.gatesStep fab = { l with ports := ps } ∧ l.GatesMove ps := by
  refine List.foldlRecOn (motive := fun m => ∃ ps, m = { l with ports := ps } ∧ l.GatesMove ps) _ _ ⟨l.ports, rfl, fun _ => rfl⟩
    fun m hm p _ => ?_
  obtain ⟨ps, rfl, hps⟩ := hm
  unfold Lane.gateEntry
  split
  · exact ⟨_, rfl, fun j => Eq.trans (getD_lmod_keeps (g := PortSt.apartEntry) (fun _ => by rfl) ps p j port0) (hps j)⟩
  · exact ⟨ps, rfl, hps⟩

/-! ### A measured offset in a lane -/

/-- The time unit `u` from the instant of the measurement on: the clock runs on without a break unless it steps, and the
outputs wait for the first instant after a step (R295, R299). -/
def TimeUnit.from (t u : TimeUnit) (fab : Nat) (stepped : Bool) : TimeUnit :=
  let u := { u with clock := u.clock + clkAdvance t.y fab - clkAdvance u.y fab }
  if stepped then { u with pins := u.pins.map fun k => { k with ref := some (u.at fab) } } else u
/-- Flags and counts of the servo. -/
def ServoOut.noted (o : ServoOut) (m : RegMap) : RegMap :=
  let m := if o.slewLim then fflag m f_TIME_STAT_SLEWLIM else m
  if o.stepped then fbump (fflag m f_TIME_STAT_STEPPED) f_TIME_STEPS_STEPCNT else m

section
variable (t u : TimeUnit) (fab : Nat)

/-- Under the same rate the clock is not touched. -/
theorem TimeUnit.from_sameRate {u : TimeUnit} (h : u.y = t.y) : t.from u fab false = u := by
  have hclock : u.clock + clkAdvance t.y fab - clkAdvance u.y fab = u.clock := by rw [h, Nat.add_sub_cancel]
  simp only [TimeUnit.from, hclock, Bool.false_eq_true, if_false]

theorem TimeUnit.from_stepped_at {u : TimeUnit} (h : u.y = t.y) : (t.from u fab true).at fab = u.clock + clkAdvance t.y fab := by
  simp [TimeUnit.from, TimeUnit.at, h]

theorem TimeUnit.from_stepped_pins :
    (t.from u fab true).pins = u.pins.map fun k => { k with ref := some ((t.from u fab true).at fab) } := rfl

/-- A new rate applies from the instant on: at the instant itself the clock stands where it stood. -/
theorem TimeUnit.from_at {u : TimeUnit} (h : u.clock = t.clock) (hy : clkAdvance u.y fab ≤ t.at fab) :
    (t.from u fab false).at fab = t.at fab := by
  simp only [TimeUnit.from, TimeUnit.at, h, Bool.false_eq_true, if_false] at hy ⊢
  omega

end

section
variable (m : RegMap) (b : Bool)

theorem ServoOut.noted_other (o : ServoOut) {k : Nat} (hstat : k ≠ f_TIME_STAT_SLEWLIM.key) (hcount : k ≠ f_TIME_STEPS_STEPCNT.key) :
    rget (o.noted m) k = rget m k := by
  have hslew : rget (if o.slewLim then fflag m f_TIME_STAT_SLEWLIM else m) k = rget m k := by
    split
    · exact rget_fset_other m _ _ hstat
    · rfl
  have hstep : k ≠ f_TIME_STAT_STEPPED.key := hstat
  unfold ServoOut.noted
  dsimp only
  split
  · rw [fbump, rget_fset_other _ _ _ hcount, fflag, rget_fset_other _ _ _ hstep, hslew]
  · exact hslew

theorem ServoOut.noted_stepped : fget (ServoOut.noted ⟨b, true⟩ m) f_TIME_STAT_STEPPED = 1 ∧
    fget (ServoOut.noted ⟨b, true⟩ m) f_TIME_STEPS_STEPCNT =
      satAdd (2 ^ (f_TIME_STEPS_STEPCNT.hi + 1 - f_TIME_STEPS_STEPCNT.lo) - 1) (fget m f_TIME_STEPS_STEPCNT) 1 := by
  refine ⟨?_, ?_⟩
  · exact (fget_fset_other _ _ _ _ (by decide)).trans (fget_fflag_same _ rfl (by decide))
  · refine (fget_fbump_same _ (by decide) (by decide)).trans ?_
    rw [fflag, fget_fset_other _ _ _ _ (by decide)]
    cases b
    · rfl
    · exact congrArg (fun n => satAdd _ n 1) (fget_fset_other m _ _ _ (by decide))

theorem ServoOut.noted_slewed : fget (ServoOut.noted ⟨b, false⟩ m) f_TIME_STEPS_STEPCNT = fget m f_TIME_STEPS_STEPCNT := by
  cases b
  · rfl
  · exact fget_fset_other m _ _ _ (by decide)

end

section
variable (l : Lane) (me : LaneId) (fab : Nat) (o t2 : Int)

theorem Lane.servo_eq : let e := l.time.offset (l.timeCfg me) o t2
    let u := l.time.from e.1 fab e.2.stepped
    ∃ ps, l.servo me fab o t2 =
      { l with ports := ps, time := { u with pins := l.heldPins me u.locked u.pins }, regs := e.2.noted l.regs } ∧
      l.GatesMove ps := by
  intro e u
  let m : Lane := { l with time := u, regs := e.2.noted l.regs }
  have hservo : l.servo me fab o t2 = (if e.2.stepped then m.gatesStep fab else m).holdPins me := rfl
  rw [hservo]
  split
  · obtain ⟨ps, hps, hmove⟩ := m.gatesStep_ports fab
    rw [hps]
    exact ⟨ps, rfl, hmove⟩
  · exact ⟨l.ports, rfl, fun _ => rfl⟩

end

/-! ### What a measurement does, case by case -/

/-- From `l` to `n` the clock has been stepped by −m (R294). -/
def Lane.StepsBy (l n : Lane) (me : LaneId) (fab : Nat) (m : Int) : Prop :=
  let t := l.time
  let u := n.time
  u.offs = [] ∧ u.lastT2 = none ∧ u.locked = false ∧ u.yi = t.yi ∧ u.y = t.y ∧
  (m ≤ t.clock → (u.at fab : Int) = t.at fab - m) ∧
  u.pins = l.heldPins me false (t.pins.map fun k => { k with ref := some (u.at fab) }) ∧
  fget n.regs f_TIME_STAT_STEPPED = 1 ∧
  fget n.regs f_TIME_STEPS_STEPCNT =
    satAdd (2 ^ (f_TIME_STEPS_STEPCNT.hi + 1 - f_TIME_STEPS_STEPCNT.lo) - 1) (fget l.regs f_TIME_STEPS_STEPCNT) 1

/-- From `l` to `n` a filtered offset m has moved the rates, and the lock has come, gone or stayed (R295, R296). -/
def Lane.SlewsBy (l n : Lane) (me : LaneId) (fab : Nat) (offs : List Int) (m t2 : Int) : Prop :=
  let tc := l.timeCfg me
  let t := l.time
  let u := n.time
  u.filt = m ∧ u.offs = offs ∧ u.lastT2 = some t2 ∧ u.pins = l.heldPins me u.locked t.pins ∧
  u.yi = max (-549755814) (min 549755814 (t.yi - t.rate m t2 tc.kish)) ∧
  u.y = max (-549755814) (min 549755814 (u.yi - t.rate m t2 tc.kpsh)) ∧
  (clkAdvance u.y fab ≤ t.at fab → u.at fab = t.at fab) ∧
  fget n.regs f_TIME_STEPS_STEPCNT = fget l.regs f_TIME_STEPS_STEPCNT ∧
  (t.locked = false → (u.locked = true ↔ m.natAbs ≤ tc.lockThr * 65536 ∧ 15 ≤ t.inRun)) ∧
  (t.locked = true → (u.locked = false ↔ tc.lockThr * 65536 < m.natAbs ∧ 3 ≤ t.outRun))

section
variable (l : Lane) (me : LaneId) (fab : Nat) (o t2 : Int)

/-- What an offset leaves of the time unit, and the newest offset. -/
theorem TimeUnit.offset_keeps (t : TimeUnit) (c : TimeCfg) (o t2 : Int) : let u := (t.offset c o t2).1
    u.parent = t.parent ∧ u.gm = t.gm ∧ u.fifo = t.fifo ∧ (u.offs = [] ∨ u.offs.head? = some o) := by
  rcases hoffs : t.offs with _ | ⟨a, _ | ⟨b, r⟩⟩
  · rw [TimeUnit.offset_few c o t2 (by simp [hoffs])]
    exact ⟨rfl, rfl, rfl, .inr rfl⟩
  · rw [TimeUnit.offset_few c o t2 (by simp [hoffs])]
    exact ⟨rfl, rfl, rfl, .inr rfl⟩
  · by_cases hm : c.stepThr * 65536 < (mid3 o a b).natAbs
    · rw [TimeUnit.offset_steps c o t2 hoffs hm]
      exact ⟨rfl, rfl, rfl, .inl rfl⟩
    · obtain ⟨lim, y, yi, inRun, outRun, locked, he, -⟩ := TimeUnit.offset_slews c o t2 hoffs (Nat.not_lt.mp hm)
      rw [he]
      exact ⟨rfl, rfl, rfl, .inr rfl⟩

theorem Lane.servo_keeps : let u := (l.servo me fab o t2).time
    u.parent = l.time.parent ∧ u.gm = l.time.gm ∧ u.fifo = l.time.fifo ∧ (u.offs = [] ∨ u.offs.head? = some o) := by
  obtain ⟨ps, hservo, -⟩ := l.servo_eq me fab o t2
  have hfrom (u : TimeUnit) (b : Bool) : (l.time.from u fab b).parent = u.parent ∧ (l.time.from u fab b).gm = u.gm ∧
      (l.time.from u fab b).fifo = u.fifo ∧ (l.time.from u fab b).offs = u.offs := by
    cases b <;> exact ⟨rfl, rfl, rfl, rfl⟩
  obtain ⟨hparent, hgm, hfifo, hoffs⟩ := hfrom (l.time.offset (l.timeCfg me) o t2).1 (l.time.offset (l.timeCfg me) o t2).2.stepped
  have h := l.time.offset_keeps (l.timeCfg me) o t2
  dsimp only at h
  rw [← hparent, ← hgm, ← hfifo, ← hoffs] at h
  rw [hservo]
  exact h

/-- The first two offsets are only taken into the filter (R293). -/
theorem Lane.servo_few (h : l.time.offs.length < 2) : (l.servo me fab o t2).time = { l.time with
      offs := o :: l.time.offs, lastT2 := some t2, pins := l.heldPins me l.time.locked l.time.pins } ∧
    (l.servo me fab o t2).regs = l.regs := by
  obtain ⟨ps, hservo, -⟩ := l.servo_eq me fab o t2
  have hsame := l.time.from_sameRate fab (u := { l.time with offs := o :: l.time.offs, lastT2 := some t2 }) rfl
  rw [hservo, TimeUnit.offset_few _ o t2 h, hsame]
  exact ⟨rfl, rfl⟩

variable {a b : Int} {r : List Int} (h : l.time.offs = a :: b :: r)
include h

theorem Lane.servo_steps (hm : (l.timeCfg me).stepThr * 65536 < (mid3 o a b).natAbs) :
    l.StepsBy (l.servo me fab o t2) me fab (mid3 o a b) := by
  obtain ⟨ps, hservo, -⟩ := l.servo_eq me fab o t2
  let u := { l.time with offs := [o, a, b], lastT2 := some t2, filt := mid3 o a b }.stepBy (-mid3 o a b)
  have hat : (l.time.from u fab true).at fab = u.clock + clkAdvance l.time.y fab := l.time.from_stepped_at fab rfl
  have hpins : (l.time.from u fab true).pins =
      l.time.pins.map fun k => { k with ref := some ((l.time.from u fab true).at fab) } :=
    (l.time.from_stepped_pins u fab).trans List.map_map
  rw [hservo, TimeUnit.offset_steps _ o t2 h hm]
  refine ⟨rfl, rfl, rfl, rfl, rfl, fun hle => ?clock, congrArg (l.heldPins me false) hpins, ServoOut.noted_stepped _ _⟩
  have hclock : (u.clock : Int) = l.time.clock - mid3 o a b := by
    rw [show u.clock = ((l.time.clock : Int) + -mid3 o a b).toNat from rfl]
    omega
  refine (congrArg Int.ofNat hat).trans ?_
  rw [TimeUnit.at, Int.ofNat_eq_natCast]
  omega

theorem Lane.servo_slews (hm : (mid3 o a b).natAbs ≤ (l.timeCfg me).stepThr * 65536) :
    l.SlewsBy (l.servo me fab o t2) me fab [o, a, b] (mid3 o a b) t2 := by
  obtain ⟨ps, hservo, -⟩ := l.servo_eq me fab o t2
  obtain ⟨lim, y, yi, inRun, outRun, locked, he, hyi, hy, hlock, hunlock⟩ := TimeUnit.offset_slews (l.timeCfg me) o t2 h hm
  rw [hservo, he]
  exact ⟨rfl, rfl, rfl, rfl, hyi, hy, fun hrate => l.time.from_at fab rfl hrate, ServoOut.noted_slewed _ _, hlock, hunlock⟩

end

end Sys2Proof.Machine
end

section
/-! A Sync's offset and a path delay at a port (R288, R293): what they leave of the port, of the registers and of the clock. -/
namespace Sys2Proof.Machine

/-! ### The protocol state of a port -/

section
variable {l : Lane} {p : Nat} (hp : p < l.ports.length) (q : PortSt) (r : RegMap)
include hp

theorem Lane.modPtp_setPort (f : PtpPort → PtpPort) :
    (l.setPort p q r).modPtp p f = l.setPort p { q with ptp := f q.ptp } r := Lane.modPort_setPort hp q r _

theorem Lane.modPtp_eq (f : PtpPort → PtpPort) :
    l.modPtp p f = l.setPort p { l.port p with ptp := f (l.port p).ptp } l.regs := Lane.modPort_eq hp _

end

/-- A port that takes part in the protocol is there. -/
theorem Lane.port_exists_of_protocol {l : Lane} {p : Nat} (h : (l.port p).ptp.st ≠ 0) : p < l.ports.length :=
  Lane.port_exists fun h0 => h (by rw [h0]; rfl)

/-! ### A measured offset -/

/-- From `l` to `n` an offset has been measured at port p, by a Sync received at t2 that was sent d before: the port remembers
d, the registers are `rx` but for the servo's, and the servo has taken the offset (R293 to R296). -/
def Lane.Measured (l n : Lane) (me : LaneId) (p fab : Nat) (rx : RegMap) (d t2 : Int) : Prop :=
  let t := l.time
  let u := n.time
  let thr := (l.timeCfg me).stepThr * 65536
  let o := d - (l.port p).ptp.delay.getD 0
  (n.port p).ptp = { (l.port p).ptp with d21 := some d, sync := none } ∧ (∀ j, j ≠ p → (n.port j).ptp = (l.port j).ptp) ∧
  (∀ j, { n.port j with ptp := (l.port j).ptp, entry := (l.port j).entry } = l.port j) ∧
  { n with ports := l.ports, regs := l.regs, time := l.time } = l ∧
  (∀ k, k ≠ f_TIME_STAT_SLEWLIM.key → k ≠ f_TIME_STEPS_STEPCNT.key → rget n.regs k = rget rx k) ∧
  u.parent = t.parent ∧ u.gm = t.gm ∧ u.fifo = t.fifo ∧ (u.offs = [] ∨ u.offs.head? = some o) ∧
  (t.offs.length < 2 → u = { t with offs := o :: t.offs, lastT2 := some t2, pins := l.heldPins me t.locked t.pins } ∧ n.regs = rx) ∧
  (∀ a b r, t.offs = a :: b :: r → (thr < (mid3 o a b).natAbs → l.StepsBy n me fab (mid3 o a b)) ∧
    ((mid3 o a b).natAbs ≤ thr → l.SlewsBy n me fab [o, a, b] (mid3 o a b) t2))

section
variable {l : Lane} {p : Nat} {q : PortSt} {r : RegMap} (hr : fget r f_TIME_STEPS_STEPCNT = fget l.regs f_TIME_STEPS_STEPCNT)
  {n : Lane} {me : LaneId} {fab : Nat} {m : Int}
include hr

theorem Lane.StepsBy.of_setPort (h : (l.setPort p q r).StepsBy n me fab m) : l.StepsBy n me fab m := by
  unfold Lane.StepsBy at h
  rw [Lane.setPort_regs, hr] at h
  exact h

theorem Lane.SlewsBy.of_setPort {offs : List Int} {t2 : Int} (h : (l.setPort p q r).SlewsBy n me fab offs m t2) :
    l.SlewsBy n me fab offs m t2 := by
  unfold Lane.SlewsBy at h
  rw [Lane.setPort_regs, hr] at h
  exact h

end

/-- The count of a port's frames is none of the clock's registers. -/
theorem fget_rxCount_time (m : RegMap) {p : Nat} (hport : p < 16) :
    fget (fbump m (f_PORT_RXCNT_RX.at (0x20 * p))) f_TIME_STEPS_STEPCNT = fget m f_TIME_STEPS_STEPCNT :=
  fget_fset_other _ _ _ _ (show 0x09002C ≠ 0x080104 + 0x20 * p by omega)

theorem Lane.syncOffset_measured {l : Lane} {p : Nat} (hport : p < 16) (hp : p < l.ports.length) (me : LaneId) (fab : Nat)
    (t2 t1 corr : Int) : let rx := fbump l.regs (f_PORT_RXCNT_RX.at (0x20 * p))
    l.Measured ((l.setPort p (l.port p) rx).syncOffset me p fab t2 t1 corr) me p fab rx (t2 - t1 * 65536 - corr) t2 := by
  intro rx
  let d := t2 - t1 * 65536 - corr
  let o := d - (l.port p).ptp.delay.getD 0
  let q : PortSt := { l.port p with ptp := { (l.port p).ptp with d21 := some d, sync := none } }
  let m := l.setPort p q rx
  have hm : (l.setPort p (l.port p) rx).syncOffset me p fab t2 t1 corr = m.servo me fab o t2 := by
    rw [Lane.syncOffset]
    simp only [Lane.modPtp_setPort hp, Lane.setPort_port_same hp]
    rfl
  rw [hm]
  obtain ⟨ps, hservo, hgates⟩ := m.servo_eq me fab o t2
  have hmove (j : Nat) : ((m.servo me fab o t2).port j).apartEntry = (m.port j).apartEntry := by
    rw [hservo]
    exact hgates j
  have hself : m.port p = q := Lane.setPort_port_same hp q rx
  have hother (j : Nat) (hj : j ≠ p) : m.port j = l.port j := Lane.setPort_port_other q rx hj
  have hptp (j : Nat) : ((m.servo me fab o t2).port j).ptp = (m.port j).ptp :=
    (congrArg PortSt.ptp (hmove j) :)
  obtain ⟨hparent, hgm, hfifo, hoffs⟩ := m.servo_keeps me fab o t2
  have hcount := fget_rxCount_time l.regs hport
  refine ⟨(hptp p).trans (by rw [hself]), fun j hj => (hptp j).trans (by rw [hother j hj]), fun j => ?ports, ?rest,
    fun k hstat hcount => ?regs, hparent, hgm, hfifo, hoffs, m.servo_few me fab o t2, fun a b r h => ⟨fun hstep => ?steps, fun hslew => ?slews⟩⟩
  case ports =>
    have h := congrArg (fun z : PortSt => { z with ptp := (l.port j).ptp, entry := (l.port j).entry }) (hmove j)
    refine (h :).trans ?_
    by_cases hj : j = p
    · subst hj
      rw [hself]
      rfl
    · rw [hother j hj]
      rfl
  case rest =>
    rw [hservo]
    rfl
  case regs =>
    rw [hservo]
    exact ServoOut.noted_other rx _ hstat hcount
  case steps => exact (m.servo_steps me fab o t2 h hstep).of_setPort hcount
  case slews => exact (m.servo_slews me fab o t2 h hslew).of_setPort hcount

end Sys2Proof.Machine
end

section
/-! PTP messages at a port (R286 to R293, R296): those received from the parent, the requests answered, an Announce, and those
that a port sends. -/
namespace Sys2Proof.Machine

/-! ### Messages from the parent (R293) -/

section
variable {l : Lane} {p : Nat} {ident : BitVec 64}

theorem Lane.fromParent_iff : l.fromParent p ident = true ↔
    (l.port p).ptp.st = 3 ∧ ∃ a, (l.port p).ptp.foreign = some a ∧ a.ident = ident := by
  unfold Lane.fromParent
  rw [Bool.and_eq_true, Lane.ptpSt, beq_iff_eq]
  cases (l.port p).ptp.foreign <;> simp

variable {me : LaneId} {fab seq : Nat} {t1 corr : Int}

theorem Lane.rxSync_stranger {two : Bool} (h : l.fromParent p ident = false) : l.rxSync me p fab ident two seq t1 corr = l := by
  simp [Lane.rxSync, h]

theorem Lane.rxFollowUp_stranger (h : l.fromParent p ident = false) : l.rxFollowUp me p fab ident seq t1 corr = l := by
  unfold Lane.rxFollowUp
  split
  next => rw [h]; rfl
  next => rfl

theorem Lane.rxDelayResp_stranger (h : l.fromParent p ident = false) : l.rxDelayResp me p ident seq t1 corr = l := by
  unfold Lane.rxDelayResp
  dsimp only
  split
  next => rw [h]; rfl
  next => rfl

theorem Lane.rxFollowUp_unasked (h : (l.port p).ptp.sync = none) : l.rxFollowUp me p fab ident seq t1 corr = l := by
  simp only [Lane.rxFollowUp, h]

theorem Lane.rxDelayResp_unasked (h : (l.port p).ptp.tReq = none ∨ (l.port p).ptp.d21 = none) :
    l.rxDelayResp me p ident seq t1 corr = l := by
  unfold Lane.rxDelayResp
  dsimp only
  split
  next n t3 d hreq hd => simp [hreq, hd] at h
  next => rfl

section
variable {n : Nat}

theorem Lane.rxFollowUp_other {r2 c : Int} (h : (l.port p).ptp.sync = some (n, r2, c)) (hn : n ≠ seq) :
    l.rxFollowUp me p fab ident seq t1 corr = l := by
  simp [Lane.rxFollowUp, h, hn]

theorem Lane.rxDelayResp_other {t3 d : Int} (hreq : (l.port p).ptp.tReq = some (n, t3)) (hd : (l.port p).ptp.d21 = some d)
    (hn : n ≠ seq) : l.rxDelayResp me p ident seq t1 corr = l := by
  simp [Lane.rxDelayResp, hreq, hd, hn]

theorem Lane.rxPdelayResp_other {r1 : Int} (hreq : (l.port p).ptp.tReq = some (n, r1)) (hn : n ≠ seq) :
    l.rxPdelayResp me p fab seq corr = l := by
  simp [Lane.rxPdelayResp, hreq, hn]

end

theorem Lane.rxPdelayResp_unasked (h : (l.portCfg me p).peer = false ∨ (l.port p).ptp.tReq = none) :
    l.rxPdelayResp me p fab seq corr = l := by
  unfold Lane.rxPdelayResp
  split
  next n r1 hreq =>
    have hpeer := h.resolve_right (by rw [hreq]; exact Option.some_ne_none _)
    rw [hpeer, Bool.and_false]
    rfl
  next => rfl

section
variable (h : l.fromParent p ident = true)
include h

theorem Lane.rxSync_twoStep : l.rxSync me p fab ident true seq t1 corr =
    l.modPtp p fun g => { g with sync := some (seq, l.rxStamp me p fab, corr) } := by
  simp [Lane.rxSync, h]

theorem Lane.rxSync_oneStep : l.rxSync me p fab ident false seq t1 corr =
    l.syncOffset me p fab (l.rxStamp me p fab) t1 corr := by
  simp [Lane.rxSync, h]

theorem Lane.rxFollowUp_awaited {r2 c : Int} (hsync : (l.port p).ptp.sync = some (seq, r2, c)) :
    l.rxFollowUp me p fab ident seq t1 corr = l.syncOffset me p fab r2 t1 (corr + c) := by
  simp [Lane.rxFollowUp, hsync, h]

theorem Lane.rxDelayResp_awaited {t3 d : Int} (hreq : (l.port p).ptp.tReq = some (seq, t3)) (hd : (l.port p).ptp.d21 = some d) :
    l.rxDelayResp me p ident seq t1 corr = l.newDelay me p (Config.quot (d + (t1 * 65536 - corr - t3)) 2) := by
  simp [Lane.rxDelayResp, hreq, hd, h]

end

theorem Lane.rxPdelayResp_awaited {r1 : Int} (hpeer : (l.portCfg me p).peer = true) (hreq : (l.port p).ptp.tReq = some (seq, r1)) :
    l.rxPdelayResp me p fab seq corr = l.newDelay me p (Config.quot (l.rxStamp me p fab - r1 - corr) 2) := by
  simp [Lane.rxPdelayResp, hreq, hpeer]

end

/-! ### Messages that a port sends (R288, R290) -/

section
variable {l : Lane} {me : LaneId} {p : Nat} (hp : p < l.ports.length)
include hp

theorem Lane.ptpSend_queues (g : PtpPort) (r : RegMap) (event peer : Bool) (stamp : Nat) (t2 : Int) (body : Bytes) :
    l.PtpQueues ((l.setPort p { l.port p with ptp := g } r).ptpSend me p event peer stamp t2 body) me p g r event peer stamp t2
      body := by
  unfold Lane.PtpQueues Lane.ptpSend
  simp only [Lane.setPort_port_same hp, Lane.setPort_portCfg]
  generalize (if (l.portCfg me p).xport = 1 then some 0 else
    sourceAddr { l.port p with ptp := g } (l.portCfg me p) (ff02 0x181)) = src
  cases src
  case none => exact Lane.setPort_portIs hp _ _ fun _ => rfl
  case some a => exact Lane.portEnqueue_queues hp _ _ _

end

/-! ### Announce (R288, R296) -/

/-- A port that has heard an Announce. -/
def PtpPort.hears (g : PtpPort) (a : Announce) : PtpPort :=
  match g.foreign with
  | some b =>
    if b.ident = a.ident ∧ b.srcPort = a.srcPort then { g with foreign := some a, seen := min 2 (g.seen + 1) }
    else if betterSet a b then { g with foreign := some a, seen := 1 } else g
  | none => { g with foreign := some a, seen := 1 }

theorem PtpPort.hears_first {g : PtpPort} (a : Announce) (h : g.foreign = none) :
    g.hears a = { g with foreign := some a, seen := 1 } := by
  simp only [PtpPort.hears, h]

theorem PtpPort.hears_again {g : PtpPort} {a b : Announce} (h : g.foreign = some b) :
    (b.ident = a.ident ∧ b.srcPort = a.srcPort → (g.hears a).foreign = some a ∧ (g.hears a).seen = min 2 (g.seen + 1)) ∧
    (¬ (b.ident = a.ident ∧ b.srcPort = a.srcPort) → betterSet a b = true → (g.hears a).foreign = some a ∧ (g.hears a).seen = 1) ∧
    (¬ (b.ident = a.ident ∧ b.srcPort = a.srcPort) → betterSet a b = false →
      (g.hears a).foreign = some b ∧ (g.hears a).seen = g.seen) := by
  simp only [PtpPort.hears, h]
  refine ⟨fun hsame => ?_, fun hother hbetter => ?_, fun hother hworse => ?_⟩
  · rw [if_pos hsame]
    exact ⟨rfl, rfl⟩
  · rw [if_neg hother, if_pos hbetter]
    exact ⟨rfl, rfl⟩
  · rw [if_neg hother, if_neg (by rw [hworse]; decide)]
    exact ⟨h, rfl⟩

/-! ### Selection after a change at one port -/

section
variable {l : Lane} {p : Nat} (hp : p < l.ports.length) (me : LaneId) (fab : Nat) (g : PtpPort) (r : RegMap)
include hp

/-- What a change of one port's protocol state and the selection after it leave of the lane. -/
theorem Lane.bmca_after : let m := (l.setPort p { l.port p with ptp := g } r).bmca me fab
    ((m.port p).ptp.foreign = g.foreign ∧ (m.port p).ptp.seen = g.seen) ∧
    (∀ j, j ≠ p → (m.port j).ptp.foreign = (l.port j).ptp.foreign ∧ (m.port j).ptp.seen = (l.port j).ptp.seen) ∧
    (∀ j, { m.port j with ptp := (l.port j).ptp } = l.port j) ∧
    { m with ports := l.ports, regs := l.regs, time := l.time } = l := by
  intro m
  let d := l.setPort p { l.port p with ptp := g } r
  have hself : d.port p = { l.port p with ptp := g } := Lane.setPort_port_same hp _ r
  have hother (j : Nat) (hj : j ≠ p) : d.port j = l.port j := Lane.setPort_port_other _ r hj
  have hheard (j : Nat) : (m.port j).ptp.foreign = (d.port j).ptp.foreign ∧ (m.port j).ptp.seen = (d.port j).ptp.seen := by
    obtain ⟨changed, hport⟩ := d.bmca_port me fab j
    rw [show m.port j = _ from hport]
    exact ⟨PtpPort.judged_foreign _ _ _, PtpPort.judged_seen _ _ _⟩
  refine ⟨by simpa only [hself] using hheard p, fun j hj => by simpa only [hother j hj] using hheard j, fun j => ?_, ?_⟩
  · have hframe := congrArg (fun z : PortSt => { z with ptp := (l.port j).ptp }) (d.bmca_port_frame me fab j)
    refine (hframe :).trans ?_
    by_cases hj : j = p
    · subst hj
      rw [hself]
    · rw [hother j hj]
  · rw [show m = _ from d.bmca_eq me fab]
    rfl

end

theorem Lane.rxAnnounce_ignored {l : Lane} {me : LaneId} {p fab : Nat} {a : Announce}
    (h : (l.portCfg me p).role = 0 ∨ a.ident = (l.timeCfg me).ident) : l.rxAnnounce me p fab a = l :=
  if_pos (h.imp_right .inr)

theorem Lane.rxAnnounce_heard {l : Lane} {me : LaneId} {p fab : Nat} {a : Announce} (hup : (l.port p).up = true)
    (hrole : (l.portCfg me p).role ≠ 0) (ha : a.ident ≠ (l.timeCfg me).ident) : l.rxAnnounce me p fab a =
    (l.setPort p { l.port p with ptp := (l.port p).ptp.hears a } l.regs).bmca me fab := by
  have hp := Lane.port_exists_of_up hup
  rw [← Lane.modPtp_eq hp fun g => g.hears a]
  exact if_neg (by simp [hup, hrole, ha])

/-! ### Timeouts (R296, R297) -/

section
variable (l : Lane) (me : LaneId) (p fab : Nat)

theorem Lane.syncLost_idle {l : Lane} (h : (l.port p).ptp.st ≠ 3 ∨ l.time.locked = false) : l.syncLost me p fab = l := if_pos h

theorem Lane.syncLost_locked {l : Lane} (hst : (l.port p).ptp.st = 3) (hlock : l.time.locked = true) : l.syncLost me p fab = { l with
    regs := fbump l.regs f_TIME_STEPS_SYNCLOSS
    time := { l.time with locked := false, inRun := 0, outRun := 0, pins := l.heldPins me false l.time.pins } } := by
  have hclock : l.time.clock + clkAdvance l.time.y fab - clkAdvance l.time.y fab = l.time.clock := Nat.add_sub_cancel ..
  rw [Lane.syncLost, if_neg (by simp [Lane.ptpSt, hst, hlock])]
  simp only [Lane.timeAt, TimeUnit.loseLock, hclock, Bool.false_eq_true, if_false]
  rfl

/-- Without Syncs only the lock and its count change. -/
theorem Lane.syncLost_keeps : let m := l.syncLost me p fab
    m.ports = l.ports ∧ m.time.parent = l.time.parent ∧ m.time.yi = l.time.yi ∧
      { m with regs := l.regs, time := l.time } = l := by
  by_cases h : (l.port p).ptp.st ≠ 3 ∨ l.time.locked = false
  · rw [Lane.syncLost_idle me p fab h]
    exact ⟨rfl, rfl, rfl, rfl⟩
  · obtain ⟨hst, hlock⟩ := not_or.mp h
    rw [Lane.syncLost_locked me p fab (not_not.mp hst) (by simpa using hlock)]
    exact ⟨rfl, rfl, rfl, rfl⟩

/-- ANNOUNCE_RECEIPT_TIMEOUT: the foreign master is forgotten and another parent, or none, is selected. -/
theorem Lane.announceLost_occurs (hp : p < l.ports.length) : let m := l.announceLost me p fab
    (m.port p).ptp.foreign = none ∧ (m.port p).ptp.seen = 0 ∧ (m.port p).ptp.sync = none ∧ m.time.parent ≠ some p ∧
    (∀ j, { m.port j with ptp := (l.port j).ptp } = l.port j) ∧ { m with ports := l.ports, regs := l.regs, time := l.time } = l ∧
    m.time.yi = l.time.yi ∧ (l.time.parent = some p → m.time.parent = none → m.time.locked = false ∧ m.time.y = l.time.yi) ∧
    ((l.port p).ptp.st = 3 → l.time.locked = true → m.time.locked = false ∧ m.regs = fbump l.regs f_TIME_STEPS_SYNCLOSS) ∧
    (((l.port p).ptp.st ≠ 3 ∨ l.time.locked = false) → m.regs = l.regs) := by
  intro m
  let k := l.syncLost me p fab
  obtain ⟨hports, hparent, hyi, hrest⟩ := l.syncLost_keeps me p fab
  have hport (j : Nat) : k.port j = l.port j := congrArg (fun ps : List PortSt => ps.getD j port0) hports
  have hpk : p < k.ports.length := hports ▸ hp
  let g : PtpPort := { (k.port p).ptp with foreign := none, seen := 0, sync := none }
  let d := k.setPort p { k.port p with ptp := g } k.regs
  have hd : d.port p = { k.port p with ptp := g } := Lane.setPort_port_same hpk _ _
  have hm : m = d.bmca me fab := congrArg (fun n : Lane => n.bmca me fab) (Lane.modPtp_eq hpk _)
  obtain ⟨⟨hforeign, hseen⟩, -, hframe, hlane⟩ := Lane.bmca_after hpk me fab g k.regs
  obtain ⟨hyi', -, -, -, hholdover, hunlocked⟩ := d.bmca_servo me fab
  obtain ⟨changed, hjudged⟩ := d.bmca_port me fab p
  have hnotSlave : d.ptpJudged me p ≠ 3 := Lane.ptpJudged_unheard me (by rw [hd])
  have hregs : m.regs = k.regs := by
    rw [hm]
    exact d.bmca_regs me fab
  rw [hm] at hregs ⊢
  refine ⟨hforeign, hseen, ?sync, fun h => ?parent, fun j => hport j ▸ hframe j, ?rest, hyi'.trans hyi, fun hsome hnone => ?holdover,
    fun hst hlock => ?locked, fun h => ?unlocked⟩
  case sync =>
    rw [hjudged, hd]
    exact PtpPort.judged_sync rfl _ _
  case parent =>
    rw [Lane.bmca_parent, hjudged, PtpPort.judged_st] at h
    exact hnotSlave h
  case rest =>
    have hkeeps := congrArg (fun n : Lane => { n with ports := l.ports, regs := l.regs, time := l.time }) hlane
    have hback := congrArg (fun ps : List PortSt => { k with ports := ps, regs := l.regs, time := l.time }) hports
    exact (hkeeps :).trans (hback.symm.trans hrest)
  case holdover =>
    have hparent' : d.time.parent ≠ none := by
      rw [show d.time.parent = some p from hparent.trans hsome]
      exact Option.some_ne_none p
    obtain ⟨hlock, hy⟩ := hholdover hnone hparent'
    exact ⟨hlock, hy.trans hyi⟩
  case locked =>
    have hk := Lane.syncLost_locked me p fab hst hlock
    exact ⟨hunlocked (congrArg (fun n : Lane => n.time.locked) hk), hregs.trans (congrArg Lane.regs hk)⟩
  case unlocked => exact hregs.trans (congrArg Lane.regs (Lane.syncLost_idle me p fab h))

end

end Sys2Proof.Machine
end

section
/-! Waymark pins (R298 to R300): the instants at which an output rises and falls, and the stamps of an input. -/
namespace Sys2Proof.Machine

section
variable {l : Lane} {me : LaneId} {w fab : Nat}

/-- The last instant of an output that the clock has reached. -/
def WmkCfg.instant (k : WmkCfg) (now : Nat) : Nat := k.start + (now - k.start) / (k.period * 65536) * (k.period * 65536)

theorem wmkInstant_reached {k : WmkCfg} {now : Nat} (hperiod : 0 < k.period) (hstart : k.start ≤ now) :
    wmkInstant k now = some (k.instant now) := if_neg (by omega)

theorem wmkInstant_none {k : WmkCfg} {now : Nat} (h : now < k.start ∨ k.period = 0) : wmkInstant k now = none := if_pos h

/-- An output whose next instant has come rises, or stays low while it is held (R298, R299). -/
theorem WmkPin.rise_due {pin : WmkPin} {k : WmkCfg} {now : Nat} (locked : Bool) (hmode : k.mode = 2) (hperiod : 0 < k.period)
    (hstart : k.start ≤ now) (hnew : ∀ r, pin.ref = some r → r < k.instant now) : pin.rise k now locked = some
      { level := !k.held locked, held := k.held locked, ref := some (k.instant now),
        fallAt := if k.held locked then none else some (k.instant now + k.width * 65536) } := by
  have hpast : (match pin.ref with | none => true | some r => decide (r < k.instant now)) = true := by
    cases href : pin.ref
    case none => rfl
    case some r => exact decide_eq_true (hnew r href)
  simp only [WmkPin.rise, hmode, ne_eq, not_true_eq_false, if_false, wmkInstant_reached hperiod hstart]
  exact if_pos hpast

theorem WmkPin.rise_none {pin : WmkPin} {k : WmkCfg} {now : Nat} (locked : Bool)
    (h : k.mode ≠ 2 ∨ k.period = 0 ∨ now < k.start ∨ ∃ r, pin.ref = some r ∧ k.instant now ≤ r) :
    pin.rise k now locked = none := by
  by_cases hmode : k.mode = 2
  · by_cases hinstant : now < k.start ∨ k.period = 0
    · simp [WmkPin.rise, wmkInstant_none hinstant]
    · obtain ⟨hstart, hperiod⟩ := not_or.mp hinstant
      obtain ⟨r, href, hr⟩ := ((h.resolve_left (not_not.mpr hmode)).resolve_left hperiod).resolve_left hstart
      simp only [WmkPin.rise, hmode, ne_eq, not_true_eq_false, if_false,
        wmkInstant_reached (Nat.pos_of_ne_zero hperiod) (Nat.not_lt.mp hstart), href]
      exact if_neg (by simpa using hr)
  · exact if_pos hmode

theorem Lane.wmkRise_due {k : WmkCfg} (hk : l.wmk me w = k) {now : Nat} (hnow : l.clk fab = now) (hw : w < 4)
    (hmode : k.mode = 2) (hperiod : 0 < k.period) (hstart : k.start ≤ now)
    (hnew : ∀ r, (l.time.pins.getD w wmk0).ref = some r → r < k.instant now) :
    l.wmkRise me w fab = l.modPin w
      { level := !k.held l.time.locked, held := k.held l.time.locked, ref := some (k.instant now),
        fallAt := if k.held l.time.locked then none else some (k.instant now + k.width * 65536) } := by
  simp only [Lane.wmkRise, hk, hnow, WmkPin.rise_due l.time.locked hmode hperiod hstart hnew, if_pos hw]

theorem Lane.wmkRise_idle (h : 4 ≤ w ∨ (l.wmk me w).mode ≠ 2 ∨ (l.wmk me w).period = 0 ∨ l.clk fab < (l.wmk me w).start ∨
    ∃ r, (l.time.pins.getD w wmk0).ref = some r ∧ (l.wmk me w).instant (l.clk fab) ≤ r) : l.wmkRise me w fab = l := by
  rcases h with hw | h
  · unfold Lane.wmkRise
    split
    next => exact if_neg (by omega)
    next => rfl
  · simp only [Lane.wmkRise, WmkPin.rise_none l.time.locked h]

theorem Lane.wmkFall_due {e : Nat} (h : (l.time.pins.getD w wmk0).fallAt = some e) (he : e ≤ l.clk fab) :
    l.wmkFall w fab = l.modPin w { l.time.pins.getD w wmk0 with level := false, fallAt := none } := by
  simp only [Lane.wmkFall, WmkPin.fall, h, if_pos he]

theorem Lane.wmkFall_idle (h : ∀ e, (l.time.pins.getD w wmk0).fallAt = some e → l.clk fab < e) : l.wmkFall w fab = l := by
  cases hfall : (l.time.pins.getD w wmk0).fallAt
  case none => simp only [Lane.wmkFall, WmkPin.fall, hfall]
  case some e => simp only [Lane.wmkFall, WmkPin.fall, hfall, if_neg (Nat.not_le.mpr (h e hfall))]

/-- Which edge of an input is stamped (R300). -/
def WmkCfg.wants (k : WmkCfg) (falling : Bool) : Bool := k.edge.testBit (if falling = true then 1 else 0)

section
variable {falling : Bool}

theorem Lane.wmkEvent_idle (h : 4 ≤ w ∨ (l.wmk me w).mode ≠ 1) : l.wmkEvent me w fab falling = l := if_pos h

variable (hw : w < 4) (hmode : (l.wmk me w).mode = 1) {u : TimeUnit}
  (hu : { l.time with pins := l.time.pins.set w { l.time.pins.getD w wmk0 with level := !falling } } = u)
include hw hmode hu

theorem Lane.wmkEvent_unwanted (h : (l.wmk me w).wants falling = false) :
    l.wmkEvent me w fab falling = { l with time := u } := by
  subst hu
  refine (if_neg (by omega)).trans (if_pos ?_)
  exact congrArg not h

theorem Lane.wmkEvent_stamped (h : (l.wmk me w).wants falling = true) (hroom : l.time.fifo.length < 64) :
    l.wmkEvent me w fab falling = { l with time := { u with fifo := l.time.fifo ++ [(w, falling, atRes (l.clk fab) 32768)] } } := by
  subst hu
  refine (if_neg (by omega)).trans ((if_neg ?_).trans (if_neg (Nat.not_le.mpr hroom)))
  exact fun hn => Bool.false_ne_true ((congrArg not h).symm.trans hn)

theorem Lane.wmkEvent_lost (h : (l.wmk me w).wants falling = true) (hfull : 64 ≤ l.time.fifo.length) :
    l.wmkEvent me w fab falling = { l with time := u, regs := fset l.regs f_TIME_EVHDR_EVOVF 1 } := by
  subst hu
  refine (if_neg (by omega)).trans ((if_neg ?_).trans (if_pos hfull))
  exact fun hn => Bool.false_ne_true ((congrArg not h).symm.trans hn)

end

end

end Sys2Proof.Machine
end

section
/-! What an Announce that a port sends carries (R288, Table 09-8). -/
namespace Sys2Proof.Machine

theorem leNat_leBytes (n v : Nat) : leNat (leBytes n v) = v % 256 ^ n := by
  induction n generalizing v with
  | zero => simp [leBytes, leNat, Nat.mod_one]
  | succ n ih =>
    rw [leBytes, leNat, ih, BitVec.toNat_ofNat]
    exact ((congrArg (v % ·) (pow_succ' 256 n)).trans Nat.mod_mul).symm

theorem beNat_beBytes (n v : Nat) : beNat (beBytes n v) = v % 256 ^ n := by
  rw [beNat, beBytes, List.reverse_reverse, leNat_leBytes]

/-- A big-endian number that stands behind `a` in a byte string. -/
theorem beAt_append (a b : Bytes) (n v : Nat) : beAt (a ++ (beBytes n v ++ b)) a.length n = v % 256 ^ n := by
  rw [beAt, slice, List.drop_left, List.take_left' (length_beBytes n v), length_beBytes, Nat.sub_self, List.replicate_zero,
    List.append_nil, beNat_beBytes]

/-- The body of an Announce: a data set, with the offset to UTC. -/
def announceBody (utc : Nat) (a : Announce) : Bytes :=
  zeros 10 ++ beBytes 2 utc ++ beBytes 1 0 ++ beBytes 1 a.prio1 ++ beBytes 1 a.cls ++ beBytes 1 a.acc
    ++ beBytes 2 a.var ++ beBytes 1 a.prio2 ++ beBytes 8 a.gm.toNat ++ beBytes 2 a.steps ++ beBytes 1 0xA0

theorem length_announceBody (utc : Nat) (a : Announce) : (announceBody utc a).length = 30 := by
  simp only [announceBody, List.length_append, length_beBytes, zeros, List.length_replicate]

theorem announceBody_fields (utc : Nat) (a : Announce) : beAt (announceBody utc a) 13 1 = a.prio1 % 256 ∧
    beAt (announceBody utc a) 19 8 = a.gm.toNat ∧ beAt (announceBody utc a) 27 2 = a.steps % 65536 := by
  have hat (x y : Bytes) (o n v : Nat) (h : announceBody utc a = x ++ (beBytes n v ++ y)) (ho : x.length = o) :
      beAt (announceBody utc a) o n = v % 256 ^ n := by
    rw [h, ← ho]
    exact beAt_append x y n v
  have hgm := hat (zeros 10 ++ beBytes 2 utc ++ beBytes 1 0 ++ beBytes 1 a.prio1 ++ beBytes 1 a.cls ++ beBytes 1 a.acc
    ++ beBytes 2 a.var ++ beBytes 1 a.prio2) (beBytes 2 a.steps ++ beBytes 1 0xA0) 19 8 a.gm.toNat
    (by simp only [announceBody, List.append_assoc]) (by simp only [List.length_append, length_beBytes, zeros, List.length_replicate])
  refine ⟨?prio1, hgm.trans (Nat.mod_eq_of_lt a.gm.isLt), ?steps⟩
  case prio1 =>
    exact hat (zeros 10 ++ beBytes 2 utc ++ beBytes 1 0) (beBytes 1 a.cls ++ beBytes 1 a.acc ++ beBytes 2 a.var ++ beBytes 1 a.prio2
      ++ beBytes 8 a.gm.toNat ++ beBytes 2 a.steps ++ beBytes 1 0xA0) 13 1 a.prio1
      (by simp only [announceBody, List.append_assoc]) (by simp only [List.length_append, length_beBytes, zeros, List.length_replicate])
  case steps =>
    exact hat (zeros 10 ++ beBytes 2 utc ++ beBytes 1 0 ++ beBytes 1 a.prio1 ++ beBytes 1 a.cls ++ beBytes 1 a.acc
      ++ beBytes 2 a.var ++ beBytes 1 a.prio2 ++ beBytes 8 a.gm.toNat) (beBytes 1 0xA0) 27 2 a.steps
      (by simp only [announceBody, List.append_assoc]) (by simp only [List.length_append, length_beBytes, zeros, List.length_replicate])

/-- The data set that the lane announces: its own, or its parent's one step further. -/
def Lane.announced (l : Lane) (me : LaneId) : Announce :=
  match l.time.parent with
  | some q => ((l.port q).ptp.foreign.map fun (b : Announce) => { b with steps := b.steps + 1 }).getD (ownSet (l.timeCfg me))
  | none => ownSet (l.timeCfg me)

theorem Lane.announced_own {l : Lane} (me : LaneId) (h : l.time.parent = none) : l.announced me = ownSet (l.timeCfg me) := by
  simp only [Lane.announced, h]

theorem Lane.announced_parent {l : Lane} (me : LaneId) {j : Nat} {b : Announce} (h : l.time.parent = some j)
    (hb : (l.port j).ptp.foreign = some b) : l.announced me = { b with steps := b.steps + 1 } := by
  simp only [Lane.announced, h, hb]
  rfl

theorem Lane.txAnnounce_master {l : Lane} {me : LaneId} {p : Nat} (hp : p < l.ports.length) (h : (l.port p).ptp.st = 2) :
    let seq := (l.port p).ptp.annSeq
    let m := l.setPort p { l.port p with ptp := { (l.port p).ptp with annSeq := (seq + 1) % 65536 } } l.regs
    l.txAnnounce me p = m.ptpSend me p false false 0 0 (ptpMsg (l.timeCfg me) 11 p seq 0
      (l.dict.nat (0x8000 + 16 * me.num + p) 0x10) (announceBody (l.dict.nat 0x1320 1) (m.announced me))) := by
  intro seq m
  have hm : (l.modPtp p fun g => { g with annSeq := (seq + 1) % 65536 }) = m := Lane.modPtp_eq hp _
  rw [← hm]
  exact if_neg (not_not.mpr h)

end Sys2Proof.Machine
end

section
/-! The commands of PTP messages (R286 to R293). -/
namespace Sys2Proof.Machine

/-! ### The lane in which a message has been counted -/

section
variable (l : Lane) (p : Nat) (r : RegMap)

theorem Lane.port_counted (j : Nat) : (l.setPort p (l.port p) r).port j = l.port j := by
  rw [Lane.setPort_self]
  rfl

theorem Lane.fromParent_counted (ident : BitVec 64) : (l.setPort p (l.port p) r).fromParent p ident = l.fromParent p ident := by
  rw [Lane.setPort_self]
  rfl

theorem Lane.rxStamp_counted (me : LaneId) (fab : Nat) : (l.setPort p (l.port p) r).rxStamp me p fab = l.rxStamp me p fab := by
  rw [Lane.setPort_self]
  rfl

end

section
variable {l : Lane} {me : LaneId} {p : Nat} (hp : p < l.ports.length) (r : RegMap)
include hp

/-- A new path delay at the port (R293). -/
theorem Lane.newDelay_portIs (d : Int) : l.PortIs ((l.setPort p (l.port p) r).newDelay me p d) p
    { l.port p with ptp := { (l.port p).ptp with
      delay := some (pathDelay (l.port p).ptp.delay (l.timeCfg me).dlysh d), tReq := none } } r := by
  rw [Lane.newDelay, Lane.modPtp_setPort hp]
  exact Lane.setPort_portIs hp _ _ fun _ => rfl

end

section
variable {s : State} {x : LaneId} {p : Nat} {l : Lane} (hl : s.lane x = l) {rx : RegMap}
  (hrx : fbump l.regs (f_PORT_RXCNT_RX.at (0x20 * p)) = rx) (hopen : l.PortOpen x p)
include hl hrx hopen

/-! ### Messages of the parent -/

theorem exec_messages_stranger {ident : BitVec 64} (h : l.fromParent p ident = false) (fab seq : Nat) (t1 corr : Int) :
    (∀ two, exec (.syncReceive x p fab ident two seq t1 corr) s = .next (s.setLane x { l with regs := rx })) ∧
    exec (.followUpReceive x p fab ident seq t1 corr) s = .next (s.setLane x { l with regs := rx }) ∧
    exec (.delayRespReceive x p ident seq t1 corr) s = .next (s.setLane x { l with regs := rx }) := by
  subst hl hrx
  have hm := ((s.lane x).fromParent_counted p (fbump (s.lane x).regs (f_PORT_RXCNT_RX.at (0x20 * p))) ident).trans h
  exact ⟨fun two => rxMessage_counted hopen (Lane.rxSync_stranger hm), rxMessage_counted hopen (Lane.rxFollowUp_stranger hm),
    rxMessage_counted hopen (Lane.rxDelayResp_stranger hm)⟩

section
variable {ident : BitVec 64} (h : l.fromParent p ident = true) (fab seq : Nat) (t1 corr : Int)
include h

/-- SYNC_RECEIVE from the parent: it waits for its Follow_Up, or is measured (R293). -/
theorem exec_syncReceive_parent : let t2 := l.rxStamp x p fab
    (∃ l', exec (.syncReceive x p fab ident true seq t1 corr) s = .next (s.setLane x l') ∧
      l.PortIs l' p { l.port p with ptp := { (l.port p).ptp with sync := some (seq, t2, corr) } } rx) ∧
    (∃ l', exec (.syncReceive x p fab ident false seq t1 corr) s = .next (s.setLane x l') ∧
      l.Measured l' x p fab rx (t2 - t1 * 65536 - corr) t2) := by
  subst hl hrx
  have ⟨hport, hp, _⟩ := hopen
  have hm := ((s.lane x).fromParent_counted p (fbump (s.lane x).regs (f_PORT_RXCNT_RX.at (0x20 * p))) ident).trans h
  refine ⟨⟨_, rxMessage_next hopen (Lane.rxSync_twoStep hm), ?_⟩, ⟨_, rxMessage_next hopen (Lane.rxSync_oneStep hm), ?_⟩⟩
  · rw [Lane.modPtp_setPort hp, Lane.rxStamp_counted]
    exact Lane.setPort_portIs hp _ _ fun _ => rfl
  · rw [Lane.rxStamp_counted]
    exact Lane.syncOffset_measured hport hp x fab _ t1 corr

/-- FOLLOW_UP_RECEIVE from the parent (R293). -/
theorem exec_followUpReceive_parent :
    ((l.port p).ptp.sync = none → exec (.followUpReceive x p fab ident seq t1 corr) s = .next (s.setLane x { l with regs := rx })) ∧
    (∀ n r2 r, (l.port p).ptp.sync = some (n, r2, r) →
      (n ≠ seq → exec (.followUpReceive x p fab ident seq t1 corr) s = .next (s.setLane x { l with regs := rx })) ∧
      (n = seq → ∃ l', exec (.followUpReceive x p fab ident seq t1 corr) s = .next (s.setLane x l') ∧
        l.Measured l' x p fab rx (r2 - t1 * 65536 - (corr + r)) r2)) := by
  subst hl hrx
  have ⟨hport, hp, _⟩ := hopen
  have hm := ((s.lane x).fromParent_counted p (fbump (s.lane x).regs (f_PORT_RXCNT_RX.at (0x20 * p))) ident).trans h
  have hself := (s.lane x).port_counted p (fbump (s.lane x).regs (f_PORT_RXCNT_RX.at (0x20 * p))) p
  refine ⟨fun hnone => rxMessage_counted hopen (Lane.rxFollowUp_unasked (by rw [hself, hnone])), fun n r2 r hsync =>
    ⟨fun hn => rxMessage_counted hopen (Lane.rxFollowUp_other (by rw [hself, hsync]) hn), fun hn => ?_⟩⟩
  subst hn
  exact ⟨_, rxMessage_next hopen (Lane.rxFollowUp_awaited hm (by rw [hself, hsync])),
    Lane.syncOffset_measured hport hp x fab r2 t1 (corr + r)⟩

/-- DELAY_RESP_RECEIVE from the parent (R293). -/
theorem exec_delayRespReceive_parent :
    (((l.port p).ptp.tReq = none ∨ (l.port p).ptp.d21 = none) →
      exec (.delayRespReceive x p ident seq t1 corr) s = .next (s.setLane x { l with regs := rx })) ∧
    (∀ n t3 d, (l.port p).ptp.tReq = some (n, t3) → (l.port p).ptp.d21 = some d →
      (n ≠ seq → exec (.delayRespReceive x p ident seq t1 corr) s = .next (s.setLane x { l with regs := rx })) ∧
      (n = seq → ∃ l', exec (.delayRespReceive x p ident seq t1 corr) s = .next (s.setLane x l') ∧
        l.PortIs l' p { l.port p with ptp := { (l.port p).ptp with
          delay := some (pathDelay (l.port p).ptp.delay (l.timeCfg x).dlysh (Config.quot (d + (t1 * 65536 - corr - t3)) 2))
          tReq := none } } rx)) := by
  subst hl hrx
  have ⟨_, hp, _⟩ := hopen
  have hm := ((s.lane x).fromParent_counted p (fbump (s.lane x).regs (f_PORT_RXCNT_RX.at (0x20 * p))) ident).trans h
  have hself := (s.lane x).port_counted p (fbump (s.lane x).regs (f_PORT_RXCNT_RX.at (0x20 * p))) p
  refine ⟨fun hnone => rxMessage_counted hopen (Lane.rxDelayResp_unasked (by rw [hself]; exact hnone)), fun n t3 d hreq hd =>
    ⟨fun hn => rxMessage_counted hopen (Lane.rxDelayResp_other (by rw [hself, hreq]) (by rw [hself, hd]) hn), fun hn => ?_⟩⟩
  subst hn
  exact ⟨_, rxMessage_next hopen (Lane.rxDelayResp_awaited hm (by rw [hself, hreq]) (by rw [hself, hd])),
    Lane.newDelay_portIs hp _ _⟩

end

/-! ### Peer delay and requests -/

/-- PDELAY_RESP_RECEIVE (R288, R293). -/
theorem exec_pdelayRespReceive (fab seq : Nat) (corr : Int) :
    (((l.portCfg x p).peer = false ∨ (l.port p).ptp.tReq = none) →
      exec (.pdelayRespReceive x p fab seq corr) s = .next (s.setLane x { l with regs := rx })) ∧
    (∀ n r1, (l.portCfg x p).peer = true → (l.port p).ptp.tReq = some (n, r1) →
      (n ≠ seq → exec (.pdelayRespReceive x p fab seq corr) s = .next (s.setLane x { l with regs := rx })) ∧
      (n = seq → ∃ l', exec (.pdelayRespReceive x p fab seq corr) s = .next (s.setLane x l') ∧
        l.PortIs l' p { l.port p with ptp := { (l.port p).ptp with
          delay := some (pathDelay (l.port p).ptp.delay (l.timeCfg x).dlysh (Config.quot (l.rxStamp x p fab - r1 - corr) 2))
          tReq := none } } rx)) := by
  subst hl hrx
  have ⟨_, hp, _⟩ := hopen
  have hself := (s.lane x).port_counted p (fbump (s.lane x).regs (f_PORT_RXCNT_RX.at (0x20 * p))) p
  refine ⟨fun hnone => rxMessage_counted hopen (Lane.rxPdelayResp_unasked (by rw [hself]; exact hnone)), fun n r1 hpeer hreq =>
    ⟨fun hn => rxMessage_counted hopen (Lane.rxPdelayResp_other (by rw [hself, hreq]) hn), fun hn => ?_⟩⟩
  subst hn
  refine ⟨_, rxMessage_next hopen (Lane.rxPdelayResp_awaited hpeer (by rw [hself, hreq])), ?_⟩
  rw [Lane.rxStamp_counted]
  exact Lane.newDelay_portIs hp _ _

/-- DELAY_REQ_RECEIVE: a master answers (R290, Table 09-8). -/
theorem exec_delayReqReceive (fab : Nat) (ident : BitVec 64) (sp seq : Nat) (corr : Int) : let t2 := l.rxStamp x p fab
    (((l.port p).ptp.st ≠ 2 ∨ (l.portCfg x p).peer = true) →
      exec (.delayReqReceive x p fab ident sp seq corr) s = .next (s.setLane x { l with regs := rx })) ∧
    ((l.port p).ptp.st = 2 → (l.portCfg x p).peer = false → ∃ l',
      exec (.delayReqReceive x p fab ident sp seq corr) s = .next (s.setLane x l') ∧
      l.PtpQueues l' x p (l.port p).ptp rx false false 0 0 (ptpMsg (l.timeCfg x) 9 p seq (corr - (t2.toNat % 65536 : Nat))
        (l.dict.nat (0x8000 + 16 * x.num + p) 0x11) (beBytes 6 (t2.toNat / 65536 / 1000000000) ++
          beBytes 4 (t2.toNat / 65536 % 1000000000) ++ beBytes 8 ident.toNat ++ beBytes 2 sp))) := by
  subst hl hrx
  have ⟨_, hp, _⟩ := hopen
  have hself := (s.lane x).port_counted p (fbump (s.lane x).regs (f_PORT_RXCNT_RX.at (0x20 * p))) p
  have hst := congrArg (fun q : PortSt => q.ptp.st) hself
  refine ⟨fun h => rxMessage_counted hopen (if_pos (h.imp_left hst.trans_ne)), fun h2 hpeer => ?_⟩
  refine ⟨_, rxMessage_next hopen (if_neg (not_or.mpr ⟨not_not.mpr (hst.trans h2), Bool.eq_false_iff.mp hpeer⟩)), ?_⟩
  rw [Lane.rxStamp_counted]
  exact Lane.ptpSend_queues hp _ _ _ _ _ _ _

/-- PDELAY_REQ_RECEIVE: a port of the peer mechanism answers (R290). -/
theorem exec_pdelayReqReceive (fab : Nat) (ident : BitVec 64) (sp seq : Nat) (corr : Int) :
    (((l.portCfg x p).role = 0 ∨ (l.portCfg x p).peer = false) →
      exec (.pdelayReqReceive x p fab ident sp seq corr) s = .next (s.setLane x { l with regs := rx })) ∧
    ((l.portCfg x p).role ≠ 0 → (l.portCfg x p).peer = true → ∃ l',
      exec (.pdelayReqReceive x p fab ident sp seq corr) s = .next (s.setLane x l') ∧
      l.PtpQueues l' x p (l.port p).ptp rx true true 2 (l.rxStamp x p fab)
        (ptpMsg (l.timeCfg x) 3 p seq corr 0x7F (zeros 10 ++ beBytes 8 ident.toNat ++ beBytes 2 sp))) := by
  subst hl hrx
  have ⟨_, hp, hup, _⟩ := hopen
  have hself := (s.lane x).port_counted p (fbump (s.lane x).regs (f_PORT_RXCNT_RX.at (0x20 * p))) p
  refine ⟨fun h => rxMessage_counted hopen (if_pos (h.imp_right .inl)), fun hrole hpeer => ?_⟩
  refine ⟨_, rxMessage_next hopen (if_neg ?_), ?_⟩
  · rw [hself]
    simp [hrole, hpeer, hup]
  · rw [Lane.rxStamp_counted]
    exact Lane.ptpSend_queues hp _ _ _ _ _ _ _

/-! ### Announce -/

theorem exec_announceReceive_ignored (fab : Nat) {a : Announce} (h : (l.portCfg x p).role = 0 ∨ a.ident = (l.timeCfg x).ident) :
    exec (.announceReceive x p fab a) s = .next (s.setLane x { l with regs := rx }) := by
  subst hl hrx
  exact rxMessage_counted hopen (Lane.rxAnnounce_ignored h)

/-- ANNOUNCE_RECEIVE of another clock: what the port knows of it, and the selection that follows (R288, R293, R296, R297). -/
theorem exec_announceReceive_heard (fab : Nat) {a : Announce} (hrole : (l.portCfg x p).role ≠ 0)
    (ha : a.ident ≠ (l.timeCfg x).ident) : ∃ l', exec (.announceReceive x p fab a) s = .next (s.setLane x l') ∧ l'.regs = rx ∧
      { l' with ports := l.ports, regs := l.regs, time := l.time } = l ∧ (∀ j, { l'.port j with ptp := (l.port j).ptp } = l.port j) ∧
      (∀ j, j ≠ p → (l'.port j).ptp.foreign = (l.port j).ptp.foreign ∧ (l'.port j).ptp.seen = (l.port j).ptp.seen) ∧
      (l'.port p).ptp.foreign = ((l.port p).ptp.hears a).foreign ∧ (l'.port p).ptp.seen = ((l.port p).ptp.hears a).seen ∧
      (∀ j, l'.time.parent = some j ↔ (l'.port j).ptp.st = 3) ∧
      (l'.time.parent ≠ l.time.parent → l'.time.offs = []) ∧
      (l'.time.parent = none → l.time.parent ≠ none → l'.time.locked = false ∧ l'.time.y = l.time.yi) ∧
      l'.time.yi = l.time.yi ∧ l'.time.pins = l.heldPins x l'.time.locked l.time.pins ∧ l'.time.fifo = l.time.fifo := by
  subst hl hrx
  have ⟨_, hp, hup, _⟩ := hopen
  let rx := fbump (s.lane x).regs (f_PORT_RXCNT_RX.at (0x20 * p))
  let g := ((s.lane x).port p).ptp.hears a
  let d := (s.lane x).setPort p { (s.lane x).port p with ptp := g } rx
  have hd : ((s.lane x).setPort p ((s.lane x).port p) rx).rxAnnounce x p fab a = d.bmca x fab := by
    have hself : ((s.lane x).setPort p ((s.lane x).port p) rx).port p = (s.lane x).port p := Lane.port_counted _ p rx p
    rw [Lane.rxAnnounce_heard (l := (s.lane x).setPort p ((s.lane x).port p) rx) (by rw [hself]; exact hup) hrole ha, hself,
      Lane.setPort_setPort]
    rfl
  obtain ⟨⟨hforeign, hseen⟩, hothers, hframe, hrest⟩ := Lane.bmca_after hp x fab g rx
  obtain ⟨hyi, hfifo, hpins, hoffs, hholdover, -⟩ := d.bmca_servo x fab
  exact ⟨_, rxMessage_next hopen hd, d.bmca_regs x fab, hrest, hframe, hothers, hforeign, hseen, d.bmca_parent x fab, hoffs,
    hholdover, hyi, hpins, hfifo⟩

end

/-! ### Messages that a port sends -/

/-- A message sent after the protocol state has moved to `g`. -/
theorem Lane.modPtp_queues {l : Lane} {p : Nat} (hp : p < l.ports.length) {f : PtpPort → PtpPort} {g : PtpPort}
    (hf : f (l.port p).ptp = g) (me : LaneId) (event peer : Bool) (stamp : Nat) (t2 : Int) (body : Bytes) :
    l.PtpQueues ((l.modPtp p f).ptpSend me p event peer stamp t2 body) me p g l.regs event peer stamp t2 body := by
  rw [Lane.modPtp_eq hp, hf]
  exact Lane.ptpSend_queues hp g l.regs event peer stamp t2 body

section
variable {s : State} {x : LaneId} {p : Nat} {l : Lane} (hl : s.lane x = l)
include hl

/-- SYNC_TRANSMIT at a master port (R290). -/
theorem exec_syncTransmit (h : (l.port p).ptp.st = 2) : ∃ l', exec (.syncTransmit x p) s = .next (s.setLane x l') ∧
    l.PtpQueues l' x p { (l.port p).ptp with syncSeq := ((l.port p).ptp.syncSeq + 1) % 65536 } l.regs true false 1 0
      (ptpMsg (l.timeCfg x) 0 p (l.port p).ptp.syncSeq 0 (l.dict.nat (0x8000 + 16 * x.num + p) 0xF) (zeros 10)) := by
  subst hl
  have hp := Lane.port_exists_of_protocol (l := s.lane x) (p := p) (by rw [h]; decide)
  exact ⟨_, laneNext_to (if_neg (not_not.mpr h)), Lane.modPtp_queues hp rfl x true false 1 0 _⟩

/-- ANNOUNCE_TRANSMIT at a master port: its parent's data set one step further, or the lane's own (R288, R290). -/
theorem exec_announceTransmit (h : (l.port p).ptp.st = 2) : ∃ (l' : Lane) (body : Bytes),
    exec (.announceTransmit x p) s = .next (s.setLane x l') ∧ body.length = 30 ∧
    l.PtpQueues l' x p { (l.port p).ptp with annSeq := ((l.port p).ptp.annSeq + 1) % 65536 } l.regs false false 0 0
      (ptpMsg (l.timeCfg x) 11 p (l.port p).ptp.annSeq 0 (l.dict.nat (0x8000 + 16 * x.num + p) 0x10) body) ∧
    (l.time.parent = none → beAt body 13 1 = (l.timeCfg x).prio1 % 256 ∧ beAt body 19 8 = (l.timeCfg x).ident.toNat ∧
      beAt body 27 2 = 0) ∧
    (∀ r b, l.time.parent = some r → r ≠ p → (l.port r).ptp.foreign = some b →
      beAt body 13 1 = b.prio1 % 256 ∧ beAt body 19 8 = b.gm.toNat ∧ beAt body 27 2 = (b.steps + 1) % 65536) := by
  subst hl
  let l := s.lane x
  have hp := Lane.port_exists_of_protocol (l := l) (p := p) (by rw [h]; decide)
  let q : PortSt := { l.port p with ptp := { (l.port p).ptp with annSeq := ((l.port p).ptp.annSeq + 1) % 65536 } }
  let m := l.setPort p q l.regs
  refine ⟨_, announceBody (l.dict.nat 0x1320 1) (m.announced x), laneNext_to (Lane.txAnnounce_master hp h),
    length_announceBody _ _, Lane.ptpSend_queues hp _ _ _ _ _ _ _, fun hnone => ?_, fun r b hsome hr hb => ?_⟩
  · rw [show m.announced x = ownSet (l.timeCfg x) from Lane.announced_own x hnone]
    exact announceBody_fields _ _
  · have hforeign : (m.port r).ptp.foreign = some b := by
      rw [Lane.setPort_port_other q l.regs hr]
      exact hb
    rw [Lane.announced_parent x (l := m) hsome hforeign]
    exact announceBody_fields _ _

/-- DELAY_REQ_TRANSMIT at a slave port of the end-to-end mechanism (R290). -/
theorem exec_delayReqTransmit (h : (l.port p).ptp.st = 3) (hpeer : (l.portCfg x p).peer = false) :
    ∃ l', exec (.delayReqTransmit x p) s = .next (s.setLane x l') ∧
    l.PtpQueues l' x p { (l.port p).ptp with reqSeq := ((l.port p).ptp.reqSeq + 1) % 65536, tReq := none } l.regs true false 1 0
      (ptpMsg (l.timeCfg x) 1 p (l.port p).ptp.reqSeq 0 0x7F (zeros 10)) := by
  subst hl
  have hp := Lane.port_exists_of_protocol (l := s.lane x) (p := p) (by rw [h]; decide)
  exact ⟨_, laneNext_to (if_neg (not_or.mpr ⟨not_not.mpr h, Bool.eq_false_iff.mp hpeer⟩)),
    Lane.modPtp_queues hp rfl x true false 1 0 _⟩

/-- PDELAY_REQ_TRANSMIT at a port of the peer mechanism (R290). -/
theorem exec_pdelayReqTransmit (hrole : (l.portCfg x p).role ≠ 0) (hpeer : (l.portCfg x p).peer = true)
    (hup : (l.port p).up = true) : ∃ l', exec (.pdelayReqTransmit x p) s = .next (s.setLane x l') ∧
    l.PtpQueues l' x p { (l.port p).ptp with reqSeq := ((l.port p).ptp.reqSeq + 1) % 65536, tReq := none } l.regs true true 1 0
      (ptpMsg (l.timeCfg x) 2 p (l.port p).ptp.reqSeq 0 0x7F (zeros 20)) := by
  subst hl
  have hp := Lane.port_exists_of_up hup
  exact ⟨_, laneNext_to (if_neg (by simp [hrole, hpeer, hup])), Lane.modPtp_queues hp rfl x true true 1 0 _⟩

end

end Sys2Proof.Machine
end

section
/-! The waymark commands and the statement about time (R286 to R300). -/
namespace Sys2Proof.Machine

theorem WmkCfg.held_eq {k : WmkCfg} (hmode : k.mode = 2) (locked : Bool) :
    k.held locked = (decide (k.unlocked = 1) && !locked) := by
  simp [WmkCfg.held, hmode]

section
variable {s : State} {x : LaneId} {w fab : Nat} {l : Lane} (hl : s.lane x = l)
include hl

/-- WAYMARK_OUTPUT_RISE at an instant: the output rises, or is held low while the clock is not locked (R298, R299). -/
theorem exec_waymarkOutputRise_due {k : WmkCfg} (hk : l.wmk x w = k) (hw : w < 4) (hmode : k.mode = 2) (hperiod : 0 < k.period)
    (hstart : k.start ≤ l.clk fab) (hnew : ∀ r, (l.time.pins.getD w wmk0).ref = some r → r < k.instant (l.clk fab)) :
    let i := k.instant (l.clk fab)
    (k.unlocked = 1 ∧ l.time.locked = false → exec (.waymarkOutputRise x w fab) s =
      .next (s.setLane x { l with time := { l.time with pins := l.time.pins.set w ⟨false, true, some i, none⟩ } })) ∧
    ((k.unlocked ≠ 1 ∨ l.time.locked = true) → exec (.waymarkOutputRise x w fab) s =
      .next (s.setLane x { l with time := { l.time with
        pins := l.time.pins.set w ⟨true, false, some i, some (i + k.width * 65536)⟩ } })) := by
  subst hl
  have hrise := Lane.wmkRise_due hk (rfl : (s.lane x).clk fab = _) hw hmode hperiod hstart hnew
  have hheld := k.held_eq hmode (s.lane x).time.locked
  refine ⟨fun ⟨hunlocked, hlock⟩ => laneNext_to (hrise.trans ?_), fun h => laneNext_to (hrise.trans ?_)⟩
  · have hlow : k.held (s.lane x).time.locked = true := by
      rw [hheld]
      simp [hunlocked, hlock]
    rw [hlow]
    rfl
  · have hfree : k.held (s.lane x).time.locked = false := by
      rw [hheld]
      rcases h with h | h <;> simp [h]
    rw [hfree]
    rfl

end

/-- Settles O58: the messages by the port's relation to its parent, the servo by the number of offsets and the filtered one, the
selection by the states it gives, the waymarks by the instants that the clock has reached. -/
theorem timeFollowsTheParent : Obligations.TimeFollowsTheParent := by
  unfold Obligations.TimeFollowsTheParent
  intro s x p l c tc q t rx intv holds measured delayed
  refine ⟨fun hclosed fab seq sp ident two t1 corr a => ?closed, fun hport hp hup henable fab seq sp ident t1 corr => ?opened,
    fun hidle => ⟨laneNext_same (if_pos hidle), laneNext_same (if_pos hidle)⟩,
    fun hmaster => ⟨exec_syncTransmit rfl hmaster, exec_announceTransmit rfl hmaster⟩,
    fun hidle => laneNext_same (if_pos hidle), fun hslave hpeer => exec_delayReqTransmit rfl hslave hpeer,
    fun hidle => laneNext_same (if_pos hidle), fun hrole hpeer hup _ => exec_pdelayReqTransmit rfl hrole hpeer hup,
    fun fab => ?timeouts, fun w fab falling => ?waymarks⟩
  case closed =>
    have hdrop (f : Lane → Lane) : laneNext s x (fun l => l.rxMessage x p f) = .next s :=
      laneNext_same (Lane.rxMessage_closed hclosed f)
    exact ⟨hdrop _, hdrop _, hdrop _, hdrop _, hdrop _, hdrop _, hdrop _⟩
  case opened =>
    have hopen : l.PortOpen x p := ⟨hport, hp, hup, henable⟩
    intro t2 fromParent
    obtain ⟨hdelayIdle, hdelayAnswer⟩ := exec_delayReqReceive rfl rfl hopen fab ident sp seq corr
    obtain ⟨hpdelayIdle, hpdelayAnswer⟩ := exec_pdelayReqReceive rfl rfl hopen fab ident sp seq corr
    obtain ⟨hrespIdle, hresp⟩ := exec_pdelayRespReceive rfl rfl hopen fab seq corr
    refine ⟨fun hstranger => ?stranger, fun hparent => ?parent, hrespIdle, hresp, hdelayIdle, hdelayAnswer, hpdelayIdle,
      hpdelayAnswer, fun a => ⟨exec_announceReceive_ignored rfl rfl hopen fab, fun hrole ha => ?announce⟩⟩
    case stranger =>
      have h : l.fromParent p ident = false := Bool.eq_false_iff.mpr fun h => hstranger (Lane.fromParent_iff.mp h)
      exact exec_messages_stranger rfl rfl hopen h fab seq t1 corr
    case parent =>
      have h : l.fromParent p ident = true := Lane.fromParent_iff.mpr hparent
      obtain ⟨htwoStep, honeStep⟩ := exec_syncReceive_parent rfl rfl hopen h fab seq t1 corr
      obtain ⟨hunasked, hfollow⟩ := exec_followUpReceive_parent rfl rfl hopen h fab seq t1 corr
      obtain ⟨hnoReq, hdelayResp⟩ := exec_delayRespReceive_parent rfl rfl hopen h seq t1 corr
      exact ⟨htwoStep, honeStep, hunasked, hfollow, hnoReq, hdelayResp⟩
    case announce =>
      obtain ⟨l', hnext, hregs, hrest, hframe, hothers, hforeign, hseen, hservo⟩ :=
        exec_announceReceive_heard rfl rfl hopen fab hrole ha
      refine ⟨l', hnext, hregs, hrest, hframe, hothers, fun hnone => ?_, fun b hb => ?_, hservo⟩
      · rw [hforeign, hseen, PtpPort.hears_first a hnone]
        exact ⟨rfl, rfl⟩
      · rw [hforeign, hseen]
        exact PtpPort.hears_again hb
  case timeouts =>
    exact ⟨fun hidle => laneNext_same (Lane.syncLost_idle x p fab hidle),
      fun hslave hlock => laneNext_to (Lane.syncLost_locked x p fab hslave hlock),
      fun hp => ⟨_, laneNext_eq _ _ _, Lane.announceLost_occurs _ x p fab hp⟩⟩
  case waymarks =>
    exact ⟨fun hw hmode hperiod hstart hnew => exec_waymarkOutputRise_due rfl rfl hw hmode hperiod hstart hnew,
      fun hidle => laneNext_same (Lane.wmkRise_idle hidle),
      fun e hfall he => laneNext_to (Lane.wmkFall_due hfall he),
      fun hidle => laneNext_same (Lane.wmkFall_idle hidle),
      fun hidle => laneNext_same (Lane.wmkEvent_idle hidle),
      fun hw hmode => ⟨fun hunwanted => laneNext_to (Lane.wmkEvent_unwanted hw hmode rfl hunwanted),
        fun hwanted hroom => laneNext_to (Lane.wmkEvent_stamped hw hmode rfl hwanted hroom),
        fun hwanted hfull => laneNext_to (Lane.wmkEvent_lost hw hmode rfl hwanted hfull)⟩⟩

end Sys2Proof.Machine
end

section
/-! What a transaction of Afesh does to the lane that executes it (R309, R314 to R316): binding, retries, READ and ECHO. -/
namespace Sys2Proof.Machine

/-! ### The commands of the transactions -/

/-- The commands of the transactions with their codes (Table 10-3). -/
def transactions (x : LaneId) : List (Instr × Nat) :=
  [(.txRead x, 1), (.txWrite x, 2), (.txWriteStaged x, 3), (.txCommit x, 4), (.txAbort x, 5), (.txSubscribe x, 6),
    (.txUnsubscribe x, 7), (.txSegmentRead x, 0xA), (.txSegmentWrite x, 0xB), (.txEcho x, 0xC), (.txEnrol x, 0xD)]

theorem exec_transaction (s : State) {x : LaneId} {c : Instr} {k : Nat} (h : (c, k) ∈ transactions x) :
    exec c s = .next (s.setLane x ((s.lane x).execCode x k)) := by
  simp only [transactions, List.mem_cons, Prod.mk.injEq, List.not_mem_nil, or_false] at h
  rcases h with ⟨rfl, rfl⟩ | ⟨rfl, rfl⟩ | ⟨rfl, rfl⟩ | ⟨rfl, rfl⟩ | ⟨rfl, rfl⟩ | ⟨rfl, rfl⟩ | ⟨rfl, rfl⟩ | ⟨rfl, rfl⟩ |
    ⟨rfl, rfl⟩ | ⟨rfl, rfl⟩ | ⟨rfl, rfl⟩
  all_goals rfl

section
variable {l m : Lane} {me : LaneId} {k : Nat} {r : ExecReq} (h : l.Request me k r m)
include h

theorem Lane.Request.code : natAt r.body 0 1 = k := by
  obtain ⟨-, -, hcode, -⟩ := h
  exact hcode

theorem Lane.Request.sess_lt : r.sess < m.dict.sessions.length := by
  obtain ⟨-, -, -, -, -, -, hsess⟩ := h
  exact hsess

end

/-- The command of the request at the head of the queue executes it. -/
theorem exec_request {s : State} {x : LaneId} {c : Instr} {k : Nat} {r : ExecReq} {m m' : Lane} (hc : (c, k) ∈ transactions x)
    (h : (s.lane x).Request x k r m) (hm : m.execReq x r = m') : exec c s = .next (s.setLane x m') := by
  rw [exec_transaction s hc, Lane.execCode_of_request h, hm]

/-! ### Binding (R309) -/

/-- The request's session is open, and bound to the request's port or bound to it by the request: the lane is then `l`. -/
def Lane.Binds (m : Lane) (r : ExecReq) (l : Lane) : Prop := m.OpenFor r ∧ m.bindReq r (natAt r.body 1 1) = (l, true)
/-- The port that the request came through is among those that its session allows. -/
def Lane.allows (m : Lane) (r : ExecReq) : Bool := (m.dict.nat (0x1200 + r.sess) 4).testBit (if r.port = 0xFF then 63 else r.port)
/-- The lane when the request has bound its session. -/
def Lane.bindTo (m : Lane) (r : ExecReq) : Lane :=
  (m.modSess r.sess fun y => { y with st := 2, port := r.port }).sessNote r.sess r.sess

theorem Lane.binds_of_port {m : Lane} {r : ExecReq} (hopen : m.OpenFor r) (hst : (m.sess r.sess).st = 2)
    (hport : (m.sess r.sess).port = r.port) : m.Binds r m :=
  ⟨hopen, by simp [Lane.bindReq, hst, hport]⟩

theorem Lane.binds_of_allowed {m : Lane} {r : ExecReq} (hopen : m.OpenFor r) (hst : (m.sess r.sess).st = 1)
    (h : m.allows r = true) : m.Binds r (m.bindTo r) :=
  ⟨hopen, (if_pos hst).trans (if_pos h)⟩

theorem Lane.bindReq_wrongPort {m : Lane} {r : ExecReq} (hst : (m.sess r.sess).st = 1) (h : m.allows r = false) (opts : Nat) :
    m.bindReq r opts = (m.rxErr r.sess f_XACT_RXERR_WRONGPORT, false) :=
  (if_pos hst).trans (if_neg (Bool.eq_false_iff.mp h))

theorem Lane.bindTo_sess {m : Lane} {r : ExecReq} (hn : r.sess < m.dict.sessions.length) :
    (m.bindTo r).sess r.sess = { m.sess r.sess with st := 2, port := r.port } :=
  (Lane.sess_of_sessView (Lane.sessNote_sessView _ _ _) _).trans (Lane.sess_modSess_same _ hn)

/-! ### The execution of a request (R314, R316, R506) -/

/-- The answer that the session remembers for a request's code and TID. -/
def Lane.remembered (l : Lane) (r : ExecReq) : Option (Nat × Nat × Bytes) :=
  (l.sess r.sess).retry.find? fun y => y.1 == natAt r.body 0 1 && y.2.1 == natAt r.body 2 2
/-- A request that has not been answered and does not wait for its commit slot or for the end of an enrolment. -/
def Lane.IsNew (l : Lane) (r : ExecReq) : Prop :=
  l.remembered r = none ∧ l.pendingTid r.sess (natAt r.body 0 1) (natAt r.body 2 2) = false

/-- A request of a session that is closed, or in another epoch, is discarded. -/
theorem Lane.execReq_closed {m : Lane} {r : ExecReq} (me : LaneId) (h : ¬m.OpenFor r) : m.execReq me r = m :=
  if_pos (by rwa [Lane.OpenFor, not_and_or, not_not] at h)

/-- A request through a port that its session does not allow is counted. -/
theorem Lane.execReq_wrongPort {m : Lane} {r : ExecReq} (me : LaneId) (hopen : m.OpenFor r) (hst : (m.sess r.sess).st = 1)
    (h : m.allows r = false) : m.execReq me r = m.rxErr r.sess f_XACT_RXERR_WRONGPORT := by
  obtain ⟨-, hepoch⟩ := hopen
  simp only [Lane.execReq, hepoch, hst, Lane.bindReq_wrongPort hst h, ne_eq, not_true_eq_false, or_false, Nat.one_ne_zero, if_false]
  rfl

section
variable {m l : Lane} {r : ExecReq} (me : LaneId) (h : m.Binds r l)
include h

theorem Lane.execReq_retry {y : Nat × Nat × Bytes} (hy : l.remembered r = some y) :
    m.execReq me r = l.sendPayload me r.sess (natAt r.body 0 1 == 0xD && r.port == 0xFF) y.2.2 := by
  obtain ⟨⟨hknown, hepoch⟩, hbind⟩ := h
  unfold Lane.remembered at hy
  simp only [Lane.execReq, hknown, hepoch, hbind, hy, ne_eq, not_true_eq_false, or_self, if_false, Bool.not_true,
    Bool.false_eq_true]

theorem Lane.execReq_waiting (hy : l.remembered r = none) (hp : l.pendingTid r.sess (natAt r.body 0 1) (natAt r.body 2 2) = true) :
    m.execReq me r = l := by
  obtain ⟨⟨hknown, hepoch⟩, hbind⟩ := h
  unfold Lane.remembered at hy
  simp only [Lane.execReq, hknown, hepoch, hbind, hy, hp, ne_eq, not_true_eq_false, or_self, if_false, Bool.not_true,
    Bool.false_eq_true, if_true]

/-- A new request is executed by its code. -/
theorem Lane.execReq_new (hnew : l.IsNew r) :
    (natAt r.body 0 1 = 1 → m.execReq me r = l.reqRead me r.sess (natAt r.body 1 1) (natAt r.body 2 2) (r.body.drop 4)) ∧
    (natAt r.body 0 1 = 2 → m.execReq me r = l.reqCommit r.sess 2 (natAt r.body 2 2) r.seq (r.body.drop 4)) ∧
    (natAt r.body 0 1 = 6 → m.execReq me r = l.reqSubscribe me r.sess (natAt r.body 2 2) (r.body.drop 4)) ∧
    (natAt r.body 0 1 = 7 → m.execReq me r = l.reqUnsubscribe me r.sess (natAt r.body 2 2) (r.body.drop 4)) ∧
    (natAt r.body 0 1 = 0xC → m.execReq me r = l.respond me r.sess 0xC 0 (natAt r.body 2 2) (r.body.drop 4)) := by
  obtain ⟨⟨hknown, hepoch⟩, hbind⟩ := h
  obtain ⟨hy, hp⟩ := hnew
  unfold Lane.remembered at hy
  simp only [Lane.execReq, hknown, hepoch, hbind, hy, hp, ne_eq, not_true_eq_false, or_self, if_false, Bool.not_true,
    Bool.false_eq_true]
  refine ⟨?_, ?_, ?_, ?_, ?_⟩
  all_goals
    intro hcode
    rw [hcode]
    rfl

end

/-- A new request of the session bound to its port. -/
theorem Lane.BoundFor.binds {m : Lane} {r : ExecReq} (h : m.BoundFor r) : m.Binds r m ∧ m.IsNew r := by
  obtain ⟨hopen, hst, hport, hretry, hpending⟩ := h
  exact ⟨Lane.binds_of_port hopen hst hport, List.find?_eq_none.mpr fun y hy => by simpa using hretry y hy, hpending⟩

/-! ### READ (R316, R328) -/

section
variable {l : Lane} {n idx sub : Nat} {d : ObjDesc}

theorem Lane.readCheck_absent (h : objDesc? idx sub = none) : l.readCheck n idx sub = .error 1 := by
  simp only [Lane.readCheck, h]

theorem Lane.readCheck_denied (h : objDesc? idx sub = some d) (hright : d.right idx sub (l.dict.nat (0x1200 + n) 2) = 0) :
    l.readCheck n idx sub = .error 2 := by
  simp only [Lane.readCheck, h, if_pos hright]

theorem Lane.readCheck_readable (h : objDesc? idx sub = some d) (hright : d.right idx sub (l.dict.nat (0x1200 + n) 2) ≠ 0) :
    l.readCheck n idx sub = .ok d := by
  simp only [Lane.readCheck, h, if_neg hright]

end

section
variable {l : Lane} (me : LaneId) {n opts tid : Nat} {b : Bytes}

theorem Lane.reqRead_refused {e : Nat} (h : l.readCheck n (natAt b 0 2) (natAt b 2 1) = .error e) :
    l.reqRead me n opts tid b = l.respond me n 1 e tid [] := by
  simp only [Lane.reqRead, h]

variable {d : ObjDesc} (h : l.readCheck n (natAt b 0 2) (natAt b 2 1) = .ok d)
include h

theorem Lane.reqRead_described (hopts : opts.testBit 1 = true) :
    l.reqRead me n opts tid b = l.respond me n 1 0 tid (d.bytes (natAt b 0 2) (natAt b 2 1)) := by
  simp only [Lane.reqRead, h, if_pos hopts]

theorem Lane.reqRead_long (hopts : opts.testBit 1 = false) (hlen : 1320 < (l.objRead (natAt b 0 2) (natAt b 2 1)).length) :
    l.reqRead me n opts tid b = l.respond me n 1 0xA tid [] := by
  simp only [Lane.reqRead, h, hopts, Bool.false_eq_true, if_false, if_pos hlen]

theorem Lane.reqRead_value (hopts : opts.testBit 1 = false) (hlen : (l.objRead (natAt b 0 2) (natAt b 2 1)).length ≤ 1320) :
    l.reqRead me n opts tid b = l.respond me n 1 0 tid (leBytes 1 d.type ++ zeros 1
      ++ leBytes 2 (l.objRead (natAt b 0 2) (natAt b 2 1)).length ++ l.objRead (natAt b 0 2) (natAt b 2 1)) := by
  simp only [Lane.reqRead, h, hopts, Bool.false_eq_true, if_false, if_neg (Nat.not_lt.mpr hlen)]

end

/-- READ answers, and does nothing else. -/
theorem Lane.reqRead_responds (l : Lane) (me : LaneId) (n opts tid : Nat) (b : Bytes) :
    ∃ st body, l.reqRead me n opts tid b = l.respond me n 1 st tid body := by
  cases h : l.readCheck n (natAt b 0 2) (natAt b 2 1)
  case error e => exact ⟨_, _, Lane.reqRead_refused me h⟩
  case ok d =>
    cases hopts : opts.testBit 1
    case true => exact ⟨_, _, Lane.reqRead_described me h hopts⟩
    case false =>
      by_cases hlen : (l.objRead (natAt b 0 2) (natAt b 2 1)).length ≤ 1320
      · exact ⟨_, _, Lane.reqRead_value me h hopts hlen⟩
      · exact ⟨_, _, Lane.reqRead_long me h hopts (Nat.lt_of_not_le hlen)⟩

/-! ### The statement on binding, READ and ECHO -/

/-- A READ or an ECHO that binds its session leaves it bound, whether it is executed, is a retry or still waits. -/
theorem Lane.execReq_unsent {m l : Lane} {r : ExecReq} (me : LaneId) (h : m.Binds r l)
    (hcode : natAt r.body 0 1 = 1 ∨ natAt r.body 0 1 = 0xC) :
    ((m.execReq me r).sess r.sess).unsent = (l.sess r.sess).unsent := by
  cases hy : l.remembered r
  case some y =>
    rw [Lane.execReq_retry me h hy]
    obtain ⟨-, -, -, hsame⟩ := l.sendPayload_frame me r.sess (natAt r.body 0 1 == 0xD && r.port == 0xFF) y.2.2
    exact hsame _
  case none =>
    cases hp : l.pendingTid r.sess (natAt r.body 0 1) (natAt r.body 2 2)
    case true => rw [Lane.execReq_waiting me h hy hp]
    case false =>
      have hresponds : ∃ k st tid body, m.execReq me r = l.respond me r.sess k st tid body := by
        obtain ⟨hread, -, -, -, hecho⟩ := Lane.execReq_new me h ⟨hy, hp⟩
        rcases hcode with hcode | hcode
        · obtain ⟨st, body, hresp⟩ := l.reqRead_responds me r.sess (natAt r.body 1 1) (natAt r.body 2 2) (r.body.drop 4)
          exact ⟨_, st, _, body, (hread hcode).trans hresp⟩
        · exact ⟨_, _, _, _, hecho hcode⟩
      obtain ⟨k, st, tid, body, hresp⟩ := hresponds
      rw [hresp]
      obtain ⟨-, -, -, hsame⟩ := l.respond_frame me r.sess k st tid body false
      exact hsame _

/-- The answer to a retry is sent and counted once more, and nothing is executed. -/
theorem Lane.sendPayload_retry {m : Lane} {n : Nat} (me : LaneId) (plain : Bool) (pay : Bytes) (hn : n < m.dict.sessions.length)
    (hst : (m.sess n).st = 2) : let m' := m.sendPayload me n plain pay
    m'.dict.vals = m.dict.vals ∧ m'.dict.reqs = m.dict.reqs ∧
      { m'.sess n with txseq := (m.sess n).txseq, txCount := (m.sess n).txCount } = m.sess n ∧
      (m'.sess n).txseq = (m.sess n).txseq + 1 := by
  obtain ⟨tx, regs, hsend, -⟩ := Lane.sendPayload_bound me plain pay hst
  have hsess : (m.sendPayload me n plain pay).sess n = (m.sess n).sends := by
    rw [hsend]
    exact Lane.sess_modSess_same _ hn
  refine ⟨by rw [hsend]; rfl, by rw [hsend]; rfl, ?_, congrArg Session.txseq hsess⟩
  exact congrArg (fun y : Session => { y with txseq := (m.sess n).txseq, txCount := (m.sess n).txCount }) hsess

/-- Settles O42: the execution of a request by the lemmas of `Lane.execReq`, what READ answers by those of `Lane.reqRead`. -/
theorem requestsBindAndReadTheirField : Obligations.RequestsBindAndReadTheirField := by
  unfold Obligations.RequestsBindAndReadTheirField
  intro s x r m c k hc hrequest n tid b allowed
  have hexec {m' : Lane} (h : m.execReq x r = m') : exec c s = .next (s.setLane x m') := exec_request hc hrequest h
  have hcode := hrequest.code
  have hn := hrequest.sess_lt
  refine ⟨fun hclosed => hexec (Lane.execReq_closed x hclosed),
    fun hopen hst hport => hexec (Lane.execReq_wrongPort x hopen hst hport),
    fun hopen hst hport hk => ?binds, fun y hopen hst hport hy => ?retry, fun hk hbound => ?echo, fun hk hbound => ?read⟩
  case binds =>
    have hsame := Lane.execReq_unsent x (Lane.binds_of_allowed hopen hst hport) (hcode ▸ hk)
    rw [Lane.bindTo_sess hn] at hsame
    exact ⟨_, hexec rfl, congrArg Session.st hsame, congrArg Session.port hsame⟩
  case retry =>
    have hremembered : m.remembered r = some y := by rw [Lane.remembered, hcode]; exact hy
    exact ⟨_, hexec (Lane.execReq_retry x (Lane.binds_of_port hopen hst hport) hremembered), Lane.sendPayload_retry x _ _ hn hst⟩
  case echo =>
    obtain ⟨hbinds, hnew⟩ := hbound.binds
    obtain ⟨-, hst, -⟩ := hbound
    obtain ⟨-, -, -, -, hecho⟩ := Lane.execReq_new x hbinds hnew
    exact ⟨_, hexec (hecho (hcode.trans hk)), Lane.respond_answers x _ _ _ _ _ hn hst⟩
  case read =>
    obtain ⟨hbinds, hnew⟩ := hbound.binds
    obtain ⟨-, hst, -⟩ := hbound
    obtain ⟨hread, -⟩ := Lane.execReq_new x hbinds hnew
    have hanswers {st : Nat} {body : Bytes} (h : m.reqRead x n (natAt r.body 1 1) tid b = m.respond x n 1 st tid body) :
        m.Answers (m.reqRead x n (natAt r.body 1 1) tid b) n 1 st tid body :=
      h ▸ Lane.respond_answers x 1 st tid body false hn hst
    refine ⟨_, hexec (hread (hcode.trans hk)), fun habsent => hanswers (Lane.reqRead_refused x (Lane.readCheck_absent habsent)),
      fun d hd => ⟨fun hdenied => hanswers (Lane.reqRead_refused x (Lane.readCheck_denied hd hdenied)), fun hright hopts => ?_,
        fun hright hopts hlen => ?_, fun hright hopts hlen => ?_⟩⟩
    all_goals have hreadable := Lane.readCheck_readable hd hright
    · exact hanswers (Lane.reqRead_described x hreadable hopts)
    · exact hanswers (Lane.reqRead_long x hreadable hopts hlen)
    · exact hanswers (Lane.reqRead_value x hreadable hopts hlen)

end Sys2Proof.Machine
end

section
/-! A WRITE whose message ends before its value does (R316, Table 10-3): the field that waits holds the bytes that there are. -/
namespace Sys2Proof.Machine

/-- WRITE of 0x1200.03 through the mailbox that declares a value of two bytes and carries none. -/
def shortWrite : ExecReq := { sess := 0, epoch := 0, seq := 1, port := 0xFF, body := [2, 0, 0, 0, 0x00, 0x12, 3, 3, 2, 0] }

/-- A lane whose boundary actions are done, in a slot that has admitted `reqs`; session 0 is bound to the mailbox. -/
def writeLane (reqs : List ExecReq) : Lane :=
  { laneReset with
    agree := { agree0 with stage := .imaged }, step1 := true, step3 := true, step4 := true, step5 := true, step6 := true
    stepL := true, solver := { solverReset with asked := true }
    dict := { dict0 with sessions := [{ session0 with st := 2, port := 0xFF }], todo := reqs } }

/-- The device in which the short WRITE is the next request of lane A. -/
def writeState : State := { State.reset with a := writeLane [shortWrite] }

theorem writeLane_loopsRun (reqs : List ExecReq) (me : LaneId) : (writeLane reqs).loopsRun me = writeLane reqs := by
  have hboundary : (writeLane reqs).boundary me = writeLane reqs := Lane.boundary_step6 me rfl rfl rfl rfl rfl
  rw [Lane.loopsRun, hboundary]
  rfl

theorem writeState_request : (writeState.lane .A).Request .A 2 shortWrite (writeLane []) := by
  have hloops : (writeState.lane .A).loopsRun .A = writeLane [shortWrite] := writeLane_loopsRun _ _
  exact ⟨rfl, by decide, by decide, [], by rw [hloops]; rfl, by rw [hloops]; rfl, by decide⟩

theorem writeLane_bound : (writeLane []).BoundFor shortWrite :=
  ⟨⟨by decide, rfl⟩, rfl, rfl, fun y hy => (List.not_mem_nil hy).elim, by decide⟩

/-- The values that wait for their commit slot in lane A. -/
def waitingValues : Host.Outcome State Fault Refusal → List (Option Bytes)
  | .next s => s.a.dict.reqs.map fun q => q.field.map StagedField.val
  | _ => []

theorem exec_shortWrite : waitingValues (exec (.txWrite .A) writeState) = [some []] := by
  obtain ⟨hbinds, hnew⟩ := writeLane_bound.binds
  obtain ⟨-, hcommit, -⟩ := Lane.execReq_new .A hbinds hnew
  rw [exec_request (by simp [transactions]) writeState_request (hcommit (by decide))]
  decide

/-- Refutes O43: of a WRITE (and of a WRITE_STAGED alike) the value is what its message carries of the declared bytes, where the
statement fills it up with zeros. The short WRITE leaves a field without bytes, and the statement claims two zero bytes. -/
theorem not_writesAreStagedAndWaitForTheirSlot : ¬ Obligations.WritesAreStagedAndWaitForTheirSlot := by
  unfold Obligations.WritesAreStagedAndWaitForTheirSlot
  rintro ⟨hall, -⟩
  obtain ⟨hwrite, -⟩ := hall writeState .A shortWrite (writeLane []) writeLane_bound
  have hpadded : waitingValues (exec (.txWrite .A) writeState) = [some [0, 0]] := by
    rw [hwrite writeState_request]
    decide
  exact absurd (exec_shortWrite.symm.trans hpadded) (by decide)

end Sys2Proof.Machine
end

section
/-! Subscriptions (R324, R325): their identifiers, and a session's publication of those that are due. -/
namespace Sys2Proof.Machine

/-! ### SUBSCRIBE (R324) -/

/-- A change of a session is what it makes of the session as it is. -/
theorem Lane.modSess_congr {l : Lane} {n : Nat} {f g : Session → Session} (h : f (l.sess n) = g (l.sess n)) :
    l.modSess n f = l.modSess n g := by
  refine congrArg (fun ss => ({ l with dict := { l.dict with sessions := ss } } : Lane)) (List.ext_getElem? fun k => ?_)
  simp only [lmod, List.getElem?_modify]
  by_cases hk : n = k
  · subst hk
    cases hs : l.dict.sessions[n]?
    case none => rfl
    case some y =>
      have hsess : l.sess n = y := by rw [Lane.sess, List.getD_eq_getElem?_getD, hs]; rfl
      rw [hsess] at h
      simp [h]
  · simp [hk]

/-- The lowest identifier that no subscription has. -/
def freeId (us : List Subscription) : Option Nat := (List.range 32).find? fun i => !us.any fun u => u.id == i

theorem freeId_free {us : List Subscription} {i : Nat} (h : freeId us = some i) :
    i < 32 ∧ (∀ u ∈ us, u.id ≠ i) ∧ ∀ j, j < i → ∃ u ∈ us, u.id = j := by
  obtain ⟨hfree, hlt, hlow⟩ := List.find?_range_eq_some.mp h
  exact ⟨List.mem_range.mp hlt, by simpa using hfree, by simpa using hlow⟩

/-- Fewer than 32 subscriptions leave an identifier free. -/
theorem exists_freeId {us : List Subscription} (h : us.length < 32) : ∃ i, freeId us = some i := by
  cases hi : freeId us
  case some i => exact ⟨i, rfl⟩
  case none =>
    have hused : List.range 32 ⊆ us.map Subscription.id := fun i hmem => by
      simpa using List.find?_eq_none.mp hi i hmem
    have hlen := (List.nodup_range.subperm hused).length_le
    rw [List.length_range, List.length_map] at hlen
    omega

/-- The subscription joins the others in the order of identifiers. -/
def insertSub (u : Subscription) (us : List Subscription) : List Subscription :=
  (us.filter fun y => decide (y.id < u.id)) ++ u :: us.filter fun y => decide (u.id < y.id)

theorem mem_insertSub {u y : Subscription} {us : List Subscription} (h : ∀ z ∈ us, z.id ≠ u.id) :
    y ∈ insertSub u us ↔ y ∈ us ∨ y = u := by
  simp only [insertSub, List.mem_append, List.mem_cons, List.mem_filter, decide_eq_true_eq]
  constructor
  · rintro (⟨hy, -⟩ | rfl | ⟨hy, -⟩)
    · exact .inl hy
    · exact .inr rfl
    · exact .inl hy
  · rintro (hy | rfl)
    · rcases Nat.lt_or_gt_of_ne (h y hy) with hlt | hgt
      · exact .inl ⟨hy, hlt⟩
      · exact .inr (.inr ⟨hy, hgt⟩)
    · exact .inr (.inl rfl)

/-- The subscription that a SUBSCRIBE asks for, under identifier `i` (Table 10-3). -/
def Lane.newSub (l : Lane) (i : Nat) (b : Bytes) : Subscription :=
  let oc := natAt b 3 1 == 1
  let ms := min 3600000 (max (if oc then 0 else 10) (natAt b 4 4))
  { id := i, idx := natAt b 0 2, sub := natAt b 2 1, onChange := oc, period := 20 * ms, last := l.slot - BitVec.ofNat 64 (20 * ms)
    lastVal := [], sent := false }

section
variable {l : Lane} (me : LaneId) {n tid : Nat} {b : Bytes}

theorem Lane.reqSubscribe_refused {e : Nat} (h : l.readCheck n (natAt b 0 2) (natAt b 2 1) = .error e) :
    l.reqSubscribe me n tid b = l.respond me n 6 e tid [] := by
  simp only [Lane.reqSubscribe, h]

variable {d : ObjDesc} (h : l.readCheck n (natAt b 0 2) (natAt b 2 1) = .ok d)
include h

theorem Lane.reqSubscribe_long (hlen : 1320 < (l.objRead (natAt b 0 2) (natAt b 2 1)).length) :
    l.reqSubscribe me n tid b = l.respond me n 6 0xA tid [] := by
  simp only [Lane.reqSubscribe, h, if_pos hlen]

variable (hlen : (l.objRead (natAt b 0 2) (natAt b 2 1)).length ≤ 1320)
include hlen

theorem Lane.reqSubscribe_full (hfull : 32 ≤ (l.sess n).subs.length ∨ 128 ≤ (l.dict.sessions.map fun y => y.subs.length).sum) :
    l.reqSubscribe me n tid b = l.respond me n 6 9 tid [] := by
  simp only [Lane.reqSubscribe, h, if_neg (Nat.not_lt.mpr hlen), if_pos hfull]

theorem Lane.reqSubscribe_takes (hsess : (l.sess n).subs.length < 32) (hall : (l.dict.sessions.map fun y => y.subs.length).sum < 128)
    {i : Nat} (hi : freeId (l.sess n).subs = some i) : l.reqSubscribe me n tid b =
      (l.modSess n fun y => { y with subs := insertSub (l.newSub i b) (l.sess n).subs }).respond me n 6 0 tid (leBytes 1 i) := by
  have hroom : ¬(32 ≤ (l.sess n).subs.length ∨ 128 ≤ (l.dict.sessions.map fun y => y.subs.length).sum) := by omega
  unfold freeId at hi
  simp only [Lane.reqSubscribe, h, if_neg (Nat.not_lt.mpr hlen), if_neg hroom, hi]
  exact congrArg (fun m : Lane => m.respond me n 6 0 tid (leBytes 1 i)) (Lane.modSess_congr rfl)

end

/-- A response after a change of its session that leaves it bound. -/
theorem Lane.modSess_respond_answers {l : Lane} {n : Nat} {f : Session → Session} (me : LaneId) (code st tid : Nat) (body : Bytes)
    (hn : n < l.dict.sessions.length) (hst : (f (l.sess n)).st = 2) :
    (l.modSess n f).Answers ((l.modSess n f).respond me n code st tid body) n code st tid body :=
  Lane.respond_answers me code st tid body false (by rwa [Lane.modSess_sessions_length])
    (by rw [Lane.sess_modSess_same f hn]; exact hst)

/-! ### UNSUBSCRIBE (R324) -/

/-- UNSUBSCRIBE names the identifier of a subscription, or all of them. -/
def unsubscribes (b : Bytes) (u : Subscription) : Bool := natAt b 0 1 == 0xFF || u.id == natAt b 0 1

theorem Lane.reqUnsubscribe_removes (l : Lane) (me : LaneId) (n tid : Nat) (b : Bytes) : l.reqUnsubscribe me n tid b =
    (l.modSess n fun y => { y with subs := y.subs.filter fun u => !unsubscribes b u }).respond me n 7 0 tid
      (leBytes 1 ((l.sess n).subs.filter (unsubscribes b)).length) := by
  simp only [Lane.reqUnsubscribe, Bool.not_not]
  rfl

/-! ### Publication (R325) -/

/-- A subscription after its slot's publication: a due one has been sent. -/
def Lane.subPublished (l : Lane) (u : Subscription) : Subscription :=
  if l.subDue u then { u with last := l.slot, sent := true, lastVal := if u.onChange then l.objRead u.idx u.sub else [] } else u

/-- A session that has published: what did not fit in the message is deferred. -/
def Lane.sessPublished (l : Lane) (defer : List PubItem) (y : Session) : Session :=
  { y with subs := y.subs.map l.subPublished, defer := defer, published := true }

section
variable {l : Lane} (me : LaneId) {n : Nat}

theorem Lane.publishSession_done (h : (l.sess n).published = true) : l.publishSession me n = l := if_pos (.inr h)

variable (hst : (l.sess n).st = 2) (hnot : (l.sess n).published = false)
include hst hnot

/-- A bound session publishes once in a slot; without an item no message leaves. -/
theorem Lane.publishSession_once : ∃ defer, l.publishSession me n = l.modSess n (l.sessPublished defer) ∨
    ∃ pay, l.publishSession me n = (l.modSess n (l.sessPublished defer)).sendPayload me n false pay := by
  have hsubs (defer : List PubItem) : (l.modSess n fun y =>
      { y with subs := (l.sess n).subs.map l.subPublished, defer := defer, published := true }) =
      l.modSess n (l.sessPublished defer) := Lane.modSess_congr rfl
  rw [Lane.publishSession, if_neg (by simp [hst, hnot])]
  dsimp only
  split
  · exact ⟨_, .inl (hsubs _)⟩
  · exact ⟨_, .inr ⟨_, congrArg (fun m : Lane => m.sendPayload me n false _) (hsubs _)⟩⟩

theorem Lane.publishSession_sess (hn : n < l.dict.sessions.length) :
    ((l.publishSession me n).sess n).published = true ∧ (l.publishSession me n).dict.vals = l.dict.vals ∧
    ((l.publishSession me n).sess n).subs = (l.sess n).subs.map l.subPublished := by
  obtain ⟨defer, hm | ⟨pay, hm⟩⟩ := Lane.publishSession_once me hst hnot
  all_goals
    have hsess := Lane.sess_modSess_same (l.sessPublished defer) hn
    rw [hm]
  · rw [hsess]
    exact ⟨rfl, rfl, rfl⟩
  · obtain ⟨-, hdict, -, hsame⟩ := (l.modSess n (l.sessPublished defer)).sendPayload_frame me n false pay
    have hkept := (hsame n).trans (congrArg Session.unsent hsess)
    exact ⟨congrArg Session.published hkept, (congrArg Dict.vals hdict :), congrArg Session.subs hkept⟩

end

/-! ### The statement on subscriptions -/

/-- Settles O44: SUBSCRIBE by the lemmas of `Lane.reqSubscribe` and of `freeId`, UNSUBSCRIBE by `Lane.reqUnsubscribe_removes`, the
publication by those of `Lane.publishSession`. -/
theorem subscriptionsPublishWhenDue : Obligations.SubscriptionsPublishWhenDue := by
  unfold Obligations.SubscriptionsPublishWhenDue
  refine ⟨fun s x r m hbound => ?requests, fun s x n hworking => ?due, fun s x n hworking hdone => ?done⟩
  case requests =>
    intro n tid b oc ms
    obtain ⟨hbinds, hnew⟩ := hbound.binds
    obtain ⟨-, hst, -⟩ := hbound
    obtain ⟨-, -, hsubscribe, hunsubscribe, -⟩ := Lane.execReq_new x hbinds hnew
    refine ⟨fun hrequest => ?subscribe, fun hrequest => ?unsubscribe⟩
    case subscribe =>
      have hn := hrequest.sess_lt
      have hanswers {st : Nat} (h : m.reqSubscribe x n tid b = m.respond x n 6 st tid []) :
          m.Answers (m.reqSubscribe x n tid b) n 6 st tid [] :=
        h ▸ Lane.respond_answers x 6 st tid [] false hn hst
      refine ⟨_, exec_request (by simp [transactions]) hrequest (hsubscribe hrequest.code),
        fun e hrefused => hanswers (Lane.reqSubscribe_refused x hrefused), fun d hread =>
          ⟨fun hlong => hanswers (Lane.reqSubscribe_long x hread hlong), fun hlen =>
            ⟨fun hfull => hanswers (Lane.reqSubscribe_full x hread hlen hfull), fun hsess hall => ?_⟩⟩⟩
      obtain ⟨i, hi⟩ := exists_freeId hsess
      obtain ⟨hlt, hfree, hlow⟩ := freeId_free hi
      refine ⟨i, hlt, hfree, hlow, insertSub (m.newSub i b) (m.sess n).subs, ?_, fun u => mem_insertSub hfree⟩
      rw [Lane.reqSubscribe_takes x hread hlen hsess hall hi]
      exact Lane.modSess_respond_answers x 6 0 tid _ hn hst
    case unsubscribe =>
      refine ⟨_, exec_request (by simp [transactions]) hrequest
        ((hunsubscribe hrequest.code).trans (Lane.reqUnsubscribe_removes m x n tid b)), ?_⟩
      exact Lane.modSess_respond_answers x 7 0 tid _ hrequest.sess_lt hst
  case due =>
    intro m hn hst hnot
    exact ⟨_, laneWhen_to hworking rfl, Lane.publishSession_sess x hst hnot hn⟩
  case done =>
    exact laneWhen_to hworking (Lane.publishSession_done x hdone)

end Sys2Proof.Machine
end

section
/-! Releases (R348, R458 to R460, R476): the start registers of the arbiter, and a lane that loads its image and tests itself. -/
namespace Sys2Proof.Machine

/-! ### The arbiter -/

/-- The start registers show what the backup domain has recorded. -/
theorem Backup.startRegs_fields (b : Backup) (m : RegMap) :
    fget (b.startRegs m) f_ARB_RSTCAUSE_HOLDS = b.holds % 16 ∧ fget (b.startRegs m) f_ARB_RSTHOLD_HOLDSEC = b.holdSec % 2 ^ 32 ∧
    fget (b.startRegs m) f_ARB_RSTCAUSE_RESETN = b.wasReset.toNat ∧ fget (b.startRegs m) f_ARB_RSTCAUSE_POR = b.wasPor.toNat ∧
    fget (b.startRegs m) f_ARB_RSTCAUSE_VDDARB = b.wasVddArb.toNat ∧
    fget (b.startRegs m) f_ARB_RSTCAUSE_ARBFAULT = b.wasFault.toNat := by
  have hbit (c : Bool) : c.toNat % 2 ^ 1 = c.toNat := by cases c <;> rfl
  unfold Backup.startRegs fbool
  refine ⟨?_, ?_, ?_, ?_, ?_, ?_⟩
  all_goals simp (disch := decide) only [fget_fset_off, fget_fset_same]
  · rfl
  · rfl
  all_goals exact hbit _

/-- At the arbiter's release a lane is as after its reset, up to its MRAM. -/
theorem State.lane_releaseArbiter (s : State) (x : LaneId) :
    ∃ n, s.releaseArbiter.lane x = { (s.lane x).afterReset x laneReset with nvm := n } := by
  cases x
  all_goals
    simp only [State.releaseArbiter, State.onLanes, State.lane]
    split <;> exact ⟨_, rfl⟩

/-! ### A lane's start-up -/

theorem Lane.rj_setRj (l : Lane) {n : Nat} (h : n < 8) : (l.setRj n).rj = n :=
  (fget_fset_same _ f_LCTL_RJSTAT_RJSTATE _ (by decide) (by decide)).trans (Nat.mod_eq_of_lt h)

/-- What the image check and the self-test leave of a lane. -/
def Lane.startView (l : Lane) : LaneLife × KeyUnit × KeyAgreed × Nvm := (l.life, l.key, l.keyA, l.nvm)

theorem Lane.foldl_startView {f : Lane → Nat → Lane} (h : ∀ m n, (f m n).startView = m.startView) (ns : List Nat) (l : Lane) :
    (ns.foldl f l).startView = l.startView :=
  List.foldlRecOn (motive := fun m : Lane => m.startView = l.startView) ns f rfl fun m hm n _ => (h m n).trans hm

theorem Lane.loadDict_startView (l : Lane) (bs : Bytes) : (l.loadDict bs).startView = l.startView := by
  unfold Lane.loadDict
  refine (Lane.foldl_startView (fun m n => ?_) _ _).trans rfl
  dsimp only
  split <;> rfl

theorem Lane.loadStored_startView (l : Lane) : l.loadStored.startView = l.startView := by
  unfold Lane.loadStored
  split
  · exact l.loadDict_startView _
  · rfl

theorem Lane.selfTest_startView (l : Lane) (me : LaneId) (item : Nat) (halt : Bool) (now : Nat) :
    (l.selfTest me item halt now).startView = l.startView := by
  unfold Lane.selfTest
  dsimp only
  split <;> rfl

/-- Failing images end the start-up in HALTED with their cause. -/
theorem Lane.raiseUce_halts (l : Lane) : ((l.raiseUce 7).setRj 6).rj = 6 ∧
    fget ((l.raiseUce 7).setRj 6).regs f_LCTL_RJSTAT_UCECAUSE = 7 :=
  ⟨Lane.rj_setRj _ (by decide),
    (fget_fset_apart _ _ _ _ (by decide) (by decide) (by decide)).trans (l.raiseUce_cause (by decide))⟩

/-- With 1 GiB of DRAM the first failing item decides the self-test. -/
theorem Lane.selfTest_ends (l : Lane) {me : LaneId} (item : Nat) (halt : Bool) (now : Nat) (h : 4 ≤ (Config.dramSize me).toNat) :
    (l.selfTest me item halt now).rj = (if item ≠ 0 ∨ halt = true then 6 else 2) ∧
    (l.selfTest me item halt now).rep.selfOk = decide (item = 0) := by
  have hsize : decide ((Config.dramSize me).toNat < 4) = false := by simpa using h
  unfold Lane.selfTest
  by_cases hitem : item = 0
  · subst hitem
    simp only [hsize, ne_eq, not_true_eq_false, Bool.false_eq_true, or_self, if_false, false_or]
    cases halt
    · exact ⟨Lane.rj_setRj (n := 2) _ (by decide), rfl⟩
    · exact ⟨Lane.rj_setRj (n := 6) _ (by decide), rfl⟩
  · simp only [hitem, ne_eq, not_false_eq_true, true_or, if_true, decide_false]
    exact ⟨Lane.rj_setRj (n := 6) _ (by decide), trivial⟩

/-- Steps 1 and 2 of a start-up leave the lane up with KEY ready and the generations of its MRAM. -/
theorem Lane.fusesLoaded_startView (l : Lane) (me : LaneId) (ticks : Nat) : ∃ k : KeyUnit,
    (l.fusesLoaded me ticks).startView =
      (.up, k, { gens := l.nvm.gens, enrols := [], mramDue := none, enrolEnd := none }, l.nvm) ∧ k.ready = true :=
  ⟨_, rfl, rfl⟩

theorem Lane.startUp_failed {l : Lane} {me : LaneId} {ticks : Nat} (item : Nat) (halt : Bool)
    (h : (l.fusesLoaded me ticks).loadStored.imageOk 1 = false ∨ (l.fusesLoaded me ticks).loadStored.imageOk 2 = false) :
    l.startUp me item halt ticks = ((l.fusesLoaded me ticks).loadStored.raiseUce 7).setRj 6 :=
  if_neg (by rcases h with h | h <;> simp [h])

theorem Lane.startUp_tested {l : Lane} {me : LaneId} {ticks : Nat} (item : Nat) (halt : Bool)
    (h1 : (l.fusesLoaded me ticks).loadStored.imageOk 1 = true) (h2 : (l.fusesLoaded me ticks).loadStored.imageOk 2 = true) :
    l.startUp me item halt ticks = (l.fusesLoaded me ticks).loadStored.selfTest me item halt ticks :=
  if_pos (by simp [h1, h2])

/-- However a start-up ends, the lane is up with what step 2 gave it. -/
theorem Lane.startUp_startView (l : Lane) (me : LaneId) (item : Nat) (halt : Bool) (ticks : Nat) :
    (l.startUp me item halt ticks).startView = (l.fusesLoaded me ticks).startView := by
  refine Eq.trans ?_ (l.fusesLoaded me ticks).loadStored_startView
  unfold Lane.startUp
  dsimp only
  split
  · exact Lane.selfTest_startView _ me item halt ticks
  · rfl

/-! ### The obligation -/

theorem exec_laneRelease {s : State} {x : LaneId} (h : s.canRelease x = true) (item : Nat) : exec (.laneRelease x item) s =
    .next (s.setLane x (if s.bak.active && s.bak.policy != 0 then
      ({ (s.lane x).locksUp with life := .loading, ticks := s.arb.ticks } : Lane).setRj 1
      else (s.lane x).startUp x item (s.haltsAt x) s.arb.ticks)) := by
  change Host.Outcome.next (if !s.canRelease x then s else _) = _
  rw [if_neg (by simp [h])]
  rfl

/-- Settles O32: the arbiter by `Backup.startRegs_fields` and `State.lane_releaseArbiter`, a lane by the two ends of
`Lane.startUp`. -/
theorem releasesStartArbiterAndLanes : Obligations.ReleasesStartArbiterAndLanes := by
  unfold Obligations.ReleasesStartArbiterAndLanes
  refine ⟨fun s hreset hhold => ?arbiter, fun s x item hrelease hactive hpolicy => ?withheld,
    fun s x item hrelease hkeys => ?starts⟩
  case arbiter =>
    let b : Backup := { s.bak with holds := if s.bak.wasReset then min 15 (s.bak.holds + 1) else s.bak.holds }
    obtain ⟨hholds, hsec, hresetn, hpor, hvdd, hfault⟩ := b.startRegs_fields []
    refine ⟨s.releaseArbiter, congrArg Host.Outcome.next (if_pos (by simp [hreset, hhold])), rfl, rfl,
      Arb.atDefaults_of_eq rfl rfl rfl, rfl, rfl, rfl, hholds, hsec, hresetn, hpor, hvdd, hfault, rfl, rfl, rfl, rfl, rfl, rfl,
      fun x => ?_⟩
    obtain ⟨n, hlane⟩ := s.lane_releaseArbiter x
    rw [hlane]
    exact ⟨rfl, rfl⟩
  case withheld =>
    have hwaits : (s.bak.active && s.bak.policy != 0) = true := by simp [hactive, hpolicy]
    exact ⟨({ (s.lane x).locksUp with life := .loading, ticks := s.arb.ticks } : Lane).setRj 1,
      by rw [exec_laneRelease hrelease item, if_pos hwaits], rfl, Lane.rj_setRj _ (by decide), rfl, rfl⟩
  case starts =>
    intro l m
    obtain ⟨k, hview, hready⟩ := l.fusesLoaded_startView x s.arb.ticks
    have hend := (l.startUp_startView x item (s.haltsAt x) s.arb.ticks).trans hview
    simp only [Lane.startView, Prod.mk.injEq] at hend
    obtain ⟨hlife, hkey, hagreed, hnvm⟩ := hend
    have hserves : ¬(s.bak.active && s.bak.policy != 0) = true := by rcases hkeys with h | h <;> simp [h]
    refine ⟨l.startUp x item (s.haltsAt x) s.arb.ticks, by rw [exec_laneRelease hrelease item, if_neg hserves], hlife,
      by rw [hkey, hready], by rw [hagreed], hnvm, fun hfails => ?_, fun h1 h2 hsize => ?_⟩
    · rw [Lane.startUp_failed item _ hfails]
      exact m.raiseUce_halts
    · rw [Lane.startUp_tested item _ h1 h2]
      exact m.selfTest_ends item _ _ hsize

end Sys2Proof.Machine
end

section
/-! Commits and retags of the images in MRAM (R350, R467 to R469): which record a store leaves active, and what a commit and a
retag leave of the record and the image before them. -/
namespace Sys2Proof.Machine

/-! ### The records of a class -/

/-- The active record stands in the slot that is named with it. -/
theorem ImageClass.activeSlot_cases (c : ImageClass) : (c.activeSlot = none ∧ c.rec0 = none ∧ c.rec1 = none) ∨
    (∃ q, c.activeSlot = some (false, q) ∧ c.rec0 = some q) ∨ (∃ q, c.activeSlot = some (true, q) ∧ c.rec1 = some q) := by
  unfold ImageClass.activeSlot
  rcases c.rec0 with _ | a <;> rcases c.rec1 with _ | b
  · simp
  · simp
  · simp
  · by_cases hlt : a.cseq.toNat < b.cseq.toNat <;> simp [hlt]

theorem ImageClass.active_of_second {c : ImageClass} {a b : CommitRec} (h0 : c.rec0 = some a) (h1 : c.rec1 = some b)
    (hlt : a.cseq.toNat < b.cseq.toNat) : c.active = some b := by
  simp [ImageClass.active, ImageClass.activeSlot, h0, h1, hlt]

theorem ImageClass.active_of_first {c : ImageClass} {a b : CommitRec} (h0 : c.rec0 = some a) (h1 : c.rec1 = some b)
    (hlt : b.cseq.toNat < a.cseq.toNat) : c.active = some a := by
  simp [ImageClass.active, ImageClass.activeSlot, h0, h1, hlt.le]

theorem ImageClass.active_of_slot {c : ImageClass} {b : Bool} {q : CommitRec} (h : c.activeSlot = some (b, q)) :
    c.active = some q := by
  rw [ImageClass.active, h]
  rfl

theorem ImageClass.cseq_of_active {c : ImageClass} {q : CommitRec} (h : c.active = some q) : c.cseq = q.cseq := by
  rw [ImageClass.cseq, h]

/-- The record that a store makes, naming the bank that does not hold the active image. -/
def ImageClass.nextRec (c : ImageClass) (cls : Nat) (cseq id : BitVec 32) (g : Gens) (slot : BitVec 64) (bs : Bytes) :
    CommitRec where
  cls := cls
  bank := match c.activeSlot with | some (_, r) => !r.bank | none => false
  cseq := cseq
  len := bs.length
  imageId := id
  gSto := g.sto
  gLeaf := g.leafGen 4 cls
  tag := imageTag g cls bs
  slot := slot

theorem ImageClass.nextRec_tag (c : ImageClass) (cls : Nat) (cseq id : BitVec 32) (g : Gens) (slot : BitVec 64) (bs : Bytes) :
    (c.nextRec cls cseq id g slot bs).tag = imageTag g cls bs := by
  simp only [ImageClass.nextRec]

/-- The class with an image in one of its banks. -/
def ImageClass.putImage (c : ImageClass) (bank : Bool) (bs : Bytes) : ImageClass :=
  if bank then { c with bankB := bs } else { c with bankA := bs }

theorem ImageClass.putImage_records (c : ImageClass) (bank : Bool) (bs : Bytes) :
    (c.putImage bank bs).rec0 = c.rec0 ∧ (c.putImage bank bs).rec1 = c.rec1 := by
  cases bank <;> exact ⟨rfl, rfl⟩

theorem ImageClass.image_putImage_same (c : ImageClass) (r : CommitRec) (bs : Bytes) : (c.putImage r.bank bs).image r = bs := by
  cases h : r.bank <;> simp [ImageClass.putImage, ImageClass.image, h]

theorem ImageClass.image_putImage_other (c : ImageClass) {r q : CommitRec} (bs : Bytes) (h : r.bank = !q.bank) :
    (c.putImage r.bank bs).image q = c.image q := by
  cases hq : q.bank <;> simp [ImageClass.putImage, ImageClass.image, h, hq]

section
variable {c : ImageClass} {q : CommitRec} (cls : Nat) (cseq id : BitVec 32) (g : Gens) (slot : BitVec 64) (bs : Bytes)

theorem ImageClass.nextRec_bank {b : Bool} (h : c.activeSlot = some (b, q)) : (c.nextRec cls cseq id g slot bs).bank = !q.bank := by
  simp [ImageClass.nextRec, h]

theorem ImageClass.store_first (h : ∀ p, c.activeSlot ≠ some (false, p)) : let r := c.nextRec cls cseq id g slot bs
    c.store cls cseq id g slot bs = { c.putImage r.bank bs with rec0 := some r } := by
  rcases c.activeSlot_cases with ⟨hslot, -⟩ | ⟨p, hslot, -⟩ | ⟨p, hslot, -⟩
  · simp [ImageClass.store, ImageClass.nextRec, ImageClass.putImage, hslot]
  · exact absurd hslot (h p)
  · simp [ImageClass.store, ImageClass.nextRec, ImageClass.putImage, hslot]

theorem ImageClass.store_second (h : c.activeSlot = some (false, q)) : let r := c.nextRec cls cseq id g slot bs
    c.store cls cseq id g slot bs = { c.putImage r.bank bs with rec1 := some r } := by
  simp [ImageClass.store, ImageClass.nextRec, ImageClass.putImage, h]

end

/-- A store makes its record active over its image, and leaves the record that was active and that record's image. -/
theorem ImageClass.store_keeps_active {c : ImageClass} (hnext : c.cseq.toNat + 1 < 2 ^ 32) (cls : Nat) (id : BitVec 32) (g : Gens)
    (slot : BitVec 64) (bs : Bytes) :
    let d := c.store cls (c.cseq + 1) id g slot bs
    let r := c.nextRec cls (c.cseq + 1) id g slot bs
    d.active = some r ∧ r.cseq.toNat = c.cseq.toNat + 1 ∧ d.image r = bs ∧
      ∀ q, c.active = some q → d.image q = c.image q ∧ (d.rec0 = some q ∨ d.rec1 = some q) := by
  intro d r
  have hrise : r.cseq.toNat = c.cseq.toNat + 1 := (BitVec.toNat_add _ _).trans (Nat.mod_eq_of_lt hnext)
  have hnewer {b : Bool} {q : CommitRec} (h : c.activeSlot = some (b, q)) : q.cseq.toNat < r.cseq.toNat := by
    rw [hrise, ImageClass.cseq_of_active (ImageClass.active_of_slot h)]
    exact Nat.lt_succ_self _
  have hsame {b : Bool} {q p : CommitRec} (h : c.activeSlot = some (b, q)) (hp : c.active = some p) : p = q :=
    Option.some.inj (hp.symm.trans (ImageClass.active_of_slot h))
  obtain ⟨h0, h1⟩ := c.putImage_records r.bank bs
  have hnew := c.image_putImage_same r bs
  have hold {b : Bool} {q : CommitRec} (h : c.activeSlot = some (b, q)) : (c.putImage r.bank bs).image q = c.image q :=
    c.image_putImage_other bs (ImageClass.nextRec_bank _ _ _ _ _ _ h)
  rcases c.activeSlot_cases with ⟨hslot, -, hrec⟩ | ⟨q, hslot, hrec⟩ | ⟨q, hslot, hrec⟩
  · have hd : d = _ := ImageClass.store_first _ _ _ _ _ _ (by simp [hslot])
    have hactive : ({ c.putImage r.bank bs with rec0 := some r } : ImageClass).active = some r := by
      simp [ImageClass.active, ImageClass.activeSlot, h1, hrec]
    rw [hd]
    exact ⟨hactive, hrise, hnew, fun p hp => absurd hp (by simp [ImageClass.active, hslot])⟩
  · have hd : d = _ := ImageClass.store_second _ _ _ _ _ _ hslot
    rw [hd]
    refine ⟨ImageClass.active_of_second (h0.trans hrec) rfl (hnewer hslot), hrise, hnew, fun p hp => ?_⟩
    obtain rfl := hsame hslot hp
    exact ⟨hold hslot, .inl (h0.trans hrec)⟩
  · have hd : d = _ := ImageClass.store_first _ _ _ _ _ _ (by simp [hslot])
    rw [hd]
    refine ⟨ImageClass.active_of_first rfl (h1.trans hrec) (hnewer hslot), hrise, hnew, fun p hp => ?_⟩
    obtain rfl := hsame hslot hp
    exact ⟨hold hslot, .inr (h1.trans hrec)⟩

/-! ### Commits that start -/

/-- The lane with a commit of its dictionary image asked for. -/
def Lane.queueDict (l : Lane) : Lane := { l with nvm := { l.nvm with dict := { l.nvm.dict with queued := true } } }

theorem Lane.regCommand_commit (l : Lane) : l.regCommand f_NVM_CMD_COMMIT.key 1 = l.queueDict := rfl

theorem Nvm.cls_setCls (n : Nvm) (c : Nat) (x : ImageClass) : (n.setCls c x).cls c = x := by
  unfold Nvm.setCls Nvm.cls
  split <;> rfl

/-- The class with a commit that runs or waits, its records and banks unchanged. -/
def ImageClass.withRun (c : ImageClass) (q : Bool) (b : Option CommitRun) : ImageClass := { c with queued := q, busy := b }

theorem Lane.commitStart_eq (l : Lane) (c : Nat) (bs : Bytes) :
    ∃ q b, l.commitStart c bs = { l with nvm := l.nvm.setCls c ((l.nvm.cls c).withRun q b) } := by
  unfold Lane.commitStart
  dsimp only
  split
  · exact ⟨_, _, rfl⟩
  · refine ⟨(l.nvm.cls c).queued, (l.nvm.cls c).busy, ?_⟩
    unfold Nvm.setCls Nvm.cls
    split <;> rfl

/-- The lane after the first class has had its turn to start a commit. -/
def Lane.dictCommitStart (l : Lane) : Lane :=
  if l.nvm.dict.queued && l.nvm.dict.busy.isNone then l.commitStart 1 l.dictImage else l

/-- The lane after the second class has had its turn. -/
def Lane.logicCommitStart (l : Lane) : Lane := match l.lseq.image with | some im => l.commitStart 2 im.raw | none => l

theorem Lane.commitsStart_turns {l : Lane} (h : l.trip = none) : l.commitsStart = l.dictCommitStart.logicCommitStart :=
  if_neg (by simp [h])

theorem Lane.dictCommitStart_due {l : Lane} (hq : l.nvm.dict.queued = true) (hb : l.nvm.dict.busy = none) :
    l.dictCommitStart = { l with nvm := { l.nvm with
      dict := l.nvm.dict.withRun false (some { start := l.slot, image := l.dictImage, step := 1 }) } } := by
  have hcls : l.nvm.cls 1 = l.nvm.dict := rfl
  simp only [Lane.dictCommitStart, Lane.commitStart, hcls, hq, hb, Option.isNone_none, Bool.and_self, if_true]
  rfl

theorem Lane.dictCommitStart_idle {l : Lane} (h : l.nvm.dict.queued = false ∨ l.nvm.dict.busy ≠ none) : l.dictCommitStart = l :=
  if_neg (by rcases h with h | h <;> simp [h])

theorem Lane.dictCommitStart_eq (l : Lane) : ∃ q b,
    l.dictCommitStart = { l with nvm := { l.nvm with dict := l.nvm.dict.withRun q b } } := by
  by_cases hq : l.nvm.dict.queued = true
  · by_cases hb : l.nvm.dict.busy = none
    · exact ⟨_, _, Lane.dictCommitStart_due hq hb⟩
    · exact ⟨_, _, Lane.dictCommitStart_idle (.inr hb)⟩
  · exact ⟨_, _, Lane.dictCommitStart_idle (.inl (by simpa using hq))⟩

/-- Once the first class has had its turn, a start concerns the logic image alone. -/
theorem Lane.commitsStart_logic {l : Lane} (h : l.trip = none) : ∃ q b, l.commitsStart =
    { l.dictCommitStart with nvm := { l.dictCommitStart.nvm with logic := l.dictCommitStart.nvm.logic.withRun q b } } := by
  rw [Lane.commitsStart_turns h]
  unfold Lane.logicCommitStart
  split
  · exact l.dictCommitStart.commitStart_eq 2 _
  · exact ⟨_, _, rfl⟩

/-- The start of commits changes what runs and what waits in the two classes, nothing else. -/
theorem Lane.commitsStart_eq (l : Lane) : ∃ qd bd ql bl,
    l.commitsStart = { l with nvm := { l.nvm with dict := l.nvm.dict.withRun qd bd, logic := l.nvm.logic.withRun ql bl } } := by
  by_cases h : l.trip = none
  · obtain ⟨qd, bd, hdict⟩ := l.dictCommitStart_eq
    obtain ⟨ql, bl, hlogic⟩ := Lane.commitsStart_logic h
    rw [hdict] at hlogic
    exact ⟨_, _, _, _, hlogic⟩
  · exact ⟨_, _, _, _, if_pos (Option.isSome_iff_ne_none.mpr h)⟩

theorem Lane.commitsStart_dict {l : Lane} (h : l.trip = none) : l.commitsStart.nvm.dict = l.dictCommitStart.nvm.dict := by
  obtain ⟨q, b, hlogic⟩ := Lane.commitsStart_logic h
  rw [hlogic]

theorem Lane.commitsStart_frame (l : Lane) (n : Nvm) : { l.commitsStart with nvm := n } = { l with nvm := n } := by
  obtain ⟨qd, bd, ql, bl, h⟩ := l.commitsStart_eq
  rw [h]

/-- The start of commits keeps the records and the banks of both classes. -/
theorem Lane.commitsStart_cls (l : Lane) (c : Nat) : ∃ q b, l.commitsStart.nvm.cls c = (l.nvm.cls c).withRun q b := by
  obtain ⟨qd, bd, ql, bl, h⟩ := l.commitsStart_eq
  rw [h]
  unfold Nvm.cls
  split
  · exact ⟨_, _, rfl⟩
  · exact ⟨_, _, rfl⟩

/-! ### The end of a commit -/

/-- The registers at the end of a commit that took `ms`. -/
def commitRegs (m : RegMap) (ms : Nat) : RegMap :=
  fmax (fsat (fflag m f_NVM_STAT_COMMITDONE) f_NVM_CTIME_LASTTIME ms) f_NVM_CTIME_MAXTIME ms

theorem fget_commitRegs_done (m : RegMap) (ms : Nat) : fget (commitRegs m ms) f_NVM_STAT_COMMITDONE = 1 := by
  rw [commitRegs, fmax, fget_fset_other _ _ _ _ (by decide), fsat, fget_fset_other _ _ _ _ (by decide)]
  exact fget_fflag_same m rfl (by decide)

/-- A commit that neither a retag nor a trip holds up stores its image. -/
theorem Lane.commitDone_eq {l : Lane} {c : Nat} {b : CommitRun} (hb : (l.nvm.cls c).busy = some b) (hretag : l.nvm.retag = none)
    (htrip : l.trip = none) (ms : Nat) :
    let x := l.nvm.cls c
    ∃ n, l.commitDone c ms = { l with nvm := n, regs := commitRegs l.regs ms } ∧
      n.cls c = { x.store c (x.cseq + 1) (imageIdOf c b.image) l.keyA.gens b.start b.image with busy := none } := by
  unfold Lane.commitDone
  simp only [hb, hretag, htrip, Option.isSome_none, Bool.or_self, Bool.false_eq_true, if_false]
  exact ⟨_, rfl, Nvm.cls_setCls _ _ _⟩

/-! ### A retag -/

/-- A retag leaves one record: the active one with the tag and the generations of the new leaf. -/
theorem ImageClass.retagged_active {c : ImageClass} {q : CommitRec} (h : c.active = some q) (cls : Nat) (g : Gens) :
    (c.retagged cls g).active = some { q with
      cseq := q.cseq + 1, gSto := g.sto, gLeaf := g.leafGen 4 cls, tag := imageTag g cls (c.image q) } := by
  rcases c.activeSlot_cases with ⟨hslot, -⟩ | ⟨p, hslot, -⟩ | ⟨p, hslot, -⟩
  · simp [ImageClass.active, hslot] at h
  all_goals
    obtain rfl : p = q := Option.some.inj ((ImageClass.active_of_slot hslot).symm.trans h)
    simp only [ImageClass.retagged, hslot]
    rfl

/-- The generations in MRAM after a retag under the generations `g`. -/
def Gens.retagged (n g : Gens) : Gens := { n with
  sto := g.sto
  leaf := mset (fun _ => 0) (mset (fun _ => 0) n.leaf (65536 * 4 + 1) (g.leafGen 4 1)) (65536 * 4 + 2) (g.leafGen 4 2) }

theorem Lane.retagDone_eq {l : Lane} {r : Retag} (h : l.nvm.retag = some r) : ∃ n,
    l.retagDone false = { l with nvm := n } ∧ n.retag = none ∧ n.gens = l.nvm.gens.retagged r.target ∧
      n.dict = if r.dict then l.nvm.dict.retagged 1 r.target else l.nvm.dict := by
  unfold Lane.retagDone
  simp only [h, Bool.false_eq_true, if_false]
  refine ⟨_, rfl, rfl, ?_⟩
  cases r.dict <;> cases r.logic <;> exact ⟨rfl, rfl⟩

/-- Settles O34: the start of a commit by the lemmas of `Lane.commitsStart`, its end by `ImageClass.store_keeps_active`, a retag by
`ImageClass.retagged_active`. That a retag's record takes the next CSEQ is the model's choice (log 136). -/
theorem commitsLeaveTheOlderImage : Obligations.CommitsLeaveTheOlderImage := by
  unfold Obligations.CommitsLeaveTheOlderImage
  refine ⟨fun s x hmember hrun htrip => ?command, fun s x c ms b _ hb hretag htrip hnext => ?done,
    fun s x r hretag htamper => ?retag⟩
  case command =>
    intro l
    have hdict : l.queueDict.commitsStart.nvm.dict = l.queueDict.dictCommitStart.nvm.dict := Lane.commitsStart_dict htrip
    refine ⟨l.queueDict.commitsStart, laneWhen_to (by simp [hmember, hrun, htrip]) (by rw [Lane.regCommand_commit]),
      l.queueDict.commitsStart_frame l.nvm, fun hidle => ?_, fun hbusy => ?_⟩
    · rw [hdict, Lane.dictCommitStart_due (l := l.queueDict) rfl hidle]
      rfl
    · rw [hdict, Lane.dictCommitStart_idle (l := l.queueDict) (.inr hbusy)]
      rfl
  case done =>
    intro l
    obtain ⟨n, hdone, hcls⟩ := Lane.commitDone_eq hb hretag htrip ms
    obtain ⟨q, b', hstart⟩ := (l.commitDone c ms).commitsStart_cls c
    obtain ⟨qd, bd, ql, bl, hframe⟩ := (l.commitDone c ms).commitsStart_eq
    have hregs : (l.commitDone c ms).commitsStart.regs = commitRegs l.regs ms := by rw [hframe, hdone]
    obtain ⟨hactive, hcseq, himage, hkeeps⟩ :=
      ImageClass.store_keeps_active hnext c (imageIdOf c b.image) l.keyA.gens b.start b.image
    let k := l.nvm.cls c
    refine ⟨(l.commitDone c ms).commitsStart, k.nextRec c (k.cseq + 1) (imageIdOf c b.image) l.keyA.gens b.start b.image,
      laneNext_to (if_pos (by rw [hb]; rfl)), ?_, ?_⟩
    · rw [hframe, hdone]
    · rw [hstart, hdone, hcls]
      refine ⟨hactive, hcseq, rfl, ImageClass.nextRec_tag _ _ _ _ _ _ _, himage, ?_, hkeeps⟩
      rw [← hdone, hregs]
      exact fget_commitRegs_done l.regs ms
  case retag =>
    intro l
    obtain ⟨n, heq, hdone, hgens, hdict⟩ := Lane.retagDone_eq hretag
    refine ⟨n, laneNext_to (by rw [htamper]; exact heq), hdone, (congrArg Gens.sto hgens :), (congrArg Gens.dev hgens :),
      (congrArg Gens.leaf hgens :), fun hyes q hq => ?_, fun hno => hdict.trans (if_neg (by simp [hno]))⟩
    rw [hdict, hyes]
    exact ImageClass.retagged_active hq 1 r.target

end Sys2Proof.Machine
end

section
/-! The host's key jobs (R338 to R342, R353): what the end of a job writes, and each operation of KEY_CMD. -/
namespace Sys2Proof.Machine

/-! ### The end of a job -/

/-- The registers with the status of a job that ended. -/
def keyStatus (m : RegMap) (st : Nat) : RegMap := fset (fset m f_KEY_STAT_LASTSTAT st) f_KEY_RESULT_STATUS st

/-- The registers at the end of a host job: its status, and what an orphaned or a refused one counts. -/
def hostEndRegs (m : RegMap) (st : Nat) : RegMap :=
  if st = 1 then fflag (fbump (keyStatus m st) f_KEY_CNT_ORPHCNT) f_KEY_STAT_ORPHAN
  else if st = 2 then fflag (fbump (keyStatus m st) f_KEY_CNT_TAMPREF) f_KEY_STAT_TAMPABORT
  else keyStatus m st

theorem Lane.hostEnds_eq (l : Lane) (st : Nat) :
    l.hostEnds st = { l with key := { l.key with job := none }, regs := hostEndRegs l.regs st } := by
  unfold Lane.hostEnds hostEndRegs
  dsimp only
  split
  · rfl
  · split <;> rfl

theorem Lane.hostEnds_regs (l : Lane) (st : Nat) : (l.hostEnds st).regs = hostEndRegs l.regs st :=
  congrArg Lane.regs (l.hostEnds_eq st)

theorem fget_keyStatus_off (m : RegMap) (st : Nat) {f : Fld} (hlast : f.key ≠ f_KEY_STAT_LASTSTAT.key)
    (hstatus : f.key ≠ f_KEY_RESULT_STATUS.key ∨ f.hi < f_KEY_RESULT_STATUS.lo) : fget (keyStatus m st) f = fget m f := by
  rw [keyStatus, fget_fset_off _ _ (by decide) (by decide) (hstatus.imp_right .inl), fget_fset_other _ _ _ _ hlast]

/-- The counting of an end touches KEY_CNT and the two lowest flags of KEY_STAT. -/
theorem fget_hostEndRegs_off (m : RegMap) (st : Nat) {f : Fld} (hcnt : f.key ≠ f_KEY_CNT_ORPHCNT.key)
    (hflags : f.key ≠ f_KEY_STAT_ORPHAN.key ∨ f_KEY_STAT_ORPHAN.hi < f.lo) :
    fget (hostEndRegs m st) f = fget (keyStatus m st) f := by
  unfold hostEndRegs
  split
  · rw [fflag, fget_fset_off _ _ (by decide) (by decide) (hflags.imp_right .inr), fbump, fget_fset_other _ _ _ _ hcnt]
  · split
    · have hlow : f.key ≠ f_KEY_STAT_TAMPABORT.key ∨ f.hi < f_KEY_STAT_TAMPABORT.lo ∨ f_KEY_STAT_TAMPABORT.hi < f.lo :=
        hflags.imp_right fun h => .inr (Nat.lt_trans (by decide) h)
      rw [fflag, fget_fset_off _ _ (by decide) (by decide) hlow, fbump, fget_fset_other _ f_KEY_CNT_TAMPREF _ _ hcnt]
    · rfl

/-- A register of the result keeps through the end of a job what the job wrote in it. -/
theorem fget_hostEndRegs_result (m : RegMap) (st : Nat) {f : Fld} (hkey : f_KEY_CNT_ORPHCNT.key < f.key)
    (hstatus : f.key ≠ f_KEY_RESULT_STATUS.key ∨ f.hi < f_KEY_RESULT_STATUS.lo) : fget (hostEndRegs m st) f = fget m f := by
  have hstat : f.key ≠ f_KEY_STAT_LASTSTAT.key := (Nat.lt_trans (by decide) hkey).ne'
  rw [fget_hostEndRegs_off m st hkey.ne' (.inl hstat), fget_keyStatus_off m st hstat hstatus]

theorem fget_hostEndRegs_written (m : RegMap) (st : Nat) {f : Fld} (v : Nat) (hkey : f_KEY_CNT_ORPHCNT.key < f.key)
    (hstatus : f.key ≠ f_KEY_RESULT_STATUS.key ∨ f.hi < f_KEY_RESULT_STATUS.lo) (hlo : f.lo ≤ f.hi) (hhi : f.hi < 32) :
    fget (hostEndRegs (fset m f v) st) f = v % 2 ^ (f.hi + 1 - f.lo) := by
  rw [fget_hostEndRegs_result _ st hkey hstatus, fget_fset_same _ _ _ hlo hhi]

theorem fget_hostEndRegs_status (m : RegMap) {st : Nat} (h : st < 256) : fget (hostEndRegs m st) f_KEY_RESULT_STATUS = st := by
  rw [fget_hostEndRegs_off m st (by decide) (by decide), keyStatus, fget_fset_same _ _ _ (by decide) (by decide)]
  exact Nat.mod_eq_of_lt h

theorem fget_hostEndRegs_last (m : RegMap) {st : Nat} (h : st < 256) : fget (hostEndRegs m st) f_KEY_STAT_LASTSTAT = st := by
  rw [fget_hostEndRegs_off m st (by decide) (by decide), keyStatus, fget_fset_other _ f_KEY_RESULT_STATUS _ _ (by decide),
    fget_fset_same _ _ _ (by decide) (by decide)]
  exact Nat.mod_eq_of_lt h

/-- A flag of KEY_STAT does not disturb what KEY_CNT counts, nor does the status of the job. -/
theorem fget_keyCount (m : RegMap) (st : Nat) {f g : Fld} (hf : f.key = f_KEY_CNT_ORPHCNT.key) (hlo : f.lo ≤ f.hi)
    (hhi : f.hi < 32) (hg : g.key = f_KEY_STAT_ORPHAN.key) :
    fget (fflag (fbump (keyStatus m st) f) g) f = satAdd (2 ^ (f.hi + 1 - f.lo) - 1) (fget m f) 1 := by
  rw [fflag, fget_fset_other _ _ _ _ (by rw [hf, hg]; decide), fget_fbump_same _ hlo hhi,
    fget_keyStatus_off m st (by rw [hf]; decide) (.inl (by rw [hf]; decide))]

theorem fget_hostEndRegs_orphan (m : RegMap) :
    fget (hostEndRegs m 1) f_KEY_CNT_ORPHCNT = satAdd 0xFFFF (fget m f_KEY_CNT_ORPHCNT) 1 :=
  fget_keyCount m 1 rfl (by decide) (by decide) rfl

theorem fget_hostEndRegs_tamper (m : RegMap) :
    fget (hostEndRegs m 2) f_KEY_CNT_TAMPREF = satAdd 0xFFFF (fget m f_KEY_CNT_TAMPREF) 1 :=
  fget_keyCount m 2 rfl (by decide) (by decide) rfl

/-- Fields written one after the other at a stride of 4 each read as their value. -/
theorem fget_foldl_fset_at {f : Fld} (v : Nat → Nat) (hlo : f.lo ≤ f.hi) (hhi : f.hi < 32) (m : RegMap) {k n : Nat}
    (hk : k < n) :
    fget ((List.range n).foldl (fun m i => fset m (f.at (4 * i)) (v i)) m) (f.at (4 * k)) = v k % 2 ^ (f.hi + 1 - f.lo) := by
  induction n with
  | zero => omega
  | succ n ih =>
    rw [List.range_succ, List.foldl_append]
    by_cases hlast : k = n
    · exact hlast ▸ fget_fset_same _ (f.at (4 * k)) _ hlo hhi
    · have hkey : (f.at (4 * k)).key ≠ (f.at (4 * n)).key := fun h => hlast (by simp only [Fld.at] at h; omega)
      exact (fget_fset_other _ _ _ _ hkey).trans (ih (by omega))

/-- The registers with a MAC in KEY_MAC. -/
def macRegs (m : RegMap) (tag : Bytes) : RegMap :=
  (List.range 4).foldl (fun m k => fset m (f_KEY_MAC_MAC.at (4 * k)) (natAt tag (4 * k) 4)) m

theorem fget_hostEndRegs_mac (m : RegMap) (st : Nat) (tag : Bytes) {k : Nat} (hk : k < 4) :
    fget (hostEndRegs (macRegs m tag) st) (f_KEY_MAC_MAC.at (4 * k)) = natAt tag (4 * k) 4 % 2 ^ 32 := by
  have hkey : f_KEY_MAC_MAC.key ≤ (f_KEY_MAC_MAC.at (4 * k)).key := Nat.le_add_right _ _
  rw [fget_hostEndRegs_result _ st (Nat.lt_of_lt_of_le (by decide) hkey) (.inl (Nat.lt_of_lt_of_le (by decide) hkey).ne')]
  exact fget_foldl_fset_at (fun k => natAt tag (4 * k) 4) (by decide) (by decide) m hk

/-- The bytes of KEY_DATA that a CRYPT takes. -/
def Lane.keyData (l : Lane) (len : Nat) : Bytes :=
  ((List.range 16).flatMap fun k => leBytes 4 (fget l.regs (f_KEY_DATA_DATA.at (4 * k)))).take len

/-- The second lane is the first after a job has ended with a status and left the key unit `k`. -/
def Lane.HostEnded (l l' : Lane) (st : Nat) (k : KeyUnit) : Prop :=
  { l' with key := l.key, regs := l.regs } = l ∧ l'.key = { k with job := none } ∧
    fget l'.regs f_KEY_RESULT_STATUS = st ∧ fget l'.regs f_KEY_STAT_LASTSTAT = st

theorem Lane.hostEnds_ended {l m : Lane} {st : Nat} (hst : st < 256) (hm : { m with key := l.key, regs := l.regs } = l) :
    l.HostEnded (m.hostEnds st) st m.key := by
  rw [Lane.hostEnds_eq]
  exact ⟨hm, rfl, fget_hostEndRegs_status _ hst, fget_hostEndRegs_last _ hst⟩

/-! ### The operations -/

section
variable {l : Lane}

theorem Lane.hostKey_tamper (h : l.tamperActs = true) (op len : Nat) : l.hostKey op len = l.hostEnds 2 := if_pos h

theorem Lane.hostKey_notReady (h : l.tamperActs = false) (hready : l.key.ready = false) (op len : Nat) :
    l.hostKey op len = l.hostEnds 3 := by
  simp [Lane.hostKey, h, hready]

variable (htamper : l.tamperActs = false) (hready : l.key.ready = true)
include htamper hready

/-- With KEY ready and no tamper acting, DERIVE loads a leaf of Table 11-1 and refuses any other path. -/
theorem Lane.hostKey_derive (len : Nat) :
    let d := fget l.regs f_KEY_PATH_DOMAIN
    let n := fget l.regs f_KEY_PATH_NUMBER
    let p := l.keyA.gens.path d n
    (leafOk d n = true → 
      l.hostKey 1 len =
        (((l.derive p).ku fun k => { k with host := some p }).reg fun m => fset m f_KEY_GEN_GEN p.gLeaf).hostEnds 0) ∧
    (leafOk d n = false → l.hostKey 1 len = l.hostEnds 5) := by
  simp +contextual [Lane.hostKey, htamper, hready]

theorem Lane.hostKey_clear (len : Nat) :
    l.hostKey 3 len = (l.ku fun k => { k with reg := none }).hostEnds 0 := by
  simp [Lane.hostKey, htamper, hready]

theorem Lane.hostKey_underived {op : Nat} (len : Nat) (hop : op = 2 ∨ op = 4) (h : l.key.host = none) :
    l.hostKey op len = l.hostEnds 5 := by
  rcases hop with rfl | rfl <;> simp [Lane.hostKey, htamper, hready, h]

theorem Lane.hostKey_refused {p : KeyPath} {len : Nat} (h : l.key.host = some p)
    (hother : p.dom ≠ 4 ∨ p.num ≠ 2 ∨ len = 0 ∨ 64 < len) : l.hostKey 2 len = l.hostEnds 4 := by
  simp only [Lane.hostKey, htamper, hready, h, if_pos hother, Bool.false_eq_true, if_false, Bool.not_true]

/-- A MAC is computed with the logic image leaf over 1 to 64 bytes, by a key in force. -/
theorem Lane.hostKey_crypt {p : KeyPath} {len : Nat} (h : l.key.host = some p) (hdom : p.dom = 4) (hnum : p.num = 2)
    (hlo : 1 ≤ len) (hhi : len ≤ 64) :
    (p.current l.keyA.gens = true → 
      l.hostKey 2 len = ((l.derive p).reg fun m => macRegs m (cmac p.key (l.keyData len))).hostEnds 0) ∧
    (p.current l.keyA.gens = false → l.hostKey 2 len = l.hostEnds 1) := by
  have hmay : ¬(p.dom ≠ 4 ∨ p.num ≠ 2 ∨ len = 0 ∨ 64 < len) := by omega
  simp +contextual only [Lane.hostKey, htamper, hready, h, if_neg hmay, Bool.false_eq_true, if_false, Bool.not_true,
    Bool.not_false, if_true, Lane.keyData, macRegs, implies_true, and_self]

theorem Lane.hostKey_kcv {p : KeyPath} (len : Nat) (h : l.key.host = some p) :
    (p.current l.keyA.gens = true → 
      l.hostKey 4 len = ((l.derive p).reg fun m => fset m f_KEY_RESULT_KCV (kcv p.key)).hostEnds 0) ∧
    (p.current l.keyA.gens = false → l.hostKey 4 len = l.hostEnds 1) := by
  simp +contextual [Lane.hostKey, htamper, hready, h]

end

/-! ### A job's turn -/

/-- The commands of the host's key jobs, with their operation and length. -/
def keyCommands (x : LaneId) (len : Nat) : List (Instr × Nat × Nat) :=
  [(.keyDerive x, 1, 0), (.keyCrypt x len, 2, len), (.keyClear x, 3, 0), (.keyKcv x, 4, 0)]

theorem exec_keyCommand {x : LaneId} {len op n : Nat} {c : Instr} (h : (c, op, n) ∈ keyCommands x len) (s : State) :
    exec c s = keyJob s x op n := by
  simp only [keyCommands, List.mem_cons, Prod.mk.injEq, List.not_mem_nil, or_false] at h
  rcases h with ⟨rfl, rfl, rfl⟩ | ⟨rfl, rfl, rfl⟩ | ⟨rfl, rfl, rfl⟩ | ⟨rfl, rfl, rfl⟩ <;> rfl

theorem keyCommands_of_mem {x : LaneId} {len op : Nat} {c : Instr}
    (h : (c, op) ∈ [(Instr.keyDerive x, 1), (.keyCrypt x len, 2), (.keyClear x, 3), (.keyKcv x, 4)]) :
    ∃ n, (c, op, n) ∈ keyCommands x len := by
  simp only [List.mem_cons, Prod.mk.injEq, List.not_mem_nil, or_false] at h
  rcases h with ⟨rfl, rfl⟩ | ⟨rfl, rfl⟩ | ⟨rfl, rfl⟩ | ⟨rfl, rfl⟩ <;> simp [keyCommands]

theorem keyJob_waits {s : State} {x : LaneId} {op : Nat} (n : Nat) (h : ∃ j, (s.lane x).key.job = some j ∧ j.1 ≠ op) :
    keyJob s x op n = .next s := by
  obtain ⟨j, hj, hop⟩ := h
  exact laneWhen_neg (by simp [hj, hop])

theorem keyJob_turn {s : State} {x : LaneId} {op : Nat} (n : Nat) (h : ∀ j, (s.lane x).key.job = some j → j.1 = op) :
    keyJob s x op n = .next (s.setLane x ((s.lane x).hostKey op n)) :=
  laneWhen_pos (by simpa [Option.all_eq_true] using h)

/-- A job at its turn that ends with a status answers the lane with that end. -/
theorem exec_keyCommand_ends {s : State} {x : LaneId} {len op n st : Nat} {c : Instr} {m : Lane}
    (hc : (c, op, n) ∈ keyCommands x len) (hturn : ∀ j, (s.lane x).key.job = some j → j.1 = op)
    (hkey : (s.lane x).hostKey op n = m.hostEnds st) : exec c s = .next (s.setLane x (m.hostEnds st)) := by
  rw [exec_keyCommand hc, keyJob_turn n hturn, hkey]

/-- Settles O41: each operation by its lemma of `Lane.hostKey`, its end by `Lane.hostEnds_ended`, and what it shows by the lemmas of
`hostEndRegs`. CRYPT and KCV without a derived key end with 5 by the model's choice (log 170). -/
theorem hostKeyJobsEndWithTheirStatus : Obligations.HostKeyJobsEndWithTheirStatus := by
  unfold Obligations.HostKeyJobsEndWithTheirStatus
  intro s x len l d n data ends
  have hends {st : Nat} (hst : st < 256) : ends (l.hostEnds st) st l.key := Lane.hostEnds_ended hst rfl
  refine ⟨fun c op hc => ⟨fun hwaits => ?waits, fun hturn => ⟨fun htamper => ?tamper, fun htamper hready => ?notReady⟩⟩,
    fun htamper hready => ⟨fun hturn => ⟨fun hleaf => ?leaf, fun hleaf => ?noLeaf⟩, fun hturn => ?crypt, fun hturn => ?clear,
      fun hturn => ?kcv⟩⟩
  case waits =>
    obtain ⟨len', hc⟩ := keyCommands_of_mem hc
    rw [exec_keyCommand hc, keyJob_waits _ hwaits]
  case tamper =>
    obtain ⟨len', hc⟩ := keyCommands_of_mem hc
    refine ⟨_, exec_keyCommand_ends hc hturn (Lane.hostKey_tamper htamper _ _), hends (by decide), ?_⟩
    rw [Lane.hostEnds_regs]
    exact fget_hostEndRegs_tamper _
  case notReady =>
    obtain ⟨len', hc⟩ := keyCommands_of_mem hc
    exact ⟨_, exec_keyCommand_ends hc hturn (Lane.hostKey_notReady htamper hready _ _), hends (by decide)⟩
  case leaf =>
    refine ⟨_, exec_keyCommand_ends (len := len) (by simp [keyCommands]) hturn ((Lane.hostKey_derive htamper hready 0).1 hleaf),
      Lane.hostEnds_ended (by decide) rfl, ?_⟩
    rw [Lane.hostEnds_regs]
    exact fget_hostEndRegs_written l.regs 0 (f := f_KEY_GEN_GEN) _ (by decide) (by decide) (by decide) (by decide)
  case noLeaf =>
    exact ⟨_, exec_keyCommand_ends (len := len) (by simp [keyCommands]) hturn ((Lane.hostKey_derive htamper hready 0).2 hleaf),
      hends (by decide)⟩
  case crypt =>
    have hexec {st : Nat} {m : Lane} (h : l.hostKey 2 len = m.hostEnds st) :=
      exec_keyCommand_ends (c := .keyCrypt x len) (len := len) (by simp [keyCommands]) hturn h
    refine ⟨fun hnone => ⟨_, hexec (Lane.hostKey_underived htamper hready len (.inl rfl) hnone), hends (by decide)⟩,
      fun p hp hother => ⟨_, hexec (Lane.hostKey_refused htamper hready hp hother), hends (by decide)⟩,
      fun p hp hdom hnum hlo hhi => ?_⟩
    obtain ⟨hmac, horphan⟩ := Lane.hostKey_crypt htamper hready hp hdom hnum hlo hhi
    refine ⟨fun hcurrent => ⟨_, hexec (hmac hcurrent), Lane.hostEnds_ended (by decide) rfl, fun k hk => ?_⟩,
      fun hcurrent => ⟨_, hexec (horphan hcurrent), hends (by decide)⟩⟩
    rw [Lane.hostEnds_regs]
    exact fget_hostEndRegs_mac l.regs 0 (cmac p.key data) hk
  case clear =>
    exact ⟨_, exec_keyCommand_ends (len := len) (by simp [keyCommands]) hturn (Lane.hostKey_clear htamper hready 0),
      Lane.hostEnds_ended (by decide) rfl⟩
  case kcv =>
    have hexec {st : Nat} {m : Lane} (h : l.hostKey 4 0 = m.hostEnds st) :=
      exec_keyCommand_ends (c := .keyKcv x) (len := len) (by simp [keyCommands]) hturn h
    refine ⟨fun hnone => ⟨_, hexec (Lane.hostKey_underived htamper hready 0 (.inr rfl) hnone), hends (by decide)⟩,
      fun p hp => ?_⟩
    obtain ⟨hshows, horphan⟩ := Lane.hostKey_kcv htamper hready 0 hp
    refine ⟨fun hcurrent => ⟨_, hexec (hshows hcurrent), Lane.hostEnds_ended (by decide) rfl, ?_⟩,
      fun hcurrent => ⟨_, hexec (horphan hcurrent), hends (by decide), ?_⟩⟩
    all_goals rw [Lane.hostEnds_regs]
    · exact fget_hostEndRegs_written l.regs 0 (f := f_KEY_RESULT_KCV) _ (by decide) (by decide) (by decide) (by decide)
    · exact fget_hostEndRegs_orphan _

end Sys2Proof.Machine
end

section
/-! The clocks of the lanes and the backup domain (R351, R406, R410, R412, R419): following district time, leap seconds, the log of
tamper events and the charger. -/
namespace Sys2Proof.Machine

/-! ### Following district time (R412) -/

section
variable {r : Rtc} {e : Int}

theorem Rtc.follow_err : (r.follow e).err = clampI (-8388607) 8388607 (roundShift (e * 1000000) 32) := by
  unfold Rtc.follow
  dsimp only
  split <;> rfl

theorem Rtc.follow_slews (h : 10 * e.natAbs ≤ 2 ^ 32) : r.follow e = { r with
    err := (r.follow e).err, delta := clampI (-52) 52 (-(roundShift e 15)), slewLeft := 32768 } := by
  rw [Rtc.follow_err, Rtc.follow, if_pos (by omega)]

theorem Rtc.follow_steps (h : 2 ^ 32 < 10 * e.natAbs) : r.follow e = { r with
    err := (r.follow e).err, acts := r.acts ++ [.step (roundShift e 17 * 2 ^ 17)] } := by
  rw [Rtc.follow_err, Rtc.follow, if_neg (by omega)]
  rfl

end

/-! ### Leap seconds (R410) -/

theorem Dict.get_put_same (d : Dict) (idx sub : Nat) (v : Bytes) : (d.put idx sub v).get idx sub = v := mget_mset_same _ _ _ _

theorem Dict.int_of_get {d : Dict} {idx sub : Nat} {v : Bytes} (h : d.get idx sub = v) :
    d.int idx sub = (BitVec.ofNat (8 * v.length) (leNat v)).toInt := by
  subst h
  rfl

/-- Two bytes of a number in two's complement read as that number. -/
theorem Dict.int_of_two_bytes {d : Dict} {idx sub : Nat} {w : BitVec 16} (h : d.get idx sub = leBytes 2 w.toNat) :
    d.int idx sub = w.toInt := by
  have hval : leNat (leBytes 2 w.toNat) = w.toNat := (leNat_leBytes 2 w.toNat).trans (Nat.mod_eq_of_lt w.isLt)
  rw [Dict.int_of_get h, hval]
  exact congrArg BitVec.toInt (BitVec.ofNat_toNat 16 w |>.trans (BitVec.setWidth_eq w))

/-- The dictionary after a leap second. -/
def Dict.leaped (d : Dict) : Dict :=
  (d.put 0x1320 1 (leBytes 2 (ofInt 16 (d.int 0x1320 1 + d.int 0x1320 2)).toNat)).put 0x1320 2 [0]

theorem Dict.leaped_offset (d : Dict) : d.leaped.int 0x1320 1 = (BitVec.ofInt 16 (d.int 0x1320 1 + d.int 0x1320 2)).toInt :=
  Dict.int_of_two_bytes ((Dict.get_put_other _ _ (by decide)).trans (Dict.get_put_same _ _ _ _))

theorem Dict.leaped_leap (d : Dict) : d.leaped.int 0x1320 2 = 0 := Dict.int_of_get (Dict.get_put_same _ _ _ _)

theorem Dict.leaped_other (d : Dict) {idx sub : Nat} (h1 : objKey idx sub ≠ objKey 0x1320 1)
    (h2 : objKey idx sub ≠ objKey 0x1320 2) :
    d.leaped.get idx sub = d.get idx sub :=
  (Dict.get_put_other _ _ h2).trans (Dict.get_put_other _ _ h1)

theorem Dict.leaped_reqs {d : Dict} (h : d.reqs = []) : { d.leaped with reqs := [] } = d.leaped := by
  rw [← h]
  rfl

theorem Lane.votedWrites_none {l : Lane} (h : l.vw = []) : l.votedWrites = l := by
  simp only [Lane.votedWrites, h, List.filter_nil, List.foldl_nil]
  rw [← h]

/-- Step 1 of a slot with nothing else due in it applies the leap second alone. -/
theorem Lane.step1Run_leaps {l : Lane} (me : LaneId) (hstep : l.step1 = false) (hleap : l.leapDue = true) (hreqs : l.dict.reqs = [])
    (hvw : l.vw = []) (htamper : l.tamperNew = false) : l.step1Run me = { l with step1 := true, dict := l.dict.leaped } := by
  have hleaped : ({ l with step1 := true } : Lane).leapApply = { l with step1 := true, dict := l.dict.leaped } := if_pos hleap
  have hnone : l.dict.leaped.reqs = [] := hreqs
  rw [Lane.step1Run, if_neg (by simp [hstep])]
  dsimp only
  rw [if_neg (by simp [htamper]), hleaped]
  dsimp only
  rw [hnone, Dict.leaped_reqs hreqs]
  exact Lane.votedWrites_none hvw

/-! ### The tamper log (R351) -/

/-- An entry goes to the first free place of the log. -/
theorem logPut_first (t : TamperEntry) {log : List (Option TamperEntry)} {i : Nat} (hfree : log[i]? = some none)
    (hused : ∀ j, j < i → ∃ e, log[j]? = some (some e)) : logPut t log = some (log.set i (some t)) := by
  induction log generalizing i with
  | nil => simp at hfree
  | cons x xs ih =>
    cases i with
    | zero =>
      obtain rfl : x = none := by simpa using hfree
      rfl
    | succ i =>
      obtain ⟨e, he⟩ := hused 0 (Nat.succ_pos i)
      obtain rfl : x = some e := by simpa using he
      have hrest := ih (i := i) (by simpa using hfree) fun j hj => by simpa using hused (j + 1) (Nat.succ_lt_succ hj)
      simp [logPut, hrest]

theorem logPut_full (t : TamperEntry) {log : List (Option TamperEntry)} (h : ∀ e ∈ log, e ≠ none) : logPut t log = none := by
  induction log with
  | nil => rfl
  | cons x xs ih =>
    obtain ⟨e, rfl⟩ := Option.ne_none_iff_exists'.mp (h x (List.mem_cons_self ..))
    simp [logPut, ih fun y hy => h y (List.mem_cons_of_mem _ hy)]

/-- The entry of a tamper event now. -/
def State.tamperEntry (s : State) : TamperEntry :=
  { sec := s.tamperStamp.1, lane := s.tamperStamp.2.1, standby := !s.bak.mains, acted := false }

theorem State.tamperStamp_lead {s : State} {y : LaneId} (h : s.rtcLead = some y) :
    s.tamperStamp = ((s.lane y).rtc.sec, y, s.free) := by
  rw [State.tamperStamp, h]

theorem State.tamperEvent_logged {s : State} {i : Nat} (hfree : s.bak.log[i]? = some none)
    (hused : ∀ j, j < i → ∃ e, s.bak.log[j]? = some (some e)) : s.tamperEvent = { s with
      arb := s.arb.irq 8, free := s.tamperStamp.2.2
      bak := { s.bak with event := true, active := true, log := s.bak.log.set i (some s.tamperEntry) } } := by
  have hput : logPut s.tamperEntry s.bak.log = some _ := logPut_first s.tamperEntry hfree hused
  unfold State.tamperEntry at hput
  simp only [State.tamperEvent, hput]
  rfl

theorem State.tamperEvent_lost {s : State} (h : ∀ e ∈ s.bak.log, e ≠ none) : s.tamperEvent = { s with
    bak := { s.bak with event := true, active := true, lost := min 15 (s.bak.lost + 1) } } := by
  have hput : logPut s.tamperEntry s.bak.log = none := logPut_full s.tamperEntry h
  unfold State.tamperEntry at hput
  simp only [State.tamperEvent, hput]
  rfl

/-- An entry through a clearing of the log: one that has been acted on is freed. -/
def TamperEntry.cleared (t : TamperEntry) : Option TamperEntry := if t.acted then none else some t

theorem Backup.clearActed_log (b : Backup) {i : Nat} {e : Option TamperEntry} (h : b.log[i]? = some e) :
    b.clearActed.log[i]? = some (e.bind TamperEntry.cleared) := by
  simp only [Backup.clearActed, List.getElem?_map, h]
  cases e <;> rfl

/-- The clearing of the log shows in the arbiter's shadows, and completes the command that asked for it. -/
theorem State.tamperClear_eq {s : State} (h : s.arb.runs = true) : ∃ m, s.tamperClear = { s with
    bak := s.bak.clearActed
    arb := { s.arb with shadow := m, cmds := s.arb.cmds.filter fun c => c.1 != f_ARB_TAMPACK_CLEARLOG.key } } :=
  ⟨_, if_pos h⟩

/-! ### The charger (R419) -/

theorem Backup.charges_iff (b : Backup) (power : Bool) :
    b.charges power = true ↔ power = true ∧ b.chEnable = true ∧ b.atLimit = false := by
  simp [Backup.charges, and_assoc]

/-- Settles O48: R412 by the two branches of `Rtc.follow`, the leap second by `Lane.step1Run_leaps`, the tamper log by the lemmas of
`logPut` and `Backup.clearActed_log`, the charger by its two thresholds. The rounding of halves is log 33, what is measured beyond
the count log 36, and the first free place, the full log that raises nothing and the entries acted on log 37. -/
theorem theBackupDomainKeepsTimeAndTamper : Obligations.TheBackupDomainKeepsTimeAndTamper := by
  unfold Obligations.TheBackupDomainKeepsTimeAndTamper
  refine ⟨fun s x sub hdue => ?follow, fun s x sub hdue => laneWhen_neg hdue, fun s x => ?leap,
    fun s x => ⟨_, rfl, rfl, rfl⟩, fun s hactive => congrArg Host.Outcome.next (if_pos hactive),
    fun s i hactive hruns hfree hused => ?logged, fun s hactive hfull => ?lost, fun s => rfl,
    fun s => ⟨fun hruns => ?clear, fun hruns => congrArg Host.Outcome.next (if_neg (by simp [hruns]))⟩, fun s mv => ?charger⟩
  case follow =>
    intro l e
    refine ⟨l.rtc.follow e, laneWhen_pos hdue, Rtc.follow_err, fun hsmall => ?_, fun hlarge => ?_⟩
    · rw [Rtc.follow_slews hsmall]
      exact ⟨rfl, rfl, rfl⟩
    · rw [Rtc.follow_steps hlarge]
      exact ⟨rfl, rfl⟩
  case leap =>
    intro l
    refine ⟨fun hworking hstep hdue hreqs hvw htamper => ⟨l.dict.leaped, ?_, rfl, l.dict.leaped_offset, l.dict.leaped_leap,
      fun idx sub => l.dict.leaped_other⟩, fun hidle => laneWhen_neg ?_⟩
    · exact laneWhen_to (by simp [l, hworking, hdue, hstep]) (Lane.step1Run_leaps x hstep hdue hreqs hvw htamper)
    · rcases hidle with h | h | h <;> simp [l, h]
  case logged =>
    refine ⟨s.tamperEntry, s.arb.irq 8, s.tamperStamp.2.2, ?_, rfl, rfl, fun y hy => ?_, ?_, s.arb.irq_frame 8, fun k hk => ?_⟩
    · exact congrArg Host.Outcome.next ((if_neg (by simp [hactive])).trans (State.tamperEvent_logged hfree hused))
    · simp [State.tamperEntry, State.tamperStamp_lead hy]
    all_goals rw [Arb.irq_regs, if_pos hruns]
    · exact fget_forBits_bit _ _ _ (by decide) (by decide) (by decide)
    · exact rget_fset_other _ _ _ hk
  case lost => exact congrArg Host.Outcome.next ((if_neg (by simp [hactive])).trans (State.tamperEvent_lost hfull))
  case clear =>
    obtain ⟨m, hm⟩ := State.tamperClear_eq hruns
    exact ⟨s.bak.clearActed, m, congrArg Host.Outcome.next ((if_pos hruns).trans hm), rfl, List.length_map _,
      fun i h => s.bak.clearActed_log h, fun i e h => s.bak.clearActed_log h⟩
  case charger =>
    refine ⟨fun hruns henable hlimit hmv => ?_, fun h => ?_, fun hlimit hmv => ?_, fun h => ?_⟩
    all_goals refine congrArg Host.Outcome.next ?_
    · exact if_pos (by simp [Backup.charges_iff, hruns, henable, hlimit, hmv])
    · refine if_neg fun hdrives => ?_
      simp only [Bool.and_eq_true, Backup.charges_iff, decide_eq_true_eq] at hdrives
      obtain ⟨⟨hruns, henable, hlimit⟩, hmv⟩ := hdrives
      simp [hruns, henable, hlimit, Nat.not_lt.mpr hmv] at h
    · exact if_pos (by simp [hlimit, hmv])
    · refine if_neg fun hlow => ?_
      simp only [Bool.and_eq_true, decide_eq_true_eq] at hlow
      obtain ⟨hlimit, hmv⟩ := hlow
      simp [hlimit, Nat.not_lt.mpr hmv] at h

end Sys2Proof.Machine
end

section
/-! What every command has in common: it answers a next state and leaves the queue of commands that wait, and a step performs
the command at the queue's front. -/
namespace Sys2Proof.Machine

/-! ### Every command answers -/

theorem exec_answers (c : Instr) (s : State) : ∃ t, exec c s = .next t := by
  cases hl : laneEvent c
  case some x =>
    obtain ⟨l, h⟩ := exec_of_laneEvent hl s
    exact ⟨_, h⟩
  case none =>
    cases c
    case laneSlot x phase => cases phase <;> exact ⟨_, rfl⟩
    all_goals cases hl
    all_goals exact ⟨_, rfl⟩

/-! ### The queue -/

/-- A change made under a condition, after which the queue is as before. -/
theorem State.pending_ite {s t : State} {p : Prop} [Decidable p] (h : t.pending = s.pending) :
    (if p then t else s).pending = s.pending := by
  split
  · exact h
  · rfl

theorem execLaneSlot_pending {x : LaneId} {phase : SlotPhase} {s t : State} (e : execLaneSlot x phase s = .next t) :
    t.pending = s.pending := by
  cases phase
  all_goals obtain rfl := Host.Outcome.next.inj e
  case round1 | image => exact State.onLane_pending _ _ _
  case strobe | work => exact State.pending_ite (by simp)

theorem execRollCallReport_pending {x v ok} {s t : State} (e : execRollCallReport x v ok s = .next t) :
    t.pending = s.pending := by
  obtain rfl := Host.Outcome.next.inj e
  refine State.pending_ite ?_
  dsimp only
  split <;> simp

theorem execDonorPathTimeout_pending {s t : State} (e : execDonorPathTimeout s = .next t) : t.pending = s.pending := by
  obtain rfl := Host.Outcome.next.inj e
  refine State.pending_ite ?_
  split
  · exact State.donorFails_pending _ _
  · exact State.onLane_pending _ _ _

/-- No command touches the queue. -/
theorem exec_pending {c : Instr} {s t : State} (e : exec c s = .next t) : t.pending = s.pending := by
  cases hl : laneEvent c
  case some x =>
    obtain ⟨l, h⟩ := exec_of_laneEvent hl s
    obtain rfl := Host.Outcome.next.inj (h.symm.trans e)
    exact State.setLane_pending _ _ _
  case none =>
    cases c
    all_goals cases hl
    case laneSlot => exact execLaneSlot_pending e
    case rollCallReport => exact execRollCallReport_pending e
    case donorPathTimeout => exact execDonorPathTimeout_pending e
    all_goals obtain rfl := Host.Outcome.next.inj e
    -- one change of the device, without a condition
    case outputFrame | vpoQueuePulseStart | vpoQueuePulseEnd | tamperInactive | perstNFall | perstRelease | islandPowerOn
        | backupPowerLoss => rfl
    case powerFailNFall | inputMonitorTrip | evaluationCycle | sresetRise | stopWordLoss | switchTest | testPulse | clockCheck
        | ramMarch | vddSafeFault | cycleWatchdog | sresetStuck | sresetArm | stallTimeout => simp
    -- conditions under which nothing occurs
    case slotStrobe | tamperEvent | resetNFall | laneRailReset | functionLevelReset | powerStateWrite => split <;> simp
    case rollCall =>
      split
      · rfl
      · split <;> simp
    case mailboxD2hCopy =>
      split
      · exact State.pending_ite (by simp)
      · rfl
    case stopWord | configConfirm | resetNRise | arbSupplyReset => split <;> simp
    -- conditions under which the event occurs
    all_goals exact State.pending_ite (by simp)

/-! ### The obligations -/

/-- Settles O1: the two equations of `step`. That an empty queue idles is log 2. -/
theorem stepPerformsTheFrontCommand : Obligations.StepPerformsTheFrontCommand := by
  unfold Obligations.StepPerformsTheFrontCommand
  refine ⟨fun s c rest hfront => ?_, fun s hempty => ?_⟩
  · rw [step, hfront]
  · rw [step, hempty]

/-- Settles O2, by `exec_answers` and `exec_pending`. That a command answers where its event cannot occur is log 1. -/
theorem everyCommandAnswersAndLeavesTheQueue : Obligations.EveryCommandAnswersAndLeavesTheQueue := by
  unfold Obligations.EveryCommandAnswersAndLeavesTheQueue
  intro c s
  obtain ⟨t, ht⟩ := exec_answers c s
  exact ⟨t, ht, exec_pending ht⟩

/-- Settles O3: `exec_of_laneEvent`, which follows each command that `laneEvent` names to the lane it replaces. -/
theorem laneEventsStayInTheirLane : Obligations.LaneEventsStayInTheirLane := by
  unfold Obligations.LaneEventsStayInTheirLane
  exact fun _ s _ hevent => exec_of_laneEvent hevent s

end Sys2Proof.Machine
end

section
/-! Exclusion and rejoin by command (R402), and the opening of the start gate (R464). -/
namespace Sys2Proof.Machine

/-! ### Counters -/

/-- A field in another register, or apart in the same one, is left by a counter. -/
theorem fget_fbump_off (m : RegMap) {f g : Fld} (hlo : f.lo ≤ f.hi) (hhi : f.hi < 32)
    (h : g.key ≠ f.key ∨ g.hi < f.lo ∨ f.hi < g.lo) : fget (fbump m f) g = fget m g :=
  fget_fset_off m _ hlo hhi h

/-! ### EXCLUDE and REJOIN (R402) -/

/-- The arbiter with a lane excluded by command. -/
def Arb.commanded (a : Arb) (x : LaneId) : Arb := (a.reg fun m => fbool m f_ARB_EXCLUDE_REFUSED false).exclude x 7

theorem State.manualExclude_acts {s : State} {x : LaneId} (hmember : s.arb.nextMask.has x = true)
    (hleft : (s.arb.nextMask.put x false).count ≠ 0) : s.manualExclude x = s.onArb fun a => a.commanded x := by
  rw [State.manualExclude, if_neg (by simp [hmember, hleft]), State.excludeLanes_one]
  · unfold State.onArb Arb.commanded
    dsimp only
  · exact hleft

theorem State.manualExclude_refused {s : State} {x : LaneId}
    (h : s.arb.nextMask.has x = false ∨ (s.arb.nextMask.put x false).count = 0) :
    s.manualExclude x = s.onArb fun a => a.reg fun m => fbool m f_ARB_EXCLUDE_REFUSED true :=
  if_pos (by simpa using h)

/-- An exclusion by command marks the lane manual and writes three registers. -/
theorem Arb.commanded_eq (a : Arb) (x : LaneId) : a.commanded x = { a.modJudge x (fun j =>
    { j with window := [], badRun := 0, manual := true }) with
      nextMask := a.nextMask.put x false, regs := (a.commanded x).regs } := by
  simp [Arb.commanded, Arb.exclude, Arb.modJudge, Arb.reg]

theorem Arb.commanded_regs (a : Arb) (x : LaneId) : (a.commanded x).regs =
    fbump (fset (fset a.regs f_ARB_EXCLUDE_REFUSED 0) (laneFld f_ARB_LANESTAT_CAUSE x) 7) f_ARB_EXCNT_EXCLCNT := rfl

theorem exec_excludeCommand {s : State} (x : LaneId) (hruns : s.arb.runs = true) :
    exec (.excludeCommand x) s = .next ((s.manualExclude x).onArb fun a => a.dropCmds f_ARB_EXCLUDE_GO.key) :=
  congrArg Host.Outcome.next (if_pos hruns)

theorem exec_rejoinCommand {s : State} (x : LaneId) (hruns : s.arb.runs = true) :
    exec (.rejoinCommand x) s = .next ((s.manualRejoin x).onArb fun a => a.dropCmds f_ARB_REJOIN_GO.key) :=
  congrArg Host.Outcome.next (if_pos hruns)

/-- Settles O25: the two branches of `State.manualExclude` and of `State.manualRejoin`, and the registers that an exclusion
writes. -/
theorem lanesAreExcludedAndRestartedByCommand : Obligations.LanesAreExcludedAndRestartedByCommand := by
  unfold Obligations.LanesAreExcludedAndRestartedByCommand
  refine ⟨fun s x hruns hmember hleft => ?excluded, fun s x hruns h => ?notExcluded, fun s x hruns hhalted => ?restarted,
    fun s x hruns h => ?notRestarted⟩
  case excluded =>
    refine ⟨(s.arb.commanded x).regs, ?_, ?_, ?_, ?_, fun k hcause hrefused hcount => ?_⟩
    · rw [exec_excludeCommand x hruns, State.manualExclude_acts hmember hleft]
      exact congrArg (fun a : Arb => Host.Outcome.next ({ s with arb := a.dropCmds f_ARB_EXCLUDE_GO.key } : State))
        (s.arb.commanded_eq x)
    all_goals rw [Arb.commanded_regs]
    · cases x <;> simp (disch := decide) only [fget_fbump_off, fget_fset_same] <;> rfl
    · cases x <;> simp (disch := decide) only [fget_fbump_off, fget_fset_off, fget_fset_same] <;> rfl
    · cases x <;> simp (disch := decide) only [fget_fbump_same, fget_fset_off] <;> rfl
    · rw [fbump, rget_fset_other _ _ _ hcount, rget_fset_other _ _ _ hcause, rget_fset_other _ _ _ hrefused]
  case notExcluded =>
    rw [exec_excludeCommand x hruns, State.manualExclude_refused h]
    rfl
  case restarted =>
    rw [exec_rejoinCommand x hruns, State.manualRejoin, if_pos hhalted]
    rfl
  case notRestarted =>
    rw [exec_rejoinCommand x hruns, State.manualRejoin, if_neg h]
    rfl

/-! ### The start gate (R464) -/

theorem Arb.gateDue_iff (a : Arb) : a.gateDue = true ↔ a.runs = true ∧ a.gateOpen = false ∧ a.agreed = true ∧
    a.out.isOpen = true ∧ a.firstSlot.toNat + 5000 ≤ a.slot.toNat ∧ a.logicPassed = true := by
  simp [Arb.gateDue, and_assoc]

@[simp] theorem Arb.irq_gateOpen (a : Arb) (v : Nat) : (a.irq v).gateOpen = a.gateOpen := by
  have hgate : gateBit (a.irq v).regs = gateBit a.regs := (congrArg OutView.gate (a.irq_outv v) :)
  rw [Bool.eq_iff_iff, Arb.gateOpen_iff, Arb.gateOpen_iff, hgate]

/-- The arbiter whose registers show the open gate and the time it took, before any value passes. -/
def Arb.gateShown (a : Arb) : Arb :=
  a.reg fun m => fsat (fbool m f_ARB_RSTCAUSE_GATEOPEN true) f_ARB_RSTCAUSE_GATETIME (a.ticks / 200)

theorem Arb.gateShown_open (a : Arb) : a.gateShown.gateOpen = true := by
  have h : fget a.gateShown.regs f_ARB_RSTCAUSE_GATEOPEN = 1 := by
    simp (disch := decide) only [Arb.gateShown, Arb.reg, fsat, fbool, fget_fset_off, fget_fset_same]
    rfl
  simp [Arb.gateOpen, h]

/-- Values that pass change pins and the stop word only. -/
theorem Arb.foldl_drive_frame (ps : List (Nat × Word)) (a : Arb) :
    { ps.foldl (fun a p => a.drive p.1 p.2) a with vao := a.vao, vdo := a.vdo, vpo := a.vpo, stop := a.stop } = a :=
  foldl_keeps (fun (a : Arb) (p : Nat × Word) => a.drive p.1 p.2)
    (fun b => { b with vao := a.vao, vdo := a.vdo, vpo := a.vpo, stop := a.stop })
    (fun b p => congrArg (fun b : Arb => ({ b with vao := a.vao, vdo := a.vdo, vpo := a.vpo, stop := a.stop } : Arb))
      (b.drive_frame p.1 p.2)) ps a

/-- The start gate opens: registers, pins and the stop word change, and cause 5 rises. -/
theorem Arb.openGate_eq (a : Arb) : ∃ b : Arb, a.openGate = b.irq 5 ∧
    { b with vao := a.vao, vdo := a.vdo, vpo := a.vpo, stop := a.stop } = a.gateShown := by
  unfold Arb.openGate
  refine ⟨_, rfl, ?_⟩
  split
  · rfl
  · exact Arb.foldl_drive_frame _ a.gateShown

theorem exec_startGateOpen (s : State) :
    exec .startGateOpen s = .next (if s.arb.gateDue then s.onArb Arb.openGate else s) := rfl

/-- Settles O9, by `Arb.gateDue_iff` and `Arb.openGate_eq`. -/
theorem startGateOpens : Obligations.StartGateOpens := by
  unfold Obligations.StartGateOpens
  refine ⟨fun s hruns hshut hagreed hopen hslots hpassed => ?opens, fun s h => ?waits⟩
  case opens =>
    obtain ⟨b, hb, hframe⟩ := s.arb.openGate_eq
    have hbruns : b.runs = true := ((congrArg Arb.runs hframe :) : b.runs = s.arb.runs).trans hruns
    have hdue := s.arb.gateDue_iff.mpr ⟨hruns, hshut, hagreed, hopen, hslots, hpassed⟩
    refine ⟨s.arb.openGate, ?_, ?_, ?_, ?_, ?_, ?_⟩
    · rw [exec_startGateOpen, if_pos hdue]
      rfl
    all_goals rw [hb]
    · rw [Arb.irq_gateOpen]
      exact ((congrArg Arb.gateOpen hframe :) : b.gateOpen = _).trans s.arb.gateShown_open
    · rw [Arb.irq_regs, if_pos hbruns]
      exact fget_forBits_bit _ _ _ (by decide) (by decide) (by decide)
    · exact b.irq_mask 5 |>.trans (congrArg Arb.mask hframe :)
    · exact b.irq_out 5 |>.trans (congrArg Arb.out hframe :)
    · exact b.irq_slot 5 |>.trans (congrArg Arb.slot hframe :)
  case waits =>
    rw [exec_startGateOpen, if_neg]
    intro hdue
    obtain ⟨hruns, hshut, hagreed, hopen, hslots, hpassed⟩ := s.arb.gateDue_iff.mp hdue
    simp [hruns, hshut, hagreed, hopen, hpassed, Nat.not_lt.mpr hslots] at h

end Sys2Proof.Machine
end

section
/-! Roll calls (R381 to R387) and the decision of a two-lane hold (R388, R389): the arbiter's records of the lanes, its reports
and verdicts, and the lanes that leave the mask. -/
namespace Sys2Proof

theorem LaneSet.count_put_false {m : LaneSet} {x : LaneId} (h : m.has x = true) : (m.put x false).count + 1 = m.count := by
  obtain ⟨a, b, c⟩ := m
  revert h
  cases x <;> revert a b c <;> decide

theorem LaneSet.count_ne_zero {m : LaneSet} {x : LaneId} (h : m.has x = true) : m.count ≠ 0 := by
  have := LaneSet.count_put_false h
  omega

theorem LaneSet.eq_empty {m : LaneSet} (h : ∀ x, m.has x = false) : m = LaneSet.empty := by
  obtain ⟨a, b, c⟩ := m
  obtain rfl : a = false := h .A
  obtain rfl : b = false := h .B
  obtain rfl : c = false := h .C
  rfl

theorem LaneSet.has_put_false (m : LaneSet) (x y : LaneId) : (m.put x false).has y = true ↔ m.has y = true ∧ x ≠ y := by
  cases x <;> cases y <;> simp [LaneSet.put, LaneSet.has]

theorem LaneId.num_injective {x y : LaneId} (h : x ≠ y) : x.num ≠ y.num := by
  cases x <;> cases y <;> first | exact absurd rfl h | decide

end Sys2Proof

namespace Sys2Proof.Machine

/-! ### The arbiter's records of the lanes -/

theorem Arb.judge_modJudge_same {a : Arb} {x : LaneId} (f : LaneJudge → LaneJudge) (h : x.num < a.lanes.length) :
    (a.modJudge x f).judge x = f (a.judge x) := by
  simp [Arb.judge, Arb.modJudge, lmod, h]

theorem Arb.judge_modJudge_other (a : Arb) {x y : LaneId} (f : LaneJudge → LaneJudge) (h : y ≠ x) :
    (a.modJudge x f).judge y = a.judge y := by
  simp [Arb.judge, Arb.modJudge, lmod, LaneId.num_injective h.symm]

/-- A field of the records that a change of one of them keeps. -/
theorem Arb.judge_modJudge_keeps {β : Type} {g : LaneJudge → β} {f : LaneJudge → LaneJudge} (h : ∀ j, g (f j) = g j) (a : Arb)
    (x y : LaneId) : g ((a.modJudge x f).judge y) = g (a.judge y) :=
  getD_lmod_keeps h a.lanes x.num y.num judge0

/-- A change of every lane's record is one of each. -/
theorem Arb.judge_foldl_modJudge {a : Arb} {x : LaneId} (f : LaneId → LaneJudge → LaneJudge) (h : x.num < a.lanes.length) :
    ([LaneId.A, .B, .C].foldl (fun a y => a.modJudge y (f y)) a).judge x = f x (a.judge x) := by
  have hlen (a : Arb) (y : LaneId) (g : LaneJudge → LaneJudge) : (a.modJudge y g).lanes.length = a.lanes.length :=
    List.length_modify ..
  simp only [List.foldl]
  cases x
  · rw [Arb.judge_modJudge_other _ _ (by decide), Arb.judge_modJudge_other _ _ (by decide), Arb.judge_modJudge_same _ h]
  · rw [Arb.judge_modJudge_other _ _ (by decide), Arb.judge_modJudge_same _ (by rwa [hlen]),
      Arb.judge_modJudge_other _ _ (by decide)]
  · rw [Arb.judge_modJudge_same _ (by rwa [hlen, hlen]), Arb.judge_modJudge_other _ _ (by decide),
      Arb.judge_modJudge_other _ _ (by decide)]

@[simp] theorem Arb.judge_irq (a : Arb) (v : Nat) (x : LaneId) : (a.irq v).judge x = a.judge x :=
  (congrArg (fun b : Arb => b.judge x) (a.irq_frame v) :)

/-! ### Lanes that leave the mask (R386, R388) -/

/-- Several lanes excluded one after the other, each with its cause. -/
def Arb.excludeAll (a : Arb) (xs : List (LaneId × Nat)) : Arb := xs.foldl (fun a x => a.exclude x.1 x.2) a

/-- An exclusion takes the named lanes from the next mask and no other. -/
theorem Arb.excludeAll_has (a : Arb) (xs : List (LaneId × Nat)) (y : LaneId) :
    (a.excludeAll xs).nextMask.has y = true ↔ a.nextMask.has y = true ∧ ∀ p ∈ xs, p.1 ≠ y := by
  induction xs generalizing a with
  | nil => simp [Arb.excludeAll]
  | cons p xs ih =>
    have hone : (a.exclude p.1 p.2).nextMask = a.nextMask.put p.1 false := rfl
    rw [Arb.excludeAll, List.foldl_cons, ← Arb.excludeAll, ih, hone, LaneSet.has_put_false, List.forall_mem_cons, and_assoc]

/-- A field of the lanes' records that no exclusion changes. -/
theorem Arb.judge_excludeAll_keeps {β : Type} {g : LaneJudge → β}
    (h : ∀ (j : LaneJudge) (b : Bool), g { j with window := [], badRun := 0, manual := b } = g j) (a : Arb)
    (xs : List (LaneId × Nat)) (y : LaneId) : g ((a.excludeAll xs).judge y) = g (a.judge y) :=
  foldl_keeps (fun (a : Arb) (p : LaneId × Nat) => a.exclude p.1 p.2) (fun a => g (a.judge y))
    (fun a p => Arb.judge_modJudge_keeps (a := { a with nextMask := a.nextMask.put p.1 false }) (fun j => h j _) p.1 y) xs a

/-- With a lane left the exclusions wait for the next strobe. -/
theorem State.excludeLanes_some {s : State} {xs : List (LaneId × Nat)} (h : (s.arb.excludeAll xs).nextMask.count ≠ 0) :
    s.excludeLanes xs = s.onArb fun a => a.excludeAll xs := by
  unfold State.excludeLanes
  split
  case isTrue hnone =>
    obtain rfl := List.isEmpty_iff.mp hnone
    rfl
  case isFalse => exact if_neg h

/-- With no lane left the empty mask acts at once. -/
theorem State.excludeLanes_all {s : State} {xs : List (LaneId × Nat)} (hsome : xs ≠ [])
    (h : (s.arb.excludeAll xs).nextMask.count = 0) : s.excludeLanes xs = (s.onArb fun a => a.excludeAll xs).emptyMask :=
  (if_neg (by simpa using hsome)).trans (if_pos h)

/-- Behind an empty mask no lane takes part, the gate is shut and the voted outputs are at their defaults. -/
theorem State.emptyMask_arb (s : State) : s.emptyMask.arb.mask = LaneSet.empty ∧ s.emptyMask.arb.nextMask = LaneSet.empty ∧
    s.emptyMask.arb.agreed = false ∧ s.emptyMask.arb.gateOpen = false := by
  simp only [State.emptyMask, State.onArb_arb, Arb.irq_mask, Arb.irq_nextMask, Arb.irq_agreed, Arb.irq_gateOpen,
    apply_ite Arb.mask, apply_ite Arb.nextMask, apply_ite Arb.agreed, apply_ite Arb.gateOpen, ite_self]
  refine ⟨rfl, rfl, rfl, ?_⟩
  simp (disch := decide) only [Arb.gateOpen, Arb.reg, fbool, fget_fset_off, fget_fset_same]
  rfl

/-! ### Polls and reports (R381 to R383) -/

theorem exec_rollCall {s : State} {v : Bool} (hdue : s.arb.rollDue = true) (hrolling : s.arb.rolling = v) :
    exec (.rollCall v) s = .next (if v then s.rollVerdict else s.poll) :=
  congrArg Host.Outcome.next (if_neg (by simp [hdue, hrolling]))

theorem Arb.rollDue_of {a : Arb} (hruns : a.runs = true) (hagreed : a.agreed = true)
    (hphase : a.slot.toNat % 20 = fget a.regs f_ARB_ROLLCFG_ROLLPHASE) : a.rollDue = true := by
  simp [Arb.rollDue, hruns, hagreed, hphase]

/-- A lane's record once it has been polled; a lane held in reset is not. -/
def LaneJudge.asked (j : LaneJudge) (life : LaneLife) : LaneJudge := { j with polled := life != .held, answered := false }

/-- The arbiter's records once every lane has been polled. -/
def State.asked (s : State) : Arb := [LaneId.A, .B, .C].foldl (fun a x => a.modJudge x fun j => j.asked (s.lane x).life) s.arb

theorem State.poll_eq (s : State) : s.poll = { s with
    arb := { s.arb with lanes := s.asked.lanes, rolling := true, downLinks := s.downNow } } := by
  have hframe : { s.asked with lanes := s.arb.lanes } = s.arb :=
    Arb.foldl_modJudge_frame (fun x j => j.asked (s.lane x).life) _ _
  have hpoll : s.poll = { s with arb := { s.asked with rolling := true, downLinks := s.downNow } } := rfl
  rw [hpoll]
  generalize s.asked = a at hframe
  rw [← hframe]

theorem State.asked_judge {s : State} {x : LaneId} (h : x.num < s.arb.lanes.length) :
    s.asked.judge x = (s.arb.judge x).asked (s.lane x).life :=
  Arb.judge_foldl_modJudge (fun x j => j.asked (s.lane x).life) h

/-- A report is in force when its CRC is good and it follows the one before (R383). -/
def LaneJudge.accepts (j : LaneJudge) (r : Report) (crcOk : Bool) : Bool :=
  crcOk && (match j.nextSeq with | none => true | some n => decide (r.rseq = n))

/-- The record of a lane whose report has arrived. -/
def LaneJudge.heard (j : LaneJudge) (r : Report) (good : Bool) : LaneJudge :=
  { j with rep := if good then r else j.rep, polled := false, answered := good, missed := !good,
           nextSeq := some ((r.rseq + 1) % 65536) }

/-- A report changes the lane's record, and a new rejoin state is cause 10. -/
theorem Arb.takeReport_eq (a : Arb) (x : LaneId) (r : Report) (crcOk : Bool) : a.takeReport x r crcOk =
    if (a.judge x).accepts r crcOk && decide (r.state ≠ (a.judge x).rep.state) then
      (a.modJudge x fun j => j.heard r ((a.judge x).accepts r crcOk)).irq 10
    else a.modJudge x fun j => j.heard r ((a.judge x).accepts r crcOk) := rfl

@[simp] theorem Arb.takeReport_agreed (a : Arb) (x : LaneId) (r : Report) (crcOk : Bool) :
    (a.takeReport x r crcOk).agreed = a.agreed := by
  rw [Arb.takeReport_eq]
  split
  · exact Arb.irq_agreed _ _
  · rfl

theorem Arb.takeReport_judge (a : Arb) (x y : LaneId) (r : Report) (crcOk : Bool) :
    (a.takeReport x r crcOk).judge y = (a.modJudge x fun j => j.heard r ((a.judge x).accepts r crcOk)).judge y := by
  rw [Arb.takeReport_eq]
  split
  · exact Arb.judge_irq _ _ _
  · rfl

/-- After first agreement a polled lane's report changes its record and the lane's own counts. -/
theorem exec_rollCallReport {s : State} {x : LaneId} (temp : Int) (crcOk : Bool) (hruns : s.arb.runs = true)
    (hagreed : s.arb.agreed = true) (hpolled : (s.arb.judge x).polled = true) (hlife : (s.lane x).life ≠ .held)
    (htrip : (s.lane x).trip = none) : exec (.rollCallReport x temp crcOk) s =
      .next ((s.onLane x Lane.reported).onArb fun a => a.takeReport x ((s.lane x).report temp) crcOk) := by
  have hreports : (s.lane x).reportsNow = true := by simp [Lane.reportsNow, hlife, htrip]
  refine congrArg Host.Outcome.next ((if_pos (by simp [hruns, hpolled, hreports])).trans (if_pos ?_))
  simp [hagreed]

/-! ### Verdicts (R385) -/

/-- The record of a lane at the end of a poll; `member` tells whether it takes part. -/
def LaneJudge.pollEnded (j : LaneJudge) (member : Bool) : LaneJudge :=
  let miss := !j.answered && (j.polled || member)
  { j with polled := false, missed := miss, missedRun := if miss then j.missedRun + 1 else 0 }

/-- The end of a poll changes the lanes' records and the scores shown. -/
theorem Arb.endPolls_frame (a : Arb) : { a.endPolls with lanes := a.lanes, regs := a.regs, rolling := a.rolling } = a := by
  have hscores := foldl_keeps Arb.takeScore (fun b => { b with lanes := a.lanes, regs := a.regs, rolling := a.rolling })
    (fun _ _ => rfl) [.A, .B, .C] ([LaneId.A, .B, .C].foldl Arb.endPoll { a with rolling := false })
  have hpolls := foldl_keeps Arb.endPoll (fun b => { b with lanes := a.lanes, regs := a.regs, rolling := a.rolling })
    (fun _ _ => rfl) [.A, .B, .C] { a with rolling := false }
  exact hscores.trans hpolls

theorem Arb.endPolls_mask (a : Arb) : a.endPolls.mask = a.mask := (congrArg Arb.mask a.endPolls_frame :)
theorem Arb.endPolls_nextMask (a : Arb) : a.endPolls.nextMask = a.nextMask := (congrArg Arb.nextMask a.endPolls_frame :)
theorem Arb.endPolls_judge {a : Arb} {x : LaneId} (h : x.num < a.lanes.length) :
    a.endPolls.judge x = (a.judge x).pollEnded (a.mask.has x) :=
  Arb.judge_foldl_modJudge (a := { a with rolling := false }) (fun y j => j.pollEnded (a.mask.has y)) h

/-- The lanes found guilty are the members that meet a criterion. -/
theorem Arb.mem_guilty {a : Arb} {x : LaneId} {n : Nat} :
    (x, n) ∈ a.guilty ↔ a.mask.has x = true ∧ a.nextMask.has x = true ∧ a.criterion x ≠ 0 ∧ a.criterion x = n := by
  simp only [Arb.guilty, List.mem_filterMap, List.mem_filter, LaneSet.mem_toList]
  constructor
  · rintro ⟨y, ⟨hmember, hnext⟩, hy⟩
    split at hy
    case isTrue => cases hy
    case isFalse hmeets =>
      cases hy
      exact ⟨hmember, hnext, hmeets, rfl⟩
  · rintro ⟨hmember, hnext, hmeets, rfl⟩
    exact ⟨x, ⟨hmember, hnext⟩, if_neg hmeets⟩

/-- A solve's part in a roll call is the arbiter's record of the solve. -/
theorem State.judgeSolve_eq (s : State) : ∃ v, s.judgeSolve = s.onArb fun a => { a with solve := v } := by
  unfold State.judgeSolve
  dsimp only
  split
  · exact ⟨_, rfl⟩
  · split
    · exact ⟨_, rfl⟩
    · split <;> exact ⟨_, rfl⟩

/-- The grant of a rejoin changes what the arbiter shows of it. -/
theorem Arb.grant_frame (a : Arb) : { a.grant with joining := a.joining, dramDone := a.dramDone, regs := a.regs } = a := by
  unfold Arb.grant
  split <;> rfl

theorem State.islandLost_arb (s : State) : ∃ b, s.islandLost.arb = { s.arb with islSeen := b } := by
  unfold State.islandLost
  split
  · exact ⟨_, rfl⟩
  · exact ⟨_, rfl⟩

theorem Arb.excludeAll_solve (v : ArbSolve) (xs : List (LaneId × Nat)) (a : Arb) :
    ({ a with solve := v } : Arb).excludeAll xs = { a.excludeAll xs with solve := v } := by
  induction xs generalizing a with
  | nil => rfl
  | cons p xs ih => exact ih (a.exclude p.1 p.2)

/-- After the polls: the exclusions, the solve, the grant of a rejoin and the island. -/
def State.verdicts (u : State) : State :=
  let t := u.judgeSolve.excludeLanes u.arb.guilty
  if t.arb.nextMask.count = 0 then t else (t.onArb Arb.grant).islandLost

theorem State.rollVerdict_eq (s : State) : s.rollVerdict = (s.onArb Arb.endPolls).verdicts := rfl

/-- Verdicts that leave a lane in the mask leave the next mask and the lanes' records as the exclusions do. -/
theorem State.verdicts_some {u : State} (h : (u.arb.excludeAll u.arb.guilty).nextMask.count ≠ 0) :
    u.verdicts.arb.nextMask = (u.arb.excludeAll u.arb.guilty).nextMask ∧
    u.verdicts.arb.lanes = (u.arb.excludeAll u.arb.guilty).lanes := by
  obtain ⟨v, hsolve⟩ := u.judgeSolve_eq
  have hall := Arb.excludeAll_solve v u.arb.guilty u.arb
  have hexcluded : u.judgeSolve.excludeLanes u.arb.guilty =
      { u with arb := { u.arb.excludeAll u.arb.guilty with solve := v } } := by
    rw [hsolve, State.excludeLanes_some]
    · rw [State.onArb, State.onArb, hall]
    · rw [State.onArb, hall]
      exact h
  rw [State.verdicts, hexcluded]
  dsimp only
  rw [if_neg h]
  generalize u.arb.excludeAll u.arb.guilty = e
  obtain ⟨b, hisland⟩ := (State.onArb { u with arb := { e with solve := v } } Arb.grant).islandLost_arb
  have hgrant := Arb.grant_frame { e with solve := v }
  rw [hisland]
  exact ⟨(congrArg Arb.nextMask hgrant :), (congrArg Arb.lanes hgrant :)⟩

/-! ### The obligation on roll calls -/

/-- Settles O26: the poll by `State.poll_eq`, the report by `Arb.takeReport_judge`, the verdict by `State.rollVerdict_some` with
`Arb.mem_guilty`. That a report with a bad CRC moves the sequence on is log 87, and that the links agreed down are noted at the
poll is log 174. -/
theorem rollCallsPollAndJudge : Obligations.RollCallsPollAndJudge := by
  unfold Obligations.RollCallsPollAndJudge
  refine ⟨fun s hruns hagreed hrolling hphase => ?poll, fun s x temp ok hruns hagreed hpolled hx hlife htrip => ?report,
    fun s x hruns hpolled => ?timeout, fun s hruns hagreed hrolling hmasks hphase hsome => ?verdict⟩
  case poll =>
    refine ⟨s.asked.lanes, ?_, fun x hx => State.asked_judge hx⟩
    rw [exec_rollCall (Arb.rollDue_of hruns hagreed hphase) hrolling, if_neg Bool.false_ne_true, State.poll_eq]
  case report =>
    intro j r
    have hother {y : LaneId} (hy : y ≠ x) : (s.arb.takeReport x r ok).judge y = s.arb.judge y :=
      (Arb.takeReport_judge _ _ _ _ _).trans (Arb.judge_modJudge_other _ _ hy)
    have hsame : (s.arb.takeReport x r ok).judge x = j.heard r (j.accepts r ok) :=
      (Arb.takeReport_judge _ _ _ _ _).trans (Arb.judge_modJudge_same _ hx)
    refine ⟨_, exec_rollCallReport temp ok hruns hagreed hpolled hlife htrip, ?_, fun y hy => ⟨?_, ?_⟩,
      fun hok hnext => ?_, fun hbad => ?_⟩
    · rw [State.lane_onArb, State.lane_onLane_same]
      rfl
    · rw [State.lane_onArb, State.lane_onLane_other _ _ hy]
    · rw [State.onArb_arb, State.onLane_arb]
      exact hother hy
    all_goals rw [State.onArb_arb, State.onLane_arb]
    · have haccepts : j.accepts r ok = true := by
        rcases hnext with h | h <;> simp [LaneJudge.accepts, hok, h]
      rw [hsame, haccepts]
      rfl
    · have hrefused : j.accepts r ok = false := by
        rcases hbad with h | ⟨n, h, hn⟩
        · simp [LaneJudge.accepts, h]
        · simp [LaneJudge.accepts, h, hn.symm]
      rw [hsame, hrefused]
      rfl
  case timeout => exact congrArg Host.Outcome.next (if_pos (by simp [hruns, hpolled]))
  case verdict =>
    have hstays (x : LaneId) : (s.arb.endPolls.excludeAll s.arb.endPolls.guilty).nextMask.has x = true ↔
        s.arb.mask.has x = true ∧ s.arb.endPolls.criterion x = 0 := by
      rw [Arb.excludeAll_has, Arb.endPolls_nextMask, ← hmasks]
      refine and_congr_right fun hmember => ?_
      constructor
      · intro hfree
        by_contra hmeets
        refine hfree _ (Arb.mem_guilty.mpr ⟨?_, ?_, hmeets, rfl⟩) rfl
        · rwa [Arb.endPolls_mask]
        · rwa [Arb.endPolls_nextMask, ← hmasks]
      · rintro hnone ⟨y, n⟩ hy rfl
        obtain ⟨-, -, hmeets, -⟩ := Arb.mem_guilty.mp hy
        exact hmeets hnone
    obtain ⟨z, hz⟩ := hsome
    obtain ⟨hmask, hlanes⟩ := State.verdicts_some (u := s.onArb Arb.endPolls) (LaneSet.count_ne_zero ((hstays z).mpr hz))
    refine ⟨(s.onArb Arb.endPolls).verdicts, ?_, fun x => ?_, fun x hx => ?_⟩
    · rw [exec_rollCall (Arb.rollDue_of hruns hagreed hphase) hrolling, if_pos rfl, State.rollVerdict_eq]
    · rw [hmask, State.onArb_arb, Bool.eq_iff_iff, hstays, Bool.and_eq_true, decide_eq_true_eq]
    · have hjudge : (s.onArb Arb.endPolls).verdicts.arb.judge x =
          (s.arb.endPolls.excludeAll s.arb.endPolls.guilty).judge x :=
        congrArg (fun ls : List LaneJudge => ls.getD x.num judge0) hlanes
      have hkept := Arb.judge_excludeAll_keeps (g := fun j => (j.missed, j.missedRun)) (fun _ _ => rfl) s.arb.endPolls
        s.arb.endPolls.guilty x
      rw [Arb.endPolls_judge hx, ← hjudge] at hkept
      exact Prod.mk.inj hkept

end Sys2Proof.Machine
end

section
/-! The decision of a two-lane hold (R389): which evidence singles out a lane, and what leaves the mask. -/
namespace Sys2Proof.Machine

/-! ### Evidence (Table 13-6) -/

theorem singled_mem {p : LaneId → Bool} {xs : List LaneId} {x : LaneId} (h : singled p xs = some x) : x ∈ xs := by
  unfold singled at h
  split at h
  · split at h
    · cases h; simp
    · split at h
      · cases h; simp
      · cases h
  · cases h

/-- A first choice or, without it, a second. -/
theorem orElse_cases {α : Type} {o : Option α} {f : Unit → Option α} {a : α} (h : o.orElse f = some a) :
    o = some a ∨ f () = some a := by
  cases o with
  | none => exact .inr h
  | some b => exact .inl h

/-- Evidence names a member. -/
theorem Arb.evidence_member {a : Arb} {x : LaneId} {e : Nat} (h : a.evidence = some (x, e)) : a.mask.has x = true := by
  have hitem {p : LaneId → Bool} {n : Nat} (h : (singled p a.mask.toList).map (fun y => (y, n)) = some (x, e)) :
      x ∈ a.mask.toList := by
    obtain ⟨y, hy, heq⟩ := Option.map_eq_some_iff.mp h
    obtain ⟨rfl, -⟩ := Prod.mk.inj heq
    exact singled_mem hy
  rw [← LaneSet.mem_toList]
  rcases orElse_cases h with h | h
  · exact hitem h
  · rcases orElse_cases h with h | h <;> exact hitem h

/-- The first evidence is an END frame that exactly one of the two lanes has got wrong. -/
theorem Arb.evidence_endFrame {a : Arb} {x y : LaneId} (hmask : a.mask.toList = [x, y] ∨ a.mask.toList = [y, x])
    (hbad : a.hold.endBad.has x = true) (hgood : a.hold.endBad.has y = false) : a.evidence = some (x, 1) := by
  rcases hmask with h | h <;> simp [Arb.evidence, h, singled, hbad, hgood]

/-! ### The decision -/

/-- The device once a decision has been taken, before any lane leaves. -/
def State.holdDecided (s : State) (count : Fld) (e : Nat) : State :=
  s.onArb fun a => { a with hold := { a.hold with snap := false }, regs := fset (fbump a.regs count) f_ARB_HOLD_EVIDENCE e }

theorem State.snapDecide_some {s : State} {x : LaneId} {e : Nat} (hcount : s.arb.mask.count = 2)
    (hmasks : s.arb.nextMask = s.arb.mask) (h : s.arb.evidence = some (x, e)) :
    s.snapDecide = (s.holdDecided f_ARB_HOLD_DECIDED e).onArb fun a => a.exclude x 6 := by
  have hleft : (s.arb.nextMask.put x false).count ≠ 0 := by
    have := LaneSet.count_put_false (Arb.evidence_member h)
    rw [hmasks]
    omega
  unfold State.snapDecide
  dsimp only
  rw [if_neg (by simp [hmasks, hcount]), h]
  exact State.excludeLanes_one _ hleft

theorem State.snapDecide_none {s : State} (hcount : s.arb.mask.count = 2) (hmasks : s.arb.nextMask = s.arb.mask)
    (h : s.arb.evidence = none) : ∃ t : State, s.snapDecide = t.emptyMask := by
  have hleaves (a : Arb) (ha : a.nextMask = s.arb.mask) :
      (a.excludeAll (s.arb.mask.toList.map fun x => (x, 6))).nextMask.count = 0 := by
    refine congrArg LaneSet.count (LaneSet.eq_empty fun x => Bool.eq_false_iff.mpr fun hx => ?_)
    obtain ⟨hmember, hfree⟩ := (Arb.excludeAll_has _ _ _).mp hx
    exact hfree (x, 6) (List.mem_map_of_mem ((LaneSet.mem_toList _ _).mpr (ha ▸ hmember))) rfl
  have hsome : s.arb.mask.toList.map (fun x => (x, 6)) ≠ [] := by
    intro hnil
    have : s.arb.mask.count = 0 := congrArg List.length (List.map_eq_nil_iff.mp hnil)
    omega
  unfold State.snapDecide
  dsimp only
  rw [if_neg (by simp [hmasks, hcount]), h]
  exact ⟨_, State.excludeLanes_all hsome (hleaves _ hmasks)⟩

theorem exec_snapRollCallDecision {s : State} (h : s.arb.snapDue = true) :
    exec .snapRollCallDecision s = .next s.snapDecide :=
  congrArg Host.Outcome.next (if_pos h)

/-- Settles O27: `State.snapDecide_some` where evidence singles out a lane, `State.snapDecide_none` with
`State.emptyMask_arb` where none does. That a decision waits for the close of the held slot is log 88. -/
theorem twoLaneHoldsAreDecided : Obligations.TwoLaneHoldsAreDecided := by
  unfold Obligations.TwoLaneHoldsAreDecided
  refine ⟨fun s x e hdue hcount hmasks hevidence => ?decided, fun a x y => Arb.evidence_endFrame,
    fun s hdue hcount hmasks hnone => ?undecided⟩
  case decided =>
    have hleft := LaneSet.count_put_false (Arb.evidence_member hevidence)
    refine ⟨_, exec_snapRollCallDecision hdue, ?_⟩
    rw [State.snapDecide_some hcount hmasks hevidence]
    have hregs : ((s.holdDecided f_ARB_HOLD_DECIDED e).arb.exclude x 6).regs =
        fbump (fset (fset (fbump s.arb.regs f_ARB_HOLD_DECIDED) f_ARB_HOLD_EVIDENCE e) (laneFld f_ARB_LANESTAT_CAUSE x) 6)
          f_ARB_EXCNT_EXCLCNT := rfl
    refine ⟨congrArg (fun m : LaneSet => m.put x false) hmasks, ?_, rfl, ?_, ?_, ?_, ?_, fun y => State.lane_onArb _ _ _⟩
    · exact (congrArg (fun m : LaneSet => (m.put x false).count) hmasks).trans (by omega)
    all_goals
      rw [State.onArb_arb, hregs]
    · cases x <;> simp (disch := decide) only [fget_fbump_off, fget_fset_same] <;> rfl
    · cases x <;> simp (disch := decide) only [fget_fbump_off, fget_fset_off, fget_fset_same] <;> rfl
    · cases x <;> simp (disch := decide) only [fget_fbump_off, fget_fset_off, fget_fbump_same] <;> rfl
    · cases x <;> simp (disch := decide) only [fget_fbump_off, fget_fset_off]
  case undecided =>
    obtain ⟨t, ht⟩ := State.snapDecide_none hcount hmasks hnone
    obtain ⟨hmask, hnext, hagreed, hgate⟩ := t.emptyMask_arb
    rw [exec_snapRollCallDecision hdue, ht]
    exact ⟨_, rfl, hmask, hnext, (Arb.guarded_iff _).mpr t.emptyMask_guarded (.inr (.inr hgate)), hgate, hagreed⟩

end Sys2Proof.Machine
end

section
/-! Resets of the device (R406, R417, R426, R475, R476): RESET_N and the hold record, the arbiter's supply, and the loss of the
backup domain's. -/
namespace Sys2Proof.Machine

/-! ### RESET_N (R475, R476) -/

/-- The hold record once RESET_N has fallen at `at0`. -/
def Backup.holdOpened (b : Backup) (at0 : Nat) : Backup := { b with holdFrom := some at0, wasReset := true }

theorem Backup.holdOpened_frame {b : Backup} (at0 : Nat) (h : b.holdFrom = none) :
    { b.holdOpened at0 with holdFrom := none, wasReset := b.wasReset } = b := by
  rw [← h]
  rfl

/-- The start of a hold: a stamp, every lane tripped and reset, and cause 12 where a lane metered. -/
theorem exec_resetNFall {s : State} (h : s.bak.holdFrom = none) : ∃ at0 free, exec .resetNFall s = .next
      { s.onLanes (fun x l => l.tripReset x) with
        arb := if s.anyMeters then s.arb.irq 12 else s.arb, bak := s.bak.holdOpened at0, free := free } ∧
    ∀ y, s.rtcLead = some y → at0 = (s.lane y).rtc.ticks := by
  refine ⟨_, _, congrArg Host.Outcome.next (if_neg (by simp [h])), fun y hy => ?_⟩
  simp only [hy]

theorem State.holdSeconds_lead {s : State} {y : LaneId} (at0 : Nat) (h : s.rtcLead = some y) :
    s.holdSeconds at0 = min (2 ^ 32 - 1) (((s.lane y).rtc.ticks - at0) / 2 ^ 32) := by
  rw [State.holdSeconds, h]
  rfl

theorem exec_arbiterResetEntry {s : State} {at0 : Nat} (h : s.bak.holdFrom = some at0) :
    exec .arbiterResetEntry s = .next { s with arb := s.arb.held } :=
  congrArg Host.Outcome.next (if_pos (by simp [h]))

theorem exec_resetNRise {s : State} {at0 : Nat} {y : LaneId} (h : s.bak.holdFrom = some at0) (hy : s.rtcLead = some y) :
    exec .resetNRise s = .next { s with
      arb := s.arb.held, bak := { s.bak with holdFrom := none, holdSec := s.holdSeconds at0 } } := by
  change execResetNRise s = _
  simp only [execResetNRise, h, hy]

/-! ### The obligation -/

/-- Settles O36: the hold by `exec_resetNFall` and `State.holdSeconds_lead`, each lane by `Lane.afterReset_frame`, the arbiter by
its reset state. That the loss of the backup domain resets lanes and arbiter and keeps the island is log 39. -/
theorem deviceResetsKeepTheirRecords : Obligations.DeviceResetsKeepTheirRecords := by
  unfold Obligations.DeviceResetsKeepTheirRecords
  refine ⟨fun s hnone => ?fall, fun s at0 hhold => ⟨exec_arbiterResetEntry hhold, fun y hy => ?rise⟩, fun s => rfl, fun s => ?mains,
    fun s => ?backup⟩
  case fall =>
    obtain ⟨at0, free, hexec, hstamp⟩ := exec_resetNFall hnone
    refine ⟨_, hexec, rfl, rfl, ?_, ?_, Backup.holdOpened_frame at0 hnone, fun y hy => congrArg some (hstamp y hy), fun x => ?_⟩
    · dsimp only
      split <;> simp
    · dsimp only
      split <;> simp
    · cases x <;> exact Lane.afterReset_frame _ _
  case rise =>
    rw [exec_resetNRise hhold hy, State.holdSeconds_lead at0 hy]
    rfl
  case mains =>
    refine ⟨_, rfl, rfl, rfl, fun x => ?_⟩
    cases x <;> rfl
  case backup =>
    refine ⟨_, rfl, rfl, rfl, rfl, rfl, rfl, fun x => ?_⟩
    cases x <;> exact ⟨rfl, rfl, rfl⟩

end Sys2Proof.Machine
end

section
/-! The phases of a rejoin (R395 to R397): the bulk copy, the DRAM part, the delta passes and the handover slot. -/
namespace Sys2Proof.Machine

/-! ### The lane that the handover slot makes -/

/-- The stored gate lists come into force in the ports, and change nothing else. -/
theorem Lane.loadGates_ports (l : Lane) (me : LaneId) : ∃ ps, l.loadGates me = { l with ports := ps } := by
  refine List.foldlRecOn (motive := fun m : Lane => ∃ ps : List PortSt, m = { l with ports := ps }) _ _ ⟨l.ports, rfl⟩ fun m hm p _ => ?_
  obtain ⟨ps, rfl⟩ := hm
  unfold Lane.gateEntry
  split <;> exact ⟨_, rfl⟩

/-- A lane at the end of its handover slot. -/
def Lane.enters (m : Lane) (me : LaneId) : Lane := { (m.loadGates me).holdPins me with handover := true }

theorem Lane.enters_eq (m : Lane) (me : LaneId) :
    ∃ ps t, m.enters me = { m with ports := ps, time := t, handover := true } := by
  obtain ⟨ps, h⟩ := m.loadGates_ports me
  rw [Lane.enters, h]
  exact ⟨ps, _, rfl⟩

/-- What the joiner has of the donor, and what stays its own (R397, Table 13-8). -/
theorem Lane.takeRucksack_fields (l d : Lane) : (l.takeRucksack d).slot = d.slot ∧ (l.takeRucksack d).dict.vals = d.dict.vals ∧
    (l.takeRucksack d).feeders = d.feeders ∧ (l.takeRucksack d).thm = d.thm ∧ (l.takeRucksack d).keyA = d.keyA ∧
    (l.takeRucksack d).img = d.img ∧ (l.takeRucksack d).rtc = l.rtc ∧ (l.takeRucksack d).rtdOwn = l.rtdOwn :=
  ⟨rfl, rfl, rfl, rfl, rfl, rfl, rfl, rfl⟩

/-- The joiner with the donor's rucksack, in state 5. -/
def Lane.joined (l d : Lane) (me : LaneId) : Lane := ((l.takeRucksack d).setRj 5).enters me

theorem Lane.joined_fields (l d : Lane) (me : LaneId) : (l.joined d me).rj = 5 ∧ (l.joined d me).slot = d.slot ∧
    (l.joined d me).dict.vals = d.dict.vals ∧ (l.joined d me).feeders = d.feeders ∧ (l.joined d me).thm = d.thm ∧
    (l.joined d me).keyA = d.keyA ∧ (l.joined d me).img = d.img ∧ (l.joined d me).rtc = l.rtc ∧
    (l.joined d me).rtdOwn = l.rtdOwn := by
  obtain ⟨hslot, hvals, hfeeders, hthm, hkey, himg, hrtc, hrtd⟩ := l.takeRucksack_fields d
  have hrj := Lane.rj_setRj (l.takeRucksack d) (n := 5) (by decide)
  obtain ⟨ps, t, henters⟩ := ((l.takeRucksack d).setRj 5).enters_eq me
  rw [Lane.joined, henters]
  exact ⟨hrj, hslot, hvals, hfeeders, hthm, hkey, himg, hrtc, hrtd⟩

/-! ### The phases -/

theorem State.joinPhase_eq (s : State) (p : Nat) (f : Lane → Lane) : s.joinPhase p f =
    { s.setLane s.arb.joiner (f (s.lane s.arb.joiner)) with arb := { s.arb with regs := fset s.arb.regs f_ARB_JOIN_PHASE p } } := by
  rw [State.joinPhase, State.onArb, State.onLane_arb]
  rfl

theorem State.handover_heard (s : State) : s.handover true = { s.setLane s.arb.joiner
      ((s.lane s.arb.joiner).joined (s.lane s.arb.donor) s.arb.joiner) with
    arb := { s.arb with regs := fset s.arb.regs f_ARB_JOIN_PHASE 4, strobe := { s.arb.strobe with joinPhase := 4 } } } := by
  have h : s.handover true = (s.joinPhase 4 fun l => l.joined (s.lane s.arb.donor) s.arb.joiner).onArb fun a =>
      { a with strobe := { a.strobe with joinPhase := 4 } } := rfl
  rw [h, State.joinPhase_eq]
  rfl

/-- Settles O29: each phase under its condition, and the handover slot by `Lane.joined_fields`. -/
theorem copiesGoThroughTheirPhases : Obligations.CopiesGoThroughTheirPhases := by
  unfold Obligations.CopiesGoThroughTheirPhases
  refine ⟨fun s hruns hphase hrj => ?bulk, fun s hruns hphase hrj => ?dram, fun s marked hruns hphase hrj hmarked => ?delta,
    fun s delta t0 hruns hphase hrj hpasses hdelta hdram hticks hready => ?handover⟩
  case bulk =>
    refine congrArg Host.Outcome.next ((if_pos (by simp [hruns, hphase, hrj])).trans ?_)
    rw [State.joinPhase_eq]
    rfl
  case dram =>
    refine congrArg Host.Outcome.next ((if_pos (by simp [hruns, hphase, hrj])).trans ?_)
    rw [State.joinPhase_eq]
    rfl
  case delta => exact congrArg Host.Outcome.next (if_pos (by simp [hruns, hphase, hrj, hmarked]))
  case handover =>
    have hopen : s.arb.handoverOpen = true := by simp [Arb.handoverOpen, hdram, hticks]
    refine ⟨_, congrArg Host.Outcome.next ((if_pos ?_).trans s.handover_heard), Lane.joined_fields _ _ _⟩
    simp [hruns, hphase, hrj, hpasses, hdelta, hopen, hready]

end Sys2Proof.Machine
end

section
/-! Bus errors and what they report (R435, R457), the resets and power states of the endpoint (R427, R456, R494), and the limit of a
stalled access (R448). -/
namespace Sys2Proof.Machine

/-! ### Bus errors -/

/-- The registers once a bus error has been captured, which it is where RERR and WERR are both clear. -/
def Arb.captured (a : Arb) (r : HostReq) (write : Bool) (cause : Nat) : RegMap :=
  if fget a.regs f_ARB_HERR_RERR = 0 ∧ fget a.regs f_ARB_HERR_WERR = 0 then
    let m := fset (fset a.regs f_ARB_HERRADDR_SPACE (reqSpace r)) f_ARB_HERRADDR_ADDR r.addr
    let m := fset (fbool (fset m f_ARB_HERRINFO_CAUSE cause) f_ARB_HERRINFO_WRITE write) f_ARB_HERRINFO_LEN r.dws
    fset (fset m f_ARB_HERRINFO_LASTBE (if r.dws = 1 then 0 else r.lbe.toNat)) f_ARB_HERRINFO_FIRSTBE r.fbe.toNat
  else a.regs

/-- The registers once a bus error has been captured and counted. -/
def Arb.counted (a : Arb) (r : HostReq) (write : Bool) (cause : Nat) : RegMap :=
  if write then fflag (fbump (a.captured r true cause) f_ARB_HERR_WERRCNT) f_ARB_HERR_WERR
  else fflag (fbump (a.captured r false cause) f_ARB_HERR_RERRCNT) f_ARB_HERR_RERR

theorem Arb.countError_read {a : Arb} (r : HostReq) (c : Nat) (h : a.fault = false) :
    a.countError r false c = { a with regs := a.counted r false c } := by
  simp only [Arb.countError, Arb.counted, Arb.captured, h, Bool.false_eq_true, if_false]

theorem Arb.countError_write {a : Arb} (r : HostReq) (c : Nat) (h : a.fault = false) :
    a.countError r true c = ({ a with regs := a.counted r true c } : Arb).irq 0 := by
  simp only [Arb.countError, Arb.counted, Arb.captured, h, Bool.false_eq_true, if_false, if_true]

/-- The capture writes ARB_HERRADDR and ARB_HERRINFO. -/
theorem Arb.rget_captured (a : Arb) (r : HostReq) (write : Bool) (c : Nat) {k : Nat} (haddr : k ≠ f_ARB_HERRADDR_ADDR.key)
    (hinfo : k ≠ f_ARB_HERRINFO_CAUSE.key) : rget (a.captured r write c) k = rget a.regs k := by
  have hother {f : Fld} (hf : f.key = f_ARB_HERRADDR_ADDR.key ∨ f.key = f_ARB_HERRINFO_CAUSE.key) (m : RegMap) (v : Nat) :
      rget (fset m f v) k = rget m k := by
    rcases hf with h | h
    · exact rget_fset_other m f v (h ▸ haddr)
    · exact rget_fset_other m f v (h ▸ hinfo)
  unfold Arb.captured
  split
  · simp (disch := decide) only [fbool, hother]
  · rfl

theorem Arb.fget_captured (a : Arb) (r : HostReq) (write : Bool) (c : Nat) {f : Fld} (haddr : f.key ≠ f_ARB_HERRADDR_ADDR.key)
    (hinfo : f.key ≠ f_ARB_HERRINFO_CAUSE.key) : fget (a.captured r write c) f = fget a.regs f := by
  rw [fget, fget, a.rget_captured r write c haddr hinfo]

/-- The first bus error's cause is captured. -/
theorem Arb.captured_cause {a : Arb} (r : HostReq) (write : Bool) {c : Nat} (hread : fget a.regs f_ARB_HERR_RERR = 0)
    (hwrite : fget a.regs f_ARB_HERR_WERR = 0) (hc : c < 16) : fget (a.captured r write c) f_ARB_HERRINFO_CAUSE = c := by
  rw [Arb.captured, if_pos ⟨hread, hwrite⟩]
  simp (disch := decide) only [fbool, fget_fset_off, fget_fset_same]
  exact Nat.mod_eq_of_lt hc

/-- What a counted error leaves: its flag and counter, the captured cause, and every other register. -/
theorem fget_errorCount {m : RegMap} {count flag : Fld} (hflag : flag.lo = flag.hi) (hcount : count.lo ≤ count.hi)
    (hhi : count.hi < 32) (hfhi : flag.hi < 32) (happart : count.key ≠ flag.key ∨ count.hi < flag.lo ∨ flag.hi < count.lo) :
    fget (fflag (fbump m count) flag) flag = 1 ∧
    fget (fflag (fbump m count) flag) count = satAdd (2 ^ (count.hi + 1 - count.lo) - 1) (fget m count) 1 :=
  ⟨fget_fflag_same _ hflag hfhi, (fget_fset_off _ _ hflag.le hfhi happart).trans (fget_fbump_same m hcount hhi)⟩

/-- A cause of Table 15-7 changes a bit and what is signalled. -/
theorem Arb.irq_eq (a : Arb) (v : Nat) : ∃ x i, a.irq v = { a with regs := (a.irq v).regs, msix := x, msi := i } := by
  have hframe := a.irq_frame v
  generalize a.irq v = b at *
  refine ⟨b.msix, b.msi, ?_⟩
  rw [← hframe]

theorem exec_registerRead (r : HostReq) (fab : Nat) (s : State) :
    exec (.registerRead r fab) s = .next (s.hostAccess r false fab) :=
  hostRow_pos (ok := fun _ => true) false fab s rfl

theorem State.hostAccess_read_error {s : State} {r : HostReq} {c : Nat} (fab : Nat) (hready : s.HostReady)
    (hfits : reqFits r false = true) (hfault : s.arb.fault = false) (herror : s.arb.busError r false = some c) :
    s.hostAccess r false fab = { s with arb := { s.arb with regs := s.arb.counted r false c, last := .abort } } := by
  rw [State.hostAccess_of_ready fab hready hfits]
  simp only [State.serve, herror, State.onArb, Arb.countError_read r c hfault]
  rfl

theorem State.hostAccess_write_error {s : State} {r : HostReq} {c : Nat} (fab : Nat) (hready : s.HostReady)
    (hfits : reqFits r true = true) (hfault : s.arb.fault = false) (herror : s.arb.busError r true = some c) :
    s.hostAccess r true fab = { s with arb := ({ s.arb with regs := s.arb.counted r true c } : Arb).irq 0 } := by
  rw [State.hostAccess_of_ready fab hready hfits]
  simp only [State.serve, herror, State.onArb, Arb.countError_write r c hfault]
  rfl

/-- Settles O17: the two branches of `State.serve` on a bus error, `State.hostAccess_read_error` and
`State.hostAccess_write_error`. That nothing is counted after a trip is log 50, and the order of the causes is log 70. -/
theorem busErrorsAreReportedNotServed : Obligations.BusErrorsAreReportedNotServed := by
  unfold Obligations.BusErrorsAreReportedNotServed
  refine ⟨fun s r fab c hready hfits hfault herror => ?read, fun s r c hready hfits hfault herror => ?write,
    fun s r hready hfits hfault => ⟨?cause, ?trip⟩⟩
  case read =>
    obtain ⟨hflag, hcount⟩ := fget_errorCount (m := s.arb.captured r false c) (count := f_ARB_HERR_RERRCNT)
      (flag := f_ARB_HERR_RERR) (by decide) (by decide) (by decide) (by decide) (by decide)
    refine ⟨s.arb.counted r false c, ?_, hflag, ?_, fun hrerr hwerr hc => ?_, fun k hkey haddr hinfo => ?_⟩
    · rw [exec_registerRead, State.hostAccess_read_error fab hready hfits hfault herror]
    · exact hcount.trans (congrArg (fun n => satAdd _ n 1) (s.arb.fget_captured r false c (by decide) (by decide)))
    · refine Eq.trans ?_ (Arb.captured_cause r false hrerr hwerr hc)
      exact (fget_fset_other _ _ _ _ (by decide)).trans (fget_fset_other _ _ _ _ (by decide))
    · refine Eq.trans ?_ (s.arb.rget_captured r false c haddr hinfo)
      exact (rget_fset_other _ _ _ hkey).trans (rget_fset_other _ _ _ hkey)
  case write =>
    obtain ⟨hflag, hcount⟩ := fget_errorCount (m := s.arb.captured r true c) (count := f_ARB_HERR_WERRCNT)
      (flag := f_ARB_HERR_WERR) (by decide) (by decide) (by decide) (by decide) (by decide)
    have hreset : s.arb.inReset = false := hready.1
    have hruns : s.arb.runs = true := s.arb.runs_iff.mpr ⟨hreset, hfault⟩
    obtain ⟨x, i, hirq⟩ := ({ s.arb with regs := s.arb.counted r true c } : Arb).irq_eq 0
    rw [Arb.irq_regs, if_pos (show Arb.runs { s.arb with regs := s.arb.counted r true c } = true from hruns)] at hirq
    refine ⟨forBits (s.arb.counted r true c) f_ARB_IRQSTAT_CAUSE (2 ^ 0), x, i, ?_, ?_, ?_, ?_, fun hrerr hwerr hc => ?_,
      fun k hkey haddr hinfo hirq => ?_⟩
    · rw [exec_registerWrite, State.hostAccess_write_error 0 hready hfits hfault herror, hirq]
    · exact (fget_fset_other _ _ _ _ (by decide)).trans hflag
    · refine (fget_fset_other _ _ _ _ (by decide)).trans (hcount.trans ?_)
      exact congrArg (fun n => satAdd _ n 1) (s.arb.fget_captured r true c (by decide) (by decide))
    · exact fget_forBits_bit _ _ _ (by decide) (by decide) (by decide)
    · refine Eq.trans ?_ (Arb.captured_cause r true hrerr hwerr hc)
      exact (fget_fset_other _ _ _ _ (by decide)).trans
        ((fget_fset_other _ _ _ _ (by decide)).trans (fget_fset_other _ _ _ _ (by decide)))
    · refine Eq.trans ?_ (s.arb.rget_captured r true c haddr hinfo)
      exact (rget_fset_other _ _ _ hirq).trans ((rget_fset_other _ _ _ hkey).trans (rget_fset_other _ _ _ hkey))
  case cause => simp [Arb.busError, hfault]
  case trip => rw [exec_registerWrite, State.hostAccess_write_of_fault 0 hready hfault]

/-! ### Resets and power states of the endpoint (R427, R456, R494) -/

/-- The registers at `ks` written with 0. -/
def zeroRegs (ks : List Nat) (m : RegMap) : RegMap := ks.foldl (fun m k => rset m k 0) m

theorem rget_zeroRegs (ks : List Nat) (m : RegMap) (k : Nat) :
    rget (zeroRegs ks m) k = if k ∈ ks then 0 else rget m k := by
  induction ks generalizing m with
  | nil => rfl
  | cons j ks ih =>
    rw [zeroRegs, List.foldl_cons, ← zeroRegs, ih]
    by_cases hks : k ∈ ks
    · simp [hks]
    · by_cases hj : k = j
      · subst hj
        simp
      · simp [hks, hj, rget_rset_other _ _ hj]

/-- A field of a register that reads 0 is 0. -/
theorem fget_of_rget_zero {m : RegMap} {f : Fld} (h : rget m f.key = 0) : fget m f = 0 := by
  simp [fget, h]

/-- The registers that a function-level reset returns besides the mailbox's (R456). -/
def functionRegs : List Nat := [0xF00500, 0xF00504, 0xF00508, 0xF00510, 0xF00514, 0xF80100]
/-- The mailbox's indices and counters. -/
def mailboxRegs : List Nat := [0x100C000, 0x100C004, 0x100C008, 0x100C00C]

theorem Arb.endpointReset_eq (a : Arb) : a.endpointReset = { a with
    d3hot := false, stall := none, delayed := [], msix := [], mbx := { a.mbx with h2d := [], d2h := [], held := [] }
    regs := zeroRegs mailboxRegs a.regs } := by
  unfold Arb.endpointReset Arb.mailboxReset zeroRegs mailboxRegs
  rfl

theorem exec_perstNFall (s : State) : exec .perstNFall s = .next { s with arb := { s.arb.endpointReset with perst := true } } := rfl

theorem Arb.functionReset_eq (a : Arb) : a.functionReset = { a.endpointReset with
    regs := zeroRegs functionRegs (zeroRegs mailboxRegs a.regs) } := by
  unfold Arb.functionReset zeroRegs functionRegs
  rw [Arb.endpointReset_eq]
  unfold zeroRegs
  rfl

/-- Outside reset and PERST_N the endpoint takes commands of its configuration space. -/
theorem exec_functionLevelReset {s : State} (hreset : s.arb.inReset = false) (hperst : s.arb.perst = false) :
    exec .functionLevelReset s = .next { s with arb := s.arb.functionReset } :=
  congrArg Host.Outcome.next (if_neg (by simp [hreset, hperst]))

theorem exec_powerStateWrite {s : State} (d3 : Bool) (hreset : s.arb.inReset = false) (hperst : s.arb.perst = false) :
    exec (.powerStateWrite d3) s = .next { s with arb := { s.arb with d3hot := d3 } } :=
  congrArg Host.Outcome.next (if_neg (by simp [hreset, hperst]))

/-- In D3hot a read is an Unsupported Request and a write has no effect (R427). -/
theorem State.hostAccess_read_d3hot {s : State} {r : HostReq} (fab : Nat) (hreset : s.arb.inReset = false)
    (hperst : s.arb.perst = false) (hd3 : s.arb.d3hot = true) (hfits : reqFits r false = true) :
    s.hostAccess r false fab = { s with arb := { s.arb with last := .unsupported } } :=
  (if_neg (by simp [hreset, hperst, hfits])).trans (if_pos hd3)

theorem State.hostAccess_write_d3hot {s : State} (r : HostReq) (fab : Nat) (hd3 : s.arb.d3hot = true) :
    s.hostAccess r true fab = s := by
  simp [State.hostAccess, hd3]

/-! ### The limit of a stalled access (R448) -/

/-- A stalled access goes on while none of its lanes has completed it, all of them take part and answer. -/
theorem State.settleStall_waits {s : State} {st : StallAcc} (h : s.arb.stall = some st) (hsome : st.lanes ≠ [])
    (hall : ∀ y ∈ st.lanes, s.arb.mask.has y = true ∧ (s.lane y).answers (reqPlaces st.req) = true ∧
      (s.lane y).stallDone (reqKeys st.req) = false) : s.settleStall = s := by
  have hleft : st.lanes.filter (fun x => !(!(s.lane x).answers (reqPlaces st.req) || (st.member && !s.arb.mask.has x)) &&
      !(s.lane x).stallDone (reqKeys st.req)) = st.lanes := by
    refine List.filter_eq_self.mpr fun y hy => ?_
    obtain ⟨hmember, hanswers, hwaits⟩ := hall y hy
    simp [hmember, hanswers, hwaits]
  rw [State.settleStall, h]
  dsimp only
  rw [hleft, if_pos (by simp [hsome]), State.onArb, ← h]

/-- With nothing stalled and nothing waiting there is nothing to serve. -/
theorem State.serveDelayed_of_idle {s : State} (hstall : s.arb.stall = none) (hdelayed : s.arb.delayed = []) :
    s.serveDelayed = s := by
  have h := State.hostSettle_of_idle hstall hdelayed
  rwa [State.hostSettle, State.settleStall_of_no_stall hstall] at h

/-- The request is one of the voted view. -/
def votedReq (r : HostReq) : Bool := match reqPlace r 0 with | .laneReg 0 _ => true | _ => false

/-- The registers once an access has reached its limit: STALLTO, and for the voted view the lanes that were stalled. -/
def stalledRegs (st : StallAcc) (m : RegMap) : RegMap :=
  if votedReq st.req then st.lanes.foldl (fun m x => forBits m f_ARB_VSTAT_MISLANE (2 ^ x.num)) (fflag m f_ARB_HERR_STALLTO)
  else fflag m f_ARB_HERR_STALLTO

theorem fget_stalledRegs (st : StallAcc) (m : RegMap) : fget (stalledRegs st m) f_ARB_HERR_STALLTO = 1 := by
  have hflag : fget (fflag m f_ARB_HERR_STALLTO) f_ARB_HERR_STALLTO = 1 := fget_fflag_same m rfl (by decide)
  unfold stalledRegs
  split
  · refine (foldl_keeps _ (fun m => fget m f_ARB_HERR_STALLTO) (fun m x => ?_) _ _).trans hflag
    exact fget_fset_other _ _ _ _ (by decide)
  · exact hflag

theorem Arb.countDefault_eq {a : Arb} (h : a.fault = false) :
    a.countDefault = { a with regs := fflag (fbump a.regs f_ARB_HERR_RSTCNT) f_ARB_HERR_LANERST } := by
  simp [Arb.countDefault, h]

/-- At its limit a stalled access ends with STALLTO and cause 0; the default completion is counted where no lane has completed
it. -/
theorem State.stallLimit_eq {s : State} {st : StallAcc} (h : s.arb.stall = some st) (hruns : s.arb.runs = true) :
    ∃ m x i, s.stallLimit = { s with arb := { s.arb with stall := none, regs := m, msix := x, msi := i } } ∧
      fget m f_ARB_HERR_STALLTO = 1 := by
  obtain ⟨-, hfault⟩ := s.arb.runs_iff.mp hruns
  obtain ⟨x, i, hirq⟩ := ({ s.arb with stall := none, regs := stalledRegs st s.arb.regs } : Arb).irq_eq 0
  have hflag : fget (({ s.arb with stall := none, regs := stalledRegs st s.arb.regs } : Arb).irq 0).regs f_ARB_HERR_STALLTO = 1 := by
    rw [Arb.irq_regs, if_pos (show Arb.runs { s.arb with stall := none, regs := stalledRegs st s.arb.regs } = true from hruns)]
    exact (fget_fset_other _ _ _ _ (by decide)).trans (fget_stalledRegs st _)
  have hlimit : s.stallLimit = s.onArb fun a =>
      let b := ({ a with stall := none, regs := stalledRegs st a.regs } : Arb).irq 0
      if st.total ≠ 0 ∧ st.lanes.length = st.total then b.countDefault else b := by
    simp only [State.stallLimit, h, State.onArb, hfault, Bool.false_eq_true, if_false]
    rfl
  rw [hlimit]
  dsimp only [State.onArb]
  generalize ({ s.arb with stall := none, regs := stalledRegs st s.arb.regs } : Arb).irq 0 = b at *
  have hb : b.fault = false := (congrArg Arb.fault hirq).trans hfault
  split
  · refine ⟨fflag (fbump b.regs f_ARB_HERR_RSTCNT) f_ARB_HERR_LANERST, x, i, ?_, ?_⟩
    · rw [Arb.countDefault_eq hb]
      exact congrArg (fun a : Arb => ({ s with
        arb := { a with regs := fflag (fbump b.regs f_ARB_HERR_RSTCNT) f_ARB_HERR_LANERST } } : State)) hirq
    · simp (disch := decide) only [fflag, fget_fset_off, fget_fbump_off]
      exact hflag
  · exact ⟨b.regs, x, i, congrArg (fun a : Arb => ({ s with arb := a } : State)) hirq, hflag⟩

/-- Settles O24: the resets by the registers they write with 0, D3hot by the branches of `State.hostAccess`, the limit of a stalled
access by `State.stallLimit_eq`. That PERST_N keeps the registers of the arbiter window is log 65, and that leaving D3hot resets
nothing is log 66. -/
theorem endpointResetsAndPowerStates : Obligations.EndpointResetsAndPowerStates := by
  unfold Obligations.EndpointResetsAndPowerStates
  refine ⟨fun s => ⟨zeroRegs mailboxRegs s.arb.regs, ?_, fun k hk => ?_, fun k hk => ?_⟩, fun s => rfl,
    fun s hreset hperst => ?function, fun s d3 => exec_powerStateWrite d3,
    fun s r fab hreset hperst hd3 => ⟨fun hfits => ?_, ?_⟩, fun s st hruns hdelayed hstall hsome hall => ?limit⟩
  · rw [exec_perstNFall, Arb.endpointReset_eq]
  · exact (rget_zeroRegs ..).trans (if_pos hk)
  · exact (rget_zeroRegs ..).trans (if_neg hk)
  case function =>
    have hzero (k : Nat) (hk : k ∈ functionRegs ∨ k ∈ mailboxRegs) : rget s.arb.functionReset.regs k = 0 := by
      rw [Arb.functionReset_eq, rget_zeroRegs, rget_zeroRegs]
      rcases hk with hk | hk <;> simp [hk]
    refine ⟨s.arb.functionReset.regs, ?_, fget_of_rget_zero (hzero _ (by decide)),
      fget_of_rget_zero (hzero _ (by decide)), fget_of_rget_zero (hzero _ (by decide)), fget_of_rget_zero (hzero _ (by decide))⟩
    rw [exec_functionLevelReset hreset hperst, Arb.functionReset_eq, Arb.endpointReset_eq]
  · rw [exec_registerRead, State.hostAccess_read_d3hot fab hreset hperst hd3 hfits]
  · rw [exec_registerWrite, State.hostAccess_write_d3hot r 0 hd3]
  case limit =>
    obtain ⟨m, x, i, hlimit, hflag⟩ := State.stallLimit_eq hstall hruns
    refine ⟨m, x, i, ?_, hflag⟩
    change Host.Outcome.next s.settleStall.stallLimit.serveDelayed = _
    rw [State.settleStall_waits hstall hsome hall, hlimit]
    exact congrArg Host.Outcome.next (State.serveDelayed_of_idle rfl hdelayed)

end Sys2Proof.Machine
end

section
/-! The safety island (R357 to R372): its evaluation cycle, channel by channel, and the diagnostics and stop words outside it. -/
namespace Sys2Proof.Machine

/-! ### A change of the island -/

theorem Island.faultsNew_of_same {i j : Island} (hfaults : j.faults = i.faults)
    (hst : ∀ n, (j.ch.getD n islChannelReset).st = (i.ch.getD n islChannelReset).st) : i.faultsNew j = false := by
  simp only [Island.faultsNew, hfaults, hst, Bool.or_eq_false_iff, List.any_eq_false]
  refine ⟨by simp, fun n _ => by simp [bne]⟩

/-- A change that brings no fault changes the island alone. -/
theorem State.onIsl_quiet {s : State} {f : Island → Island} {j : Island} (hj : f s.isl = j) (h : s.isl.faultsNew j = false) :
    s.onIsl f = { s with isl := j } := by
  simp [State.onIsl, hj, h]

theorem State.onIsl_same {s : State} {f : Island → Island} (h : f s.isl = s.isl) : s.onIsl f = s :=
  State.onIsl_quiet h (Island.faultsNew_of_same rfl fun _ => rfl)

/-- A change that brings a fault is cause 9 besides. -/
theorem State.onIsl_eq (s : State) (f : Island → Island) : ∃ m u i,
    s.onIsl f = { s with isl := f s.isl, arb := { s.arb with regs := m, msix := u, msi := i } } ∧
    (s.arb.runs = true → s.isl.faultsNew (f s.isl) = true → (fget m f_ARB_IRQSTAT_CAUSE).testBit 9 = true) := by
  unfold State.onIsl
  dsimp only
  split
  case isTrue =>
    obtain ⟨u, i, hirq⟩ := s.arb.irq_eq 9
    refine ⟨(s.arb.irq 9).regs, u, i, congrArg (fun a : Arb => ({ s with isl := f s.isl, arb := a } : State)) hirq,
      fun hruns _ => ?_⟩
    rw [Arb.irq_regs, if_pos hruns]
    exact fget_forBits_bit _ _ _ (by decide) (by decide) (by decide)
  case isFalse h => exact ⟨s.arb.regs, s.arb.msix, s.arb.msi, rfl, fun _ hnew => absurd hnew h⟩

/-! ### One channel in an evaluation cycle (R366, Table 12-4) -/

section
variable (i : Island) (n : Nat) (x : IslChannel) (p : ChannelSample)

/-- State, cause, v0 and t of a configured channel after a cycle without a restart. -/
def islNext : Nat × Nat × Nat × Nat :=
  let c := islCfg i.block n
  let d := islDiag c x p
  if decide (x.st = 4) && decide (x.cause = 8) then (4, 8, x.v0, x.t)
  else if i.faults ≠ 0 then (4, 8, x.v0, x.t)
  else if d ≠ 0 then (4, if x.st = 4 then x.cause else d, x.v0, x.t)
  else if x.st = 1 ∧ islRequest i n c p then
    if c.mode = 2 ∨ speedBelow p.edges c.window c.vstand then (3, x.cause, x.v0, x.t)
    else (2, x.cause, p.edges, 0)
  else if x.st = 2 then
    if speedBelow p.edges c.window c.vstand then (3, x.cause, x.v0, x.t)
    else if aboveEnvelope c p.edges x.v0 x.t then (4, 1, x.v0, x.t)
    else if c.tmax * 4 ≤ x.t then (3, x.cause, x.v0, x.t)
    else (2, x.cause, x.v0, x.t + 1)
  else (x.st, x.cause, x.v0, x.t)

variable {i n x p}

theorem islChannelStep_unconfigured (h : x.st = 0) : (islChannelStep i false n x p).st = 0 := by
  simp [islChannelStep, h]

theorem islChannelStep_next (h : x.st ≠ 0) :
    (islChannelStep i false n x p).st = (islNext i n x p).1 ∧ (islChannelStep i false n x p).cause = (islNext i n x p).2.1 ∧
    (islChannelStep i false n x p).v0 = (islNext i n x p).2.2.1 ∧ (islChannelStep i false n x p).t = (islNext i n x p).2.2.2 := by
  simp only [islChannelStep, if_neg h, Bool.and_false, Bool.false_eq_true, if_false]
  exact ⟨rfl, rfl, rfl, rfl⟩

/-- A gate is on exactly in RUN and STOPPING. -/
theorem islChannelStep_gate (h : x.st ≠ 0) : (islChannelStep i false n x p).gate = true ↔
    (islChannelStep i false n x p).st = 1 ∨ (islChannelStep i false n x p).st = 2 := by
  simp only [islChannelStep, if_neg h, decide_eq_true_eq]

/-- No cycle without a restart enters RUN. -/
theorem islNext_run (h : (islNext i n x p).1 = 1) : x.st = 1 := by
  unfold islNext at h
  dsimp only at h
  split_ifs at h
  all_goals omega

/-- FAULT by an island diagnostic lasts. -/
theorem islNext_held (hst : x.st = 4) (hcause : x.cause = 8) : (islNext i n x p).1 = 4 ∧ (islNext i n x p).2.1 = 8 := by
  simp [islNext, hst, hcause]

/-- A failing diagnostic of the channel takes it into FAULT with its cause. -/
theorem islNext_diag (hfaults : i.faults = 0) (hst : x.st ≠ 4) (h : islDiag (islCfg i.block n) x p ≠ 0) :
    (islNext i n x p).1 = 4 ∧ (islNext i n x p).2.1 = islDiag (islCfg i.block n) x p := by
  simp [islNext, hfaults, hst, h]

/-- A request in RUN stops the channel: STO in mode 2 or at standstill, else STOPPING from its speed. -/
theorem islNext_request (hfaults : i.faults = 0) (hst : x.st = 1) (hsound : islDiag (islCfg i.block n) x p = 0)
    (hreq : islRequest i n (islCfg i.block n) p = true) : islNext i n x p =
      if (islCfg i.block n).mode = 2 ∨ speedBelow p.edges (islCfg i.block n).window (islCfg i.block n).vstand = true then
        (3, x.cause, x.v0, x.t)
      else (2, x.cause, p.edges, 0) := by
  simp [islNext, hfaults, hst, hsound, hreq]

/-- Above its envelope a stopping channel goes to FAULT with cause 1 (R368). -/
theorem islNext_envelope (hfaults : i.faults = 0) (hst : x.st = 2) (hsound : islDiag (islCfg i.block n) x p = 0)
    (hmoves : speedBelow p.edges (islCfg i.block n).window (islCfg i.block n).vstand = false)
    (habove : aboveEnvelope (islCfg i.block n) p.edges x.v0 x.t = true) : islNext i n x p = (4, 1, x.v0, x.t) := by
  simp [islNext, hfaults, hst, hsound, hmoves, habove]

theorem islRequest_input (h : (islCfg i.block n).filter * 8000 ≤ p.low) : islRequest i n (islCfg i.block n) p = true := by
  simp [islRequest, h]

end

/-! ### The evaluation cycle (R366) -/

/-- A channel that an island fault has taken into FAULT. -/
def IslChannel.faulted (x : IslChannel) : IslChannel :=
  { x with st := 4, cause := 8, gate := false, settling := true, restartable := false }

theorem islChannelStep_faulted (i : Island) (n : Nat) (x : IslChannel) (p : ChannelSample) :
    (islChannelStep i false n x.faulted p).st = 4 ∧ (islChannelStep i false n x.faulted p).cause = 8 ∧
    (islChannelStep i false n x.faulted p).gate = false := by
  have hst : x.faulted.st ≠ 0 := Nat.succ_ne_zero 3
  obtain ⟨hnext, hcause, -, -⟩ := islChannelStep_next (i := i) (n := n) (p := p) hst
  obtain ⟨hfour, height⟩ := islNext_held (i := i) (n := n) (x := x.faulted) (p := p) rfl rfl
  have hstep : (islChannelStep i false n x.faulted p).st = 4 := hnext.trans hfour
  refine ⟨hstep, hcause.trans height, Bool.eq_false_iff.mpr fun hgate => ?_⟩
  have := (islChannelStep_gate hst).mp hgate
  omega

/-- The block of a locked island fails its CRC. -/
def Island.crcFails (i : Island) : Bool := i.locked && crc32 i.block != i.crc

/-- The island once a cycle has taken the stop word and the host's requests. -/
def Island.wordTaken (i : Island) (host : BitVec 16) : Island :=
  match i.newWord with
  | some w => { i with word := w, newWord := none, lost := false, sinceWord := 0, hostReq := host }
  | none => { i.loseWord with sinceWord := satAdd 4 i.sinceWord 1, hostReq := host }

/-- The island whose channels a cycle evaluates. -/
def Island.evaluating (i : Island) (host : BitVec 16) : Island :=
  if (i.wordTaken host).crcFails then (i.wordTaken host).islandFault 2 else i.wordTaken host

/-- Stop words and requests leave the configuration, the channels and the faults. -/
theorem Island.wordTaken_keeps (i : Island) (host : BitVec 16) : (i.wordTaken host).locked = i.locked ∧
    (i.wordTaken host).block = i.block ∧ (i.wordTaken host).crc = i.crc ∧ (i.wordTaken host).ch = i.ch ∧
    (i.wordTaken host).faults = i.faults := by
  unfold Island.wordTaken
  split
  · exact ⟨rfl, rfl, rfl, rfl, rfl⟩
  · unfold Island.loseWord
    split <;> exact ⟨rfl, rfl, rfl, rfl, rfl⟩

theorem Island.evaluating_keeps (i : Island) (host : BitVec 16) :
    (i.evaluating host).locked = i.locked ∧ (i.evaluating host).block = i.block := by
  obtain ⟨hlocked, hblock, -, -, -⟩ := i.wordTaken_keeps host
  unfold Island.evaluating
  split <;> exact ⟨hlocked, hblock⟩

/-- With its CRC the block takes every channel as it is into the cycle. -/
theorem Island.evaluating_sound {i : Island} (host : BitVec 16) (h : i.crcFails = false) :
    (i.evaluating host).ch = i.ch ∧ (i.evaluating host).faults = i.faults := by
  obtain ⟨hlocked, hblock, hcrc, hch, hfaults⟩ := i.wordTaken_keeps host
  have hsound : (i.wordTaken host).crcFails = false := by rw [Island.crcFails, hlocked, hblock, hcrc]; exact h
  rw [Island.evaluating, if_neg (by simp [hsound])]
  exact ⟨hch, hfaults⟩

/-- Without its CRC every channel is in FAULT. -/
theorem Island.evaluating_crcFails {i : Island} (host : BitVec 16) (h : i.crcFails = true) :
    (i.evaluating host).ch = i.ch.map IslChannel.faulted := by
  obtain ⟨hlocked, hblock, hcrc, hch, -⟩ := i.wordTaken_keeps host
  have hfails : (i.wordTaken host).crcFails = true := by rw [Island.crcFails, hlocked, hblock, hcrc]; exact h
  rw [Island.evaluating, if_pos hfails, ← hch]
  rfl

/-- A cycle takes each channel through its step. -/
theorem Island.evaluate_ch (i : Island) (host : BitVec 16) (samples : List ChannelSample) (restart : Bool) :
    (i.evaluate host samples restart).ch = (i.evaluating host).ch.mapIdx fun n x =>
      islChannelStep (i.evaluating host) restart n x (samples.getD n ⟨0, 0, false, false⟩) := rfl

theorem Island.evaluate_locked (i : Island) (host : BitVec 16) (samples : List ChannelSample) (restart : Bool) :
    (i.evaluate host samples restart).locked = i.locked ∧ (i.evaluate host samples restart).block = i.block :=
  i.evaluating_keeps host

/-- A channel of the island before and after a cycle without a restart. -/
theorem Island.evaluate_channel {i : Island} (host : BitVec 16) (samples : List ChannelSample) {n : Nat} {x : IslChannel}
    (h : i.ch[n]? = some x) : (i.evaluate host samples false).ch[n]? = some (islChannelStep (i.evaluating host) false n
      (if i.crcFails then x.faulted else x) (samples.getD n ⟨0, 0, false, false⟩)) := by
  rw [Island.evaluate_ch, List.getElem?_mapIdx]
  cases hcrc : i.crcFails
  case false => simp [Island.evaluating_sound host hcrc, h]
  case true => simp [Island.evaluating_crcFails host hcrc, h]

theorem exec_evaluationCycle (samples : List ChannelSample) (s : State) : ∃ t, exec (.evaluationCycle samples) s = .next t ∧
    t.isl = s.isl.evaluate s.arb.hostReq samples false ∧ t.bak = s.bak ∧ t.arb.vdo = s.arb.vdo ∧ ∀ x, t.lane x = s.lane x := by
  refine ⟨_, rfl, ?_, ?_, (congrArg OutView.vdo (s.evaluate_outv id samples false) :), fun x => ?_⟩
  · simp [State.evaluate]
  · simp [State.evaluate]
  · simp [State.evaluate]

/-- Settles O38: each clause by the lemma of `islNext` for its branch; a block whose CRC fails by `islChannelStep_faulted`. -/
theorem channelsStopOnRequestsAndFaults : Obligations.ChannelsStopOnRequestsAndFaults := by
  unfold Obligations.ChannelsStopOnRequestsAndFaults
  intro s samples
  obtain ⟨t, hexec, hisl, hbak, hvdo, hlanes⟩ := exec_evaluationCycle samples s
  obtain ⟨hlocked, hblock⟩ := s.isl.evaluate_locked s.arb.hostReq samples false
  refine ⟨t, hexec, hlanes, hbak, hvdo, hisl ▸ hlocked, hisl ▸ hblock, fun n x hx => ?_⟩
  have hchannel := Island.evaluate_channel s.arb.hostReq samples hx
  rw [← hisl] at hchannel
  refine ⟨_, hchannel, ?_⟩
  intro c p sound
  obtain ⟨-, hconf⟩ := s.isl.evaluating_keeps s.arb.hostReq
  cases hcrc : s.isl.crcFails
  case true =>
    obtain ⟨hst, hcause, hgate⟩ :=
      islChannelStep_faulted (s.isl.evaluating s.arb.hostReq) n x (samples.getD n ⟨0, 0, false, false⟩)
    have hunsound : ¬ sound := by
      simp only [Island.crcFails, Bool.and_eq_true, bne_iff_ne] at hcrc
      exact fun h => hcrc.2 (h.2 hcrc.1)
    rw [if_pos rfl]
    refine ⟨fun h => absurd h hunsound, fun h => absurd h hunsound, fun h => absurd h hunsound, fun h => ?_, fun _ => ?_,
      fun _ _ => ⟨hst, hcause, hgate⟩⟩
    · omega
    · simp only [hst, hgate, Bool.false_eq_true, false_iff]
      omega
  case false =>
    obtain ⟨-, hfaults⟩ := Island.evaluating_sound s.arb.hostReq hcrc
    rw [if_neg Bool.false_ne_true]
    have hstep : x.st ≠ 0 → _ := islChannelStep_next (i := s.isl.evaluating s.arb.hostReq) (n := n) (p := p)
    have hdiag : islDiag (islCfg (s.isl.evaluating s.arb.hostReq).block n) x p = islDiag c x p := by rw [hconf]
    refine ⟨fun hsound hst hnone hreq => ?_, fun hsound hst hnone hmoves habove => ?_, fun hsound hzero hfour hfails => ?_,
      fun hrun => ?_, islChannelStep_gate, fun hlock hbad => ?_⟩
    · obtain ⟨hst', -, hv0, ht⟩ := hstep (by omega)
      have hnext := islNext_request (hfaults.trans hsound.1) hst (hdiag.trans hnone)
        (islRequest_input (i := s.isl.evaluating s.arb.hostReq) (n := n) (p := p) (by rw [hconf]; exact hreq))
      rw [hst', hv0, ht, hnext, hconf]
      split
      · exact ⟨rfl, fun h : 3 = 2 => absurd h (by decide)⟩
      · exact ⟨rfl, fun _ => ⟨rfl, rfl⟩⟩
    · obtain ⟨hst', hcause, -, -⟩ := hstep (by omega)
      have hnext := islNext_envelope (hfaults.trans hsound.1) hst (hdiag.trans hnone) (by rw [hconf]; exact hmoves)
        (by rw [hconf]; exact habove)
      rw [hst', hcause, hnext]
      exact ⟨rfl, rfl⟩
    · obtain ⟨hst', hcause, -, -⟩ := hstep hzero
      obtain ⟨hfault, hwhy⟩ := islNext_diag (hfaults.trans hsound.1) hfour (hdiag.trans_ne hfails)
      exact ⟨hst'.trans hfault, hcause.trans (hwhy.trans hdiag)⟩
    · by_cases hzero : x.st = 0
      · exact absurd (hrun.symm.trans (islChannelStep_unconfigured hzero)) (by decide)
      · exact islNext_run ((hstep hzero).1.symm.trans hrun)
    · simp [Island.crcFails, hlock, hbad] at hcrc

/-! ### The diagnostics outside the cycle (R372) and the stop words (R359, R360) -/

/-- An island fault sets its bit of the five and keeps the others. -/
theorem Island.islandFault_bit (i : Island) (b : Nat) {k : Nat} (hk : k < 5) :
    (i.islandFault b).faults.getLsbD k = (i.faults.getLsbD k || decide (k = b)) := by
  have hbit : (2 ^ b).testBit k = decide (k = b) := by simp [Nat.testBit_two_pow, eq_comm]
  simp only [Island.islandFault, BitVec.getLsbD_or, BitVec.getLsbD_ofNat, hk, hbit, decide_true, Bool.true_and]

theorem Island.islandFault_channel {i : Island} (b : Nat) {n : Nat} {x : IslChannel} (h : i.ch[n]? = some x) :
    (i.islandFault b).ch[n]? = some x.faulted := by
  change (i.ch.map IslChannel.faulted)[n]? = _
  rw [List.getElem?_map, h]
  rfl

/-- The first fault of an island is new. -/
theorem Island.faultsNew_islandFault {i : Island} {b : Nat} (hb : b < 5) (h : i.faults = 0) :
    i.faultsNew (i.islandFault b) = true := by
  have hset : (i.islandFault b).faults ≠ 0 := fun hzero => by
    have hbit := i.islandFault_bit b hb
    simp [hzero] at hbit
  simp only [Island.faultsNew, h, hset, ne_eq, not_false_eq_true, decide_true, Bool.and_self, Bool.true_or]

/-- An island fault at a running arbiter: the fault, and cause 9 where it is the first. -/
theorem State.onIsl_islandFault {s : State} {f : Island → Island} {b : Nat} (hruns : s.arb.runs = true) (hb : b < 5)
    (hf : f s.isl = s.isl.islandFault b) : ∃ m u i,
    s.onIsl f = { s with isl := s.isl.islandFault b, arb := { s.arb with regs := m, msix := u, msi := i } } ∧
    (s.isl.faults = 0 → (fget m f_ARB_IRQSTAT_CAUSE).testBit 9 = true) := by
  obtain ⟨m, u, i, heq, hcause⟩ := s.onIsl_eq f
  rw [hf] at heq hcause
  exact ⟨m, u, i, heq, fun hzero => hcause hruns (Island.faultsNew_islandFault hb hzero)⟩

/-- The island test `c` fails with bit `b`. -/
def islandTestFails (c : Instr) (b : Nat) : Prop :=
  (∃ ppm : Int, c = .clockCheck ppm ∧ 20000 < ppm.natAbs ∧ b = 0) ∨ (c = .ramMarch false ∧ b = 1) ∨
    (∃ mv, c = .vddSafeFault mv ∧ (mv < 1620 ∨ 1980 < mv) ∧ b = 3) ∨ (∃ us, c = .cycleWatchdog us ∧ 300 ≤ us ∧ b = 4)

theorem exec_islandTestFails {c : Instr} {b : Nat} (h : islandTestFails c b) (s : State) :
    b < 5 ∧ ∃ f : Island → Island, exec c s = .next (s.onIsl f) ∧ f s.isl = s.isl.islandFault b := by
  obtain ⟨ppm, rfl, hoff, rfl⟩ | ⟨rfl, rfl⟩ | ⟨mv, rfl, hoff, rfl⟩ | ⟨us, rfl, hlate, rfl⟩ := h
  · exact ⟨by decide, _, rfl, if_pos hoff⟩
  · exact ⟨by decide, _, rfl, if_neg (by decide)⟩
  · exact ⟨by decide, _, rfl, if_pos hoff⟩
  · exact ⟨by decide, _, rfl, if_pos hlate⟩

/-- A channel after the off-pulse test of the switch whose turn it is. -/
def IslChannel.switchTested (x : IslChannel) (good : Bool) : IslChannel :=
  { x with hsFail := x.hsFail || (!good && x.testHigh), lsFail := x.lsFail || (!good && !x.testHigh), testHigh := !x.testHigh,
           settling := true }

/-- The off-pulse test of a channel whose gate is on. -/
theorem Island.switchTest_driven {i : Island} {n : Nat} {x : IslChannel} (fell rose : Bool) (hx : i.ch[n]? = some x)
    (hst : x.st = 1 ∨ x.st = 2) : i.switchTest n fell rose = { i with
      ch := lmod i.ch n fun x => x.switchTested (fell && rose)
      regs := if !(fell && rose) then fbump i.regs (f_SAFE_CHDIAG_TESTFAIL.at (4 * n)) else i.regs } := by
  have hgot : i.ch.getD n islChannelReset = x := by rw [List.getD_eq_getElem?_getD, hx]; rfl
  rw [Island.switchTest, hgot]
  exact if_pos hst

theorem Island.faultsNew_switchTest (i : Island) (n : Nat) (fell rose : Bool) :
    i.faultsNew (i.switchTest n fell rose) = false := by
  unfold Island.switchTest
  dsimp only
  split
  · exact Island.faultsNew_of_same rfl fun k =>
      getD_lmod_keeps (f := fun x => x.switchTested (fell && rose)) (g := IslChannel.st) (fun _ => rfl) i.ch n k islChannelReset
  · exact Island.faultsNew_of_same rfl fun _ => rfl

/-- A channel after the test pulse of its source. -/
def IslChannel.pulsed (x : IslChannel) (high seen : Bool) : IslChannel :=
  if seen then { x with missed := 0, seen := true }
  else if high then { x with missed := x.missed + 1, seen := false }
  else { x with seen := false }

theorem IslChannel.pulsed_st (x : IslChannel) (high seen : Bool) : (x.pulsed high seen).st = x.st := by
  unfold IslChannel.pulsed
  split
  · rfl
  · split <;> rfl

theorem Island.testPulse_channel {i : Island} (src : Nat) (high seen : BitVec 16) {n : Nat} {x : IslChannel}
    (h : i.ch[n]? = some x) : (i.testPulse src high seen).ch[n]? = some
      (if (islCfg i.block n).mode ≠ 0 ∧ (islCfg i.block n).tpsrc = src then x.pulsed (high.getLsbD n) (seen.getLsbD n)
        else x) := by
  simp only [Island.testPulse, List.getElem?_mapIdx, h, Option.map_some, ← Bool.decide_and, decide_eq_true_eq]
  rfl

theorem Island.faultsNew_testPulse (i : Island) (src : Nat) (high seen : BitVec 16) :
    i.faultsNew (i.testPulse src high seen) = false := by
  refine Island.faultsNew_of_same rfl fun n => ?_
  cases hx : i.ch[n]? with
  | none => simp [List.getD_eq_getElem?_getD, Island.testPulse, hx]
  | some x =>
    rw [List.getD_eq_getElem?_getD, List.getD_eq_getElem?_getD, Island.testPulse_channel src high seen hx, hx]
    dsimp only [Option.getD_some]
    split
    · exact x.pulsed_st _ _
    · rfl

/-- A stop word that the arbiter sends in its slot. -/
theorem exec_stopWord {s : State} {w : BitVec 16} (crcOk : Bool) (hruns : s.arb.runs = true) (hgate : s.arb.gateOpen = true)
    (hmask : 0 < s.arb.mask.count) (hstop : s.arb.stop = some w) :
    exec (.stopWord crcOk) s = .next (s.onIsl fun i => i.takeWord s.arb.ticks w crcOk) := by
  have hsends : s.arb.sendsWord = some w := by simp [Arb.sendsWord, hruns, hgate, hmask, hstop]
  change execStopWord crcOk s = _
  rw [execStopWord, hsends]

/-- Settles O40: the failing tests by `State.onIsl_islandFault`, the tests and words that bring no fault by `State.onIsl_quiet`,
and a command without its event (log entry 1) by `State.onIsl_same`. -/
theorem islandTestsLatchTheirFaults : Obligations.IslandTestsLatchTheirFaults := by
  unfold Obligations.IslandTestsLatchTheirFaults
  refine ⟨fun s c b hruns h => ?_, fun s ppm h => ?_, fun s => ?_, fun s mv hlow hhigh => ?_, fun s us h => ?_,
    fun s n x fell rose hx hst => ?_, fun s src high seen => ?_, fun s w hruns hgate hmask hstop => ⟨?_, fun hnew => ?_⟩,
    fun s hword hsince => ?_⟩
  · obtain ⟨hb, f, hexec, hf⟩ := exec_islandTestFails h s
    obtain ⟨m, u, i, heq, hcause⟩ := State.onIsl_islandFault hruns hb hf
    exact ⟨m, u, i, s.isl.islandFault b, hexec.trans (congrArg _ heq), fun k hk => s.isl.islandFault_bit b hk, rfl, rfl, rfl,
      hcause, fun n x hx => Island.islandFault_channel b hx⟩
  · exact congrArg _ (State.onIsl_same (if_neg (by omega)))
  · exact congrArg _ (State.onIsl_same rfl)
  · exact congrArg _ (State.onIsl_same (if_neg (by omega)))
  · exact congrArg _ (State.onIsl_same (if_neg (by omega)))
  · obtain ⟨hself, hothers⟩ := getElem?_lmod (fun x : IslChannel => x.switchTested (fell && rose)) hx
    refine ⟨s.isl.switchTest n fell rose, congrArg _ (State.onIsl_quiet rfl (s.isl.faultsNew_switchTest n fell rose)), ?_⟩
    rw [Island.switchTest_driven fell rose hx hst]
    exact ⟨rfl, hself, hothers, fun hfell hrose => if_neg (by simp [hfell, hrose])⟩
  · refine ⟨s.isl.testPulse src high seen, congrArg _ (State.onIsl_quiet rfl (s.isl.faultsNew_testPulse src high seen)), rfl,
      fun n x hx => ⟨_, Island.testPulse_channel src high seen hx, fun hmode hsrc hseen => ?_, fun hmode hsrc hseen hhigh => ?_,
      fun hnot => ?_⟩⟩
    · rw [if_pos ⟨hmode, hsrc⟩, hseen]; rfl
    · rw [if_pos ⟨hmode, hsrc⟩, hseen, hhigh]; rfl
    · exact if_neg fun hhit => hnot.elim hhit.1 fun hsrc => hsrc hhit.2
  · rw [exec_stopWord false hruns hgate hmask hstop, State.onIsl_same rfl]
  · rw [exec_stopWord true hruns hgate hmask hstop]
    have htakes : s.isl.takeWord s.arb.ticks w true =
        { s.isl with newWord := some w, wordSeq := s.arb.ticks, sinceWord := 0 } := by simp [Island.takeWord, hnew]
    exact congrArg _ (State.onIsl_quiet htakes (Island.faultsNew_of_same rfl fun _ => rfl))
  · have hloses : s.isl.loseWord = { s.isl with lost := true } := by simp [Island.loseWord, hword, hsince]
    exact congrArg _ (State.onIsl_quiet hloses (Island.faultsNew_of_same rfl fun _ => rfl))

end Sys2Proof.Machine
end

section
/-! The real-time clock at an edge of its oscillator (R405 to R415). -/
namespace Sys2Proof.Machine

/-- Floor division and Lean's division agree on the residue by a natural number. -/
theorem fmod_eq_emod (a : Int) (b : Nat) : fmod a b = (a % b).toNat := by
  rw [fmod, Int.fmod_eq_emod_of_nonneg a (Int.natCast_nonneg b)]

/-! ### The clock -/

section
variable (r : Rtc)

/-- The edge carries into the seconds. -/
def Rtc.carries : Bool := decide (2 ^ 32 ≤ r.frac.toNat + (131072 + r.delta).toNat)

/-- The seconds after the edge. -/
def Rtc.nextSec : BitVec 48 := if r.carries = true then r.sec + 1 else r.sec

/-- The edge's carry reaches midnight against PHASE. -/
def Rtc.midnight : Bool := r.carries && decide (((r.nextSec.toNat : Int) - r.phase.toNat) % 86400 = 0)

/-- The clock after an edge for which nothing is scheduled (R405, R407, R412). -/
def Rtc.ticked : Rtc :=
  { r with run := true, frac := BitVec.ofNat 32 (r.frac.toNat + (131072 + r.delta).toNat), sec := r.nextSec
           wday := if r.midnight = true then (if r.wday = 6 then 0 else r.wday + 1) else r.wday, slewLeft := r.slewLeft - 1
           delta := if r.slewLeft ≤ 1 then 0 else r.delta, acts := [] }

/-- The clock `w` loaded with a count, its weekday moved from that of `r` by whole days (R408). -/
def Rtc.loaded (v : Nat) (w : Rtc) : Rtc :=
  { w with sec := BitVec.ofNat 48 (v / 2 ^ 32 % 2 ^ 48), frac := BitVec.ofNat 32 v
           wday := BitVec.ofNat 3 (Int.toNat (((r.wday.toNat : Int) +
             (Int.fdiv (((v / 2 ^ 32 % 2 ^ 48 : Nat) : Int) - r.phase.toNat) 86400 -
               Int.fdiv ((r.sec.toNat : Int) - r.phase.toNat) 86400)) % 7)) }

theorem isMidnight_iff (a : Int) : fmod a 86400 = 0 ↔ a % 86400 = 0 := by
  rw [fmod_eq_emod]
  omega

theorem Rtc.weekdaySteps_eq : r.weekdaySteps = r.midnight := by
  unfold Rtc.weekdaySteps Rtc.midnight Rtc.nextSec
  simp only [isMidnight_iff]
  by_cases hcarry : r.carries = true
  · rw [if_pos hcarry]; rfl
  · rw [Bool.eq_false_iff.mpr hcarry, Bool.false_and]
    exact Bool.and_eq_false_imp.mpr fun h => absurd h hcarry

theorem Rtc.advance_eq : { r.advance with acts := [] } = r.ticked := by
  have hwday : r.wday.toNat = 6 ↔ r.wday = 6 := by bv_omega
  have hslew : r.slewLeft - 1 = 0 ↔ r.slewLeft ≤ 1 := by omega
  unfold Rtc.advance Rtc.ticked Rtc.midnight Rtc.nextSec Rtc.carries
  dsimp only
  by_cases hcarry : 2 ^ 32 ≤ r.frac.toNat + (131072 + r.delta).toNat
  · rw [if_neg (Nat.not_lt.mpr hcarry), if_pos (decide_eq_true hcarry), decide_eq_true hcarry]
    simp only [isMidnight_iff, hwday, hslew, Bool.true_and, decide_eq_true_eq]
  · rw [if_pos (Nat.lt_of_not_le hcarry), decide_eq_false hcarry]
    simp only [hslew, Bool.false_and, Bool.false_eq_true, if_false]

variable {r} (st : RtcStage) (e : Nat)

theorem Rtc.edge_of_none (h : r.acts = []) : r.edge st e = r.ticked := by
  rw [Rtc.edge, h, Rtc.advance_eq, List.foldl_nil]

theorem Rtc.edge_of_one {a : RtcAct} (h : r.acts = [a]) : r.edge st e = Rtc.act st r e r.ticked a := by
  rw [Rtc.edge, h, Rtc.advance_eq, List.foldl_cons, List.foldl_nil]

theorem Rtc.ticked_acts (as : List RtcAct) : { r with acts := as }.ticked = r.ticked := rfl

/-- A change does not ask what else is scheduled. -/
theorem Rtc.act_acts (as : List RtcAct) (w : Rtc) (a : RtcAct) :
    Rtc.act st { r with acts := as } e w a = Rtc.act st r e w a := by
  cases a <;> rfl

/-- An edge for which only the change of this edge is asked. -/
theorem Rtc.edge_of_asked (a : RtcAct) (h : r.acts = []) :
    { r with acts := r.acts ++ [a] }.edge st e = Rtc.act st r e r.ticked a := by
  have hedge := Rtc.edge_of_one st e (r := { r with acts := r.acts ++ [a] }) (a := a) (congrArg (· ++ [a]) h)
  rwa [Rtc.act_acts, Rtc.ticked_acts] at hedge

/-- A load at the edge counts its days from the clock before it. -/
theorem Rtc.ticked_load (v : Nat) : ({ r.ticked with wday := r.wday }).load r.sec.toNat v = r.loaded v r.ticked := by
  simp only [Rtc.load, Rtc.loaded, wdayMove, rtcDay, fdiv, fmod_eq_emod]
  rfl

/-- RTC_SETTIME loads the staged count. -/
theorem Rtc.act_settime : Rtc.act st r e r.ticked (.set true false false) =
    { r.loaded (st.sec % 2 ^ 48 * 2 ^ 32 + st.frac / 2 ^ 17 % 2 ^ 15 * 2 ^ 17) r.ticked with
      noTime := false, setCnt := satAdd 0xFFFF r.setCnt 1 } := by
  rw [← Rtc.ticked_load]
  rfl

end

/-! ### The lane -/

/-- The staged time is the staged count (R415). -/
theorem Lane.rtcStage_count (l : Lane) : l.rtcStage.sec % 2 ^ 48 * 2 ^ 32 + l.rtcStage.frac / 2 ^ 17 % 2 ^ 15 * 2 ^ 17 =
    fget l.regs f_RTC_STGHI_SECHI * 2 ^ 64 + fget l.regs f_RTC_STGLO_SECLO * 2 ^ 32 + fget l.regs f_RTC_STGFR_FRAC * 2 ^ 17 := by
  have hhigh : fget l.regs f_RTC_STGHI_SECHI < 2 ^ 16 := Nat.mod_lt _ (Nat.two_pow_pos 16)
  have hlow : fget l.regs f_RTC_STGLO_SECLO < 2 ^ 32 := Nat.mod_lt _ (Nat.two_pow_pos 32)
  have hfrac : fget l.regs f_RTC_STGFR_FRAC < 2 ^ 15 := Nat.mod_lt _ (Nat.two_pow_pos 15)
  simp only [Lane.rtcStage]
  omega

/-- The snapshot registers after a snapshot (R414). -/
theorem rtcSnapRegs_fields (r : Rtc) (m : RegMap) :
    fget (rtcSnapRegs r m) f_RTC_SNAPLO_SECLO = r.sec.toNat % 2 ^ 32 ∧
    fget (rtcSnapRegs r m) f_RTC_SNAPHI_SECHI = r.sec.toNat / 2 ^ 32 ∧
    fget (rtcSnapRegs r m) f_RTC_SNAPHI_WDAY = r.wday.toNat ∧ fget (rtcSnapRegs r m) f_RTC_SNAPFR_FRAC = r.frac.toNat := by
  have hsec := r.sec.isLt
  have hwday := r.wday.isLt
  have hfrac := r.frac.isLt
  unfold rtcSnapRegs
  simp (disch := decide) only [fget_fset_off, fget_fset_same]
  refine ⟨Nat.mod_mod _ _, Nat.mod_eq_of_lt ?_, Nat.mod_eq_of_lt hwday, Nat.mod_eq_of_lt hfrac⟩
  change r.sec.toNat / 2 ^ 32 < 2 ^ 16
  omega

/-! ### The device -/

/-- The device after an edge of lane x that leaves its clock at `w` and takes a snapshot where `snap` says so. -/
def State.RtcEdged (s t : State) (x : LaneId) (n mv : Nat) (w : Rtc) (snap : Bool) : Prop :=
  (t.lane x).rtc = w ∧ (t.lane x).tbu = { (s.lane x).tbu with rtcN := n } ∧
    { t.lane x with rtc := (s.lane x).rtc, shadow := (s.lane x).shadow, regs := (s.lane x).regs, tbu := (s.lane x).tbu } = s.lane x ∧
    (snap = false → (t.lane x).regs = (s.lane x).regs) ∧
    (snap = true → fget (t.lane x).regs f_RTC_SNAPLO_SECLO = w.sec.toNat % 2 ^ 32 ∧
      fget (t.lane x).regs f_RTC_SNAPHI_SECHI = w.sec.toNat / 2 ^ 32 ∧ fget (t.lane x).regs f_RTC_SNAPHI_WDAY = w.wday.toNat ∧
      fget (t.lane x).regs f_RTC_SNAPFR_FRAC = w.frac.toNat) ∧
    (∀ y, y ≠ x → t.lane y = s.lane y) ∧ { t.arb with shadow := s.arb.shadow } = s.arb ∧ t.isl = s.isl ∧
    (t.bak = s.bak ∨ t.bak = { s.bak with mv := mv })

/-- Without a command of the host in progress an edge changes its lane, the arbiter's shadows and the VBAT sample. -/
theorem State.oscEdge_eq {s : State} (x : LaneId) (n e mv : Nat) (hcmds : s.arb.cmds = []) : ∃ m b,
    s.oscEdge x n e mv = { s.setLane x ((s.lane x).rtcEdge n e mv) with arb := { s.arb with shadow := m }, bak := b } ∧
    (b = s.bak ∨ b = { s.bak with mv := mv }) := by
  have hlane : s.onLane x (fun l => l.rtcEdge n e mv) = s.setLane x ((s.lane x).rtcEdge n e mv) := rfl
  unfold State.oscEdge
  dsimp only
  rw [hlane]
  have harb := s.setLane_arb x ((s.lane x).rtcEdge n e mv)
  have hbak := s.setLane_bak x ((s.lane x).rtcEdge n e mv)
  generalize s.setLane x ((s.lane x).rtcEdge n e mv) = t at harb hbak
  rw [← harb] at hcmds
  rw [← harb, ← hbak]
  split
  case isFalse => exact ⟨t.arb.shadow, t.bak, rfl, .inl rfl⟩
  case isTrue =>
    have hacks : ({ t with bak := { t.bak with mv := mv } } : State).tamperAcks = { t with bak := { t.bak with mv := mv } } :=
      if_neg (by simp [hcmds])
    rw [hacks]
    unfold State.backupRefresh
    split
    · exact ⟨_, _, rfl, .inr rfl⟩
    · exact ⟨t.arb.shadow, _, rfl, .inr rfl⟩

section
variable {s : State} {x : LaneId} (n e mv : Nat)

theorem State.rtcEdged_oscEdge (hcmds : s.arb.cmds = []) : s.RtcEdged (s.oscEdge x n e mv) x n mv
    ((s.lane x).rtc.edge (s.lane x).rtcStage e) ((s.lane x).rtc.acts.contains .snap) := by
  obtain ⟨m, b, heq, hbak⟩ := s.oscEdge_eq x n e mv hcmds
  have hlane : (s.oscEdge x n e mv).lane x = (s.lane x).rtcEdge n e mv := by
    rw [heq]; exact s.lane_setLane_same x _
  have hothers : ∀ y, y ≠ x → (s.oscEdge x n e mv).lane y = s.lane y := fun y hy => by
    rw [heq]; exact s.lane_setLane_other _ hy
  unfold State.RtcEdged
  rw [hlane]
  refine ⟨rfl, rfl, rfl, fun hsnap => ?_, fun hsnap => ?_, hothers, ?_, ?_, ?_⟩
  · exact if_neg (Bool.eq_false_iff.mp hsnap)
  · have hregs : ((s.lane x).rtcEdge n e mv).regs =
        rtcSnapRegs ((s.lane x).rtc.edge (s.lane x).rtcStage e) (s.lane x).regs := if_pos hsnap
    rw [hregs]
    exact rtcSnapRegs_fields _ _
  · rw [heq]
  · rw [heq]; exact s.setLane_isl x _
  · rw [heq]; exact hbak

/-- What a lane schedules before the edge is no more of it than its clock. -/
theorem State.RtcEdged.of_ask {a : RtcAct} {t : State} {w : Rtc} {snap : Bool}
    (h : (s.onLane x fun l => l.rtcAsk a).RtcEdged t x n mv w snap) : s.RtcEdged t x n mv w snap := by
  obtain ⟨hrtc, htbu, hlane, hregs, hsnap, hothers, harb, hisl, hbak⟩ := h
  rw [State.lane_onLane_same] at htbu hlane hregs
  rw [State.onLane_arb] at harb
  rw [State.onLane_isl] at hisl
  rw [State.onLane_bak] at hbak
  refine ⟨hrtc, htbu, ?_, hregs, hsnap, fun y hy => (hothers y hy).trans (s.lane_onLane_other _ hy), harb, hisl, hbak⟩
  exact congrArg (fun l : Lane => { l with rtc := (s.lane x).rtc }) hlane

theorem edgeWhen_idle {p : Lane → Bool} (h : p (s.lane x) = false) : edgeWhen s x p n e mv = .next s :=
  congrArg _ (if_neg (Bool.eq_false_iff.mp h))

variable (hstall : s.arb.stall = none) (hdelayed : s.arb.delayed = []) (hcmds : s.arb.cmds = [])
include hstall hdelayed hcmds

/-- No access of the host waits for the edge. -/
theorem State.hostSettle_oscEdge : (s.oscEdge x n e mv).hostSettle = s.oscEdge x n e mv := by
  obtain ⟨m, b, heq, -⟩ := s.oscEdge_eq x n e mv hcmds
  refine State.hostSettle_of_idle ?_ ?_
  · rw [heq]; exact hstall
  · rw [heq]; exact hdelayed

/-- An edge at which the condition of its command holds. -/
theorem edgeWhen_edged {p : Lane → Bool} (h : p (s.lane x) = true) : ∃ t, edgeWhen s x p n e mv = .next t ∧
    s.RtcEdged t x n mv ((s.lane x).rtc.edge (s.lane x).rtcStage e) ((s.lane x).rtc.acts.contains .snap) := by
  refine ⟨s.oscEdge x n e mv, ?_, State.rtcEdged_oscEdge n e mv hcmds⟩
  rw [edgeWhen, if_pos h, State.hostSettle_oscEdge n e mv hstall hdelayed hcmds]

/-- An edge at which nothing is scheduled. -/
theorem edgeWhen_ticked {p : Lane → Bool} (h : p (s.lane x) = true) (hacts : (s.lane x).rtc.acts = []) :
    ∃ t, edgeWhen s x p n e mv = .next t ∧ s.RtcEdged t x n mv (s.lane x).rtc.ticked false := by
  have hedge := edgeWhen_edged n e mv hstall hdelayed hcmds h
  rw [Rtc.edge_of_none _ e hacts, hacts] at hedge
  exact hedge

/-- An edge at which a host command is carried out. -/
theorem edgeHost_edged (a : RtcAct) (hheld : (s.lane x).life ≠ .held) (htest : (s.lane x).rj ≠ 1)
    (hacts : (s.lane x).rtc.acts = []) : ∃ t, edgeHost s x a n e mv = .next t ∧
    s.RtcEdged t x n mv (Rtc.act (s.lane x).rtcStage (s.lane x).rtc e (s.lane x).rtc.ticked a) ([a].contains .snap) := by
  refine ⟨(s.onLane x fun l => l.rtcAsk a).oscEdge x n e mv, ?_, ?_⟩
  · rw [edgeHost, if_pos ⟨hheld, htest⟩, State.hostSettle_oscEdge n e mv]
    all_goals rwa [State.onLane_arb]
  · have hedge := State.rtcEdged_oscEdge (s := s.onLane x fun l => l.rtcAsk a) (x := x) n e mv (by rwa [State.onLane_arb])
    rw [State.lane_onLane_same] at hedge
    have hrtc := Rtc.edge_of_asked (s.lane x).rtcStage e a hacts
    have hasked : ((s.lane x).rtcAsk a).rtc.acts = [a] := congrArg (· ++ [a]) hacts
    rw [hasked] at hedge
    rw [← hrtc]
    exact hedge.of_ask

end

/-- Settles O47: the clock by `Rtc.edge_of_none` and `Rtc.edge_of_one`, the device about it by `State.oscEdge_eq`. Several
changes at one edge (log entry 34) are no clause of it; a command without its condition changes nothing (log entry 1). -/
theorem edgesAdvanceAndSetTheClock : Obligations.EdgesAdvanceAndSetTheClock := by
  unfold Obligations.EdgesAdvanceAndSetTheClock
  intro s x n e mv hstall hdelayed hcmds l r host
  have hruns : host = true → l.life ≠ .held ∧ l.rj ≠ 1 := fun h => by simpa [host] using h
  refine ⟨fun hacts => ⟨?_, fun hmidnight => ?_, fun hslew => ?_, fun hhost => ?_⟩, fun a hacts w hw => ?_, fun hmidnight => ?_,
    fun hslew => ?_, fun hacts => ?_, fun hhost c hc => ?_⟩
  · exact edgeWhen_ticked n e mv hstall hdelayed hcmds (p := fun _ => true) rfl hacts
  · exact edgeWhen_ticked n e mv hstall hdelayed hcmds (p := fun l => l.rtc.weekdaySteps) (r.weekdaySteps_eq.trans hmidnight) hacts
  · exact edgeWhen_ticked n e mv hstall hdelayed hcmds (p := fun l => l.rtc.slewLeft == 1) (beq_iff_eq.mpr hslew) hacts
  · obtain ⟨hheld, htest⟩ := hruns hhost
    have hedge := fun a => edgeHost_edged n e mv hstall hdelayed hcmds a hheld htest hacts
    refine ⟨hedge .snap, ?_, hedge (.set false true false), hedge (.set false false true)⟩
    have hset := hedge (.set true false false)
    rw [Rtc.act_settime, Lane.rtcStage_count] at hset
    exact hset
  · have hedge := edgeWhen_edged n e mv hstall hdelayed hcmds (p := fun l => !l.rtc.acts.isEmpty) (by rw [hacts]; rfl)
    rw [Rtc.edge_of_one _ e hacts, hacts] at hedge
    cases a with
    | align d | zero | step d | timeset v =>
      simp only [Rtc.act, Rtc.ticked_load] at hedge
      rw [hw]
      exact hedge
    | wday v | phase p =>
      rw [hw]
      exact hedge
    | set _ _ _ | snap => exact hw.elim
  · exact edgeWhen_idle n e mv (p := fun l => l.rtc.weekdaySteps) (r.weekdaySteps_eq.trans hmidnight)
  · exact edgeWhen_idle n e mv (p := fun l => l.rtc.slewLeft == 1) (beq_eq_false_iff_ne.mpr hslew)
  · exact edgeWhen_idle n e mv (p := fun l => !l.rtc.acts.isEmpty) (by rw [hacts]; rfl)
  · have hshut : ¬ ((s.lane x).life ≠ .held ∧ (s.lane x).rj ≠ 1) := fun h => by simp [host, l, h] at hhost
    obtain rfl | rfl | rfl | rfl := hc <;> exact congrArg _ (if_neg hshut)

end Sys2Proof.Machine
end
